-- ==== Sys2Proof/Word.lean ====
section
/-! DEFINITION. The words of the device: bytes, 32-bit registers, two's complement fields. -/

namespace Sys2Proof

/-- A byte of a memory, a frame or a record. -/
abbrev Byte := BitVec 8

/-- A register word (R404: every register is 32 bits wide). -/
abbrev Word := BitVec 32

/-- The field of `w` bits at bit `lo` of a register word or a header word. -/
def fieldOf (x lo w : Nat) : Nat := x / 2 ^ lo % 2 ^ w

/-- A value reduced to `w` bits. -/
def mask (w x : Nat) : Nat := x % 2 ^ w

/-- The two's complement reading of a `w`-bit field. -/
def sext (w x : Nat) : Int := if 2 * (x % 2 ^ w) < 2 ^ w then (x % 2 ^ w : Int) else (x % 2 ^ w : Int) - 2 ^ w

/-- The `w`-bit two's complement code of an integer. -/
def unsext (w : Nat) (x : Int) : Nat := (x % 2 ^ w).toNat

/-- An integer held between two limits. -/
def clampInt (lo hi x : Int) : Int := min (max x lo) hi

/-- The saturating sum that a counter of `w` bits keeps. -/
def satAdd (w x n : Nat) : Nat := min (x + n) (2 ^ w - 1)

/-- The bit `b` of a number. -/
def bitOf (x b : Nat) : Bool := x / 2 ^ b % 2 == 1

/-- `x` with bit `b` written. -/
def setBit (x b : Nat) (v : Bool) : Nat :=
  (if bitOf x b then x - 2 ^ b else x) + (if v then 2 ^ b else 0)

/-- One bit as a number. -/
def b2n (b : Bool) : Nat := if b then 1 else 0

/-- The little-endian bytes of a number (R62, R234, R338 and the frames of the device). -/
def leBytes : Nat → Nat → List Nat
  | 0, _ => []
  | n + 1, x => x % 256 :: leBytes n (x / 256)

/-- The number that little-endian bytes spell. -/
def leNat : List Nat → Nat
  | [] => 0
  | b :: r => b + 256 * leNat r

/-- The number that big-endian bytes spell (R406, the maintenance port). -/
def beNat (l : List Nat) : Nat := leNat l.reverse

/-- Big-endian bytes of a number. -/
def beBytes (n x : Nat) : List Nat := (leBytes n x).reverse

end Sys2Proof
end

