-- ==== Sys2Proof/Config.lean ====
section
/-! DEFINITION. What an implementation fixes and what the manual leaves open: constants without a body. -/

namespace Sys2Proof.Config

/-- A fresh value that the manual leaves open (log entry 1); the model applies it to the counter State.free. -/
opaque freeNat : Nat → Nat

/-- DEV_REV.ROM, the boot ROM revision, "per device" (R4 field map of DEV_REV; log entry 2). -/
opaque bootRomRev : Nat

/-- The quotient by 0 where the manual states none (R158; log entry 3). -/
opaque zeroQuotient : Int

/-- The tile firmware revision that a tile reports at enumeration (R254; log entry 2). -/
opaque tileFirmwareRev : Nat

/-- The text of a .cfg or .inf file from the items that the spec gives it: the byte at an offset, and its length in bytes less one
(R331; log entry 6). -/
opaque comtradeByte : List Int → Nat → BitVec 8
opaque comtradeLen : List Int → Nat

/-- Bytes 4 to 23 of an entry of the record list from its section, state, trigger time, length and flags (R393; log entry 6). -/
opaque listByte : List Nat → Nat → BitVec 8

/-- The layout version of the event NVM that the device writes, and the byte of sector 0 at an offset for an identity of layout
version, capacity code and operating time at format (R335; log entry 36). -/
opaque nvmLayout : Nat
opaque identityByte : List Nat → Nat → BitVec 8

/-- Milliseconds that the RTC counts on its own crystal between two core clocks (R342, R424; log entry 26). -/
opaque rtcElapsed : Nat → Nat → Nat

/-- The FIR coefficients that a converter block holds by default (R66 gives their figures, not their values; log entry 2). -/
opaque defaultCoef : Nat → Int

/-- The configuration NVM erases sectors of 64 KiB, else of 4 KiB (R367 allows both; log entry 2). -/
opaque cfgSector64 : Bool

end Sys2Proof.Config
end

