-- ==== Sys2Proof/Machine/Num.lean ====
section
/-! DEFINITION. The real-number functions that the rules name (R87, R94, R115, R118, R121, R122, R147), computed on
rationals to steps far below the accuracies of R90 and R119 (DESIGN CHOICE, log entry 3). -/

namespace Sys2Proof.Machine

/-- A complex number. -/
structure C where
  re : Rat := 0
  im : Rat := 0
deriving DecidableEq, Repr

def C.add (a b : C) : C := ⟨a.re + b.re, a.im + b.im⟩
def C.sub (a b : C) : C := ⟨a.re - b.re, a.im - b.im⟩
def C.mul (a b : C) : C := ⟨a.re * b.re - a.im * b.im, a.re * b.im + a.im * b.re⟩
def C.smul (k : Rat) (a : C) : C := ⟨k * a.re, k * a.im⟩
def C.neg (a : C) : C := ⟨-a.re, -a.im⟩
def C.conj (a : C) : C := ⟨a.re, -a.im⟩
def C.sq (a : C) : Rat := a.re * a.re + a.im * a.im

/-- `a / b`; a free value where `b` is 0. -/
def C.div (a b : C) : C := if b.sq = 0 then ⟨Config.zeroQuotient, Config.zeroQuotient⟩ else C.smul (1 / b.sq) (C.mul a b.conj)

/-- The step of the computed functions, 2^-48. -/
def rnd (q : Rat) : Rat := ((q * 2 ^ 48).floor : Rat) / 2 ^ 48

/-- cos(2 pi k / 128) × 2^62 for k = 0 to 32. -/
def cosTable : List Int :=
  [4611686018427387904, 4606131040650197959, 4589479489746651964, 4561771480761380163, 4523073764714963030, 4473479567794875989, 4413108366765438139, 4342105601137822079, 4260642322793532497, 4168914783905441250, 4067143964149113252] ++
  [3955575038343412514, 3834476785802888710, 3704140942824866152, 3564881499871150442, 3417033945137503676, 3260954456333195553, 3097019042617704261, 2925622638761716784, 2747178153714674114, 2562115475870945497, 2370880437431032621] ++
  [2173933740352748318, 1971749846479847467, 1764815834521887442, 1553630226638953726, 1338701787458110889, 1120548298414853464, 899695310372275547, 676674877523008785, 452024275624069880, 226284707652502141, 0]

/-- cos(2 pi k / 128), from the quarter wave. -/
def cos128 (k : Int) : Rat :=
  let n := (k % 128).toNat
  let g (i : Nat) : Rat := (cosTable.getD i 0 : Rat) / 2 ^ 62
  if n ≤ 32 then g n else if n ≤ 64 then -(g (64 - n)) else if n ≤ 96 then -(g (n - 64)) else g (128 - n)

/-- sin(2 pi k / 128). -/
def sin128 (k : Int) : Rat := cos128 (k - 32)

/-- exp(-j 2 pi k / 128). -/
def cisNeg (k : Int) : C := ⟨cos128 k, -(sin128 k)⟩

/-- Square root of a rational, to 2^-32; 0 below 0. -/
def sqrtQ (q : Rat) : Rat := if q ≤ 0 then 0 else (Nat.sqrt (q * 2 ^ 64).floor.toNat : Rat) / 2 ^ 32

/-- ln 2 and pi. -/
def ln2Q : Rat := 3196577161300663915 / 2 ^ 62
def piQ : Rat := 14488038916154245685 / 2 ^ 62

/-- exp(x) on a small argument, by its series. -/
def expSmall (x : Rat) : Rat :=
  ((List.range 18).foldl (fun (p : Rat × Rat) (i : Nat) => (p.1 + p.2, rnd (p.2 * x / (i + 1)))) (0, 1)).1

/-- exp(x): x = n ln 2 + r, exp(x) = 2^n exp(r). -/
def expQ (x : Rat) : Rat :=
  let n := (x / ln2Q).floor
  let r := rnd (x - n * ln2Q)
  if n < -60 then 0 else rnd (expSmall r * (if n ≥ 0 then 2 ^ n.toNat else 1 / 2 ^ (-n).toNat))

/-- The power of two at or below a positive rational, as an exponent. -/
def log2Floor (x : Rat) : Int :=
  let e : Int := (Nat.log2 x.num.toNat : Int) - (Nat.log2 x.den : Int)
  if (if e ≥ 0 then (2 : Rat) ^ e.toNat else 1 / 2 ^ (-e).toNat) ≤ x then e else e - 1

/-- ln(x) for x > 0: ln(m) by the series of atanh, m in [1, 2). 0 for x ≤ 0. -/
def lnQ (x : Rat) : Rat :=
  if x ≤ 0 then 0 else
    let e := log2Floor x
    let m := if e ≥ 0 then x / 2 ^ e.toNat else x * 2 ^ (-e).toNat
    let t := rnd ((m - 1) / (m + 1))
    let s := ((List.range 24).foldl (fun (p : Rat × Rat) (i : Nat) => (p.1 + p.2 / (2 * i + 1), rnd (p.2 * t * t))) (0, t)).1
    rnd (e * ln2Q + 2 * s)

/-- x^a for x > 0. -/
def powQ (x a : Rat) : Rat := if a = 1 then x else if a = 2 then x * x else expQ (a * lnQ x)

/-- atan(t) for 0 ≤ t ≤ 1, in radians; the argument is halved twice before the series. -/
def atanSmall (t : Rat) : Rat :=
  let h (u : Rat) : Rat := rnd (u / (1 + sqrtQ (1 + u * u)))
  let u := h (h t)
  4 * ((List.range 16).foldl (fun (p : Rat × Rat) (i : Nat) => (p.1 + p.2 / (2 * i + 1), rnd (-(p.2 * u * u)))) (0, u)).1

/-- The argument of a complex number in turns, in (-1/2, 1/2]; 0 for 0. -/
def C.turns (a : C) : Rat :=
  let x := if a.re < 0 then -a.re else a.re
  let y := if a.im < 0 then -a.im else a.im
  let q : Rat := if x = 0 ∧ y = 0 then 0 else if y ≤ x then atanSmall (y / x) / (2 * piQ)
    else 1 / 4 - atanSmall (x / y) / (2 * piQ)
  let h := if a.re < 0 then 1 / 2 - q else q
  rnd (if a.im < 0 then -h else h)

/-- The argument in degrees. -/
def C.deg (a : C) : Rat := 360 * a.turns

/-- An angle in degrees reduced to -180 to +180. -/
def wrapDeg (d : Rat) : Rat := d - 360 * ((d + 180) / 360).floor

/-- sin and cos by their series, on an angle in turns reduced to (-1/2, 1/2]. -/
def cisTurns (t : Rat) : C :=
  let u := t - (t + 1 / 2).floor
  let x := rnd (2 * piQ * u)
  let s := (List.range 36).foldl (fun (p : C × Rat) (i : Nat) =>
    (match i % 4 with
     | 0 => ⟨p.1.re + p.2, p.1.im⟩
     | 1 => ⟨p.1.re, p.1.im + p.2⟩
     | 2 => ⟨p.1.re - p.2, p.1.im⟩
     | _ => ⟨p.1.re, p.1.im - p.2⟩, rnd (p.2 * x / (i + 1)))) (⟨0, 0⟩, 1)
  ⟨rnd s.1.re, rnd s.1.im⟩

def cisDeg (d : Rat) : C := cisTurns (d / 360)

def absQ (q : Rat) : Rat := if q < 0 then -q else q
def minQ (a b : Rat) : Rat := if a ≤ b then a else b
def maxQ (a b : Rat) : Rat := if a ≤ b then b else a
def sumQ (l : List Rat) : Rat := l.foldl (· + ·) 0
def maxQs (l : List Rat) : Rat := l.foldl maxQ 0

/-- The IEEE 754 binary32 code of a rational, rounded to nearest even (R330, R401). -/
def binary32 (q : Rat) : Nat :=
  let sgn := if q < 0 then 2 ^ 31 else 0
  let a := absQ q
  if a = 0 then 0 else
    let e := log2Floor a
    if e > 127 then sgn + 255 * 2 ^ 23 else
    let ex := if e < -126 then -126 else e
    let m := if ex ≥ 23 then a / 2 ^ (ex - 23).toNat else a * 2 ^ (23 - ex).toNat
    let f := m.floor
    let r := m - f
    let n := if r > 1 / 2 ∨ (r = 1 / 2 ∧ f % 2 = 1) then f + 1 else f
    sgn + (if e < -126 then n.toNat else ((ex + 127).toNat * 2 ^ 23 + (n.toNat - 2 ^ 23)))

end Sys2Proof.Machine
end

