-- ==== Sys2Proof/Machine/Tab.lean ====
section
/-! DEFINITION. Sparse tables and byte memories as plain data, each in one canonical form. -/

namespace Sys2Proof.Machine

/-- A table from a number to a value: keys strictly rising, an absent key reads as the table's default. -/
abbrev Tab (α : Type) := List (Nat × α)

/-- The entry at a key, if one is listed. -/
def Tab.find {α : Type} : Tab α → Nat → Option α
  | [], _ => none
  | (a, v) :: r, k => if a = k then some v else Tab.find r k

/-- The value at a key, `d` where none is listed. -/
def Tab.get {α : Type} (t : Tab α) (d : α) (k : Nat) : α := (Tab.find t k).getD d

/-- The table with `v` at key `k`. -/
def Tab.set {α : Type} : Tab α → Nat → α → Tab α
  | [], k, v => [(k, v)]
  | (a, x) :: r, k, v =>
    if a = k then (k, v) :: r else if k < a then (k, v) :: (a, x) :: r else (a, x) :: Tab.set r k v

/-- The table without key `k`. -/
def Tab.del {α : Type} (t : Tab α) (k : Nat) : Tab α := t.filter (fun c => decide (c.1 ≠ k))

/-- The value at `k` changed by `f`, from the default `d` where none is listed. -/
def Tab.upd {α : Type} (t : Tab α) (d : α) (k : Nat) (f : α → α) : Tab α := Tab.set t k (f (Tab.get t d k))

/-- `v` at `k`, with nothing listed where `v` is the default: the form in which equal tables are equal data. -/
def Tab.put {α : Type} [DecidableEq α] (t : Tab α) (d : α) (k : Nat) (v : α) : Tab α :=
  if v = d then Tab.del t k else Tab.set t k v

/-- The listed keys. -/
def Tab.keys {α : Type} (t : Tab α) : List Nat := t.map Prod.fst

/-- The first number below `n` at which no entry is listed. -/
def Tab.freeKey {α : Type} (t : Tab α) (n : Nat) : Option Nat :=
  (List.range n).find? (fun k => (Tab.find t k).isNone)

/-- Keys strictly rising. -/
def Tab.sorted {α : Type} : Tab α → Bool
  | [] => true
  | [_] => true
  | a :: b :: r => decide (a.1 < b.1) && Tab.sorted (b :: r)

/-- A byte memory: addresses strictly rising, no listed byte equal to the memory's fill. -/
abbrev Mem := List Host.Cell

/-- The byte at an address, `fill` where nothing is listed. -/
def Mem.read (fill : Byte) (m : Mem) (a : Nat) : Byte := Tab.get m fill a

/-- The memory with `b` at `a`; writing the fill removes the entry. -/
def Mem.write (fill : Byte) (m : Mem) (a : Nat) (b : Byte) : Mem := Tab.put m fill a b

/-- The canonical form of a byte memory. -/
def Mem.wf (fill : Byte) (m : Mem) : Bool := Tab.sorted m && m.all (fun c => decide (c.2 ≠ fill))

/-- `n` bytes from `a`, as numbers. -/
def Mem.readN (fill : Byte) (m : Mem) (a : Nat) : Nat → List Nat
  | 0 => []
  | n + 1 => (Mem.read fill m a).toNat :: Mem.readN fill m (a + 1) n

/-- The bytes written from `a` on. -/
def Mem.writeN (fill : Byte) (m : Mem) (a : Nat) : List Nat → Mem
  | [] => m
  | b :: r => Mem.writeN fill (Mem.write fill m a (BitVec.ofNat 8 b)) (a + 1) r

/-- Programming of NVM bytes: it only clears bits (R412). -/
def Mem.programN (m : Mem) (a : Nat) : List Nat → Mem
  | [] => m
  | b :: r => Mem.programN (Mem.write 0xFF m a (Mem.read 0xFF m a &&& BitVec.ofNat 8 b)) (a + 1) r

/-- The memory with `n` bytes from `a` at its fill: an erase. -/
def Mem.erase (m : Mem) (a n : Nat) : Mem := m.filter (fun c => decide (c.1 < a) || decide (a + n ≤ c.1))

end Sys2Proof.Machine
end

