-- ==== Sys2Proof/Machine/Quality.lean ====
section
/-! DEFINITION. The quality model of R97 and R98 and the signal entry of R205. -/

namespace Sys2Proof.Machine

/-- VALIDITY of R97. -/
inductive Validity where
  | good | invalid | questionable
deriving DecidableEq, Repr

/-- A quality code of R97. -/
structure Quality where
  validity : Validity := .good
  test : Bool := false
  subst : Bool := false
deriving DecidableEq, Repr

/-- The worse of two validities, in the order invalid, questionable, good (R98). -/
def Validity.worst : Validity → Validity → Validity
  | .invalid, _ => .invalid
  | _, .invalid => .invalid
  | .questionable, _ => .questionable
  | _, .questionable => .questionable
  | .good, .good => .good

/-- Combination of qualities (R98). -/
def Quality.join (a b : Quality) : Quality :=
  ⟨a.validity.worst b.validity, a.test || b.test, a.subst || b.subst⟩

/-- Good quality, code 0b0000. -/
def Quality.ok : Quality := ⟨.good, false, false⟩
def Quality.bad : Quality := ⟨.invalid, false, false⟩
def Quality.quest : Quality := ⟨.questionable, false, false⟩
def Quality.testQ : Quality := ⟨.good, true, false⟩
def Quality.substQ : Quality := ⟨.good, false, true⟩

/-- The combined quality of a list of inputs (R98). -/
def Quality.joins (l : List Quality) : Quality := l.foldl Quality.join Quality.ok

/-- `q` if the cause holds, else nothing to add. -/
def Quality.when (c : Bool) (q : Quality) : Quality := if c then q else Quality.ok

/-- The two VALIDITY bits of R97. -/
def Validity.code : Validity → Nat
  | .good => 0
  | .invalid => 1
  | .questionable => 3

/-- The 4-bit quality code of R97. -/
def Quality.code (q : Quality) : Nat := q.validity.code + 4 * b2n q.test + 8 * b2n q.subst

/-- Validity from its two bits; 0b10 is not used (R97). -/
def Validity.ofCode (n : Nat) : Validity :=
  if n % 4 = 0 then .good else if n % 4 = 3 then .questionable else .invalid

/-- Quality that a quality word gives: validity in bits [1:0], source in 10, test in 11, operatorBlocked in 12 (R80, R284); the places of
the bits are those of IEC 61850 (PRESUMED, log entry 40). -/
def qualOfWord (w : Nat) : Quality :=
  ⟨if bitOf w 12 then .invalid else Validity.ofCode w, bitOf w 11, bitOf w 10⟩

/-- The quality word of a quality (R284, R285). -/
def wordOfQual (q : Quality) : Nat := q.validity.code + 1024 * b2n q.subst + 2048 * b2n q.test

def Quality.usable (q : Quality) : Bool := decide (q.validity ≠ .invalid)

/-- One entry of the signal table (R205). -/
structure Entry where
  q : Quality := Quality.bad
  forced : Bool := false
  value : BitVec 24 := 0
deriving DecidableEq, Repr

/-- The 32-bit word of an entry (R205). -/
def Entry.word (e : Entry) : Nat :=
  e.value.toNat + 2 ^ 27 * b2n e.forced + 2 ^ 28 * e.q.validity.code + 2 ^ 30 * b2n e.q.test + 2 ^ 31 * b2n e.q.subst

/-- The entry that a word spells; bits [26:24] are reserved and read 0 (R205). -/
def Entry.ofWord (w : Nat) : Entry :=
  ⟨⟨Validity.ofCode (w / 2 ^ 28), bitOf w 30, bitOf w 31⟩, bitOf w 27, BitVec.ofNat 24 w⟩

/-- An entry that the image does not populate: VALUE 0 with validity invalid (R206). -/
def Entry.absent : Entry := ⟨Quality.bad, false, 0⟩

/-- An entry of a number and a quality. -/
def Entry.mk' (v : Nat) (q : Quality) : Entry := ⟨q, false, BitVec.ofNat 24 v⟩

def Entry.bit (e : Entry) (b : Nat) : Bool := bitOf e.word b

/-- The named bit counts as 1: value 1 with validity good or questionable (R110, R153, R239). -/
def Entry.counts (e : Entry) (b : Nat) : Bool := bitOf e.value.toNat b && e.q.usable

end Sys2Proof.Machine
end

