-- ==== Sys2Proof/Machine/Settings.lean ====
section
/-! DEFINITION. The settings of a configuration image (R367 to R369): every setting of the chapters, with its default (R3).
The spec gives the blocks no byte layout beside the tile block (R435), so an image is held as its settings (log entry 7). -/

namespace Sys2Proof.Machine

/-- A named bit of a signal (R110, R232). -/
structure SigBit where
  id : Nat
  bit : Nat := 0
deriving DecidableEq, Repr

/-- A delay in seconds or in cycles (R37, R112). -/
inductive Delay where
  | secs (s : Rat)
  | cycles (c : Rat)
deriving DecidableEq, Repr

/-- Reset modes of R112 and R114. -/
inductive ResetMode where
  | inst | definite | disk
deriving DecidableEq, Repr

/-- Measurement modes of R113. -/
inductive MeasMode where
  | full | half | rms
deriving DecidableEq, Repr

/-- Direction settings of R126. -/
inductive Direction where
  | non | forward | reverse
deriving DecidableEq, Repr

/-- The curves of R116 and R118. -/
inductive Curve where
  | definite | iecSi | iecVi | iecEi | iecLti | ieeeMi | ieeeVi | ieeeEi
  | user (points : List (Rat × Rat))
deriving DecidableEq, Repr

/-- The threshold elements of R107. -/
inductive ThrKind where
  | oc | ef | sef | nps | bc
deriving DecidableEq, Repr

/-- Settings of OC, EF, SEF, NPS and BC (R110 to R114, R127 to R130); `none` takes the default of the type (R3). -/
structure ThrCfg where
  curve : Curve := .definite
  mode : MeasMode := .full
  s : Option Rat := none
  delay : Option Delay := none
  is : Option Rat := none
  ms : Rat := 11 / 10
  mmax : Rat := 20
  kt : Rat := 1
  tmin : Rat := 0
  reset : ResetMode := .inst
  tr : Option Rat := none
  tdr : Rat := 0
  r : Rat := 19 / 20
  direction : Direction := .non
  dirLink : Option Nat := none
  inrush : Bool := false
  block : Option SigBit := none
  measured : Option Bool := none
  projected : Bool := false
  i1min : Rat := 1 / 10
deriving DecidableEq, Repr

/-- Start threshold S in its unit: In, 1 A for SEF, 1 % for BC (R114, R127 to R130). -/
def ThrCfg.startS (k : ThrCfg) (t : ThrKind) : Rat :=
  k.s.getD (match t with | .oc => 1 | .ef => 1 / 5 | .sef => 1 | .nps => 1 / 5 | .bc => 20)

/-- Current setting Is (R114, R127, R129). -/
def ThrCfg.isOf (k : ThrCfg) (t : ThrKind) : Rat := k.is.getD (match t with | .ef => 1 / 5 | .nps => 1 / 5 | _ => 1)

/-- Operate delay (R114, R128, R130). -/
def ThrCfg.delayOf (k : ThrCfg) (t : ThrKind) : Delay :=
  k.delay.getD (match t with | .sef => .secs 1 | .bc => .secs 30 | _ => .secs 0)

/-- The default tr of a curve (R116); a user curve has none (R118). -/
def Curve.tr0 : Curve → Option Rat
  | .definite => none
  | .iecSi => some 10
  | .iecVi => some 30
  | .iecEi => some 40
  | .iecLti => some 120
  | .ieeeMi => some (485 / 100)
  | .ieeeVi => some (216 / 10)
  | .ieeeEi => some (291 / 10)
  | .user _ => none

/-- Reset constant tr of disk emulation (R114, R116, R118). -/
def ThrCfg.trOf (k : ThrCfg) : Option Rat := match k.tr with | some t => some t | none => k.curve.tr0

/-- The combination of settings is one that the type has (R113, R114, R127 to R130). -/
def ThrCfg.fits (k : ThrCfg) (t : ThrKind) : Bool :=
  (decide (k.reset ≠ .disk) || (decide (k.curve ≠ .definite) && k.trOf.isSome)) &&
  (decide (k.mode ≠ .half) || decide (k.curve = .definite)) &&
  (match t with
    | .oc => !k.projected
    | .ef => decide (k.mode ≠ .rms) && !k.projected
    | .sef => decide (k.curve = .definite) && decide (k.mode = .full) && !k.inrush
    | .nps => decide (k.mode = .full) && !k.inrush && !k.projected
    | .bc => decide (k.curve = .definite) && decide (k.mode = .full) && decide (k.reset = .inst) && decide (k.direction = .non) &&
        !k.inrush && !k.projected)

/-- Settings of DIR (R120). -/
structure DirCfg where
  rca : Rat := 45
  w : Rat := 85
  vpmin : Rat := 1
  imin : Rat := 1 / 20
  memory : Bool := true
  lossNonDir : Bool := false
deriving DecidableEq, Repr

/-- Settings of DIRN (R124); a source `none` is measured where IN or VN is configured, else calculated. -/
structure DirnCfg where
  negSeq : Bool := false
  iMeasured : Option Bool := none
  vMeasured : Option Bool := none
  rca : Rat := -45
  w : Rat := 85
  vpmin : Rat := 5
  imin : Rat := 1 / 50
  lossNonDir : Bool := false
deriving DecidableEq, Repr

/-- Settings of INR (R131). -/
structure InrCfg where
  thr : Rat := 15
  cross : Bool := false
  hold : Rat := 1 / 10
  unrestraint : Rat := 10
  residual : Bool := true
deriving DecidableEq, Repr

/-- The voltage elements of R134 and their quantities (R138, R140, R141). -/
inductive VoltKind where
  | uv | ov | rv
deriving DecidableEq, Repr

inductive VoltQty where
  | phase | phasePhase | sequence | resMeasured | resCalculated
deriving DecidableEq, Repr

/-- Settings of UV, OV and RV (R137 to R141); `none` takes the default of the type (R3). -/
structure VoltCfg where
  qty : Option VoltQty := none
  rmsMode : Bool := false
  s : Option Rat := none
  r : Option Rat := none
  vdead : Rat := 1 / 20
  all : Bool := false
  delay : Option Delay := none
  reset : ResetMode := .inst
  tdr : Rat := 0
  block : Option SigBit := none
deriving DecidableEq, Repr

/-- Start threshold, reset ratio and delay (R138, R140, R141). -/
def VoltCfg.startS (k : VoltCfg) (t : VoltKind) : Rat :=
  k.s.getD (match t with | .uv => 4 / 5 | .ov => 11 / 10 | .rv => 3 / 10)
def VoltCfg.ratio (k : VoltCfg) (t : VoltKind) : Rat :=
  k.r.getD (match t with | .uv => 103 / 100 | .ov => 97 / 100 | .rv => 19 / 20)
def VoltCfg.delayOf (k : VoltCfg) (t : VoltKind) : Delay := k.delay.getD (match t with | .rv => .secs 5 | _ => .secs 1)

/-- The frequency elements of R134. -/
inductive FreqKind where
  | uf | of | rf
deriving DecidableEq, Repr

inductive Sense where
  | rising | falling | either
deriving DecidableEq, Repr

/-- Settings of UF, OF and RF (R142, R143); `none` takes the default of the type (R3). -/
structure FreqCfg where
  s : Option Rat := none
  h : Rat := 1 / 20
  r : Rat := 19 / 20
  sense : Sense := .falling
  delay : Option Rat := none
  vblock : Rat := 1 / 2
  block : Option SigBit := none
deriving DecidableEq, Repr

/-- Start threshold at nominal frequency `nom`, and delay (R142, R143). -/
def FreqCfg.startS (k : FreqCfg) (t : FreqKind) (nom : Rat) : Rat :=
  k.s.getD (match t with | .uf => nom - 1 | .of => nom + 1 | .rf => 1 / 2)
def FreqCfg.delayOf (k : FreqCfg) (t : FreqKind) : Rat := k.delay.getD (match t with | .rf => 1 / 2 | _ => 1 / 5)

/-- Settings of TH (R146). -/
structure ThCfg where
  ib : Rat := 1
  k : Rat := 21 / 20
  tau : Rat := 30
  kc : Rat := 1
  ion : Rat := 1 / 20
  k2 : Rat := 0
  alarm : Rat := 80
  release : Rat := 70
  init : Rat := 90
  block : Option SigBit := none
deriving DecidableEq, Repr

/-- Settings of BF (R151); a residual source `none` is measured where IN is configured, else calculated (R127). -/
structure BfCfg where
  inits : List Nat := []
  initSigs : List Nat := []
  cbMode : Bool := false
  ibf : Rat := 1 / 10
  residual : Bool := false
  ibfn : Rat := 1 / 10
  resMeasured : Option Bool := none
  cbSig : Option Nat := none
  sealIn : Bool := true
  retrip : Bool := true
  t1 : Rat := 0
  t2 : Rat := 3 / 20
  tp : Rat := 1 / 10
deriving DecidableEq, Repr

/-- Settings of FL (R156); `x1` and `length` 0 and no initiator stand for what must be set and is not. -/
structure FlCfg where
  inits : List Nat := []
  x1 : Rat := 0
  k0mag : Rat := 0
  k0deg : Rat := 0
  length : Rat := 0
deriving DecidableEq, Repr

/-- One element type with its settings (R107, R134). -/
inductive ElemKind where
  | thr (k : ThrKind) (c : ThrCfg)
  | dir (c : DirCfg)
  | dirn (c : DirnCfg)
  | inr (c : InrCfg)
  | volt (k : VoltKind) (c : VoltCfg)
  | freq (k : FreqKind) (c : FreqCfg)
  | th (c : ThCfg)
  | bf (c : BfCfg)
  | fl (c : FlCfg)
deriving DecidableEq, Repr

/-- Number of an element's type, in the order of R107 and R134. -/
def ElemKind.class_ : ElemKind → Nat
  | .thr .oc _ => 0
  | .thr .ef _ => 1
  | .thr .sef _ => 2
  | .thr .nps _ => 3
  | .thr .bc _ => 4
  | .dir _ => 5
  | .dirn _ => 6
  | .inr _ => 7
  | .volt .uv _ => 8
  | .volt .ov _ => 9
  | .volt .rv _ => 10
  | .freq .uf _ => 11
  | .freq .of _ => 12
  | .freq .rf _ => 13
  | .th _ => 14
  | .bf _ => 15
  | .fl _ => 16

/-- One element instance (R103, R107). -/
structure ElemCfg where
  kind : ElemKind
  blockOnQuest : Bool := false
deriving DecidableEq, Repr

/-- Where a channel's samples come from (R82, R85, R282). -/
inductive ChanSrc where
  | conv (ain : Nat) (ppu : Rat)
  | stream (sub : Nat)
deriving DecidableEq, Repr

/-- One channel of a feeder, with its bands (R85, R187). -/
structure ChanCfg where
  src : ChanSrc
  bandA : Rat := 2
  bandK : Rat := 1 / 2
deriving DecidableEq, Repr

inductive Role where
  | incomer | outgoing | coupler
deriving DecidableEq, Repr

/-- Main-zone membership of R171. -/
inductive Zone where
  | no | yes | isolator (id : Nat)
deriving DecidableEq, Repr

/-- Settings of a feeder (R85, R169, R171, R181, R187); channels IA, IB, IC, IN, VA, VB, VC, VN in this order. In and Vn 0
stand for what must be set and is not; membership `none` takes the default of R171. -/
structure FeederCfg where
  inA : Rat := 0
  vnV : Rat := 0
  chans : List (Option ChanCfg) := []
  acb : Bool := false
  fallback : Bool := false
  v1min : Rat := 20
  i1min : Rat := 20
  nf : Nat := 4
  nr : Nat := 10
  fillLimit : Nat := 4
  satFloor : Rat := 2
  ks : Rat := 25
  acceptTest : Bool := false
  elems : Tab ElemCfg := []
  role : Role := .outgoing
  mainZone : Option Zone := none
  checkZone : Option Bool := none
  reversed : Bool := false
  backtrip : Option (List Nat) := none
  speculation : Bool := true
  urgent : Bool := true
  slot : Nat := 0
deriving DecidableEq, Repr

/-- Channel `n` is configured (R85). -/
def FeederCfg.chan (c : FeederCfg) (n : Nat) : Option ChanCfg := c.chans.getD n none
def FeederCfg.has (c : FeederCfg) (n : Nat) : Bool := (c.chan n).isSome

/-- The three phases at channel `o` are configured. -/
def FeederCfg.has3 (c : FeederCfg) (o : Nat) : Bool := c.has o && c.has (o + 1) && c.has (o + 2)

/-- Main-zone membership: by default yes where IA, IB and IC are configured (R171). -/
def FeederCfg.zone (c : FeederCfg) : Zone := c.mainZone.getD (if c.has3 0 then .yes else .no)

/-- Check-zone membership: by default as in the main zone, where no isolator counts (R171). -/
def FeederCfg.inCheck (c : FeederCfg) : Bool := c.checkZone.getD (decide (c.zone ≠ .no))

/-- The residual sources as set, or measured where IN or VN is configured (R124, R127, R141). -/
def ThrCfg.usesIn (k : ThrCfg) (c : FeederCfg) : Bool := k.measured.getD (c.has 3)
def DirnCfg.usesIn (k : DirnCfg) (c : FeederCfg) : Bool := k.iMeasured.getD (c.has 3)
def DirnCfg.usesVn (k : DirnCfg) (c : FeederCfg) : Bool := k.vMeasured.getD (c.has 7)
def BfCfg.usesIn (k : BfCfg) (c : FeederCfg) : Bool := k.resMeasured.getD (c.has 3)

/-- The quantity of a voltage element (R138, R140, R141). -/
def VoltCfg.qtyOf (k : VoltCfg) (t : VoltKind) (c : FeederCfg) : VoltQty :=
  k.qty.getD (match t with | .rv => (if c.has 7 then .resMeasured else .resCalculated) | _ => .phasePhase)

/-- Entries 0 to 2 of the reference list (R26). -/
structure RefCfg where
  en : Bool := false
  src : Option Nat := none
  off : Int := 0
deriving DecidableEq, Repr

/-- The source feeder of entry `n` of section `k`: entry 0 names position 0 of the section by default (R26). -/
def RefCfg.feederOf (r : RefCfg) (k n : Nat) : Option Nat :=
  match r.src with
  | some f => some f
  | none => if n = 0 then some (64 * k) else none

/-- Bus differential settings (R170). -/
structure BdCfg where
  enabled : Bool := false
  half : Bool := false
  idmin : Rat := 1
  k : Rat := 3 / 5
  kc : Rat := 3 / 10
  ksat : Rat := 4 / 5
  r : Rat := 19 / 20
  delay : Rat := 0
  ialarm : Rat := 1 / 10
  alarmDelay : Rat := 5
  block : Option SigBit := none
deriving DecidableEq, Repr

/-- Arc zone settings (R178); check feeders `none` are the incomers of the section, targets `none` the check feeders. -/
structure ArcCfg where
  lights : List (Nat × Nat) := []
  checks : Option (List Nat) := none
  iaf : Rat := 2
  targets : Option (List Nat) := none
  lwcDelay : Rat := 2
deriving DecidableEq, Repr

inductive Edge where
  | rising | falling | both
deriving DecidableEq, Repr

/-- Disturbance recorder settings (R326). -/
structure RecCfg where
  enabled : Bool := true
  pre : Rat := 1 / 2
  post : Rat := 2
  maxLen : Rat := 12
  onOp : Bool := true
  onStart : Bool := false
  triggers : List (SigBit × Edge) := []
  digital : List SigBit := []
deriving DecidableEq, Repr

/-- Settings of a section (R15, R26, R38, R169, R170, R176, R178, R187, R326). -/
structure SectionCfg where
  delay : Nat := 16
  nom60 : Bool := false
  refs : List RefCfg := [⟨true, none, 0⟩, ⟨false, none, 0⟩, ⟨false, none, 0⟩]
  ref3 : Bool := false
  ref3Tb : Nat := 0
  ref3Off : Int := 0
  vmin : Rat := 20
  q : Nat := 2
  stampTb : Nat := 0
  ibase : Rat := 0
  master : Nat := 0
  depth : Nat := 2
  bd : BdCfg := {}
  zsi : List (List (Nat × Nat)) := []
  arcs : List ArcCfg := []
  recorder : RecCfg := {}
deriving DecidableEq, Repr

/-- Sources of a reference group (R51). -/
inductive RefSource where
  | internal | external | supply
deriving DecidableEq, Repr

/-- Settings of a converter and its chain (R40, R51, R54, R65, R68); `slots` names the input of each position; `owEn` has a
bit for each input under open-wire test, by default every assigned one. -/
structure ConvCfg where
  section_ : Nat := 0
  slots : List (Option Nat) := []
  corr : List Int := []
  coefs : List Int := []
  owEn : Option Nat := none
  owInterval : Nat := 10
  owThresh : Nat := 8192
  ref : RefSource := .internal
deriving DecidableEq, Repr

/-- One output of a tile (R232, R435). -/
structure OutCfg where
  srcs : List SigBit := []
  minOnMs : Nat := 0
deriving DecidableEq, Repr

/-- Settings of a tile (R232, R435). -/
structure TileCfg where
  feeder : Nat
  serial : Nat := 0
  timeout10us : Nat := 200
  safe : Nat := 0
  grpLo : Nat := 0
  grpHi : Nat := 0
  light : Nat := 0
  wb : Nat := 0
  debounce : List Nat := []
  outs : List OutCfg := []
deriving DecidableEq, Repr

/-- Settings of a tile chain (R232). -/
structure ChainCfg where
  section_ : Nat := 0
  period : Nat := 10
  ring : Bool := false
  tiles : List TileCfg := []
deriving DecidableEq, Repr

/-- Lane modes of R258. -/
inductive LaneMode where
  | unused | tile | peer | eth1g | eth10g
deriving DecidableEq, Repr

/-- Settings of a lane and of its Ethernet port (R259, R279, R301, R392). -/
structure LaneCfg where
  mode : LaneMode := .unused
  swing : Nat := 80
  pre : Nat := 0
  post : Nat := 4
  eqStart : List Int := [8, 0, 0, 0, 0, 0]
  eqMin : List Int := [0, -128, -128, -128, -128, -128]
  eqMax : List Int := [31, 127, 127, 127, 127, 127]
  pb : Bool := true
  sb : Bool := false
  mac : Nat := 0
  ptpTb : Option Nat := none
  txLat : Nat := 0
  rxLat : Nat := 0
  pairLane : Option Nat := none
  ipv4 : Nat := 0
  udp : Nat := 49160
deriving DecidableEq, Repr

/-- Settings of a logic core (R222). -/
structure CoreCfg where
  program : List Nat := []
  deadline : Nat := 1000
  asec : Nat := 0
  warm : Bool := true
  nv : Nat := 0
  nc : Nat := 0
  initVars : Tab Entry := []
  initSigs : Tab Entry := []
deriving DecidableEq, Repr

/-- Settings of a time base (R293). -/
structure TbCfg where
  /-- Source and PTP domain; `none` takes the default of the time base's number. -/
  src : Option Nat := none
  domain : Option Nat := none
  lockTh : Nat := 10
  hold : Nat := 5
  ppsFall : Bool := false
  ppsOut : Nat := 2
  slaveOnly : Bool := false
  prio1 : Nat := 128
  prio2 : Nat := 128
deriving DecidableEq, Repr

/-- Caps of a partner entry (R388); `none` takes the default of its kind. -/
structure Caps where
  frames : Option Nat := none
  bytes : Option Nat := none
  outstanding : Option Nat := none
deriving DecidableEq, Repr

/-- One SV subscription (R77, R281, R282, R385). -/
structure SvSub where
  lane : Nat := 0
  section_ : Nat := 0
  dst : Nat := 0
  appid : Nat := 0x4000
  svid : Nat := 0
  confRev : Nat := 0
  rate : Nat := 4800
  noAsdu : Nat := 1
  sync1 : Bool := true
  sync2 : Bool := true
  syncOther : Option Nat := none
  tb : Nat := 0
  acceptSim : Bool := false
  map : List (List (Nat × Nat)) := []
  srcMac : Option Nat := none
  caps : Caps := {}
deriving DecidableEq, Repr

/-- One SV publication (R284); `idLen` is the length of its svID in bytes. -/
structure SvPub where
  feeder : Nat := 0
  lanes : List Nat := []
  svid : Nat := 0
  idLen : Nat := 1
  appid : Nat := 0x4000
  dst : Nat := 0
  confRev : Nat := 0
  both : Bool := false
deriving DecidableEq, Repr

/-- Launch modes of R289. -/
inductive LaunchMode where
  | immediate
  | angle (sec : Nat) (tick : Nat := 0)
  | time (tb : Nat) (periodMs : Nat := 1) (offsetUs : Nat := 0)
deriving DecidableEq, Repr

/-- One GOOSE publication (R285, R286, R304): `withQ` are the places of the members that a quality member follows, `bools` those of the
core signals among them that are binary (log entry 169), `names` the bytes of gocbRef, datSet and goID together. -/
structure GoPub where
  lanes : List Nat := []
  dst : Nat := 0
  appid : Nat := 0
  gocbRef : Nat := 0
  datSet : Nat := 0
  confRev : Nat := 0
  members : List Nat := []
  withQ : List Nat := []
  bools : List Nat := []
  names : Nat := 3
  tmin : Nat := 2
  tmax : Nat := 1000
  launch : LaunchMode := .immediate
  both : Bool := false
deriving DecidableEq, Repr

/-- One GOOSE subscription (R285, R287, R385): of each member its type, 0 BOOLEAN or 1 INT32, and whether a quality member follows it;
`map` pairs a member with the signal it writes. -/
structure GoSub where
  lane : Nat := 0
  dst : Nat := 0
  appid : Nat := 0
  gocbRef : Nat := 0
  datSet : Nat := 0
  confRev : Nat := 0
  types : List (Nat × Bool) := []
  map : List (Nat × Nat) := []
  srcMac : Option Nat := none
  caps : Caps := {}
deriving DecidableEq, Repr

/-- One rule of the allow list (R387). `key` is the clockIdentity or the IPv4 prefix, `none` any. -/
structure AllowRule where
  mgmt : Bool := true
  lanes : Option (List Nat) := none
  key : Option Nat := none
  prefixLen : Nat := 0
  priv : Nat := 1
  caps : Caps := {}
deriving DecidableEq, Repr

/-- Pair settings (R304). -/
structure PairCfg where
  en : Bool := false
  sideB : Bool := false
  pairId : Nat := 0
  lanes : List Nat := []
  refSec : Nat := 0
deriving DecidableEq, Repr

/-- Flood modes of a code (R348). -/
inductive FloodMode where
  | off
  | rep (windowMs : Nat := 1000)
  | rate (perSec : Nat := 10) (burst : Nat := 20)
deriving DecidableEq, Repr

/-- One directory entry (R369). -/
structure DirEntry where
  type : Nat
  index : Nat
  offset : Nat := 0
  length : Nat := 0
  crc : Nat := 0
deriving DecidableEq, Repr

/-- A configuration image: its header (R368), directory (R369) and settings. -/
structure Image where
  version : Nat := 1
  signed : Bool := false
  hasKey : Bool := false
  /-- The Ed25519 public key for change packages, 32 bytes. -/
  key : List Nat := []
  hcrc : Nat := 0
  dir : List DirEntry := []
  secs : Tab SectionCfg := []
  feeders : Tab FeederCfg := []
  convs : Tab ConvCfg := []
  chains : Tab ChainCfg := []
  lanes : Tab LaneCfg := []
  cores : Tab CoreCfg := []
  tbs : Tab TbCfg := []
  svSubs : Tab SvSub := []
  svPubs : Tab SvPub := []
  goPubs : Tab GoPub := []
  goSubs : Tab GoSub := []
  rules : List AllowRule := []
  pair : PairCfg := {}
  flood : Tab FloodMode := []
  slowUs : Nat := 45
  ucVersion : Nat := 0
  fwRev : Nat := 0
deriving DecidableEq, Repr

/-- What the check of a bank finds beside the bytes of its header, directory and blocks (R370): an error of the NVM, and the settings
that the blocks hold, those of tiles (R435) apart, which the model reads from the bytes. -/
structure BankView where
  nvmError : Bool := false
  image : Image := {}
deriving DecidableEq, Repr

/-- What the check of a change package finds beside its bytes (R373, R374): the settings of the image that results, and whether the new
bank is stored. -/
structure PackageView where
  image : Image := {}
  storeOk : Bool := true
deriving DecidableEq, Repr

end Sys2Proof.Machine
end

