-- ==== Sys2Proof/Syntax.lean ====
section
/-! DEFINITION. The commands of the block: one constructor per row of spec/opcode_table.json. The table gives no operands;
the operands here name the part concerned and carry what comes from outside the device (log entry 8). -/

namespace Sys2Proof

open Sys2Proof.Machine

/-- Who asks for an urgent conversion (R48). -/
inductive Requester where
  | engine (e : Nat)
  | openWire
deriving DecidableEq, Repr

/-- An item that reaches a rank ingress (R16, R196): a burst of one source of a feeder, with a value in its source's
units and a quality for each of the 8 channels it serves, an urgent result, or a tile light state is handled by its
own command. -/
inductive IngressItem where
  | burst (feeder src epoch : Nat) (samples : List (Option (Int × Quality)))
  | urgent (conv inp : Nat) (code : Int) (ovr : Bool) (angle : Nat) (q : Quality)
deriving DecidableEq, Repr

/-- The phase of an element instance to which an expiry belongs: a feeder's instance or a section's differential. -/
inductive TimerRef where
  | feeder (f inst phase : Nat)
  | differential (sec phase : Nat)
deriving DecidableEq, Repr

/-- The S form operand of a logic instruction (R213). -/
structure SOp where
  n : Bool := false
  cc : Nat := 0
  sp : Bool := false
  addr : Nat := 0
  bit : Nat := 0
deriving DecidableEq, Repr

/-- The fields of a down-frame (R235): bytes 15, 16 and 17 to 28 of PAYLOAD are `item`, `len` and `data`. -/
structure DownFrame where
  type : Nat := 1
  addr : Nat := 0
  hop : Nat := 0
  claim : Nat := 0
  seq : Nat := 0
  cmd : Nat := 0
  ncmd : Nat := 255
  ctag : Nat := 0
  flags : Nat := 0
  feeder : Nat := 0
  item : Nat := 0
  len : Nat := 0
  data : List Nat := []
deriving DecidableEq, Repr

/-- The fields of an up-frame (R236): `data` is the response data of TYPE 0x82. -/
structure UpFrame where
  type : Nat := 0x81
  addr : Nat := 0
  stat : Nat := 0
  aclaim : Nat := 0
  eseq : Nat := 0
  inp : Nat := 0
  wb : Nat := 0
  rb : Nat := 0
  data : List Nat := []
deriving DecidableEq, Repr

/-- The characters of a tile frame, SOF to EOF, in the order on the wire: a data character is its octet, a control character its
octet plus 256 (R234). -/
abbrev TileChars := List Nat

/-- A 66-bit block on the line of a peer link: its sync header and its 64 payload bits as scrambled, the first bit lowest (R267). -/
abbrev PeerBlock := Nat × Nat

/-- Blocks received on a peer lane, with the 58 payload bits that came before them (R267, R268). -/
structure PeerRx where
  lane : Nat := 0
  before : Nat := 0
  blocks : List PeerBlock := []
deriving DecidableEq, Repr

/-- Blocks received on a lane, code-groups in the 8b/10b modes and sync headers in the others, and the hi_ber indication of
10GBASE-R (R263, R266). -/
structure LineBlocks where
  lane : Nat := 0
  blocks : List Nat := []
  hiBer : Bool := false
deriving DecidableEq, Repr

/-- Bits received by the pattern checker of a lane (R277). -/
structure LineBits where
  lane : Nat := 0
  bits : List Bool := []
deriving DecidableEq, Repr

/-- A reference source at a group of converters (R51). -/
structure GroupRef where
  grp : Nat := 0
  src : RefSource := .internal
deriving DecidableEq, Repr

/-- A word of the isolation crossing towards the logic: input currents in µA, and a bit for each output with voltage (R247, R248,
R252). -/
structure FieldWord where
  currents : List Nat := []
  volts : Nat := 0
deriving DecidableEq, Repr

/-- A frame of the peer link (R267). -/
structure PeerFrame where
  chan : Nat := 0
  seq : Nat := 0
  payload : List Nat := []
deriving DecidableEq, Repr

/-- A record of peer channel 0, with the SEQ of the frame that carries it (R314). -/
structure PeerRec where
  type : Nat := 1
  seq : Nat := 0
  section_ : Nat := 0
  sideB : Bool := false
  active : Bool := false
  forcing : Bool := false
  failed : Bool := false
  demoted : Bool := false
  contest : Bool := false
  epoch : Nat := 0
  stamp : Nat := 0
  data : Nat := 0
  cver : Nat := 0
  pairId : Nat := 0
  claim : Nat := 0
  g : Nat := 0
deriving DecidableEq, Repr

/-- One tile entry of a standby data feed frame (R312). -/
structure FeedTile where
  inp : Nat := 0
  wb : Nat := 0
  rb : Nat := 0
  stat : Nat := 0
  q : Nat := 0
deriving DecidableEq, Repr

/-- The sender of an Ethernet frame and its length from destination address to FCS (R384, R389). -/
structure Sender where
  mac : Nat := 0
  len : Nat := 64
deriving DecidableEq, Repr

/-- A received SV frame (R281, R283): the noASDU that it states, and of each ASDU smpCnt, smpSynch and the values of its dataset, each
with its 32-bit quality word. -/
structure SvFrame where
  snd : Sender := {}
  dst : Nat := 0
  appid : Nat := 0x4000
  svid : Nat := 0
  confRev : Nat := 0
  security : Bool := false
  sim : Bool := false
  noAsdu : Nat := 1
  asdus : List (Nat × Nat × List (Int × Nat)) := []
deriving DecidableEq, Repr

/-- A received GOOSE message (R285, R287): a member is its type, 0 BOOLEAN, 1 INT32 or another, its value and the 13-bit quality member
that follows it, if any; `nEntries` is numDatSetEntries; `encOk`: its APDU has no length or encoding error (R391). -/
structure GooseMsg where
  snd : Sender := {}
  dst : Nat := 0
  appid : Nat := 0
  gocbRef : Nat := 0
  datSet : Nat := 0
  confRev : Nat := 0
  stNum : Nat := 1
  sqNum : Nat := 0
  ttlMs : Nat := 1000
  ndsCom : Bool := false
  encOk : Bool := true
  test : Bool := false
  nEntries : Nat := 0
  members : List (Nat × Int × Option Nat) := []
deriving DecidableEq, Repr

/-- A received PTP message (R299, R301). `offset` is what the firmware measures with it, where it completes an update. -/
structure PtpMsg where
  snd : Sender := {}
  domain : Nat := 0
  version : Nat := 2
  lenOk : Bool := true
  /-- messageType is one of IEEE 1588 (R391). -/
  typeOk : Bool := true
  source : Nat := 0
  seqId : Nat := 0
  twoStep : Bool := true
  correction : Int := 0
  offset : Int := 0
deriving DecidableEq, Repr

/-- A management datagram (R392): its client, the address and port that it names, its header and its payload. CODE is that of the
command's row, which `code` repeats in a well-formed command. -/
structure MgmtMsg where
  lane : Nat := 0
  snd : Sender := {}
  ip : Nat := 0
  port : Nat := 0
  toIp : Nat := 0
  toPort : Nat := 49160
  magic : Nat := 0xB0D8
  version : Nat := 1
  code : Nat := 0
  reqId : Nat := 0
  status : Nat := 0
  arg0 : Nat := 0
  arg1 : Nat := 0
  len : Nat := 0
  crc : Nat := 0
  payload : List Nat := []
deriving DecidableEq, Repr

/-- Errors that the ECC of the disturbance store finds while words are read: corrected words, the uncorrectable words of
rows (group of the record, 64-bit word of its rows), and an uncorrectable word of the record directory (R333). -/
structure EccIn where
  corr : Nat := 0
  bad : List (Nat × Nat) := []
  dir : Bool := false
deriving DecidableEq, Repr

/-- A maintenance frame on MSDI, byte by byte as clocked in while MCS# was low (R406 to R410). -/
abbrev SpiFrame := List Nat

/-- The commands of the block. -/
inductive Instr where
  | pornRelease (powerOn : Bool) (evSize cfgSize : Option Nat)
  | pornAssert (pwrgoodLow : Bool)
  | pwrgoodFall
  | holdupWarnAssert
  | holdupWarnClear
  | saveSetComplete
  | vbatLoss
  | imageCheckComplete (b0 b1 : BankView) (dramOk : Bool)
  | gridStart
  | protectionActive
  | roleListenExpiry
  | reload
  | epochSample (sec epoch : Nat)
  | entryLost (sec entry : Nat)
  | entryQualified (sec entry : Nat)
  | glideEnd (sec : Nat)
  | glideExtended (sec : Nat)
  | cycleWrap (sec : Nat)
  | dataDue (sec : Nat)
  | evaluationDeadline (sec : Nat) (ecc : EccIn)
  | angleLaunch (lane : Nat)
  | switchOver (sec : Nat)
  | angleTickRead (sec : Nat)
  | epochNumRead (sec : Nat)
  | slotInstant (conv : Nat)
  | conversionComplete (conv : Nat) (vdiff vref : Int)
  | queueEntryTransfer (conv : Nat)
  | urgentRequest (conv inp : Nat) (by_ : Requester)
  | deferredUrgentStart (conv : Nat)
  | openWireInterval (conv inp : Nat)
  | openWireTestStart (conv inp : Nat)
  | openWireAttemptTimeout (conv inp : Nat)
  | referenceOutOfRange (r : GroupRef)
  | refrdySet (grp : Nat)
  | calZero (conv inp : Nat)
  | calFull (conv inp : Nat)
  | calAbort (conv inp : Nat)
  | calAveragingDone (conv : Nat)
  | calStoreComplete (conv : Nat) (ok : Bool)
  | calSessionTimeout (conv : Nat)
  | filterShift (conv inp : Nat)
  | fcStop (conv : Nat)
  | fcStopComplete (conv : Nat)
  | fcStart (conv : Nat)
  | fcRunStart (conv : Nat)
  | coefdataRead (conv : Nat)
  | coefdataWrite (conv : Nat) (w : Word)
  | delayWrite (conv inp : Nat) (w : Word)
  | resampleCutoff (sec : Nat)
  | sourceLost (feeder src : Nat)
  | ingressArrival (sec n : Nat)
  | measurementPartWrite (feeder : Nat)
  | feederEvaluationComplete (feeder : Nat)
  | missRunInvalid (feeder : Nat)
  | elementDelayExpiry (t : TimerRef)
  | definiteResetExpiry (feeder inst phase : Nat)
  | integratorFull (feeder inst phase : Nat)
  | saturationFlagClear (feeder ch : Nat)
  | blockHoldExpiry (feeder inst : Nat)
  | memoryExpiry (feeder inst : Nat)
  | crossBlockHoldExpiry (feeder inst : Nat)
  | retripDelay (feeder inst : Nat)
  | backtripDelay (feeder inst : Nat)
  | minimumPulseExpiry (feeder inst : Nat) (back : Bool)
  | currentCheckSampleClear (feeder inst : Nat)
  | faultLocatorCapture (feeder inst : Nat)
  | sectionEvaluationComplete (sec : Nat)
  | contributionCutoff (sec : Nat)
  | lateContribution (sec : Nat)
  | bdAlarmDelay (sec : Nat)
  | afOpHoldExpiry (sec zone : Nat)
  | lightWithoutCurrent (sec zone : Nat)
  | rotreq (sec req : Nat)
  | masterHandover (sec : Nat)
  | plyRound (engine : Nat)
  | commitGrant
  | nop (core : Nat)
  | ld (core : Nat) (x : SOp)
  | and (core : Nat) (x : SOp)
  | or (core : Nat) (x : SOp)
  | xor (core : Nat) (x : SOp)
  | not (core : Nat)
  | push (core : Nat)
  | andp (core : Nat)
  | orp (core : Nat)
  | st (core : Nat) (x : SOp)
  | set (core : Nat) (x : SOp)
  | rst (core : Nat) (x : SOp)
  | re (core : Nat) (x : SOp)
  | fe (core : Nat) (x : SOp)
  | ton (core t : Nat)
  | tof (core t : Nat)
  | tp (core t : Nat)
  | tona (core t : Nat)
  | tofa (core t : Nat)
  | ctu (core c : Nat)
  | ctd (core c : Nat)
  | crst (core c : Nat)
  | lde (core : Nat) (n : Bool) (t : Nat)
  | lda (core : Nat) (x : SOp)
  | ldk (core : Nat) (n : Bool) (imm : Int)
  | sta (core : Nat) (x : SOp)
  | add (core : Nat) (x : SOp)
  | sub (core : Nat) (x : SOp)
  | cmp (core : Nat) (x : SOp)
  | jmp (core off : Nat)
  | jc (core : Nat) (n : Bool) (off : Nat)
  | end_ (core : Nat)
  | scanOverrun (core : Nat)
  | warmRestart (core : Nat)
  | coldRestart (core : Nat)
  | lcStop (core : Nat)
  | apply
  | release
  | relall
  | refreshPeriod (lane : Nat)
  | laneFrameStart (lane : Nat)
  | refreshFrame (lane pos : Nat) (east : Bool) (f : TileChars)
  | changeFrame (lane pos : Nat) (east : Bool) (f : TileChars)
  | tripFrame (lane pos : Nat) (east : Bool) (f : TileChars)
  | enumerateFrame (lane pos : Nat) (east : Bool) (passed : Nat) (f : TileChars)
  | configurationWriteFrame (lane pos : Nat) (east : Bool) (f : TileChars)
  | configurationReadFrame (lane pos : Nat) (east : Bool) (f : TileChars)
  | statusUpFrame (lane pos : Nat) (u : TileChars)
  | configurationResponse (lane pos : Nat) (r : Option TileChars)
  | partnerDownFrame (lane : Nat) (f : TileChars)
  | claimAgeOut (lane pos : Nat) (east : Bool)
  | safeStateTimeout (lane pos : Nat)
  | crossingWord (lane pos : Nat) (toField : Bool) (toLogic : Option FieldWord)
  | crossingLoss (lane pos : Nat) (logicSide : Bool)
  | outputOvercurrent (lane pos out : Nat)
  | inputDebounce (lane pos inp : Nat)
  | tilePowerUp (lane pos serial : Nat)
  | tilePowerLoss (lane pos : Nat)
  | minimumOnTimeExpiry (lane pos out : Nat)
  | readbackMismatch (lane pos : Nat)
  | tileLost (lane pos : Nat)
  | enum (lane : Nat)
  | conf (lane : Nat)
  | lnStart (lane : Nat)
  | lnStop (lane : Nat)
  | retrain (lane : Nat)
  | laneStartTimeout (lane : Nat)
  | laneStopComplete (lane : Nat)
  | signalDetectChange (lane : Nat) (on : Bool)
  | cdrLock (lane : Nat) (ppm : Int)
  | cdrUnlock (lane : Nat)
  | linkUp (x : LineBlocks)
  | linkDown (x : LineBlocks)
  | adaptationUpdate (lane : Nat) (desired : List Int) (eye mse : Nat)
  | ctleDfeWrite (lane p : Nat) (w : Word)
  | prbsctrlWrite (lane : Nat) (w : Word)
  | checkerLock (x : LineBits)
  | checkerLoss (lane : Nat) (bits : List Bool)
  | injWrite (lane : Nat) (w : Word)
  | digest (r : PeerRx)
  | contestResult (r : PeerRx)
  | castlingRequest (r : PeerRx)
  | castlingAnswer (r : PeerRx)
  | standbyDataFeed (lane before : Nat) (blocks : List PeerBlock)
  | svFrame (lane : Nat) (f : SvFrame)
  | gooseMessage (lane : Nat) (m : GooseMsg)
  | gooseRepetition (pub : Nat)
  | timeAllowedToLiveExpiry (sub : Nat)
  | reservationWindow (lane : Nat)
  | timeLaunch (lane : Nat)
  | ethernetTransmit (lane : Nat)
  | svPublication (pub n : Nat)
  | sync (lane : Nat) (m : PtpMsg)
  | followUp (lane : Nat) (m : PtpMsg)
  | pdelayReq (lane : Nat) (m : PtpMsg)
  | pdelayResp (lane : Nat) (m : PtpMsg)
  | pdelayRespFollowUp (lane : Nat) (m : PtpMsg) (delay : Nat)
  | announce (lane : Nat) (m : PtpMsg) (best : Bool)
  | ptpMessageInterval (lane : Nat)
  | timeBaseStep (tb : Nat)
  | enable (tb : Nat)
  | disable (tb : Nat)
  | tbStepWrite (tb : Nat) (w : Word)
  | tbRateWrite (tb : Nat) (w : Word)
  | tbPpsatWrite (tb : Nat) (w : Word)
  | holdoverExpiry (tb : Nat)
  | holdoverFlag (tb : Nat)
  | ppsInputEdge (tb : Nat) (rising : Bool) (offset : Int)
  | ppsOutputRise (tb : Nat)
  | ppsOutputFall (tb : Nat)
  | basePairWrite (tb secs ns : Nat)
  | basensRead (tb : Nat)
  | tsqheadRead (lane : Nat)
  | roleYield (lane : Nat)
  | ringBreakService (lane : Nat)
  | ringServiceEnd (lane : Nat)
  | standbyFeedMissing (sec : Nat)
  | selfTestComplete (failed : Nat)
  | contestOutcome
  | demoteCheck
  | demoteInFall
  | demoteHeld
  | pairOkLow
  | clrfail
  | clrdemote
  | castle
  | castlingAnswerTimeout
  | castlingSwitch
  | castlingEnd
  | mantrig (sec : Nat)
  | drAck (id : Nat)
  | logStageComplete (readBackOk : Bool) (us : List Nat)
  | sectorEraseComplete
  | repeatWindowExpiry (code : Nat)
  | correlationRecord
  | freeze
  | thaw
  | freezeExpiry
  | erasearm
  | erase
  | eraseArmExpiry
  | rtclRead
  | rtclWrite (w : Word)
  | rtchWrite (w : Word)
  | optlRead
  | ckStart (unit : Nat)
  | ckStartCont (unit : Nat)
  | ckPause (unit : Nat)
  | ckAbort (unit : Nat)
  | ckJobComplete (unit : Nat) (nvmError : Bool)
  | packageCheckComplete (p : PackageView)
  | devChgabort
  | bankCommit
  | evac (engine : Nat)
  | return_ (engine : Nat)
  | feederMigration (sec : Nat)
  | engineSelfTestComplete (engine : Nat) (pass : Bool)
  | microcodeLoadComplete (engine : Nat)
  | dynamicEntryExpiry (entry : Nat)
  | arpRequest (lane ip : Nat)
  | page (m : MgmtMsg)
  | logread (m : MgmtMsg)
  | drlist (m : MgmtMsg)
  | drexport (m : MgmtMsg) (ecc : EccIn)
  | drack (m : MgmtMsg)
  | chgbegin (m : MgmtMsg)
  | chgdata (m : MgmtMsg)
  | chgend (m : MgmtMsg)
  | chgstat (m : MgmtMsg)
  | chgabort (m : MgmtMsg)
  | changeSessionTimeout
  | snEpochRead (page : Nat)
  | latchExpiry (page : Nat)
  | coherentCut
  | writeFrame (f : SpiFrame)
  | readFrame (f : SpiFrame)
  | statusCommand
  | nvmRead (w : Word)
  | nvmProgram (w : Word)
  | eraseSector (w : Word)
  | nvmCommandComplete (ok readBackOk : Bool)
  | registerWrite (addr : Nat) (w : Word)
  | rcRead (addr : Nat)
  | jtagReset
  | referenceReturn (r : GroupRef)
  | fieldSupplyChange (lane pos : Nat) (low : Bool)
  | demoteInRise
  | demotePulseEnd
  | announceReceiptTimeout (lane : Nat)
  | signaling (lane : Nat) (m : PtpMsg)
  | ptpManagement (lane : Nat) (m : PtpMsg)
  | unknownRequest (m : MgmtMsg)
  | frameOfNoKind (lane : Nat) (laneFault : Bool) (len : Nat)
  | calibrationEraseComplete (pair : Nat)
  | saveSlotEraseComplete
deriving DecidableEq, Repr

end Sys2Proof
end

