-- ==== Sys2Proof/Decode.lean ====
section
/-! DEFINITION. The command that a table word spells, and the words of logic instructions (R213, R214). -/

namespace Sys2Proof

/-- The command that a word of `nbits` bits spells by spec/opcode_table.json: none, because no row of the table gives
bits (log entry 11). The commands of the maintenance port that have bytes are read from their frames (R407 to R410). -/
def decodeTableWord (_nbits _w : Nat) : Option Instr := none

/-! ## Logic instructions (R213, R214, R219) -/

/-- What an S operand may hold with an opcode: N inverts, CC is used, the bit is written, only variables, BIT is 0. -/
structure SForm where
  mayN : Bool := false
  cc : Bool := false
  writes : Bool := false
  varOnly : Bool := false
  numeric : Bool := false
deriving DecidableEq, Repr

/-- The operand keeps the rules of R213 and R219 for its form. -/
def SOp.ok (x : SOp) (f : SForm) : Bool :=
  (f.mayN || !x.n) && (if f.cc then decide (x.cc < 6) else x.cc == 0) && (x.sp || !f.varOnly) &&
  decide (x.addr < if x.sp then 4096 else 131072) && decide (x.bit < if f.writes then 24 else 32) && (!f.numeric || x.bit == 0)

/-- The S operand of a word. -/
def sOf (w : Nat) : SOp :=
  { n := bitOf w 26, cc := fieldOf w 23 3, sp := bitOf w 22, addr := fieldOf w 5 17, bit := fieldOf w 0 5 }

/-- An instruction of the S form, refused where its operand breaks a rule. -/
def sInstr (mk : SOp → Instr) (f : SForm) (w : Nat) : Option Instr := if (sOf w).ok f then some (mk (sOf w)) else none

/-- An instruction without operand: every bit below the opcode is 0. -/
def bareInstr (i : Instr) (w : Nat) : Option Instr := if fieldOf w 0 27 = 0 then some i else none

/-- An instruction of the T form, N = 0. -/
def tInstr (mk : Nat → Instr) (w : Nat) : Option Instr := if fieldOf w 10 17 = 0 then some (mk (fieldOf w 0 10)) else none

/-- The logic instruction that a 32-bit word spells for a core, by the opcode table of R214. -/
def logicInstr (core w : Nat) : Option Instr :=
  match fieldOf w 27 5 with
  | 0x00 => bareInstr (.nop core) w
  | 0x01 => sInstr (.ld core) { mayN := true } w
  | 0x02 => sInstr (.and core) { mayN := true } w
  | 0x03 => sInstr (.or core) { mayN := true } w
  | 0x04 => sInstr (.xor core) { mayN := true } w
  | 0x05 => bareInstr (.not core) w
  | 0x06 => bareInstr (.push core) w
  | 0x07 => bareInstr (.andp core) w
  | 0x08 => bareInstr (.orp core) w
  | 0x09 => sInstr (.st core) { mayN := true, writes := true } w
  | 0x0A => sInstr (.set core) { writes := true } w
  | 0x0B => sInstr (.rst core) { writes := true } w
  | 0x0C => sInstr (.re core) { writes := true, varOnly := true } w
  | 0x0D => sInstr (.fe core) { writes := true, varOnly := true } w
  | 0x0E => tInstr (.ton core) w
  | 0x0F => tInstr (.tof core) w
  | 0x10 => tInstr (.tp core) w
  | 0x11 => tInstr (.tona core) w
  | 0x12 => tInstr (.tofa core) w
  | 0x13 => tInstr (.ctu core) w
  | 0x14 => tInstr (.ctd core) w
  | 0x15 => tInstr (.crst core) w
  | 0x16 => if fieldOf w 10 16 = 0 then some (.lde core (bitOf w 26) (fieldOf w 0 10)) else none
  | 0x17 => sInstr (.lda core) { numeric := true } w
  | 0x18 => some (.ldk core (bitOf w 26) (sext 26 (fieldOf w 0 26)))
  | 0x19 => sInstr (.sta core) { numeric := true } w
  | 0x1A => sInstr (.add core) { numeric := true } w
  | 0x1B => sInstr (.sub core) { numeric := true } w
  | 0x1C => sInstr (.cmp core) { cc := true, numeric := true } w
  | 0x1D => if fieldOf w 16 11 = 0 ∧ 1 ≤ fieldOf w 0 16 then some (.jmp core (fieldOf w 0 16)) else none
  | 0x1E => if fieldOf w 16 10 = 0 ∧ 1 ≤ fieldOf w 0 16 then some (.jc core (bitOf w 26) (fieldOf w 0 16)) else none
  | _ => bareInstr (.end_ core) w

/-- The word of an S form instruction. -/
def sWord (op : Nat) (x : SOp) : Nat :=
  2 ^ 27 * op + 2 ^ 26 * b2n x.n + 2 ^ 23 * x.cc + 2 ^ 22 * b2n x.sp + 32 * x.addr + x.bit

/-- The word of a logic instruction, none for any other command. -/
def logicWord : Instr → Option Nat
  | .nop _ => some 0
  | .ld _ x => some (sWord 0x01 x)
  | .and _ x => some (sWord 0x02 x)
  | .or _ x => some (sWord 0x03 x)
  | .xor _ x => some (sWord 0x04 x)
  | .not _ => some (2 ^ 27 * 0x05)
  | .push _ => some (2 ^ 27 * 0x06)
  | .andp _ => some (2 ^ 27 * 0x07)
  | .orp _ => some (2 ^ 27 * 0x08)
  | .st _ x => some (sWord 0x09 x)
  | .set _ x => some (sWord 0x0A x)
  | .rst _ x => some (sWord 0x0B x)
  | .re _ x => some (sWord 0x0C x)
  | .fe _ x => some (sWord 0x0D x)
  | .ton _ t => some (2 ^ 27 * 0x0E + t)
  | .tof _ t => some (2 ^ 27 * 0x0F + t)
  | .tp _ t => some (2 ^ 27 * 0x10 + t)
  | .tona _ t => some (2 ^ 27 * 0x11 + t)
  | .tofa _ t => some (2 ^ 27 * 0x12 + t)
  | .ctu _ c => some (2 ^ 27 * 0x13 + c)
  | .ctd _ c => some (2 ^ 27 * 0x14 + c)
  | .crst _ c => some (2 ^ 27 * 0x15 + c)
  | .lde _ n t => some (2 ^ 27 * 0x16 + 2 ^ 26 * b2n n + t)
  | .lda _ x => some (sWord 0x17 x)
  | .ldk _ n imm => some (2 ^ 27 * 0x18 + 2 ^ 26 * b2n n + unsext 26 imm)
  | .sta _ x => some (sWord 0x19 x)
  | .add _ x => some (sWord 0x1A x)
  | .sub _ x => some (sWord 0x1B x)
  | .cmp _ x => some (sWord 0x1C x)
  | .jmp _ off => some (2 ^ 27 * 0x1D + off)
  | .jc _ n off => some (2 ^ 27 * 0x1E + 2 ^ 26 * b2n n + off)
  | .end_ _ => some (2 ^ 27 * 0x1F)
  | _ => none

end Sys2Proof
end

