-- ==== Sys2Proof/Machine/Crc.lean ====
section
/-! DEFINITION. The cyclic redundancy check of R354 with the presets of R355. -/

namespace Sys2Proof.Machine

/-- Parameters of a check (R354). -/
structure CrcParam where
  w : Nat
  poly : Nat
  init : Nat
  refin : Bool
  refout : Bool
  xorout : Nat
deriving DecidableEq, Repr

/-- The low `n` bits of `x` in reverse order. -/
def reflect : Nat → Nat → Nat
  | 0, _ => 0
  | n + 1, x => x % 2 * 2 ^ n + reflect n (x / 2)

/-- `n` shifts of the running value (R354). -/
def crcShifts (p : CrcParam) : Nat → Nat → Nat
  | 0, r => r
  | n + 1, r =>
    if bitOf r (p.w - 1) then crcShifts p n (((r * 2) ^^^ (p.poly % 2 ^ p.w)) % 2 ^ p.w) else crcShifts p n (r * 2 % 2 ^ p.w)

/-- One byte. -/
def crcByte (p : CrcParam) (r b : Nat) : Nat :=
  crcShifts p 8 (r ^^^ ((if p.refin then reflect 8 b else b % 256) * 2 ^ (p.w - 8)))

/-- The running value over bytes in address order. -/
def crcRun (p : CrcParam) (r : Nat) (l : List Nat) : Nat := l.foldl (crcByte p) r

/-- The result at the end of a job. -/
def crcOut (p : CrcParam) (r : Nat) : Nat := (if p.refout then reflect p.w r else r) ^^^ (p.xorout % 2 ^ p.w)

/-- The check value of a string. -/
def crcOf (p : CrcParam) (l : List Nat) : Nat := crcOut p (crcRun p (p.init % 2 ^ p.w) l)

/-- The presets (R355). -/
def crc32c : CrcParam := ⟨32, 0x1EDC6F41, 0xFFFFFFFF, true, true, 0xFFFFFFFF⟩
def crc32 : CrcParam := ⟨32, 0x04C11DB7, 0xFFFFFFFF, true, true, 0xFFFFFFFF⟩
def crc16 : CrcParam := ⟨16, 0x1021, 0xFFFF, false, false, 0⟩

end Sys2Proof.Machine
end

