-- ==== Sys2Proof/Machine/Coding.lean ====
section
/-! DEFINITION. Line coding: block times, 8b/10b code-groups, sync headers, the PRBS patterns (R258, R263, R276, R277). -/

namespace Sys2Proof.Machine

/-! ## Times of a mode (R258) -/

/-- Block time of a lane's mode in tenths of a nanosecond. -/
def blockTime (mode : Nat) : Nat := if mode = 1 then 32 else if mode = 3 then 80 else 64

/-- Core clocks that `n` blocks take, and 64 blocks (R258, R422). -/
def blocksClk (mode n : Nat) : Nat := (n * blockTime mode * 12 + 99) / 100
def blocks64 (mode : Nat) : Nat := blocksClk mode 64

/-- Bits on the line in `n` core clocks: the line rate over 1.2 GHz. -/
def lineBits (mode n : Nat) : Nat :=
  if mode = 1 then n * 125 / 48 else if mode = 3 then n * 25 / 24 else n * 275 / 32

/-! ## 8b/10b (R263): a code-group is `abcdei fghj`, a the highest bit and sent first. The table is that of IEEE 802.3, which the spec
names and does not print (log entry 163). -/

/-- The 6-bit sub-blocks of D0 to D31 at negative running disparity. -/
def sixes : List Nat :=
  [0b100111, 0b011101, 0b101101, 0b110001, 0b110101, 0b101001, 0b011001, 0b111000,
   0b111001, 0b100101, 0b010101, 0b110100, 0b001101, 0b101100, 0b011100, 0b010111,
   0b011011, 0b100011, 0b010011, 0b110010, 0b001011, 0b101010, 0b011010, 0b111010,
   0b110011, 0b100110, 0b010110, 0b110110, 0b001110, 0b101110, 0b011110, 0b101011]

/-- The 4-bit sub-blocks of y = 0 to 6, of the primary and of the alternate 7, at negative running disparity. -/
def fours : List Nat := [0b1011, 0b1001, 0b0101, 0b1100, 0b1101, 0b1010, 0b0110, 0b1110, 0b0111]

/-- The 4-bit sub-blocks of K28.0 to K28.7 that begin at negative running disparity. -/
def fours28 : List Nat := [0b0100, 0b1001, 0b0101, 0b0011, 0b0010, 0b1010, 0b0110, 0b1000]

/-- Ones among the low `n` bits. -/
def ones (n w : Nat) : Nat := (List.range n).foldl (fun a i => a + w / 2 ^ i % 2) 0

/-- A sub-block of `n` bits at the running disparity `rd`, true positive: inverted at positive disparity where it is not balanced, and
where it is 111000 or 1100. -/
def subBlock (n : Nat) (rd : Bool) (w : Nat) : Nat :=
  if rd && (2 * ones n w != n || w == 0b111000 || w == 0b1100) then 2 ^ n - 1 - w else w

/-- Running disparity behind a sub-block of `n` bits. -/
def rdAfter (n : Nat) (rd : Bool) (w : Nat) : Bool :=
  let k := 2 * ones n w
  if n < k || (n == 6 && w == 0b000111) || (n == 4 && w == 0b0011) then true
  else if k < n || (n == 6 && w == 0b111000) || (n == 4 && w == 0b1100) then false
  else rd

/-- The second sub-block of Dx.y: the alternate 7 after D17, D18 and D20 at negative and after D11, D13 and D14 at positive
disparity, and of a K code of x = 23, 27, 29 and 30. -/
def fourOf (rd : Bool) (x w : Nat) : Bool :=
  let alt := if rd then [11, 13, 14].contains x else [17, 18, 20].contains x
  ((List.range 7).any (fun y => subBlock 4 rd (fours.getD y 0) == w)) ||
    (!alt && subBlock 4 rd 0b1110 == w) ||
    ((alt || [23, 27, 29, 30].contains x) && subBlock 4 rd 0b0111 == w)

/-- A code-group that is in the table at the running disparity `rd` (R263). -/
def groupValid (rd : Bool) (g : Nat) : Bool :=
  let six := g / 16
  let four := g % 16
  if six = (if rd then 0b110000 else 0b001111) then fours28.any (fun w => (if rd then 15 - w else w) == four)
  else match (List.range 32).find? (fun x => subBlock 6 rd (sixes.getD x 0) == six) with
    | some x => fourOf (rdAfter 6 rd six) x four
    | none => false

/-- Running disparity behind a code-group. -/
def groupRd (rd : Bool) (g : Nat) : Bool := rdAfter 4 (rdAfter 6 rd (g / 16)) (g % 16)

/-- Which blocks of a received stream are valid, with the running disparity behind them: code-groups in the 8b/10b modes, of which the
first after the alignment shows the disparity, sync headers in the others (R263). -/
def blockOks (mode : Nat) : Option Bool → List Nat → List Bool × Option Bool
  | rd, [] => ([], rd)
  | rd, b :: l =>
    if mode = 1 ∨ mode = 3 then
      let r := rd.getD (!groupValid false b)
      let (oks, rd') := blockOks mode (some (groupRd r b)) l
      (groupValid r b :: oks, rd')
    else
      let (oks, rd') := blockOks mode rd l
      ((b == 1 || b == 2) :: oks, rd')

/-! ## PRBS patterns (R276) -/

/-- The two powers of the polynomial of a pattern. -/
def prbsTaps (poly : Nat) : Nat × Nat :=
  match poly with | 0 => (7, 6) | 1 => (15, 14) | 2 => (23, 18) | _ => (31, 28)

/-- The bit that follows the bits in a register, the latest in bit 0; and the register with a bit shifted in. -/
def prbsNext (poly reg : Nat) : Bool :=
  let t := prbsTaps poly
  decide ((reg / 2 ^ (t.1 - 1) + reg / 2 ^ (t.2 - 1)) % 2 = 1)
def prbsShift (reg : Nat) (b : Bool) : Nat := (2 * reg + (if b then 1 else 0)) % 2 ^ 31

/-- The next `n` bits of a generator. -/
def prbsBits (poly : Nat) : Nat → Nat → List Bool
  | _, 0 => []
  | reg, n + 1 => prbsNext poly reg :: prbsBits poly (prbsShift reg (prbsNext poly reg)) n

/-- A checker: its register, the bits it has been seeded with, the run of matches while it is not locked, and whether each of the last
64 bits matched while it is (R277). -/
structure PrbsSt where
  reg : Nat := 0
  fill : Nat := 0
  run : Nat := 0
  win : List Bool := []
deriving DecidableEq, Repr

/-- A received bit: the register follows the received bits until the lock and its own pattern from then on. -/
def PrbsSt.bit (x : PrbsSt) (poly : Nat) (locked b : Bool) : PrbsSt :=
  let p := prbsNext poly x.reg
  if locked then { x with reg := prbsShift x.reg p, win := ((p == b) :: x.win).take 64 }
  else { reg := prbsShift x.reg b, fill := x.fill + 1, run := if decide ((prbsTaps poly).1 ≤ x.fill) && p == b then x.run + 1 else 0 }

end Sys2Proof.Machine
end

