-- ==== Sys2Proof/Machine/Regs.lean ====
section
/-! DEFINITION. The register fields of the maintenance address space (R404), one descriptor per row of the
field maps of spec/02 to spec/19: place, access code (R4) and reset value. -/

namespace Sys2Proof.Machine

/-- Access codes of R4. -/
inductive Acc where
  | ro | rw | w1c | w1s | rc | wo | lv
deriving DecidableEq, Repr

/-- How a field's reset value is given: one value, the instance number, the instance number div 8, or a value
of the instances below a bound and 0 of the others. -/
inductive Rst where
  | val (v : Nat)
  | inst
  | instDiv8
  | below (bound v : Nat)
  | last (index v : Nat)
deriving DecidableEq, Repr

/-- A register field: block base, instance stride and number, register offset and number of indexed registers
(4 bytes apart), lowest bit, width, access, reset value, and the values a write may place in it (R6). -/
structure Fld where
  base : Nat
  stride : Nat
  insts : Nat
  off : Nat
  count : Nat
  lo : Nat
  width : Nat
  acc : Acc
  rst : Rst
  okLo : Nat := 0
  okHi : Nat := 2 ^ 32 - 1
deriving DecidableEq, Repr

/-- The address of the field's register, instance `i`, index `j` (R404). -/
def Fld.addr (f : Fld) (i j : Nat) : Nat := f.base + f.stride * i + f.off + 4 * j

/-- The key under which the register file holds the field. -/
def Fld.key (f : Fld) (i j : Nat) : Nat := f.addr i j * 32 + f.lo

/-- The reset value of the field in its field map. -/
def Fld.resetVal (f : Fld) (i j : Nat) : Nat :=
  match f.rst with
  | .val v => v
  | .inst => i
  | .instDiv8 => i / 8
  | .below b v => if i < b then v else 0
  | .last k v => if j = k then v else 0

namespace F

/-- SEC_ANGLE_TICK.SAMPLE, spec/02_cycle_angle.md (R4). -/
def SEC_ANGLE_TICK_SAMPLE : Fld := ⟨0x10000, 0x1000, 24, 0x0, 1, 16, 7, .ro, .val 0, 0, 2 ^ 32 - 1⟩
/-- SEC_ANGLE_TICK.TICK, spec/02_cycle_angle.md (R21). -/
def SEC_ANGLE_TICK_TICK : Fld := ⟨0x10000, 0x1000, 24, 0x0, 1, 0, 16, .ro, .val 0, 0, 2 ^ 32 - 1⟩
/-- SEC_ANGLE_CYC.CYCLE, spec/02_cycle_angle.md (R4). -/
def SEC_ANGLE_CYC_CYCLE : Fld := ⟨0x10000, 0x1000, 24, 0x4, 1, 0, 32, .ro, .val 0, 0, 2 ^ 32 - 1⟩
/-- SEC_FREQ.FREQ, spec/02_cycle_angle.md (R4). -/
def SEC_FREQ_FREQ : Fld := ⟨0x10000, 0x1000, 24, 0x8, 1, 0, 20, .ro, .val 0, 0, 2 ^ 32 - 1⟩
/-- SEC_REF_STAT.QUAL, spec/02_cycle_angle.md (R4). -/
def SEC_REF_STAT_QUAL : Fld := ⟨0x10000, 0x1000, 24, 0xc, 1, 24, 5, .ro, .val 16, 0, 2 ^ 32 - 1⟩
/-- SEC_REF_STAT.VALID, spec/02_cycle_angle.md (R4). -/
def SEC_REF_STAT_VALID : Fld := ⟨0x10000, 0x1000, 24, 0xc, 1, 16, 5, .ro, .val 16, 0, 2 ^ 32 - 1⟩
/-- SEC_REF_STAT.EXTENDED, spec/02_cycle_angle.md (R31). -/
def SEC_REF_STAT_EXTENDED : Fld := ⟨0x10000, 0x1000, 24, 0xc, 1, 9, 1, .ro, .val 0, 0, 2 ^ 32 - 1⟩
/-- SEC_REF_STAT.GLIDE, spec/02_cycle_angle.md (R4). -/
def SEC_REF_STAT_GLIDE : Fld := ⟨0x10000, 0x1000, 24, 0xc, 1, 8, 1, .ro, .val 0, 0, 2 ^ 32 - 1⟩
/-- SEC_REF_STAT.TARGET, spec/02_cycle_angle.md (R4). -/
def SEC_REF_STAT_TARGET : Fld := ⟨0x10000, 0x1000, 24, 0xc, 1, 0, 3, .ro, .val 4, 0, 2 ^ 32 - 1⟩
/-- SEC_GLIDE.N, spec/02_cycle_angle.md (R4). -/
def SEC_GLIDE_N : Fld := ⟨0x10000, 0x1000, 24, 0x10, 1, 16, 3, .ro, .val 0, 0, 2 ^ 32 - 1⟩
/-- SEC_GLIDE.ERR, spec/02_cycle_angle.md (R4). -/
def SEC_GLIDE_ERR : Fld := ⟨0x10000, 0x1000, 24, 0x10, 1, 0, 16, .ro, .val 0, 0, 2 ^ 32 - 1⟩
/-- SEC_ANGLE_EVT.CHGCNT, spec/02_cycle_angle.md (R4). -/
def SEC_ANGLE_EVT_CHGCNT : Fld := ⟨0x10000, 0x1000, 24, 0x14, 1, 16, 16, .ro, .val 0, 0, 2 ^ 32 - 1⟩
/-- SEC_ANGLE_EVT.WRAP, spec/02_cycle_angle.md (R20). -/
def SEC_ANGLE_EVT_WRAP : Fld := ⟨0x10000, 0x1000, 24, 0x14, 1, 5, 1, .w1c, .val 0, 0, 2 ^ 32 - 1⟩
/-- SEC_ANGLE_EVT.LATE, spec/02_cycle_angle.md (R34). -/
def SEC_ANGLE_EVT_LATE : Fld := ⟨0x10000, 0x1000, 24, 0x14, 1, 4, 1, .w1c, .val 0, 0, 2 ^ 32 - 1⟩
/-- SEC_ANGLE_EVT.RANGE, spec/02_cycle_angle.md (R23). -/
def SEC_ANGLE_EVT_RANGE : Fld := ⟨0x10000, 0x1000, 24, 0x14, 1, 3, 1, .w1c, .val 0, 0, 2 ^ 32 - 1⟩
/-- SEC_ANGLE_EVT.LOSS, spec/02_cycle_angle.md (R24). -/
def SEC_ANGLE_EVT_LOSS : Fld := ⟨0x10000, 0x1000, 24, 0x14, 1, 2, 1, .w1c, .val 0, 0, 2 ^ 32 - 1⟩
/-- SEC_ANGLE_EVT.GLIDEEXT, spec/02_cycle_angle.md (R31). -/
def SEC_ANGLE_EVT_GLIDEEXT : Fld := ⟨0x10000, 0x1000, 24, 0x14, 1, 1, 1, .w1c, .val 0, 0, 2 ^ 32 - 1⟩
/-- SEC_ANGLE_EVT.REFCHG, spec/02_cycle_angle.md (R29). -/
def SEC_ANGLE_EVT_REFCHG : Fld := ⟨0x10000, 0x1000, 24, 0x14, 1, 0, 1, .w1c, .val 0, 0, 2 ^ 32 - 1⟩
/-- SEC_EPOCH_NUM.EPOCH, spec/02_cycle_angle.md (R21). -/
def SEC_EPOCH_NUM_EPOCH : Fld := ⟨0x10000, 0x1000, 24, 0x18, 1, 0, 32, .ro, .val 0, 0, 2 ^ 32 - 1⟩
/-- SEC_EPOCH_TS.NS, spec/02_cycle_angle.md (R38). -/
def SEC_EPOCH_TS_NS : Fld := ⟨0x10000, 0x1000, 24, 0x1c, 1, 0, 32, .ro, .val 0, 0, 2 ^ 32 - 1⟩
/-- SEC_REF_CFGn.OFFSET, spec/02_cycle_angle.md (R4). -/
def SEC_REF_CFG_OFFSET : Fld := ⟨0x10000, 0x1000, 24, 0x20, 5, 16, 16, .ro, .val 0, 0, 2 ^ 32 - 1⟩
/-- SEC_REF_CFGn.SRC, spec/02_cycle_angle.md (R4). -/
def SEC_REF_CFG_SRC : Fld := ⟨0x10000, 0x1000, 24, 0x20, 5, 4, 11, .ro, .val 0, 0, 2 ^ 32 - 1⟩
/-- SEC_REF_CFGn.EN, spec/02_cycle_angle.md (R4). -/
def SEC_REF_CFG_EN : Fld := ⟨0x10000, 0x1000, 24, 0x20, 5, 0, 1, .ro, .last 4 1, 0, 2 ^ 32 - 1⟩
/-- SEC_ANGLE_CFG.VMIN, spec/02_cycle_angle.md (R4). -/
def SEC_ANGLE_CFG_VMIN : Fld := ⟨0x10000, 0x1000, 24, 0x34, 1, 13, 7, .ro, .val 20, 0, 2 ^ 32 - 1⟩
/-- SEC_ANGLE_CFG.Q, spec/02_cycle_angle.md (R4). -/
def SEC_ANGLE_CFG_Q : Fld := ⟨0x10000, 0x1000, 24, 0x34, 1, 3, 10, .ro, .val 2, 0, 2 ^ 32 - 1⟩
/-- SEC_ANGLE_CFG.TBSEL, spec/02_cycle_angle.md (R38). -/
def SEC_ANGLE_CFG_TBSEL : Fld := ⟨0x10000, 0x1000, 24, 0x34, 1, 1, 2, .ro, .val 0, 0, 2 ^ 32 - 1⟩
/-- SEC_ANGLE_CFG.NOM, spec/02_cycle_angle.md (R4). -/
def SEC_ANGLE_CFG_NOM : Fld := ⟨0x10000, 0x1000, 24, 0x34, 1, 0, 1, .ro, .val 0, 0, 2 ^ 32 - 1⟩
/-- CV_CFG.SECTION, spec/03_local_conversion.md (R11). -/
def CV_CFG_SECTION : Fld := ⟨0x50000, 0x200, 32, 0x0, 1, 16, 5, .ro, .val 0, 0, 2 ^ 32 - 1⟩
/-- CV_CFG.OWEN, spec/03_local_conversion.md (R4). -/
def CV_CFG_OWEN : Fld := ⟨0x50000, 0x200, 32, 0x0, 1, 8, 8, .ro, .val 0, 0, 2 ^ 32 - 1⟩
/-- CV_CFG.INUSE, spec/03_local_conversion.md (R4). -/
def CV_CFG_INUSE : Fld := ⟨0x50000, 0x200, 32, 0x0, 1, 0, 8, .ro, .val 0, 0, 2 ^ 32 - 1⟩
/-- CV_STAT.PD, spec/03_local_conversion.md (R4). -/
def CV_STAT_PD : Fld := ⟨0x50000, 0x200, 32, 0x4, 1, 8, 1, .ro, .val 1, 0, 2 ^ 32 - 1⟩
/-- CV_STAT.CALDONE, spec/03_local_conversion.md (R4). -/
def CV_STAT_CALDONE : Fld := ⟨0x50000, 0x200, 32, 0x4, 1, 7, 1, .w1c, .val 0, 0, 2 ^ 32 - 1⟩
/-- CV_STAT.OWCHG, spec/03_local_conversion.md (R57). -/
def CV_STAT_OWCHG : Fld := ⟨0x50000, 0x200, 32, 0x4, 1, 6, 1, .w1c, .val 0, 0, 2 ^ 32 - 1⟩
/-- CV_STAT.URGREF, spec/03_local_conversion.md (R48). -/
def CV_STAT_URGREF : Fld := ⟨0x50000, 0x200, 32, 0x4, 1, 5, 1, .w1c, .val 0, 0, 2 ^ 32 - 1⟩
/-- CV_STAT.DROP, spec/03_local_conversion.md (R45). -/
def CV_STAT_DROP : Fld := ⟨0x50000, 0x200, 32, 0x4, 1, 4, 1, .w1c, .val 0, 0, 2 ^ 32 - 1⟩
/-- CV_STAT.REFLOSS, spec/03_local_conversion.md (R52). -/
def CV_STAT_REFLOSS : Fld := ⟨0x50000, 0x200, 32, 0x4, 1, 3, 1, .w1c, .val 0, 0, 2 ^ 32 - 1⟩
/-- CV_STAT.RATIO, spec/03_local_conversion.md (R53). -/
def CV_STAT_RATIO : Fld := ⟨0x50000, 0x200, 32, 0x4, 1, 1, 1, .ro, .val 0, 0, 2 ^ 32 - 1⟩
/-- CV_STAT.REFRDY, spec/03_local_conversion.md (R51). -/
def CV_STAT_REFRDY : Fld := ⟨0x50000, 0x200, 32, 0x4, 1, 0, 1, .ro, .val 0, 0, 2 ^ 32 - 1⟩
/-- CV_CONV.BUSY, spec/03_local_conversion.md (R4). -/
def CV_CONV_BUSY : Fld := ⟨0x50000, 0x200, 32, 0x8, 1, 5, 1, .ro, .val 0, 0, 2 ^ 32 - 1⟩
/-- CV_CONV.OWT, spec/03_local_conversion.md (R4). -/
def CV_CONV_OWT : Fld := ⟨0x50000, 0x200, 32, 0x8, 1, 4, 1, .ro, .val 0, 0, 2 ^ 32 - 1⟩
/-- CV_CONV.URG, spec/03_local_conversion.md (R4). -/
def CV_CONV_URG : Fld := ⟨0x50000, 0x200, 32, 0x8, 1, 3, 1, .ro, .val 0, 0, 2 ^ 32 - 1⟩
/-- CV_CONV.CHSEL, spec/03_local_conversion.md (R4). -/
def CV_CONV_CHSEL : Fld := ⟨0x50000, 0x200, 32, 0x8, 1, 0, 3, .ro, .val 0, 0, 2 ^ 32 - 1⟩
/-- CV_SLOT.EN0, spec/03_local_conversion.md (R40). -/
def CV_SLOT_EN0 : Fld := ⟨0x50000, 0x200, 32, 0xc, 1, 3, 1, .ro, .val 0, 0, 2 ^ 32 - 1⟩
/-- CV_SLOT.EN1, spec/03_local_conversion.md (R40). -/
def CV_SLOT_EN1 : Fld := ⟨0x50000, 0x200, 32, 0xc, 1, 7, 1, .ro, .val 0, 0, 2 ^ 32 - 1⟩
/-- CV_SLOT.EN2, spec/03_local_conversion.md (R40). -/
def CV_SLOT_EN2 : Fld := ⟨0x50000, 0x200, 32, 0xc, 1, 11, 1, .ro, .val 0, 0, 2 ^ 32 - 1⟩
/-- CV_SLOT.EN3, spec/03_local_conversion.md (R40). -/
def CV_SLOT_EN3 : Fld := ⟨0x50000, 0x200, 32, 0xc, 1, 15, 1, .ro, .val 0, 0, 2 ^ 32 - 1⟩
/-- CV_SLOT.EN4, spec/03_local_conversion.md (R40). -/
def CV_SLOT_EN4 : Fld := ⟨0x50000, 0x200, 32, 0xc, 1, 19, 1, .ro, .val 0, 0, 2 ^ 32 - 1⟩
/-- CV_SLOT.EN5, spec/03_local_conversion.md (R40). -/
def CV_SLOT_EN5 : Fld := ⟨0x50000, 0x200, 32, 0xc, 1, 23, 1, .ro, .val 0, 0, 2 ^ 32 - 1⟩
/-- CV_SLOT.EN6, spec/03_local_conversion.md (R40). -/
def CV_SLOT_EN6 : Fld := ⟨0x50000, 0x200, 32, 0xc, 1, 27, 1, .ro, .val 0, 0, 2 ^ 32 - 1⟩
/-- CV_SLOT.EN7, spec/03_local_conversion.md (R40). -/
def CV_SLOT_EN7 : Fld := ⟨0x50000, 0x200, 32, 0xc, 1, 31, 1, .ro, .val 0, 0, 2 ^ 32 - 1⟩
/-- CV_SLOT.CH0, spec/03_local_conversion.md (R40). -/
def CV_SLOT_CH0 : Fld := ⟨0x50000, 0x200, 32, 0xc, 1, 0, 3, .ro, .val 0, 0, 2 ^ 32 - 1⟩
/-- CV_SLOT.CH1, spec/03_local_conversion.md (R40). -/
def CV_SLOT_CH1 : Fld := ⟨0x50000, 0x200, 32, 0xc, 1, 4, 3, .ro, .val 1, 0, 2 ^ 32 - 1⟩
/-- CV_SLOT.CH2, spec/03_local_conversion.md (R40). -/
def CV_SLOT_CH2 : Fld := ⟨0x50000, 0x200, 32, 0xc, 1, 8, 3, .ro, .val 2, 0, 2 ^ 32 - 1⟩
/-- CV_SLOT.CH3, spec/03_local_conversion.md (R40). -/
def CV_SLOT_CH3 : Fld := ⟨0x50000, 0x200, 32, 0xc, 1, 12, 3, .ro, .val 3, 0, 2 ^ 32 - 1⟩
/-- CV_SLOT.CH4, spec/03_local_conversion.md (R40). -/
def CV_SLOT_CH4 : Fld := ⟨0x50000, 0x200, 32, 0xc, 1, 16, 3, .ro, .val 4, 0, 2 ^ 32 - 1⟩
/-- CV_SLOT.CH5, spec/03_local_conversion.md (R40). -/
def CV_SLOT_CH5 : Fld := ⟨0x50000, 0x200, 32, 0xc, 1, 20, 3, .ro, .val 5, 0, 2 ^ 32 - 1⟩
/-- CV_SLOT.CH6, spec/03_local_conversion.md (R40). -/
def CV_SLOT_CH6 : Fld := ⟨0x50000, 0x200, 32, 0xc, 1, 24, 3, .ro, .val 6, 0, 2 ^ 32 - 1⟩
/-- CV_SLOT.CH7, spec/03_local_conversion.md (R40). -/
def CV_SLOT_CH7 : Fld := ⟨0x50000, 0x200, 32, 0xc, 1, 28, 3, .ro, .val 7, 0, 2 ^ 32 - 1⟩
/-- CV_QSTAT.LASTSEQ, spec/03_local_conversion.md (R4). -/
def CV_QSTAT_LASTSEQ : Fld := ⟨0x50000, 0x200, 32, 0x10, 1, 24, 8, .ro, .val 0, 0, 2 ^ 32 - 1⟩
/-- CV_QSTAT.BRIM, spec/03_local_conversion.md (R4). -/
def CV_QSTAT_BRIM : Fld := ⟨0x50000, 0x200, 32, 0x10, 1, 16, 7, .rc, .val 0, 0, 2 ^ 32 - 1⟩
/-- CV_QSTAT.FILL, spec/03_local_conversion.md (R4). -/
def CV_QSTAT_FILL : Fld := ⟨0x50000, 0x200, 32, 0x10, 1, 0, 7, .ro, .val 0, 0, 2 ^ 32 - 1⟩
/-- CV_QLAST.ENTRY, spec/03_local_conversion.md (R43). -/
def CV_QLAST_ENTRY : Fld := ⟨0x50000, 0x200, 32, 0x14, 1, 0, 32, .ro, .val 0, 0, 2 ^ 32 - 1⟩
/-- CV_DROPCNT.CHAINDISC, spec/03_local_conversion.md (R46). -/
def CV_DROPCNT_CHAINDISC : Fld := ⟨0x50000, 0x200, 32, 0x18, 1, 16, 16, .rc, .val 0, 0, 2 ^ 32 - 1⟩
/-- CV_DROPCNT.DROP, spec/03_local_conversion.md (R45). -/
def CV_DROPCNT_DROP : Fld := ⟨0x50000, 0x200, 32, 0x18, 1, 0, 16, .rc, .val 0, 0, 2 ^ 32 - 1⟩
/-- CV_URGCNT.URG, spec/03_local_conversion.md (R4). -/
def CV_URGCNT_URG : Fld := ⟨0x50000, 0x200, 32, 0x1c, 1, 16, 16, .rc, .val 0, 0, 2 ^ 32 - 1⟩
/-- CV_URGCNT.ABORT, spec/03_local_conversion.md (R47). -/
def CV_URGCNT_ABORT : Fld := ⟨0x50000, 0x200, 32, 0x1c, 1, 0, 16, .rc, .val 0, 0, 2 ^ 32 - 1⟩
/-- CV_URGREF.REFUSED, spec/03_local_conversion.md (R4). -/
def CV_URGREF_REFUSED : Fld := ⟨0x50000, 0x200, 32, 0x20, 1, 16, 16, .rc, .val 0, 0, 2 ^ 32 - 1⟩
/-- CV_URGREF.MERGED, spec/03_local_conversion.md (R4). -/
def CV_URGREF_MERGED : Fld := ⟨0x50000, 0x200, 32, 0x20, 1, 8, 8, .rc, .val 0, 0, 2 ^ 32 - 1⟩
/-- CV_URGREF.DEFERRED, spec/03_local_conversion.md (R4). -/
def CV_URGREF_DEFERRED : Fld := ⟨0x50000, 0x200, 32, 0x20, 1, 0, 8, .rc, .val 0, 0, 2 ^ 32 - 1⟩
/-- CV_SLIP.MAXSLIP, spec/03_local_conversion.md (R42). -/
def CV_SLIP_MAXSLIP : Fld := ⟨0x50000, 0x200, 32, 0x24, 1, 0, 10, .rc, .val 0, 0, 2 ^ 32 - 1⟩
/-- CV_REF.VMON, spec/03_local_conversion.md (R51). -/
def CV_REF_VMON : Fld := ⟨0x50000, 0x200, 32, 0x28, 1, 16, 16, .ro, .val 0, 0, 2 ^ 32 - 1⟩
/-- CV_REF.SRC, spec/03_local_conversion.md (R4). -/
def CV_REF_SRC : Fld := ⟨0x50000, 0x200, 32, 0x28, 1, 2, 2, .ro, .val 0, 0, 2 ^ 32 - 1⟩
/-- CV_REF.GROUP, spec/03_local_conversion.md (R4). -/
def CV_REF_GROUP : Fld := ⟨0x50000, 0x200, 32, 0x28, 1, 0, 2, .ro, .instDiv8, 0, 2 ^ 32 - 1⟩
/-- CV_OWCFG.THRESH, spec/03_local_conversion.md (R54). -/
def CV_OWCFG_THRESH : Fld := ⟨0x50000, 0x200, 32, 0x30, 1, 8, 16, .ro, .val 8192, 0, 2 ^ 32 - 1⟩
/-- CV_OWCFG.INTERVAL, spec/03_local_conversion.md (R4). -/
def CV_OWCFG_INTERVAL : Fld := ⟨0x50000, 0x200, 32, 0x30, 1, 0, 4, .ro, .val 10, 0, 2 ^ 32 - 1⟩
/-- CV_OWSTAT.SUSPECT, spec/03_local_conversion.md (R56). -/
def CV_OWSTAT_SUSPECT : Fld := ⟨0x50000, 0x200, 32, 0x34, 1, 8, 8, .ro, .val 0, 0, 2 ^ 32 - 1⟩
/-- CV_OWSTAT.FLAG, spec/03_local_conversion.md (R4). -/
def CV_OWSTAT_FLAG : Fld := ⟨0x50000, 0x200, 32, 0x34, 1, 0, 8, .ro, .val 0, 0, 2 ^ 32 - 1⟩
/-- CV_OWCNT.URGTESTS, spec/03_local_conversion.md (R55). -/
def CV_OWCNT_URGTESTS : Fld := ⟨0x50000, 0x200, 32, 0x38, 1, 16, 16, .rc, .val 0, 0, 2 ^ 32 - 1⟩
/-- CV_OWCNT.TESTS, spec/03_local_conversion.md (R4). -/
def CV_OWCNT_TESTS : Fld := ⟨0x50000, 0x200, 32, 0x38, 1, 0, 16, .rc, .val 0, 0, 2 ^ 32 - 1⟩
/-- CV_CAL.CMD, spec/03_local_conversion.md (R4). -/
def CV_CAL_CMD : Fld := ⟨0x50000, 0x200, 32, 0x40, 1, 4, 2, .wo, .val 0, 0, 2 ^ 32 - 1⟩
/-- CV_CAL.CH, spec/03_local_conversion.md (R4). -/
def CV_CAL_CH : Fld := ⟨0x50000, 0x200, 32, 0x40, 1, 0, 3, .wo, .val 0, 0, 2 ^ 32 - 1⟩
/-- CV_CALVAL.EXPECT, spec/03_local_conversion.md (R4). -/
def CV_CALVAL_EXPECT : Fld := ⟨0x50000, 0x200, 32, 0x44, 1, 0, 18, .rw, .val 0, 32768, 131071⟩
/-- CV_CALSTAT.CH, spec/03_local_conversion.md (R4). -/
def CV_CALSTAT_CH : Fld := ⟨0x50000, 0x200, 32, 0x48, 1, 16, 3, .ro, .val 0, 0, 2 ^ 32 - 1⟩
/-- CV_CALSTAT.RESULT, spec/03_local_conversion.md (R60). -/
def CV_CALSTAT_RESULT : Fld := ⟨0x50000, 0x200, 32, 0x48, 1, 12, 4, .ro, .val 0, 0, 2 ^ 32 - 1⟩
/-- CV_CALSTAT.STATE, spec/03_local_conversion.md (R4). -/
def CV_CALSTAT_STATE : Fld := ⟨0x50000, 0x200, 32, 0x48, 1, 8, 2, .ro, .val 0, 0, 2 ^ 32 - 1⟩
/-- CV_CALSTAT.UNCAL, spec/03_local_conversion.md (R63). -/
def CV_CALSTAT_UNCAL : Fld := ⟨0x50000, 0x200, 32, 0x48, 1, 0, 8, .ro, .val 0, 0, 2 ^ 32 - 1⟩
/-- CV_OFFc.OFF, spec/03_local_conversion.md (R4). -/
def CV_OFF_OFF : Fld := ⟨0x50000, 0x200, 32, 0x50, 8, 0, 32, .ro, .val 0, 0, 2 ^ 32 - 1⟩
/-- CV_GAINc.GAIN, spec/03_local_conversion.md (R4). -/
def CV_GAIN_GAIN : Fld := ⟨0x50000, 0x200, 32, 0x70, 8, 0, 32, .ro, .val 1073741824, 0, 2 ^ 32 - 1⟩
/-- FC_CTRL.START, spec/04_filter_chain.md (R75). -/
def FC_CTRL_START : Fld := ⟨0x50000, 0x200, 32, 0x100, 1, 1, 1, .wo, .val 0, 0, 2 ^ 32 - 1⟩
/-- FC_CTRL.STOP, spec/04_filter_chain.md (R74). -/
def FC_CTRL_STOP : Fld := ⟨0x50000, 0x200, 32, 0x100, 1, 0, 1, .wo, .val 0, 0, 2 ^ 32 - 1⟩
/-- FC_STAT.REFUSED, spec/04_filter_chain.md (R73). -/
def FC_STAT_REFUSED : Fld := ⟨0x50000, 0x200, 32, 0x104, 1, 16, 16, .rc, .val 0, 0, 2 ^ 32 - 1⟩
/-- FC_STAT.REFILL, spec/04_filter_chain.md (R76). -/
def FC_STAT_REFILL : Fld := ⟨0x50000, 0x200, 32, 0x104, 1, 8, 5, .ro, .val 0, 0, 2 ^ 32 - 1⟩
/-- FC_STAT.PENDING, spec/04_filter_chain.md (R4). -/
def FC_STAT_PENDING : Fld := ⟨0x50000, 0x200, 32, 0x104, 1, 4, 1, .ro, .val 0, 0, 2 ^ 32 - 1⟩
/-- FC_STAT.BUSY, spec/04_filter_chain.md (R73). -/
def FC_STAT_BUSY : Fld := ⟨0x50000, 0x200, 32, 0x104, 1, 3, 1, .w1c, .val 0, 0, 2 ^ 32 - 1⟩
/-- FC_STAT.DIRTY, spec/04_filter_chain.md (R74). -/
def FC_STAT_DIRTY : Fld := ⟨0x50000, 0x200, 32, 0x104, 1, 2, 1, .ro, .val 0, 0, 2 ^ 32 - 1⟩
/-- FC_STAT.STATE, spec/04_filter_chain.md (R4). -/
def FC_STAT_STATE : Fld := ⟨0x50000, 0x200, 32, 0x104, 1, 0, 2, .ro, .val 0, 0, 2 ^ 32 - 1⟩
/-- FC_COEFADDR.TAP, spec/04_filter_chain.md (R4). -/
def FC_COEFADDR_TAP : Fld := ⟨0x50000, 0x200, 32, 0x108, 1, 0, 6, .rw, .val 0, 0, 2 ^ 32 - 1⟩
/-- FC_COEFDATA.COEF, spec/04_filter_chain.md (R65). -/
def FC_COEFDATA_COEF : Fld := ⟨0x50000, 0x200, 32, 0x10c, 1, 0, 24, .rw, .val 0, 0, 2 ^ 32 - 1⟩
/-- FC_QCNT.OVR, spec/04_filter_chain.md (R71). -/
def FC_QCNT_OVR : Fld := ⟨0x50000, 0x200, 32, 0x110, 1, 16, 16, .rc, .val 0, 0, 2 ^ 32 - 1⟩
/-- FC_QCNT.HOLD, spec/04_filter_chain.md (R71). -/
def FC_QCNT_HOLD : Fld := ⟨0x50000, 0x200, 32, 0x110, 1, 0, 16, .rc, .val 0, 0, 2 ^ 32 - 1⟩
/-- FC_DELAYc.CORR, spec/04_filter_chain.md (R68). -/
def FC_DELAY_CORR : Fld := ⟨0x50000, 0x200, 32, 0x120, 8, 0, 13, .rw, .val 0, 0, 2 ^ 32 - 1⟩
/-- SEC_HALFCNT.EMPTY, spec/04_filter_chain.md (R83). -/
def SEC_HALFCNT_EMPTY : Fld := ⟨0x10000, 0x1000, 24, 0x40, 1, 16, 16, .rc, .val 0, 0, 2 ^ 32 - 1⟩
/-- SEC_HALFCNT.HALF, spec/04_filter_chain.md (R83). -/
def SEC_HALFCNT_HALF : Fld := ⟨0x10000, 0x1000, 24, 0x40, 1, 0, 16, .rc, .val 0, 0, 2 ^ 32 - 1⟩
/-- SEC_SVCNT.REJECT, spec/04_filter_chain.md (R78). -/
def SEC_SVCNT_REJECT : Fld := ⟨0x10000, 0x1000, 24, 0x44, 1, 20, 12, .rc, .val 0, 0, 2 ^ 32 - 1⟩
/-- SEC_SVCNT.INVAL, spec/04_filter_chain.md (R79). -/
def SEC_SVCNT_INVAL : Fld := ⟨0x10000, 0x1000, 24, 0x44, 1, 10, 10, .rc, .val 0, 0, 2 ^ 32 - 1⟩
/-- SEC_SVCNT.QUAD, spec/04_filter_chain.md (R79). -/
def SEC_SVCNT_QUAD : Fld := ⟨0x10000, 0x1000, 24, 0x44, 1, 0, 10, .rc, .val 0, 0, 2 ^ 32 - 1⟩
/-- SEC_MASTER.ROTCNT, spec/08_section_protection.md (R167). -/
def SEC_MASTER_ROTCNT : Fld := ⟨0x10000, 0x1000, 24, 0x80, 1, 16, 16, .ro, .val 0, 0, 2 ^ 32 - 1⟩
/-- SEC_MASTER.ROTREQ, spec/08_section_protection.md (R167). -/
def SEC_MASTER_ROTREQ : Fld := ⟨0x10000, 0x1000, 24, 0x80, 1, 11, 1, .wo, .val 0, 0, 2 ^ 32 - 1⟩
/-- SEC_MASTER.REQ, spec/08_section_protection.md (R4). -/
def SEC_MASTER_REQ : Fld := ⟨0x10000, 0x1000, 24, 0x80, 1, 8, 3, .wo, .val 0, 0, 2 ^ 32 - 1⟩
/-- SEC_MASTER.CUR, spec/08_section_protection.md (R4). -/
def SEC_MASTER_CUR : Fld := ⟨0x10000, 0x1000, 24, 0x80, 1, 0, 3, .ro, .val 0, 0, 2 ^ 32 - 1⟩
/-- SEC_STALECNT.LATE, spec/08_section_protection.md (R164). -/
def SEC_STALECNT_LATE : Fld := ⟨0x10000, 0x1000, 24, 0x84, 1, 16, 16, .rc, .val 0, 0, 2 ^ 32 - 1⟩
/-- SEC_STALECNT.SUBST, spec/08_section_protection.md (R163). -/
def SEC_STALECNT_SUBST : Fld := ⟨0x10000, 0x1000, 24, 0x84, 1, 0, 16, .rc, .val 0, 0, 2 ^ 32 - 1⟩
/-- SEC_SPSTAT.AFLWC, spec/08_section_protection.md (R180). -/
def SEC_SPSTAT_AFLWC : Fld := ⟨0x10000, 0x1000, 24, 0x88, 1, 16, 8, .ro, .val 0, 0, 2 ^ 32 - 1⟩
/-- SEC_SPSTAT.XBLK, spec/08_section_protection.md (R182). -/
def SEC_SPSTAT_XBLK : Fld := ⟨0x10000, 0x1000, 24, 0x88, 1, 7, 1, .ro, .val 0, 0, 2 ^ 32 - 1⟩
/-- SEC_SPSTAT.ALARM, spec/08_section_protection.md (R175). -/
def SEC_SPSTAT_ALARM : Fld := ⟨0x10000, 0x1000, 24, 0x88, 1, 6, 1, .ro, .val 0, 0, 2 ^ 32 - 1⟩
/-- SEC_SPSTAT.MFAULT, spec/08_section_protection.md (R168). -/
def SEC_SPSTAT_MFAULT : Fld := ⟨0x10000, 0x1000, 24, 0x88, 1, 5, 1, .w1c, .val 0, 0, 2 ^ 32 - 1⟩
/-- SEC_SPSTAT.ROT, spec/08_section_protection.md (R167). -/
def SEC_SPSTAT_ROT : Fld := ⟨0x10000, 0x1000, 24, 0x88, 1, 4, 1, .w1c, .val 0, 0, 2 ^ 32 - 1⟩
/-- SEC_SPSTAT.SUBST, spec/08_section_protection.md (R163). -/
def SEC_SPSTAT_SUBST : Fld := ⟨0x10000, 0x1000, 24, 0x88, 1, 3, 1, .w1c, .val 0, 0, 2 ^ 32 - 1⟩
/-- SEC_BDIDx.ID, spec/08_section_protection.md (R172). -/
def SEC_BDID_ID : Fld := ⟨0x10000, 0x1000, 24, 0x90, 3, 0, 32, .ro, .val 0, 0, 2 ^ 32 - 1⟩
/-- SEC_BDIRx.IR, spec/08_section_protection.md (R172). -/
def SEC_BDIR_IR : Fld := ⟨0x10000, 0x1000, 24, 0x9c, 3, 0, 32, .ro, .val 0, 0, 2 ^ 32 - 1⟩
/-- PE_PLYSTAT.SHARED, spec/09_run_ahead_commit.md (R195). -/
def PE_PLYSTAT_SHARED : Fld := ⟨0x30000, 0x100, 192, 0x40, 1, 16, 7, .ro, .val 0, 0, 2 ^ 32 - 1⟩
/-- PE_PLYSTAT.OWN, spec/09_run_ahead_commit.md (R4). -/
def PE_PLYSTAT_OWN : Fld := ⟨0x30000, 0x100, 192, 0x40, 1, 8, 5, .ro, .val 0, 0, 2 ^ 32 - 1⟩
/-- PE_PLYSTAT.DLMISS, spec/09_run_ahead_commit.md (R204). -/
def PE_PLYSTAT_DLMISS : Fld := ⟨0x30000, 0x100, 192, 0x40, 1, 2, 1, .w1c, .val 0, 0, 2 ^ 32 - 1⟩
/-- PE_PLYSTAT.DIVERGE, spec/09_run_ahead_commit.md (R203). -/
def PE_PLYSTAT_DIVERGE : Fld := ⟨0x30000, 0x100, 192, 0x40, 1, 1, 1, .w1c, .val 0, 0, 2 ^ 32 - 1⟩
/-- PE_PLYSTAT.ACTIVE, spec/09_run_ahead_commit.md (R318). -/
def PE_PLYSTAT_ACTIVE : Fld := ⟨0x30000, 0x100, 192, 0x40, 1, 0, 1, .ro, .val 0, 0, 2 ^ 32 - 1⟩
/-- PE_PLYCNT.COMMIT, spec/09_run_ahead_commit.md (R4). -/
def PE_PLYCNT_COMMIT : Fld := ⟨0x30000, 0x100, 192, 0x44, 1, 16, 16, .rc, .val 0, 0, 2 ^ 32 - 1⟩
/-- PE_PLYCNT.STAGED, spec/09_run_ahead_commit.md (R4). -/
def PE_PLYCNT_STAGED : Fld := ⟨0x30000, 0x100, 192, 0x44, 1, 0, 16, .rc, .val 0, 0, 2 ^ 32 - 1⟩
/-- PE_SQCNT.BAND, spec/09_run_ahead_commit.md (R198). -/
def PE_SQCNT_BAND : Fld := ⟨0x30000, 0x100, 192, 0x48, 1, 16, 16, .rc, .val 0, 0, 2 ^ 32 - 1⟩
/-- PE_SQCNT.OTHER, spec/09_run_ahead_commit.md (R4). -/
def PE_SQCNT_OTHER : Fld := ⟨0x30000, 0x100, 192, 0x48, 1, 0, 16, .rc, .val 0, 0, 2 ^ 32 - 1⟩
/-- PE_PLYREF.POOL, spec/09_run_ahead_commit.md (R195). -/
def PE_PLYREF_POOL : Fld := ⟨0x30000, 0x100, 192, 0x4c, 1, 24, 8, .rc, .val 0, 0, 2 ^ 32 - 1⟩
/-- PE_PLYREF.GATE, spec/09_run_ahead_commit.md (R193). -/
def PE_PLYREF_GATE : Fld := ⟨0x30000, 0x100, 192, 0x4c, 1, 16, 8, .rc, .val 0, 0, 2 ^ 32 - 1⟩
/-- PE_PLYREF.SUPER, spec/09_run_ahead_commit.md (R198). -/
def PE_PLYREF_SUPER : Fld := ⟨0x30000, 0x100, 192, 0x4c, 1, 8, 8, .rc, .val 0, 0, 2 ^ 32 - 1⟩
/-- PE_PLYREF.ABANDON, spec/09_run_ahead_commit.md (R186). -/
def PE_PLYREF_ABANDON : Fld := ⟨0x30000, 0x100, 192, 0x4c, 1, 0, 8, .rc, .val 0, 0, 2 ^ 32 - 1⟩
/-- PE_DIVINFO.AUDIT, spec/09_run_ahead_commit.md (R201). -/
def PE_DIVINFO_AUDIT : Fld := ⟨0x30000, 0x100, 192, 0x50, 1, 31, 1, .ro, .val 0, 0, 2 ^ 32 - 1⟩
/-- PE_DIVINFO.INST, spec/09_run_ahead_commit.md (R4). -/
def PE_DIVINFO_INST : Fld := ⟨0x30000, 0x100, 192, 0x50, 1, 16, 8, .ro, .val 0, 0, 2 ^ 32 - 1⟩
/-- PE_DIVINFO.TEPOCH, spec/09_run_ahead_commit.md (R4). -/
def PE_DIVINFO_TEPOCH : Fld := ⟨0x30000, 0x100, 192, 0x50, 1, 0, 16, .ro, .val 0, 0, 2 ^ 32 - 1⟩
/-- PE_DLCNT.MISS, spec/09_run_ahead_commit.md (R4). -/
def PE_DLCNT_MISS : Fld := ⟨0x30000, 0x100, 192, 0x54, 1, 16, 16, .rc, .val 0, 0, 2 ^ 32 - 1⟩
/-- PE_DLCNT.CONSEC, spec/09_run_ahead_commit.md (R4). -/
def PE_DLCNT_CONSEC : Fld := ⟨0x30000, 0x100, 192, 0x54, 1, 0, 8, .ro, .val 0, 0, 2 ^ 32 - 1⟩
/-- SEC_PLYSTAT.AUDIT, spec/09_run_ahead_commit.md (R201). -/
def SEC_PLYSTAT_AUDIT : Fld := ⟨0x10000, 0x1000, 24, 0xc0, 1, 16, 16, .rc, .val 0, 0, 2 ^ 32 - 1⟩
/-- SEC_PLYSTAT.GATES, spec/09_run_ahead_commit.md (R4). -/
def SEC_PLYSTAT_GATES : Fld := ⟨0x10000, 0x1000, 24, 0xc0, 1, 8, 8, .ro, .val 0, 0, 2 ^ 32 - 1⟩
/-- SEC_PLYSTAT.RANKDIV, spec/09_run_ahead_commit.md (R203). -/
def SEC_PLYSTAT_RANKDIV : Fld := ⟨0x10000, 0x1000, 24, 0xc0, 1, 0, 1, .w1c, .val 0, 0, 2 ^ 32 - 1⟩
/-- SEC_COMMITLAT.LASTLAT, spec/09_run_ahead_commit.md (R18). -/
def SEC_COMMITLAT_LASTLAT : Fld := ⟨0x10000, 0x1000, 24, 0xc4, 1, 16, 10, .ro, .val 0, 0, 2 ^ 32 - 1⟩
/-- SEC_COMMITLAT.MAXLAT, spec/09_run_ahead_commit.md (R4). -/
def SEC_COMMITLAT_MAXLAT : Fld := ⟨0x10000, 0x1000, 24, 0xc4, 1, 0, 10, .rc, .val 0, 0, 2 ^ 32 - 1⟩
/-- SEC_PLYCFG.DEPTH, spec/09_run_ahead_commit.md (R187). -/
def SEC_PLYCFG_DEPTH : Fld := ⟨0x10000, 0x1000, 24, 0xc8, 1, 0, 2, .ro, .val 2, 0, 2 ^ 32 - 1⟩
/-- DEV_PLYPOOL.BRIM, spec/09_run_ahead_commit.md (R4). -/
def DEV_PLYPOOL_BRIM : Fld := ⟨0x0, 0x0, 1, 0x100, 1, 16, 11, .rc, .val 0, 0, 2 ^ 32 - 1⟩
/-- DEV_PLYPOOL.USED, spec/09_run_ahead_commit.md (R195). -/
def DEV_PLYPOOL_USED : Fld := ⟨0x0, 0x0, 1, 0x100, 1, 0, 11, .ro, .val 0, 0, 2 ^ 32 - 1⟩
/-- LC_CTRL.CMD, spec/10_scheme_logic.md (R223). -/
def LC_CTRL_CMD : Fld := ⟨0xa0000, 0x100, 4, 0x0, 1, 0, 2, .wo, .val 0, 0, 2 ^ 32 - 1⟩
/-- LC_STAT.CONSEC, spec/10_scheme_logic.md (R4). -/
def LC_STAT_CONSEC : Fld := ⟨0xa0000, 0x100, 4, 0x4, 1, 24, 8, .ro, .val 0, 0, 2 ^ 32 - 1⟩
/-- LC_STAT.RESTORED, spec/10_scheme_logic.md (R224). -/
def LC_STAT_RESTORED : Fld := ⟨0xa0000, 0x100, 4, 0x4, 1, 5, 1, .ro, .val 0, 0, 2 ^ 32 - 1⟩
/-- LC_STAT.FALLBACK, spec/10_scheme_logic.md (R224). -/
def LC_STAT_FALLBACK : Fld := ⟨0xa0000, 0x100, 4, 0x4, 1, 4, 1, .w1c, .val 0, 0, 2 ^ 32 - 1⟩
/-- LC_STAT.STK, spec/10_scheme_logic.md (R218). -/
def LC_STAT_STK : Fld := ⟨0xa0000, 0x100, 4, 0x4, 1, 3, 1, .w1c, .val 0, 0, 2 ^ 32 - 1⟩
/-- LC_STAT.OVR, spec/10_scheme_logic.md (R221). -/
def LC_STAT_OVR : Fld := ⟨0xa0000, 0x100, 4, 0x4, 1, 2, 1, .w1c, .val 0, 0, 2 ^ 32 - 1⟩
/-- LC_STAT.STATE, spec/10_scheme_logic.md (R4). -/
def LC_STAT_STATE : Fld := ⟨0xa0000, 0x100, 4, 0x4, 1, 0, 2, .ro, .val 0, 0, 2 ^ 32 - 1⟩
/-- LC_CFG.WARM, spec/10_scheme_logic.md (R4). -/
def LC_CFG_WARM : Fld := ⟨0xa0000, 0x100, 4, 0x8, 1, 29, 1, .ro, .val 1, 0, 2 ^ 32 - 1⟩
/-- LC_CFG.ASEC, spec/10_scheme_logic.md (R4). -/
def LC_CFG_ASEC : Fld := ⟨0xa0000, 0x100, 4, 0x8, 1, 24, 5, .ro, .val 0, 0, 2 ^ 32 - 1⟩
/-- LC_CFG.DEADLINE, spec/10_scheme_logic.md (R4). -/
def LC_CFG_DEADLINE : Fld := ⟨0xa0000, 0x100, 4, 0x8, 1, 0, 14, .ro, .val 1000, 0, 2 ^ 32 - 1⟩
/-- LC_RET.NV, spec/10_scheme_logic.md (R4). -/
def LC_RET_NV : Fld := ⟨0xa0000, 0x100, 4, 0xc, 1, 16, 9, .ro, .val 0, 0, 2 ^ 32 - 1⟩
/-- LC_RET.NC, spec/10_scheme_logic.md (R4). -/
def LC_RET_NC : Fld := ⟨0xa0000, 0x100, 4, 0xc, 1, 0, 7, .ro, .val 0, 0, 2 ^ 32 - 1⟩
/-- LC_PROG.LEN, spec/10_scheme_logic.md (R4). -/
def LC_PROG_LEN : Fld := ⟨0xa0000, 0x100, 4, 0x24, 1, 0, 17, .ro, .val 0, 0, 2 ^ 32 - 1⟩
/-- LC_SCAN.MAX, spec/10_scheme_logic.md (R4). -/
def LC_SCAN_MAX : Fld := ⟨0xa0000, 0x100, 4, 0x10, 1, 16, 16, .rc, .val 0, 0, 2 ^ 32 - 1⟩
/-- LC_SCAN.LAST, spec/10_scheme_logic.md (R4). -/
def LC_SCAN_LAST : Fld := ⟨0xa0000, 0x100, 4, 0x10, 1, 0, 16, .ro, .val 0, 0, 2 ^ 32 - 1⟩
/-- LC_SCANCNT.SCANS, spec/10_scheme_logic.md (R4). -/
def LC_SCANCNT_SCANS : Fld := ⟨0xa0000, 0x100, 4, 0x14, 1, 0, 32, .ro, .val 0, 0, 2 ^ 32 - 1⟩
/-- LC_OVRCNT.OVR, spec/10_scheme_logic.md (R221). -/
def LC_OVRCNT_OVR : Fld := ⟨0xa0000, 0x100, 4, 0x18, 1, 0, 16, .rc, .val 0, 0, 2 ^ 32 - 1⟩
/-- LC_VADDR.KIND, spec/10_scheme_logic.md (R4). -/
def LC_VADDR_KIND : Fld := ⟨0xa0000, 0x100, 4, 0x1c, 1, 12, 2, .rw, .val 0, 0, 2⟩
/-- LC_VADDR.INDEX, spec/10_scheme_logic.md (R4). -/
def LC_VADDR_INDEX : Fld := ⟨0xa0000, 0x100, 4, 0x1c, 1, 0, 12, .rw, .val 0, 0, 2 ^ 32 - 1⟩
/-- LC_VDATA.DATA, spec/10_scheme_logic.md (R205). -/
def LC_VDATA_DATA : Fld := ⟨0xa0000, 0x100, 4, 0x20, 1, 0, 32, .ro, .val 0, 0, 2 ^ 32 - 1⟩
/-- LC_FSTAT.REF, spec/10_scheme_logic.md (R225). -/
def LC_FSTAT_REF : Fld := ⟨0xa0000, 0x0, 1, 0x1000, 1, 10, 1, .w1c, .val 0, 0, 2 ^ 32 - 1⟩
/-- LC_FSTAT.FORCEDN, spec/10_scheme_logic.md (R228). -/
def LC_FSTAT_FORCEDN : Fld := ⟨0xa0000, 0x0, 1, 0x1000, 1, 9, 1, .ro, .val 0, 0, 2 ^ 32 - 1⟩
/-- LC_FSTAT.TESTMODE, spec/10_scheme_logic.md (R228). -/
def LC_FSTAT_TESTMODE : Fld := ⟨0xa0000, 0x0, 1, 0x1000, 1, 8, 1, .ro, .val 0, 0, 2 ^ 32 - 1⟩
/-- LC_FSTAT.COUNT, spec/10_scheme_logic.md (R4). -/
def LC_FSTAT_COUNT : Fld := ⟨0xa0000, 0x0, 1, 0x1000, 1, 0, 7, .ro, .val 0, 0, 2 ^ 32 - 1⟩
/-- LC_FSEL.ENTRY, spec/10_scheme_logic.md (R4). -/
def LC_FSEL_ENTRY : Fld := ⟨0xa0000, 0x0, 1, 0x1004, 1, 0, 6, .rw, .val 0, 0, 2 ^ 32 - 1⟩
/-- LC_FCTRL.RELALL, spec/10_scheme_logic.md (R4). -/
def LC_FCTRL_RELALL : Fld := ⟨0xa0000, 0x0, 1, 0x1010, 1, 2, 1, .wo, .val 0, 0, 2 ^ 32 - 1⟩
/-- LC_FCTRL.RELEASE, spec/10_scheme_logic.md (R4). -/
def LC_FCTRL_RELEASE : Fld := ⟨0xa0000, 0x0, 1, 0x1010, 1, 1, 1, .wo, .val 0, 0, 2 ^ 32 - 1⟩
/-- LC_FCTRL.APPLY, spec/10_scheme_logic.md (R4). -/
def LC_FCTRL_APPLY : Fld := ⟨0xa0000, 0x0, 1, 0x1010, 1, 0, 1, .wo, .val 0, 0, 2 ^ 32 - 1⟩
/-- LC_FDEF.ACTIVE, spec/10_scheme_logic.md (R4). -/
def LC_FDEF_ACTIVE : Fld := ⟨0xa0000, 0x0, 1, 0x1008, 1, 31, 1, .ro, .val 0, 0, 2 ^ 32 - 1⟩
/-- LC_FDEF.KIND, spec/10_scheme_logic.md (R4). -/
def LC_FDEF_KIND : Fld := ⟨0xa0000, 0x0, 1, 0x1008, 1, 30, 1, .rw, .val 0, 0, 2 ^ 32 - 1⟩
/-- LC_FDEF.TARGET, spec/10_scheme_logic.md (R4). -/
def LC_FDEF_TARGET : Fld := ⟨0xa0000, 0x0, 1, 0x1008, 1, 0, 17, .rw, .val 0, 0, 2 ^ 32 - 1⟩
/-- LC_FVAL.VALUE, spec/10_scheme_logic.md (R4). -/
def LC_FVAL_VALUE : Fld := ⟨0xa0000, 0x0, 1, 0x100c, 1, 0, 24, .rw, .val 0, 0, 2 ^ 32 - 1⟩
/-- LN_TCCFG.PERIOD, spec/11_gauntlet_field_io.md (R232). -/
def LN_TCCFG_PERIOD : Fld := ⟨0x40000, 0x400, 32, 0x200, 1, 16, 8, .ro, .val 10, 0, 2 ^ 32 - 1⟩
/-- LN_TCCFG.SECTION, spec/11_gauntlet_field_io.md (R4). -/
def LN_TCCFG_SECTION : Fld := ⟨0x40000, 0x400, 32, 0x200, 1, 8, 5, .ro, .val 0, 0, 2 ^ 32 - 1⟩
/-- LN_TCCFG.RING, spec/11_gauntlet_field_io.md (R230). -/
def LN_TCCFG_RING : Fld := ⟨0x40000, 0x400, 32, 0x200, 1, 7, 1, .ro, .val 0, 0, 2 ^ 32 - 1⟩
/-- LN_TCCFG.TILES, spec/11_gauntlet_field_io.md (R4). -/
def LN_TCCFG_TILES : Fld := ⟨0x40000, 0x400, 32, 0x200, 1, 0, 7, .ro, .val 0, 0, 2 ^ 32 - 1⟩
/-- LN_TCSTAT.FOUND, spec/11_gauntlet_field_io.md (R4). -/
def LN_TCSTAT_FOUND : Fld := ⟨0x40000, 0x400, 32, 0x204, 1, 16, 7, .ro, .val 0, 0, 2 ^ 32 - 1⟩
/-- LN_TCSTAT.SAFE, spec/11_gauntlet_field_io.md (R4). -/
def LN_TCSTAT_SAFE : Fld := ⟨0x40000, 0x400, 32, 0x204, 1, 7, 1, .ro, .val 0, 0, 2 ^ 32 - 1⟩
/-- LN_TCSTAT.RBMM, spec/11_gauntlet_field_io.md (R249). -/
def LN_TCSTAT_RBMM : Fld := ⟨0x40000, 0x400, 32, 0x204, 1, 6, 1, .w1c, .val 0, 0, 2 ^ 32 - 1⟩
/-- LN_TCSTAT.OUTFLT, spec/11_gauntlet_field_io.md (R4). -/
def LN_TCSTAT_OUTFLT : Fld := ⟨0x40000, 0x400, 32, 0x204, 1, 5, 1, .w1c, .val 0, 0, 2 ^ 32 - 1⟩
/-- LN_TCSTAT.GRPMM, spec/11_gauntlet_field_io.md (R4). -/
def LN_TCSTAT_GRPMM : Fld := ⟨0x40000, 0x400, 32, 0x204, 1, 4, 1, .w1c, .val 0, 0, 2 ^ 32 - 1⟩
/-- LN_TCSTAT.CTAGMM, spec/11_gauntlet_field_io.md (R255). -/
def LN_TCSTAT_CTAGMM : Fld := ⟨0x40000, 0x400, 32, 0x204, 1, 3, 1, .w1c, .val 0, 0, 2 ^ 32 - 1⟩
/-- LN_TCSTAT.ENUMERR, spec/11_gauntlet_field_io.md (R254). -/
def LN_TCSTAT_ENUMERR : Fld := ⟨0x40000, 0x400, 32, 0x204, 1, 2, 1, .w1c, .val 0, 0, 2 ^ 32 - 1⟩
/-- LN_TCSTAT.LOST, spec/11_gauntlet_field_io.md (R256). -/
def LN_TCSTAT_LOST : Fld := ⟨0x40000, 0x400, 32, 0x204, 1, 1, 1, .w1c, .val 0, 0, 2 ^ 32 - 1⟩
/-- LN_TCSTAT.RUN, spec/11_gauntlet_field_io.md (R4). -/
def LN_TCSTAT_RUN : Fld := ⟨0x40000, 0x400, 32, 0x204, 1, 0, 1, .ro, .val 0, 0, 2 ^ 32 - 1⟩
/-- LN_TCCTRL.CONF, spec/11_gauntlet_field_io.md (R255). -/
def LN_TCCTRL_CONF : Fld := ⟨0x40000, 0x400, 32, 0x208, 1, 1, 1, .wo, .val 0, 0, 2 ^ 32 - 1⟩
/-- LN_TCCTRL.ENUM, spec/11_gauntlet_field_io.md (R254). -/
def LN_TCCTRL_ENUM : Fld := ⟨0x40000, 0x400, 32, 0x208, 1, 0, 1, .wo, .val 0, 0, 2 ^ 32 - 1⟩
/-- LN_TCSVC.LAST, spec/11_gauntlet_field_io.md (R4). -/
def LN_TCSVC_LAST : Fld := ⟨0x40000, 0x400, 32, 0x20c, 1, 16, 6, .rw, .val 0, 0, 2 ^ 32 - 1⟩
/-- LN_TCSVC.FIRST, spec/11_gauntlet_field_io.md (R4). -/
def LN_TCSVC_FIRST : Fld := ⟨0x40000, 0x400, 32, 0x20c, 1, 0, 6, .rw, .val 0, 0, 2 ^ 32 - 1⟩
/-- LN_TCSEL.ADDR, spec/11_gauntlet_field_io.md (R4). -/
def LN_TCSEL_ADDR : Fld := ⟨0x40000, 0x400, 32, 0x214, 1, 0, 6, .rw, .val 0, 0, 2 ^ 32 - 1⟩
/-- LN_TCCNT.DCRC, spec/11_gauntlet_field_io.md (R4). -/
def LN_TCCNT_DCRC : Fld := ⟨0x40000, 0x400, 32, 0x210, 1, 20, 12, .rc, .val 0, 0, 2 ^ 32 - 1⟩
/-- LN_TCCNT.MISS, spec/11_gauntlet_field_io.md (R4). -/
def LN_TCCNT_MISS : Fld := ⟨0x40000, 0x400, 32, 0x210, 1, 8, 12, .rc, .val 0, 0, 2 ^ 32 - 1⟩
/-- LN_TCCNT.DROP, spec/11_gauntlet_field_io.md (R237). -/
def LN_TCCNT_DROP : Fld := ⟨0x40000, 0x400, 32, 0x210, 1, 0, 8, .rc, .val 0, 0, 2 ^ 32 - 1⟩
/-- LN_TILESTAT.ACLAIM, spec/11_gauntlet_field_io.md (R4). -/
def LN_TILESTAT_ACLAIM : Fld := ⟨0x40000, 0x400, 32, 0x218, 1, 16, 16, .ro, .val 0, 0, 2 ^ 32 - 1⟩
/-- LN_TILESTAT.LOST, spec/11_gauntlet_field_io.md (R256). -/
def LN_TILESTAT_LOST : Fld := ⟨0x40000, 0x400, 32, 0x218, 1, 9, 1, .ro, .val 0, 0, 2 ^ 32 - 1⟩
/-- LN_TILESTAT.UNSERVED, spec/11_gauntlet_field_io.md (R4). -/
def LN_TILESTAT_UNSERVED : Fld := ⟨0x40000, 0x400, 32, 0x218, 1, 8, 1, .ro, .val 0, 0, 2 ^ 32 - 1⟩
/-- LN_TILESTAT.STAT, spec/11_gauntlet_field_io.md (R236). -/
def LN_TILESTAT_STAT : Fld := ⟨0x40000, 0x400, 32, 0x218, 1, 0, 8, .ro, .val 0, 0, 2 ^ 32 - 1⟩
/-- LN_TILEIO.RB, spec/11_gauntlet_field_io.md (R4). -/
def LN_TILEIO_RB : Fld := ⟨0x40000, 0x400, 32, 0x21c, 1, 24, 8, .ro, .val 0, 0, 2 ^ 32 - 1⟩
/-- LN_TILEIO.CMD, spec/11_gauntlet_field_io.md (R4). -/
def LN_TILEIO_CMD : Fld := ⟨0x40000, 0x400, 32, 0x21c, 1, 16, 8, .ro, .val 0, 0, 2 ^ 32 - 1⟩
/-- LN_TILEIO.IN, spec/11_gauntlet_field_io.md (R4). -/
def LN_TILEIO_IN : Fld := ⟨0x40000, 0x400, 32, 0x21c, 1, 0, 16, .ro, .val 0, 0, 2 ^ 32 - 1⟩
/-- LN_TILEID.SERIAL, spec/11_gauntlet_field_io.md (R4). -/
def LN_TILEID_SERIAL : Fld := ⟨0x40000, 0x400, 32, 0x220, 1, 0, 32, .ro, .val 0, 0, 2 ^ 32 - 1⟩
/-- LN_TILECFG.FEEDER, spec/11_gauntlet_field_io.md (R4). -/
def LN_TILECFG_FEEDER : Fld := ⟨0x40000, 0x400, 32, 0x224, 1, 16, 11, .ro, .val 0, 0, 2 ^ 32 - 1⟩
/-- LN_TILECFG.CTAG, spec/11_gauntlet_field_io.md (R255). -/
def LN_TILECFG_CTAG : Fld := ⟨0x40000, 0x400, 32, 0x224, 1, 0, 16, .ro, .val 0, 0, 2 ^ 32 - 1⟩
/-- LN_CFG.REFCLK, spec/12_serial_lanes.md (R258). -/
def LN_CFG_REFCLK : Fld := ⟨0x40000, 0x400, 32, 0x0, 1, 8, 2, .ro, .instDiv8, 0, 2 ^ 32 - 1⟩
/-- LN_CFG.MODE, spec/12_serial_lanes.md (R258). -/
def LN_CFG_MODE : Fld := ⟨0x40000, 0x400, 32, 0x0, 1, 0, 3, .ro, .val 0, 0, 2 ^ 32 - 1⟩
/-- LN_CTRL.RETRAIN, spec/12_serial_lanes.md (R274). -/
def LN_CTRL_RETRAIN : Fld := ⟨0x40000, 0x400, 32, 0x4, 1, 2, 1, .wo, .val 0, 0, 2 ^ 32 - 1⟩
/-- LN_CTRL.STOP, spec/12_serial_lanes.md (R4). -/
def LN_CTRL_STOP : Fld := ⟨0x40000, 0x400, 32, 0x4, 1, 1, 1, .wo, .val 0, 0, 2 ^ 32 - 1⟩
/-- LN_CTRL.START, spec/12_serial_lanes.md (R4). -/
def LN_CTRL_START : Fld := ⟨0x40000, 0x400, 32, 0x4, 1, 0, 1, .wo, .val 0, 0, 2 ^ 32 - 1⟩
/-- LN_STAT.STATE, spec/12_serial_lanes.md (R4). -/
def LN_STAT_STATE : Fld := ⟨0x40000, 0x400, 32, 0x8, 1, 14, 2, .ro, .val 0, 0, 2 ^ 32 - 1⟩
/-- LN_STAT.PENDING, spec/12_serial_lanes.md (R4). -/
def LN_STAT_PENDING : Fld := ⟨0x40000, 0x400, 32, 0x8, 1, 13, 1, .ro, .val 0, 0, 2 ^ 32 - 1⟩
/-- LN_STAT.RETRAINING, spec/12_serial_lanes.md (R274). -/
def LN_STAT_RETRAINING : Fld := ⟨0x40000, 0x400, 32, 0x8, 1, 12, 1, .ro, .val 0, 0, 2 ^ 32 - 1⟩
/-- LN_STAT.REFUSED, spec/12_serial_lanes.md (R276). -/
def LN_STAT_REFUSED : Fld := ⟨0x40000, 0x400, 32, 0x8, 1, 5, 1, .w1c, .val 0, 0, 2 ^ 32 - 1⟩
/-- LN_STAT.DOWNEVT, spec/12_serial_lanes.md (R265). -/
def LN_STAT_DOWNEVT : Fld := ⟨0x40000, 0x400, 32, 0x8, 1, 4, 1, .w1c, .val 0, 0, 2 ^ 32 - 1⟩
/-- LN_STAT.SIGDET, spec/12_serial_lanes.md (R262). -/
def LN_STAT_SIGDET : Fld := ⟨0x40000, 0x400, 32, 0x8, 1, 2, 1, .ro, .val 0, 0, 2 ^ 32 - 1⟩
/-- LN_STAT.LOCK, spec/12_serial_lanes.md (R4). -/
def LN_STAT_LOCK : Fld := ⟨0x40000, 0x400, 32, 0x8, 1, 1, 1, .ro, .val 0, 0, 2 ^ 32 - 1⟩
/-- LN_STAT.UP, spec/12_serial_lanes.md (R263). -/
def LN_STAT_UP : Fld := ⟨0x40000, 0x400, 32, 0x8, 1, 0, 1, .ro, .val 0, 0, 2 ^ 32 - 1⟩
/-- LN_LINKCNT.DOWNS, spec/12_serial_lanes.md (R265). -/
def LN_LINKCNT_DOWNS : Fld := ⟨0x40000, 0x400, 32, 0xc, 1, 16, 16, .rc, .val 0, 0, 2 ^ 32 - 1⟩
/-- LN_LINKCNT.INVAL, spec/12_serial_lanes.md (R263, R268). -/
def LN_LINKCNT_INVAL : Fld := ⟨0x40000, 0x400, 32, 0xc, 1, 0, 16, .rc, .val 0, 0, 2 ^ 32 - 1⟩
/-- LN_CDR.PPM, spec/12_serial_lanes.md (R4). -/
def LN_CDR_PPM : Fld := ⟨0x40000, 0x400, 32, 0x10, 1, 0, 16, .ro, .val 0, 0, 2 ^ 32 - 1⟩
/-- LN_FRMCNT.RXDISC, spec/12_serial_lanes.md (R266, R268). -/
def LN_FRMCNT_RXDISC : Fld := ⟨0x40000, 0x400, 32, 0x14, 1, 16, 16, .rc, .val 0, 0, 2 ^ 32 - 1⟩
/-- LN_FRMCNT.TXDISC, spec/12_serial_lanes.md (R261). -/
def LN_FRMCNT_TXDISC : Fld := ⟨0x40000, 0x400, 32, 0x14, 1, 0, 16, .rc, .val 0, 0, 2 ^ 32 - 1⟩
/-- LN_TXEQ.SWING, spec/12_serial_lanes.md (R4). -/
def LN_TXEQ_SWING : Fld := ⟨0x40000, 0x400, 32, 0x18, 1, 16, 8, .ro, .val 80, 0, 2 ^ 32 - 1⟩
/-- LN_TXEQ.POST, spec/12_serial_lanes.md (R4). -/
def LN_TXEQ_POST : Fld := ⟨0x40000, 0x400, 32, 0x18, 1, 8, 5, .ro, .val 4, 0, 2 ^ 32 - 1⟩
/-- LN_TXEQ.PRE, spec/12_serial_lanes.md (R4). -/
def LN_TXEQ_PRE : Fld := ⟨0x40000, 0x400, 32, 0x18, 1, 0, 4, .ro, .val 0, 0, 2 ^ 32 - 1⟩
/-- LN_EQCTRL.FORCE, spec/12_serial_lanes.md (R272). -/
def LN_EQCTRL_FORCE : Fld := ⟨0x40000, 0x400, 32, 0x20, 1, 0, 6, .rw, .val 0, 0, 2 ^ 32 - 1⟩
/-- LN_EQSTAT.BOUNDEVT, spec/12_serial_lanes.md (R271). -/
def LN_EQSTAT_BOUNDEVT : Fld := ⟨0x40000, 0x400, 32, 0x24, 1, 16, 6, .w1c, .val 0, 0, 2 ^ 32 - 1⟩
/-- LN_EQSTAT.ATBOUND, spec/12_serial_lanes.md (R4). -/
def LN_EQSTAT_ATBOUND : Fld := ⟨0x40000, 0x400, 32, 0x24, 1, 0, 6, .ro, .val 0, 0, 2 ^ 32 - 1⟩
/-- LN_EQMET.EYE, spec/12_serial_lanes.md (R4). -/
def LN_EQMET_EYE : Fld := ⟨0x40000, 0x400, 32, 0x28, 1, 16, 16, .ro, .val 0, 0, 2 ^ 32 - 1⟩
/-- LN_EQMET.MSE, spec/12_serial_lanes.md (R4). -/
def LN_EQMET_MSE : Fld := ⟨0x40000, 0x400, 32, 0x28, 1, 0, 16, .ro, .val 0, 0, 2 ^ 32 - 1⟩
/-- LN_CTLE.FVAL, spec/12_serial_lanes.md (R270). -/
def LN_CTLE_FVAL : Fld := ⟨0x40000, 0x400, 32, 0x30, 1, 24, 8, .rw, .val 0, 0, 31⟩
/-- LN_DFEp.FVAL, spec/12_serial_lanes.md (R270). -/
def LN_DFE_FVAL : Fld := ⟨0x40000, 0x400, 32, 0x34, 5, 24, 8, .rw, .val 0, 0, 2 ^ 32 - 1⟩
/-- LN_CTLE.MAX, spec/12_serial_lanes.md (R273). -/
def LN_CTLE_MAX : Fld := ⟨0x40000, 0x400, 32, 0x30, 1, 16, 8, .rw, .val 0, 0, 31⟩
/-- LN_DFEp.MAX, spec/12_serial_lanes.md (R273). -/
def LN_DFE_MAX : Fld := ⟨0x40000, 0x400, 32, 0x34, 5, 16, 8, .rw, .val 0, 0, 2 ^ 32 - 1⟩
/-- LN_CTLE.MIN, spec/12_serial_lanes.md (R273). -/
def LN_CTLE_MIN : Fld := ⟨0x40000, 0x400, 32, 0x30, 1, 8, 8, .rw, .val 0, 0, 31⟩
/-- LN_DFEp.MIN, spec/12_serial_lanes.md (R273). -/
def LN_DFE_MIN : Fld := ⟨0x40000, 0x400, 32, 0x34, 5, 8, 8, .rw, .val 0, 0, 2 ^ 32 - 1⟩
/-- LN_CTLE.VALUE, spec/12_serial_lanes.md (R4). -/
def LN_CTLE_VALUE : Fld := ⟨0x40000, 0x400, 32, 0x30, 1, 0, 8, .ro, .val 0, 0, 2 ^ 32 - 1⟩
/-- LN_DFEp.VALUE, spec/12_serial_lanes.md (R4). -/
def LN_DFE_VALUE : Fld := ⟨0x40000, 0x400, 32, 0x34, 5, 0, 8, .ro, .val 0, 0, 2 ^ 32 - 1⟩
/-- LN_PRBSCTRL.CPOLY, spec/12_serial_lanes.md (R276). -/
def LN_PRBSCTRL_CPOLY : Fld := ⟨0x40000, 0x400, 32, 0x60, 1, 9, 2, .rw, .val 0, 0, 2 ^ 32 - 1⟩
/-- LN_PRBSCTRL.CEN, spec/12_serial_lanes.md (R4). -/
def LN_PRBSCTRL_CEN : Fld := ⟨0x40000, 0x400, 32, 0x60, 1, 8, 1, .rw, .val 0, 0, 2 ^ 32 - 1⟩
/-- LN_PRBSCTRL.GPOLY, spec/12_serial_lanes.md (R4). -/
def LN_PRBSCTRL_GPOLY : Fld := ⟨0x40000, 0x400, 32, 0x60, 1, 1, 2, .rw, .val 0, 0, 2 ^ 32 - 1⟩
/-- LN_PRBSCTRL.GEN, spec/12_serial_lanes.md (R276). -/
def LN_PRBSCTRL_GEN : Fld := ⟨0x40000, 0x400, 32, 0x60, 1, 0, 1, .rw, .val 0, 0, 2 ^ 32 - 1⟩
/-- LN_PRBSSTAT.LOSTEVT, spec/12_serial_lanes.md (R277). -/
def LN_PRBSSTAT_LOSTEVT : Fld := ⟨0x40000, 0x400, 32, 0x64, 1, 1, 1, .w1c, .val 0, 0, 2 ^ 32 - 1⟩
/-- LN_PRBSSTAT.LOCKED, spec/12_serial_lanes.md (R4). -/
def LN_PRBSSTAT_LOCKED : Fld := ⟨0x40000, 0x400, 32, 0x64, 1, 0, 1, .ro, .val 0, 0, 2 ^ 32 - 1⟩
/-- LN_PRBSERR.ERRORS, spec/12_serial_lanes.md (R4). -/
def LN_PRBSERR_ERRORS : Fld := ⟨0x40000, 0x400, 32, 0x68, 1, 0, 32, .rc, .val 0, 0, 2 ^ 32 - 1⟩
/-- LN_PRBSBITS.BITS, spec/12_serial_lanes.md (R4). -/
def LN_PRBSBITS_BITS : Fld := ⟨0x40000, 0x400, 32, 0x6c, 1, 0, 32, .rc, .val 0, 0, 2 ^ 32 - 1⟩
/-- LN_INJ.KIND, spec/12_serial_lanes.md (R278). -/
def LN_INJ_KIND : Fld := ⟨0x40000, 0x400, 32, 0x70, 1, 30, 2, .rw, .val 0, 0, 2 ^ 32 - 1⟩
/-- LN_INJ.LEN, spec/12_serial_lanes.md (R4). -/
def LN_INJ_LEN : Fld := ⟨0x40000, 0x400, 32, 0x70, 1, 8, 8, .rw, .val 1, 1, 255⟩
/-- LN_INJ.RATE, spec/12_serial_lanes.md (R4). -/
def LN_INJ_RATE : Fld := ⟨0x40000, 0x400, 32, 0x70, 1, 0, 5, .rw, .val 10, 10, 31⟩
/-- LN_INJCNT.INJECTED, spec/12_serial_lanes.md (R4). -/
def LN_INJCNT_INJECTED : Fld := ⟨0x40000, 0x400, 32, 0x74, 1, 0, 32, .rc, .val 0, 0, 2 ^ 32 - 1⟩
/-- TB_CTRL.DISABLE, spec/13_process_bus_and_time.md (R294). -/
def TB_CTRL_DISABLE : Fld := ⟨0x60000, 0x100, 4, 0x0, 1, 1, 1, .wo, .val 0, 0, 2 ^ 32 - 1⟩
/-- TB_CTRL.ENABLE, spec/13_process_bus_and_time.md (R4). -/
def TB_CTRL_ENABLE : Fld := ⟨0x60000, 0x100, 4, 0x0, 1, 0, 1, .wo, .val 0, 0, 2 ^ 32 - 1⟩
/-- TB_STAT.BASE, spec/13_process_bus_and_time.md (R296). -/
def TB_STAT_BASE : Fld := ⟨0x60000, 0x100, 4, 0x4, 1, 8, 1, .ro, .val 0, 0, 2 ^ 32 - 1⟩
/-- TB_STAT.WREF, spec/13_process_bus_and_time.md (R298). -/
def TB_STAT_WREF : Fld := ⟨0x60000, 0x100, 4, 0x4, 1, 7, 1, .w1c, .val 0, 0, 2 ^ 32 - 1⟩
/-- TB_STAT.PPSEVT, spec/13_process_bus_and_time.md (R297). -/
def TB_STAT_PPSEVT : Fld := ⟨0x60000, 0x100, 4, 0x4, 1, 6, 1, .w1c, .val 0, 0, 2 ^ 32 - 1⟩
/-- TB_STAT.STEPREF, spec/13_process_bus_and_time.md (R294). -/
def TB_STAT_STEPREF : Fld := ⟨0x60000, 0x100, 4, 0x4, 1, 5, 1, .w1c, .val 0, 0, 2 ^ 32 - 1⟩
/-- TB_STAT.LOCKEVT, spec/13_process_bus_and_time.md (R4). -/
def TB_STAT_LOCKEVT : Fld := ⟨0x60000, 0x100, 4, 0x4, 1, 4, 1, .w1c, .val 0, 0, 2 ^ 32 - 1⟩
/-- TB_STAT.HOLDOVER, spec/13_process_bus_and_time.md (R295). -/
def TB_STAT_HOLDOVER : Fld := ⟨0x60000, 0x100, 4, 0x4, 1, 3, 1, .ro, .val 0, 0, 2 ^ 32 - 1⟩
/-- TB_STAT.STEPPED, spec/13_process_bus_and_time.md (R4). -/
def TB_STAT_STEPPED : Fld := ⟨0x60000, 0x100, 4, 0x4, 1, 2, 1, .ro, .val 0, 0, 2 ^ 32 - 1⟩
/-- TB_STAT.LOCK, spec/13_process_bus_and_time.md (R295). -/
def TB_STAT_LOCK : Fld := ⟨0x60000, 0x100, 4, 0x4, 1, 1, 1, .ro, .val 0, 0, 2 ^ 32 - 1⟩
/-- TB_STAT.EN, spec/13_process_bus_and_time.md (R4). -/
def TB_STAT_EN : Fld := ⟨0x60000, 0x100, 4, 0x4, 1, 0, 1, .ro, .val 0, 0, 2 ^ 32 - 1⟩
/-- TB_CFG.DOMAIN, spec/13_process_bus_and_time.md (R4). -/
def TB_CFG_DOMAIN : Fld := ⟨0x60000, 0x100, 4, 0x8, 1, 24, 8, .ro, .inst, 0, 2 ^ 32 - 1⟩
/-- TB_CFG.LOCKTH, spec/13_process_bus_and_time.md (R4). -/
def TB_CFG_LOCKTH : Fld := ⟨0x60000, 0x100, 4, 0x8, 1, 16, 8, .ro, .val 10, 0, 2 ^ 32 - 1⟩
/-- TB_CFG.HOLD, spec/13_process_bus_and_time.md (R4). -/
def TB_CFG_HOLD : Fld := ⟨0x60000, 0x100, 4, 0x8, 1, 8, 5, .ro, .val 5, 0, 2 ^ 32 - 1⟩
/-- TB_CFG.PPSOUT, spec/13_process_bus_and_time.md (R4). -/
def TB_CFG_PPSOUT : Fld := ⟨0x60000, 0x100, 4, 0x8, 1, 6, 2, .ro, .val 2, 0, 2 ^ 32 - 1⟩
/-- TB_CFG.PPSPOL, spec/13_process_bus_and_time.md (R4). -/
def TB_CFG_PPSPOL : Fld := ⟨0x60000, 0x100, 4, 0x8, 1, 5, 1, .ro, .val 0, 0, 2 ^ 32 - 1⟩
/-- TB_CFG.SRC, spec/13_process_bus_and_time.md (R4). -/
def TB_CFG_SRC : Fld := ⟨0x60000, 0x100, 4, 0x8, 1, 0, 2, .ro, .below 1 1, 0, 2 ^ 32 - 1⟩
/-- TB_NS.NS, spec/13_process_bus_and_time.md (R292). -/
def TB_NS_NS : Fld := ⟨0x60000, 0x100, 4, 0xc, 1, 0, 32, .ro, .val 0, 0, 2 ^ 32 - 1⟩
/-- TB_RATE.RATE, spec/13_process_bus_and_time.md (R298). -/
def TB_RATE_RATE : Fld := ⟨0x60000, 0x100, 4, 0x10, 1, 0, 32, .rw, .val 0, 0, 2 ^ 32 - 1⟩
/-- TB_STEP.STEP, spec/13_process_bus_and_time.md (R294). -/
def TB_STEP_STEP : Fld := ⟨0x60000, 0x100, 4, 0x14, 1, 0, 32, .wo, .val 0, 0, 2 ^ 32 - 1⟩
/-- TB_OFFSET.OFFSET, spec/13_process_bus_and_time.md (R4). -/
def TB_OFFSET_OFFSET : Fld := ⟨0x60000, 0x100, 4, 0x18, 1, 0, 32, .ro, .val 0, 0, 2 ^ 32 - 1⟩
/-- TB_BASENS.BASENS, spec/13_process_bus_and_time.md (R296). -/
def TB_BASENS_BASENS : Fld := ⟨0x60000, 0x100, 4, 0x1c, 1, 0, 32, .ro, .val 0, 0, 2 ^ 32 - 1⟩
/-- TB_BASESECL.SECL, spec/13_process_bus_and_time.md (R4). -/
def TB_BASESECL_SECL : Fld := ⟨0x60000, 0x100, 4, 0x20, 1, 0, 32, .ro, .val 0, 0, 2 ^ 32 - 1⟩
/-- TB_BASESECH.NSHI, spec/13_process_bus_and_time.md (R4). -/
def TB_BASESECH_NSHI : Fld := ⟨0x60000, 0x100, 4, 0x24, 1, 30, 2, .ro, .val 0, 0, 2 ^ 32 - 1⟩
/-- TB_BASESECH.SECH, spec/13_process_bus_and_time.md (R4). -/
def TB_BASESECH_SECH : Fld := ⟨0x60000, 0x100, 4, 0x24, 1, 0, 16, .ro, .val 0, 0, 2 ^ 32 - 1⟩
/-- TB_PPSCAP.CAP, spec/13_process_bus_and_time.md (R4). -/
def TB_PPSCAP_CAP : Fld := ⟨0x60000, 0x100, 4, 0x28, 1, 0, 32, .ro, .val 0, 0, 2 ^ 32 - 1⟩
/-- TB_PPSAT.AT, spec/13_process_bus_and_time.md (R297, R298). -/
def TB_PPSAT_AT : Fld := ⟨0x60000, 0x100, 4, 0x2c, 1, 0, 32, .rw, .val 0, 0, 2 ^ 32 - 1⟩
/-- LN_ETHCFG.PAIRLANE, spec/13_process_bus_and_time.md (R301). -/
def LN_ETHCFG_PAIRLANE : Fld := ⟨0x40000, 0x400, 32, 0x100, 1, 16, 5, .ro, .val 0, 0, 2 ^ 32 - 1⟩
/-- LN_ETHCFG.TCEN, spec/13_process_bus_and_time.md (R4). -/
def LN_ETHCFG_TCEN : Fld := ⟨0x40000, 0x400, 32, 0x100, 1, 15, 1, .ro, .val 0, 0, 2 ^ 32 - 1⟩
/-- LN_ETHCFG.PTPTB, spec/13_process_bus_and_time.md (R4). -/
def LN_ETHCFG_PTPTB : Fld := ⟨0x40000, 0x400, 32, 0x100, 1, 8, 2, .ro, .val 0, 0, 2 ^ 32 - 1⟩
/-- LN_ETHCFG.PTPEN, spec/13_process_bus_and_time.md (R4). -/
def LN_ETHCFG_PTPEN : Fld := ⟨0x40000, 0x400, 32, 0x100, 1, 7, 1, .ro, .val 0, 0, 2 ^ 32 - 1⟩
/-- LN_ETHCFG.SB, spec/13_process_bus_and_time.md (R279). -/
def LN_ETHCFG_SB : Fld := ⟨0x40000, 0x400, 32, 0x100, 1, 1, 1, .ro, .val 0, 0, 2 ^ 32 - 1⟩
/-- LN_ETHCFG.PB, spec/13_process_bus_and_time.md (R4). -/
def LN_ETHCFG_PB : Fld := ⟨0x40000, 0x400, 32, 0x100, 1, 0, 1, .ro, .val 1, 0, 2 ^ 32 - 1⟩
/-- LN_TSQHEAD.VALID, spec/13_process_bus_and_time.md (R300). -/
def LN_TSQHEAD_VALID : Fld := ⟨0x40000, 0x400, 32, 0x104, 1, 31, 1, .rc, .val 0, 0, 2 ^ 32 - 1⟩
/-- LN_TSQHEAD.ID, spec/13_process_bus_and_time.md (R4). -/
def LN_TSQHEAD_ID : Fld := ⟨0x40000, 0x400, 32, 0x104, 1, 0, 16, .rc, .val 0, 0, 2 ^ 32 - 1⟩
/-- LN_TSQNS.NS, spec/13_process_bus_and_time.md (R4). -/
def LN_TSQNS_NS : Fld := ⟨0x40000, 0x400, 32, 0x108, 1, 0, 32, .ro, .val 0, 0, 2 ^ 32 - 1⟩
/-- LN_TSQSTAT.OVF, spec/13_process_bus_and_time.md (R4). -/
def LN_TSQSTAT_OVF : Fld := ⟨0x40000, 0x400, 32, 0x10c, 1, 16, 16, .rc, .val 0, 0, 2 ^ 32 - 1⟩
/-- LN_TSQSTAT.FILL, spec/13_process_bus_and_time.md (R4). -/
def LN_TSQSTAT_FILL : Fld := ⟨0x40000, 0x400, 32, 0x10c, 1, 0, 5, .ro, .val 0, 0, 2 ^ 32 - 1⟩
/-- LN_LAUNCH.LATE, spec/13_process_bus_and_time.md (R288, R290). -/
def LN_LAUNCH_LATE : Fld := ⟨0x40000, 0x400, 32, 0x110, 1, 16, 16, .rc, .val 0, 0, 2 ^ 32 - 1⟩
/-- LN_LAUNCH.SENT, spec/13_process_bus_and_time.md (R4). -/
def LN_LAUNCH_SENT : Fld := ⟨0x40000, 0x400, 32, 0x110, 1, 0, 16, .rc, .val 0, 0, 2 ^ 32 - 1⟩
/-- LN_SVRX.DISC, spec/13_process_bus_and_time.md (R283). -/
def LN_SVRX_DISC : Fld := ⟨0x40000, 0x400, 32, 0x114, 1, 16, 16, .rc, .val 0, 0, 2 ^ 32 - 1⟩
/-- LN_SVRX.ACC, spec/13_process_bus_and_time.md (R4). -/
def LN_SVRX_ACC : Fld := ⟨0x40000, 0x400, 32, 0x114, 1, 0, 16, .ro, .val 0, 0, 2 ^ 32 - 1⟩
/-- LN_GORX.DISC, spec/13_process_bus_and_time.md (R287). -/
def LN_GORX_DISC : Fld := ⟨0x40000, 0x400, 32, 0x118, 1, 16, 16, .rc, .val 0, 0, 2 ^ 32 - 1⟩
/-- LN_GORX.ACC, spec/13_process_bus_and_time.md (R4). -/
def LN_GORX_ACC : Fld := ⟨0x40000, 0x400, 32, 0x118, 1, 0, 16, .ro, .val 0, 0, 2 ^ 32 - 1⟩
/-- LN_PTPFWD.NOMATCH, spec/13_process_bus_and_time.md (R301). -/
def LN_PTPFWD_NOMATCH : Fld := ⟨0x40000, 0x400, 32, 0x11c, 1, 16, 16, .rc, .val 0, 0, 2 ^ 32 - 1⟩
/-- LN_PTPFWD.FWD, spec/13_process_bus_and_time.md (R4). -/
def LN_PTPFWD_FWD : Fld := ⟨0x40000, 0x400, 32, 0x11c, 1, 0, 16, .ro, .val 0, 0, 2 ^ 32 - 1⟩
/-- LN_LATCOMP.TXLAT, spec/13_process_bus_and_time.md (R279). -/
def LN_LATCOMP_TXLAT : Fld := ⟨0x40000, 0x400, 32, 0x120, 1, 16, 16, .ro, .val 0, 0, 2 ^ 32 - 1⟩
/-- LN_LATCOMP.RXLAT, spec/13_process_bus_and_time.md (R4). -/
def LN_LATCOMP_RXLAT : Fld := ⟨0x40000, 0x400, 32, 0x120, 1, 0, 16, .ro, .val 0, 0, 2 ^ 32 - 1⟩
/-- PR_CFG.PAIRID, spec/14_pair_operation.md (R4). -/
def PR_CFG_PAIRID : Fld := ⟨0x90000, 0x0, 1, 0x0, 1, 16, 16, .ro, .val 0, 0, 2 ^ 32 - 1⟩
/-- PR_CFG.REFSEC, spec/14_pair_operation.md (R4). -/
def PR_CFG_REFSEC : Fld := ⟨0x90000, 0x0, 1, 0x0, 1, 8, 5, .ro, .val 0, 0, 2 ^ 32 - 1⟩
/-- PR_CFG.SIDE, spec/14_pair_operation.md (R4). -/
def PR_CFG_SIDE : Fld := ⟨0x90000, 0x0, 1, 0x0, 1, 1, 1, .ro, .val 0, 0, 2 ^ 32 - 1⟩
/-- PR_CFG.EN, spec/14_pair_operation.md (R4). -/
def PR_CFG_EN : Fld := ⟨0x90000, 0x0, 1, 0x0, 1, 0, 1, .ro, .val 0, 0, 2 ^ 32 - 1⟩
/-- PR_CTRL.CLRFAIL, spec/14_pair_operation.md (R305). -/
def PR_CTRL_CLRFAIL : Fld := ⟨0x90000, 0x0, 1, 0x4, 1, 2, 1, .wo, .val 0, 0, 2 ^ 32 - 1⟩
/-- PR_CTRL.CLRDEMOTE, spec/14_pair_operation.md (R321). -/
def PR_CTRL_CLRDEMOTE : Fld := ⟨0x90000, 0x0, 1, 0x4, 1, 1, 1, .wo, .val 0, 0, 2 ^ 32 - 1⟩
/-- PR_CTRL.CASTLE, spec/14_pair_operation.md (R324). -/
def PR_CTRL_CASTLE : Fld := ⟨0x90000, 0x0, 1, 0x4, 1, 0, 1, .wo, .val 0, 0, 2 ^ 32 - 1⟩
/-- PR_STAT.GHIGH, spec/14_pair_operation.md (R323). -/
def PR_STAT_GHIGH : Fld := ⟨0x90000, 0x0, 1, 0x8, 1, 23, 1, .ro, .val 0, 0, 2 ^ 32 - 1⟩
/-- PR_STAT.RINGSVC, spec/14_pair_operation.md (R311). -/
def PR_STAT_RINGSVC : Fld := ⟨0x90000, 0x0, 1, 0x8, 1, 22, 1, .ro, .val 0, 0, 2 ^ 32 - 1⟩
/-- PR_STAT.NOPEER, spec/14_pair_operation.md (R4). -/
def PR_STAT_NOPEER : Fld := ⟨0x90000, 0x0, 1, 0x8, 1, 21, 1, .ro, .val 0, 0, 2 ^ 32 - 1⟩
/-- PR_STAT.PAIROKIN, spec/14_pair_operation.md (R4). -/
def PR_STAT_PAIROKIN : Fld := ⟨0x90000, 0x0, 1, 0x8, 1, 20, 1, .ro, .val 0, 0, 2 ^ 32 - 1⟩
/-- PR_STAT.PAIROKREL, spec/14_pair_operation.md (R303). -/
def PR_STAT_PAIROKREL : Fld := ⟨0x90000, 0x0, 1, 0x8, 1, 19, 1, .ro, .val 0, 0, 2 ^ 32 - 1⟩
/-- PR_STAT.CASTLING, spec/14_pair_operation.md (R4). -/
def PR_STAT_CASTLING : Fld := ⟨0x90000, 0x0, 1, 0x8, 1, 18, 1, .ro, .val 0, 0, 2 ^ 32 - 1⟩
/-- PR_STAT.CONTEST, spec/14_pair_operation.md (R4). -/
def PR_STAT_CONTEST : Fld := ⟨0x90000, 0x0, 1, 0x8, 1, 17, 1, .ro, .val 0, 0, 2 ^ 32 - 1⟩
/-- PR_STAT.DEMHELD, spec/14_pair_operation.md (R322). -/
def PR_STAT_DEMHELD : Fld := ⟨0x90000, 0x0, 1, 0x8, 1, 16, 1, .ro, .val 0, 0, 2 ^ 32 - 1⟩
/-- PR_STAT.DEMOTED, spec/14_pair_operation.md (R321). -/
def PR_STAT_DEMOTED : Fld := ⟨0x90000, 0x0, 1, 0x8, 1, 15, 1, .ro, .val 0, 0, 2 ^ 32 - 1⟩
/-- PR_STAT.FAILED, spec/14_pair_operation.md (R319). -/
def PR_STAT_FAILED : Fld := ⟨0x90000, 0x0, 1, 0x8, 1, 14, 1, .ro, .val 0, 0, 2 ^ 32 - 1⟩
/-- PR_STAT.ACTIVE, spec/14_pair_operation.md (R4). -/
def PR_STAT_ACTIVE : Fld := ⟨0x90000, 0x0, 1, 0x8, 1, 13, 1, .ro, .val 0, 0, 2 ^ 32 - 1⟩
/-- PR_STAT.TAKEEVT, spec/14_pair_operation.md (R319, R323). -/
def PR_STAT_TAKEEVT : Fld := ⟨0x90000, 0x0, 1, 0x8, 1, 7, 1, .w1c, .val 0, 0, 2 ^ 32 - 1⟩
/-- PR_STAT.CASTREF, spec/14_pair_operation.md (R324). -/
def PR_STAT_CASTREF : Fld := ⟨0x90000, 0x0, 1, 0x8, 1, 6, 1, .w1c, .val 0, 0, 2 ^ 32 - 1⟩
/-- PR_STAT.CASTEVT, spec/14_pair_operation.md (R4). -/
def PR_STAT_CASTEVT : Fld := ⟨0x90000, 0x0, 1, 0x8, 1, 5, 1, .w1c, .val 0, 0, 2 ^ 32 - 1⟩
/-- PR_STAT.DEMOUTEVT, spec/14_pair_operation.md (R320). -/
def PR_STAT_DEMOUTEVT : Fld := ⟨0x90000, 0x0, 1, 0x8, 1, 4, 1, .w1c, .val 0, 0, 2 ^ 32 - 1⟩
/-- PR_STAT.DEMINEVT, spec/14_pair_operation.md (R4). -/
def PR_STAT_DEMINEVT : Fld := ⟨0x90000, 0x0, 1, 0x8, 1, 3, 1, .w1c, .val 0, 0, 2 ^ 32 - 1⟩
/-- PR_STAT.CONTESTEVT, spec/14_pair_operation.md (R4). -/
def PR_STAT_CONTESTEVT : Fld := ⟨0x90000, 0x0, 1, 0x8, 1, 2, 1, .w1c, .val 0, 0, 2 ^ 32 - 1⟩
/-- PR_STAT.MMEVT, spec/14_pair_operation.md (R317). -/
def PR_STAT_MMEVT : Fld := ⟨0x90000, 0x0, 1, 0x8, 1, 1, 1, .w1c, .val 0, 0, 2 ^ 32 - 1⟩
/-- PR_STAT.ROLEEVT, spec/14_pair_operation.md (R4). -/
def PR_STAT_ROLEEVT : Fld := ⟨0x90000, 0x0, 1, 0x8, 1, 0, 1, .w1c, .val 0, 0, 2 ^ 32 - 1⟩
/-- PR_CLAIM.CLAIM, spec/14_pair_operation.md (R306). -/
def PR_CLAIM_CLAIM : Fld := ⟨0x90000, 0x0, 1, 0xc, 1, 16, 16, .ro, .val 0, 0, 2 ^ 32 - 1⟩
/-- PR_CLAIM.G, spec/14_pair_operation.md (R4). -/
def PR_CLAIM_G : Fld := ⟨0x90000, 0x0, 1, 0xc, 1, 0, 15, .ro, .val 0, 0, 2 ^ 32 - 1⟩
/-- PR_PCLAIM.PCLAIM, spec/14_pair_operation.md (R307). -/
def PR_PCLAIM_PCLAIM : Fld := ⟨0x90000, 0x0, 1, 0x10, 1, 16, 16, .ro, .val 0, 0, 2 ^ 32 - 1⟩
/-- PR_PCLAIM.PSEEN, spec/14_pair_operation.md (R4). -/
def PR_PCLAIM_PSEEN : Fld := ⟨0x90000, 0x0, 1, 0x10, 1, 15, 1, .ro, .val 0, 0, 2 ^ 32 - 1⟩
/-- PR_PCLAIM.PG, spec/14_pair_operation.md (R4). -/
def PR_PCLAIM_PG : Fld := ⟨0x90000, 0x0, 1, 0x10, 1, 0, 15, .ro, .val 0, 0, 2 ^ 32 - 1⟩
/-- PR_ALIGN.ALIGNED, spec/14_pair_operation.md (R315). -/
def PR_ALIGN_ALIGNED : Fld := ⟨0x90000, 0x0, 1, 0x14, 1, 0, 24, .ro, .val 0, 0, 2 ^ 32 - 1⟩
/-- PR_MMSEC.MM, spec/14_pair_operation.md (R4). -/
def PR_MMSEC_MM : Fld := ⟨0x90000, 0x0, 1, 0x18, 1, 0, 24, .ro, .val 0, 0, 2 ^ 32 - 1⟩
/-- PR_CONTEST.COUNT, spec/14_pair_operation.md (R4). -/
def PR_CONTEST_COUNT : Fld := ⟨0x90000, 0x0, 1, 0x1c, 1, 16, 16, .rc, .val 0, 0, 2 ^ 32 - 1⟩
/-- PR_CONTEST.PRES, spec/14_pair_operation.md (R4). -/
def PR_CONTEST_PRES : Fld := ⟨0x90000, 0x0, 1, 0x1c, 1, 8, 4, .ro, .val 0, 0, 2 ^ 32 - 1⟩
/-- PR_CONTEST.RES, spec/14_pair_operation.md (R4). -/
def PR_CONTEST_RES : Fld := ⟨0x90000, 0x0, 1, 0x1c, 1, 0, 4, .ro, .val 0, 0, 2 ^ 32 - 1⟩
/-- PR_CNT.MISMATCH, spec/14_pair_operation.md (R314, R317). -/
def PR_CNT_MISMATCH : Fld := ⟨0x90000, 0x0, 1, 0x20, 1, 16, 16, .rc, .val 0, 0, 2 ^ 32 - 1⟩
/-- PR_CNT.TAKEOVERS, spec/14_pair_operation.md (R4). -/
def PR_CNT_TAKEOVERS : Fld := ⟨0x90000, 0x0, 1, 0x20, 1, 8, 8, .rc, .val 0, 0, 2 ^ 32 - 1⟩
/-- PR_CNT.CASTLES, spec/14_pair_operation.md (R4). -/
def PR_CNT_CASTLES : Fld := ⟨0x90000, 0x0, 1, 0x20, 1, 0, 8, .rc, .val 0, 0, 2 ^ 32 - 1⟩
/-- PR_CASTLE.REASON, spec/14_pair_operation.md (R324). -/
def PR_CASTLE_REASON : Fld := ⟨0x90000, 0x0, 1, 0x24, 1, 0, 4, .ro, .val 0, 0, 2 ^ 32 - 1⟩
/-- EL_CFG.SIZE, spec/15_recording.md (R4). -/
def EL_CFG_SIZE : Fld := ⟨0x80000, 0x0, 1, 0x0, 1, 0, 4, .ro, .val 0, 0, 2 ^ 32 - 1⟩
/-- EL_STAT.FMT, spec/15_recording.md (R335). -/
def EL_STAT_FMT : Fld := ⟨0x80000, 0x0, 1, 0x4, 1, 13, 1, .w1c, .val 0, 0, 2 ^ 32 - 1⟩
/-- EL_STAT.QOVF, spec/15_recording.md (R344). -/
def EL_STAT_QOVF : Fld := ⟨0x80000, 0x0, 1, 0x4, 1, 12, 1, .w1c, .val 0, 0, 2 ^ 32 - 1⟩
/-- EL_STAT.RETEVT, spec/15_recording.md (R353). -/
def EL_STAT_RETEVT : Fld := ⟨0x80000, 0x0, 1, 0x4, 1, 11, 1, .w1c, .val 0, 0, 2 ^ 32 - 1⟩
/-- EL_STAT.SUSPEVT, spec/15_recording.md (R347). -/
def EL_STAT_SUSPEVT : Fld := ⟨0x80000, 0x0, 1, 0x4, 1, 10, 1, .w1c, .val 0, 0, 2 ^ 32 - 1⟩
/-- EL_STAT.TORNEVT, spec/15_recording.md (R346). -/
def EL_STAT_TORNEVT : Fld := ⟨0x80000, 0x0, 1, 0x4, 1, 9, 1, .w1c, .val 0, 0, 2 ^ 32 - 1⟩
/-- EL_STAT.RTCVALID, spec/15_recording.md (R342). -/
def EL_STAT_RTCVALID : Fld := ⟨0x80000, 0x0, 1, 0x4, 1, 5, 1, .ro, .val 0, 0, 2 ^ 32 - 1⟩
/-- EL_STAT.WEAR, spec/15_recording.md (R353). -/
def EL_STAT_WEAR : Fld := ⟨0x80000, 0x0, 1, 0x4, 1, 4, 1, .ro, .val 0, 0, 2 ^ 32 - 1⟩
/-- EL_STAT.HOLD, spec/15_recording.md (R345). -/
def EL_STAT_HOLD : Fld := ⟨0x80000, 0x0, 1, 0x4, 1, 3, 1, .ro, .val 0, 0, 2 ^ 32 - 1⟩
/-- EL_STAT.FROZEN, spec/15_recording.md (R350). -/
def EL_STAT_FROZEN : Fld := ⟨0x80000, 0x0, 1, 0x4, 1, 2, 1, .ro, .val 0, 0, 2 ^ 32 - 1⟩
/-- EL_STAT.FULL, spec/15_recording.md (R351). -/
def EL_STAT_FULL : Fld := ⟨0x80000, 0x0, 1, 0x4, 1, 1, 1, .ro, .val 0, 0, 2 ^ 32 - 1⟩
/-- EL_STAT.READY, spec/15_recording.md (R4). -/
def EL_STAT_READY : Fld := ⟨0x80000, 0x0, 1, 0x4, 1, 0, 1, .ro, .val 0, 0, 2 ^ 32 - 1⟩
/-- EL_CTRL.ERASE, spec/15_recording.md (R351). -/
def EL_CTRL_ERASE : Fld := ⟨0x80000, 0x0, 1, 0x8, 1, 3, 1, .wo, .val 0, 0, 2 ^ 32 - 1⟩
/-- EL_CTRL.ERASEARM, spec/15_recording.md (R4). -/
def EL_CTRL_ERASEARM : Fld := ⟨0x80000, 0x0, 1, 0x8, 1, 2, 1, .wo, .val 0, 0, 2 ^ 32 - 1⟩
/-- EL_CTRL.THAW, spec/15_recording.md (R4). -/
def EL_CTRL_THAW : Fld := ⟨0x80000, 0x0, 1, 0x8, 1, 1, 1, .wo, .val 0, 0, 2 ^ 32 - 1⟩
/-- EL_CTRL.FREEZE, spec/15_recording.md (R350). -/
def EL_CTRL_FREEZE : Fld := ⟨0x80000, 0x0, 1, 0x8, 1, 0, 1, .wo, .val 0, 0, 2 ^ 32 - 1⟩
/-- EL_HEAD.HEAD, spec/15_recording.md (R4). -/
def EL_HEAD_HEAD : Fld := ⟨0x80000, 0x0, 1, 0xc, 1, 0, 32, .ro, .val 0, 0, 2 ^ 32 - 1⟩
/-- EL_FIRST.FIRST, spec/15_recording.md (R4). -/
def EL_FIRST_FIRST : Fld := ⟨0x80000, 0x0, 1, 0x10, 1, 0, 32, .ro, .val 0, 0, 2 ^ 32 - 1⟩
/-- EL_CAP.RETIRED, spec/15_recording.md (R4). -/
def EL_CAP_RETIRED : Fld := ⟨0x80000, 0x0, 1, 0x14, 1, 16, 16, .ro, .val 0, 0, 2 ^ 32 - 1⟩
/-- EL_CAP.FREE, spec/15_recording.md (R4). -/
def EL_CAP_FREE : Fld := ⟨0x80000, 0x0, 1, 0x14, 1, 0, 16, .ro, .val 0, 0, 2 ^ 32 - 1⟩
/-- EL_FULLCNT.COUNT, spec/15_recording.md (R4). -/
def EL_FULLCNT_COUNT : Fld := ⟨0x80000, 0x0, 1, 0x18, 1, 0, 32, .ro, .val 0, 0, 2 ^ 32 - 1⟩
/-- EL_UNLOG.COUNT, spec/15_recording.md (R4). -/
def EL_UNLOG_COUNT : Fld := ⟨0x80000, 0x0, 1, 0x1c, 1, 0, 32, .rc, .val 0, 0, 2 ^ 32 - 1⟩
/-- EL_WEAR.SLOW, spec/15_recording.md (R353). -/
def EL_WEAR_SLOW : Fld := ⟨0x80000, 0x0, 1, 0x20, 1, 16, 16, .rc, .val 0, 0, 2 ^ 32 - 1⟩
/-- EL_WEAR.VERIFY, spec/15_recording.md (R4). -/
def EL_WEAR_VERIFY : Fld := ⟨0x80000, 0x0, 1, 0x20, 1, 0, 16, .rc, .val 0, 0, 2 ^ 32 - 1⟩
/-- EL_OPTL.OPTL, spec/15_recording.md (R4). -/
def EL_OPTL_OPTL : Fld := ⟨0x80000, 0x0, 1, 0x24, 1, 0, 32, .ro, .val 0, 0, 2 ^ 32 - 1⟩
/-- EL_OPTH.OPTH, spec/15_recording.md (R4). -/
def EL_OPTH_OPTH : Fld := ⟨0x80000, 0x0, 1, 0x28, 1, 0, 16, .ro, .val 0, 0, 2 ^ 32 - 1⟩
/-- EL_PWRCNT.PCC, spec/15_recording.md (R341). -/
def EL_PWRCNT_PCC : Fld := ⟨0x80000, 0x0, 1, 0x2c, 1, 0, 32, .ro, .val 0, 0, 2 ^ 32 - 1⟩
/-- EL_RTCL.RTCL, spec/15_recording.md (R4). -/
def EL_RTCL_RTCL : Fld := ⟨0x80000, 0x0, 1, 0x30, 1, 0, 32, .lv, .val 0, 0, 2 ^ 32 - 1⟩
/-- EL_RTCH.RTCH, spec/15_recording.md (R342). -/
def EL_RTCH_RTCH : Fld := ⟨0x80000, 0x0, 1, 0x34, 1, 0, 16, .lv, .val 0, 0, 2 ^ 32 - 1⟩
/-- EL_RDSEQ.SEQ, spec/15_recording.md (R4). -/
def EL_RDSEQ_SEQ : Fld := ⟨0x80000, 0x0, 1, 0x38, 1, 0, 32, .rw, .val 0, 0, 2 ^ 32 - 1⟩
/-- EL_RDSTAT.SUSPCNT, spec/15_recording.md (R347). -/
def EL_RDSTAT_SUSPCNT : Fld := ⟨0x80000, 0x0, 1, 0x3c, 1, 16, 16, .rc, .val 0, 0, 2 ^ 32 - 1⟩
/-- EL_RDSTAT.STATE, spec/15_recording.md (R4). -/
def EL_RDSTAT_STATE : Fld := ⟨0x80000, 0x0, 1, 0x3c, 1, 0, 2, .ro, .val 0, 0, 2 ^ 32 - 1⟩
/-- EL_RDDATAw.DATA, spec/15_recording.md (R4). -/
def EL_RDDATA_DATA : Fld := ⟨0x80000, 0x0, 1, 0x40, 16, 0, 32, .ro, .val 0, 0, 2 ^ 32 - 1⟩
/-- DR_STAT.UNCEVT, spec/15_recording.md (R333). -/
def DR_STAT_UNCEVT : Fld := ⟨0x88000, 0x0, 1, 0x0, 1, 3, 1, .w1c, .val 0, 0, 2 ^ 32 - 1⟩
/-- DR_STAT.NOSPACE, spec/15_recording.md (R329). -/
def DR_STAT_NOSPACE : Fld := ⟨0x88000, 0x0, 1, 0x0, 1, 2, 1, .w1c, .val 0, 0, 2 ^ 32 - 1⟩
/-- DR_STAT.DRAMFAIL, spec/15_recording.md (R333). -/
def DR_STAT_DRAMFAIL : Fld := ⟨0x88000, 0x0, 1, 0x0, 1, 1, 1, .ro, .val 0, 0, 2 ^ 32 - 1⟩
/-- DR_STAT.READY, spec/15_recording.md (R4). -/
def DR_STAT_READY : Fld := ⟨0x88000, 0x0, 1, 0x0, 1, 0, 1, .ro, .val 0, 0, 2 ^ 32 - 1⟩
/-- DR_CTRL.MANTRIG, spec/15_recording.md (R327). -/
def DR_CTRL_MANTRIG : Fld := ⟨0x88000, 0x0, 1, 0x4, 1, 8, 1, .wo, .val 0, 0, 2 ^ 32 - 1⟩
/-- DR_CTRL.SECTION, spec/15_recording.md (R4). -/
def DR_CTRL_SECTION : Fld := ⟨0x88000, 0x0, 1, 0x4, 1, 0, 5, .wo, .val 0, 0, 2 ^ 32 - 1⟩
/-- DR_BLOCKS.FREE, spec/15_recording.md (R4). -/
def DR_BLOCKS_FREE : Fld := ⟨0x88000, 0x0, 1, 0x8, 1, 16, 16, .ro, .val 0, 0, 2 ^ 32 - 1⟩
/-- DR_BLOCKS.RING, spec/15_recording.md (R4). -/
def DR_BLOCKS_RING : Fld := ⟨0x88000, 0x0, 1, 0x8, 1, 0, 16, .ro, .val 0, 0, 2 ^ 32 - 1⟩
/-- DR_RECS.CLOSED, spec/15_recording.md (R4). -/
def DR_RECS_CLOSED : Fld := ⟨0x88000, 0x0, 1, 0xc, 1, 16, 16, .ro, .val 0, 0, 2 ^ 32 - 1⟩
/-- DR_RECS.OPEN, spec/15_recording.md (R4). -/
def DR_RECS_OPEN : Fld := ⟨0x88000, 0x0, 1, 0xc, 1, 0, 16, .ro, .val 0, 0, 2 ^ 32 - 1⟩
/-- DR_LASTID.ID, spec/15_recording.md (R4). -/
def DR_LASTID_ID : Fld := ⟨0x88000, 0x0, 1, 0x10, 1, 0, 32, .ro, .val 0, 0, 2 ^ 32 - 1⟩
/-- DR_REFCNT.REFUSED, spec/15_recording.md (R4). -/
def DR_REFCNT_REFUSED : Fld := ⟨0x88000, 0x0, 1, 0x14, 1, 16, 16, .rc, .val 0, 0, 2 ^ 32 - 1⟩
/-- DR_REFCNT.IGNORED, spec/15_recording.md (R4). -/
def DR_REFCNT_IGNORED : Fld := ⟨0x88000, 0x0, 1, 0x14, 1, 0, 16, .rc, .val 0, 0, 2 ^ 32 - 1⟩
/-- DR_ECC.UNCORR, spec/15_recording.md (R4). -/
def DR_ECC_UNCORR : Fld := ⟨0x88000, 0x0, 1, 0x18, 1, 16, 16, .rc, .val 0, 0, 2 ^ 32 - 1⟩
/-- DR_ECC.CORR, spec/15_recording.md (R4). -/
def DR_ECC_CORR : Fld := ⟨0x88000, 0x0, 1, 0x18, 1, 0, 16, .rc, .val 0, 0, 2 ^ 32 - 1⟩
/-- DR_ACK.ID, spec/15_recording.md (R332). -/
def DR_ACK_ID : Fld := ⟨0x88000, 0x0, 1, 0x1c, 1, 0, 32, .wo, .val 0, 0, 2 ^ 32 - 1⟩
/-- DR_SECs.OPEN, spec/15_recording.md (R4). -/
def DR_SEC_OPEN : Fld := ⟨0x88000, 0x0, 1, 0x100, 24, 31, 1, .ro, .val 0, 0, 2 ^ 32 - 1⟩
/-- DR_SECs.CONT, spec/15_recording.md (R328). -/
def DR_SEC_CONT : Fld := ⟨0x88000, 0x0, 1, 0x100, 24, 30, 1, .ro, .val 0, 0, 2 ^ 32 - 1⟩
/-- DR_SECs.ID, spec/15_recording.md (R4). -/
def DR_SEC_ID : Fld := ⟨0x88000, 0x0, 1, 0x100, 24, 0, 24, .ro, .val 0, 0, 2 ^ 32 - 1⟩
/-- CK_CTRL.CONT, spec/16_check_units.md (R360). -/
def CK_CTRL_CONT : Fld := ⟨0x70000, 0x100, 8, 0x0, 1, 3, 1, .wo, .val 0, 0, 2 ^ 32 - 1⟩
/-- CK_CTRL.ABORT, spec/16_check_units.md (R4). -/
def CK_CTRL_ABORT : Fld := ⟨0x70000, 0x100, 8, 0x0, 1, 2, 1, .wo, .val 0, 0, 2 ^ 32 - 1⟩
/-- CK_CTRL.PAUSE, spec/16_check_units.md (R4). -/
def CK_CTRL_PAUSE : Fld := ⟨0x70000, 0x100, 8, 0x0, 1, 1, 1, .wo, .val 0, 0, 2 ^ 32 - 1⟩
/-- CK_CTRL.START, spec/16_check_units.md (R4). -/
def CK_CTRL_START : Fld := ⟨0x70000, 0x100, 8, 0x0, 1, 0, 1, .wo, .val 0, 0, 2 ^ 32 - 1⟩
/-- CK_STAT.RESULT, spec/16_check_units.md (R356, R359, R360). -/
def CK_STAT_RESULT : Fld := ⟨0x70000, 0x100, 8, 0x4, 1, 8, 3, .ro, .val 0, 0, 2 ^ 32 - 1⟩
/-- CK_STAT.OWNED, spec/16_check_units.md (R362). -/
def CK_STAT_OWNED : Fld := ⟨0x70000, 0x100, 8, 0x4, 1, 7, 1, .ro, .below 3 1, 0, 2 ^ 32 - 1⟩
/-- CK_STAT.BUSY, spec/16_check_units.md (R361, R362). -/
def CK_STAT_BUSY : Fld := ⟨0x70000, 0x100, 8, 0x4, 1, 6, 1, .w1c, .val 0, 0, 2 ^ 32 - 1⟩
/-- CK_STAT.DONE, spec/16_check_units.md (R4). -/
def CK_STAT_DONE : Fld := ⟨0x70000, 0x100, 8, 0x4, 1, 5, 1, .w1c, .val 0, 0, 2 ^ 32 - 1⟩
/-- CK_STAT.STATE, spec/16_check_units.md (R4). -/
def CK_STAT_STATE : Fld := ⟨0x70000, 0x100, 8, 0x4, 1, 0, 2, .ro, .val 0, 0, 2 ^ 32 - 1⟩
/-- CK_CFG.MODE, spec/16_check_units.md (R356). -/
def CK_CFG_MODE : Fld := ⟨0x70000, 0x100, 8, 0x8, 1, 30, 2, .rw, .val 0, 0, 2⟩
/-- CK_CFG.SSPACE, spec/16_check_units.md (R357). -/
def CK_CFG_SSPACE : Fld := ⟨0x70000, 0x100, 8, 0x8, 1, 28, 2, .rw, .val 0, 0, 2⟩
/-- CK_CFG.PRESET, spec/16_check_units.md (R355). -/
def CK_CFG_PRESET : Fld := ⟨0x70000, 0x100, 8, 0x8, 1, 24, 2, .rw, .val 0, 0, 2 ^ 32 - 1⟩
/-- CK_CFG.WIDTH, spec/16_check_units.md (R4). -/
def CK_CFG_WIDTH : Fld := ⟨0x70000, 0x100, 8, 0x8, 1, 16, 5, .rw, .val 8, 8, 32⟩
/-- CK_CFG.REFOUT, spec/16_check_units.md (R4). -/
def CK_CFG_REFOUT : Fld := ⟨0x70000, 0x100, 8, 0x8, 1, 9, 1, .rw, .val 0, 0, 2 ^ 32 - 1⟩
/-- CK_CFG.REFIN, spec/16_check_units.md (R4). -/
def CK_CFG_REFIN : Fld := ⟨0x70000, 0x100, 8, 0x8, 1, 8, 1, .rw, .val 0, 0, 2 ^ 32 - 1⟩
/-- CK_POLY.POLY, spec/16_check_units.md (R4). -/
def CK_POLY_POLY : Fld := ⟨0x70000, 0x100, 8, 0xc, 1, 0, 32, .rw, .val 0, 0, 2 ^ 32 - 1⟩
/-- CK_INIT.INIT, spec/16_check_units.md (R4). -/
def CK_INIT_INIT : Fld := ⟨0x70000, 0x100, 8, 0x10, 1, 0, 32, .rw, .val 0, 0, 2 ^ 32 - 1⟩
/-- CK_XOROUT.XOROUT, spec/16_check_units.md (R4). -/
def CK_XOROUT_XOROUT : Fld := ⟨0x70000, 0x100, 8, 0x14, 1, 0, 32, .rw, .val 0, 0, 2 ^ 32 - 1⟩
/-- CK_SRC.SRC, spec/16_check_units.md (R4). -/
def CK_SRC_SRC : Fld := ⟨0x70000, 0x100, 8, 0x18, 1, 0, 32, .rw, .val 0, 0, 2 ^ 32 - 1⟩
/-- CK_DST.DST, spec/16_check_units.md (R4). -/
def CK_DST_DST : Fld := ⟨0x70000, 0x100, 8, 0x1c, 1, 0, 15, .rw, .val 0, 0, 2 ^ 32 - 1⟩
/-- CK_LEN.LEN, spec/16_check_units.md (R4). -/
def CK_LEN_LEN : Fld := ⟨0x70000, 0x100, 8, 0x20, 1, 0, 32, .rw, .val 0, 0, 2 ^ 32 - 1⟩
/-- CK_VALUE.VALUE, spec/16_check_units.md (R354). -/
def CK_VALUE_VALUE : Fld := ⟨0x70000, 0x100, 8, 0x24, 1, 0, 32, .rw, .val 0, 0, 2 ^ 32 - 1⟩
/-- CK_RESULT.RESULT, spec/16_check_units.md (R4). -/
def CK_RESULT_RESULT : Fld := ⟨0x70000, 0x100, 8, 0x28, 1, 0, 32, .ro, .val 0, 0, 2 ^ 32 - 1⟩
/-- CK_OUTLEN.OUTLEN, spec/16_check_units.md (R4). -/
def CK_OUTLEN_OUTLEN : Fld := ⟨0x70000, 0x100, 8, 0x2c, 1, 0, 32, .ro, .val 0, 0, 2 ^ 32 - 1⟩
/-- DEV_STAT.ACTT, spec/17_startup_and_live_change.md (R4). -/
def DEV_STAT_ACTT : Fld := ⟨0x0, 0x0, 1, 0x10, 1, 8, 12, .ro, .val 0, 0, 2 ^ 32 - 1⟩
/-- DEV_STAT.UCMIX, spec/17_startup_and_live_change.md (R383). -/
def DEV_STAT_UCMIX : Fld := ⟨0x0, 0x0, 1, 0x10, 1, 7, 1, .ro, .val 0, 0, 2 ^ 32 - 1⟩
/-- DEV_STAT.MIXED, spec/17_startup_and_live_change.md (R379). -/
def DEV_STAT_MIXED : Fld := ⟨0x0, 0x0, 1, 0x10, 1, 6, 1, .ro, .val 0, 0, 2 ^ 32 - 1⟩
/-- DEV_STAT.MIXEVT, spec/17_startup_and_live_change.md (R4). -/
def DEV_STAT_MIXEVT : Fld := ⟨0x0, 0x0, 1, 0x10, 1, 5, 1, .w1c, .val 0, 0, 2 ^ 32 - 1⟩
/-- DEV_STAT.RSTCAUSE, spec/17_startup_and_live_change.md (R365). -/
def DEV_STAT_RSTCAUSE : Fld := ⟨0x0, 0x0, 1, 0x10, 1, 3, 2, .ro, .val 0, 0, 2 ^ 32 - 1⟩
/-- DEV_STAT.STATE, spec/17_startup_and_live_change.md (R4). -/
def DEV_STAT_STATE : Fld := ⟨0x0, 0x0, 1, 0x10, 1, 0, 3, .ro, .val 1, 0, 2 ^ 32 - 1⟩
/-- DEV_CTRL.CHGABORT, spec/17_startup_and_live_change.md (R375). -/
def DEV_CTRL_CHGABORT : Fld := ⟨0x0, 0x0, 1, 0x14, 1, 1, 1, .wo, .val 0, 0, 2 ^ 32 - 1⟩
/-- DEV_CTRL.RELOAD, spec/17_startup_and_live_change.md (R372). -/
def DEV_CTRL_RELOAD : Fld := ⟨0x0, 0x0, 1, 0x14, 1, 0, 1, .wo, .val 0, 0, 2 ^ 32 - 1⟩
/-- DEV_IMGSTAT.OK, spec/17_startup_and_live_change.md (R4). -/
def DEV_IMGSTAT_OK : Fld := ⟨0x0, 0x0, 1, 0x18, 1, 31, 1, .ro, .val 0, 0, 2 ^ 32 - 1⟩
/-- DEV_IMGSTAT.SIGNED, spec/17_startup_and_live_change.md (R371). -/
def DEV_IMGSTAT_SIGNED : Fld := ⟨0x0, 0x0, 1, 0x18, 1, 30, 1, .ro, .val 0, 0, 2 ^ 32 - 1⟩
/-- DEV_IMGSTAT.KEY, spec/17_startup_and_live_change.md (R4). -/
def DEV_IMGSTAT_KEY : Fld := ⟨0x0, 0x0, 1, 0x18, 1, 29, 1, .ro, .val 0, 0, 2 ^ 32 - 1⟩
/-- DEV_IMGSTAT.FALLBACK, spec/17_startup_and_live_change.md (R370). -/
def DEV_IMGSTAT_FALLBACK : Fld := ⟨0x0, 0x0, 1, 0x18, 1, 28, 1, .ro, .val 0, 0, 2 ^ 32 - 1⟩
/-- DEV_IMGSTAT.UNFIN, spec/17_startup_and_live_change.md (R378). -/
def DEV_IMGSTAT_UNFIN : Fld := ⟨0x0, 0x0, 1, 0x18, 1, 27, 1, .ro, .val 0, 0, 2 ^ 32 - 1⟩
/-- DEV_IMGSTAT.BANK, spec/17_startup_and_live_change.md (R4). -/
def DEV_IMGSTAT_BANK : Fld := ⟨0x0, 0x0, 1, 0x18, 1, 26, 1, .ro, .val 0, 0, 2 ^ 32 - 1⟩
/-- DEV_IMGSTAT.CAUSE, spec/17_startup_and_live_change.md (R370). -/
def DEV_IMGSTAT_CAUSE : Fld := ⟨0x0, 0x0, 1, 0x18, 1, 16, 4, .ro, .val 0, 0, 2 ^ 32 - 1⟩
/-- DEV_IMGSTAT.BLOCK, spec/17_startup_and_live_change.md (R4). -/
def DEV_IMGSTAT_BLOCK : Fld := ⟨0x0, 0x0, 1, 0x18, 1, 0, 10, .ro, .val 0, 0, 2 ^ 32 - 1⟩
/-- DEV_IMGVER.VERSION, spec/17_startup_and_live_change.md (R4). -/
def DEV_IMGVER_VERSION : Fld := ⟨0x0, 0x0, 1, 0x1c, 1, 0, 32, .ro, .val 0, 0, 2 ^ 32 - 1⟩
/-- DEV_CHGSTAT.RESULT, spec/17_startup_and_live_change.md (R374). -/
def DEV_CHGSTAT_RESULT : Fld := ⟨0x0, 0x0, 1, 0x20, 1, 28, 4, .ro, .val 0, 0, 2 ^ 32 - 1⟩
/-- DEV_CHGSTAT.PEND, spec/17_startup_and_live_change.md (R4). -/
def DEV_CHGSTAT_PEND : Fld := ⟨0x0, 0x0, 1, 0x20, 1, 23, 1, .ro, .val 0, 0, 2 ^ 32 - 1⟩
/-- DEV_CHGSTAT.ROLL, spec/17_startup_and_live_change.md (R4). -/
def DEV_CHGSTAT_ROLL : Fld := ⟨0x0, 0x0, 1, 0x20, 1, 22, 1, .ro, .val 0, 0, 2 ^ 32 - 1⟩
/-- DEV_CHGSTAT.ABREF, spec/17_startup_and_live_change.md (R375). -/
def DEV_CHGSTAT_ABREF : Fld := ⟨0x0, 0x0, 1, 0x20, 1, 21, 1, .w1c, .val 0, 0, 2 ^ 32 - 1⟩
/-- DEV_CHGSTAT.DONE, spec/17_startup_and_live_change.md (R375). -/
def DEV_CHGSTAT_DONE : Fld := ⟨0x0, 0x0, 1, 0x20, 1, 20, 1, .w1c, .val 0, 0, 2 ^ 32 - 1⟩
/-- DEV_CHGSTAT.LEFT, spec/17_startup_and_live_change.md (R4). -/
def DEV_CHGSTAT_LEFT : Fld := ⟨0x0, 0x0, 1, 0x20, 1, 0, 5, .ro, .val 0, 0, 2 ^ 32 - 1⟩
/-- DEV_CHGVER.VERSION, spec/17_startup_and_live_change.md (R4). -/
def DEV_CHGVER_VERSION : Fld := ⟨0x0, 0x0, 1, 0x24, 1, 0, 32, .ro, .val 0, 0, 2 ^ 32 - 1⟩
/-- SEC_CFGVER.VERSION, spec/17_startup_and_live_change.md (R376). -/
def SEC_CFGVER_VERSION : Fld := ⟨0x10000, 0x1000, 24, 0xe0, 1, 0, 32, .ro, .val 0, 0, 2 ^ 32 - 1⟩
/-- SEC_SWCYC.CYCLE, spec/17_startup_and_live_change.md (R4). -/
def SEC_SWCYC_CYCLE : Fld := ⟨0x10000, 0x1000, 24, 0xe4, 1, 0, 32, .ro, .val 0, 0, 2 ^ 32 - 1⟩
/-- SEC_SWSTAT.DONE, spec/17_startup_and_live_change.md (R4). -/
def SEC_SWSTAT_DONE : Fld := ⟨0x10000, 0x1000, 24, 0xe8, 1, 1, 1, .w1c, .val 0, 0, 2 ^ 32 - 1⟩
/-- SEC_SWSTAT.PENDING, spec/17_startup_and_live_change.md (R4). -/
def SEC_SWSTAT_PENDING : Fld := ⟨0x10000, 0x1000, 24, 0xe8, 1, 0, 1, .ro, .val 0, 0, 2 ^ 32 - 1⟩
/-- PE_CTRL.RETURN, spec/17_startup_and_live_change.md (R382). -/
def PE_CTRL_RETURN : Fld := ⟨0x30000, 0x100, 192, 0x60, 1, 1, 1, .wo, .val 0, 0, 2 ^ 32 - 1⟩
/-- PE_CTRL.EVAC, spec/17_startup_and_live_change.md (R380). -/
def PE_CTRL_EVAC : Fld := ⟨0x30000, 0x100, 192, 0x60, 1, 0, 1, .wo, .val 0, 0, 2 ^ 32 - 1⟩
/-- PE_STAT.FEEDERS, spec/17_startup_and_live_change.md (R4). -/
def PE_STAT_FEEDERS : Fld := ⟨0x30000, 0x100, 192, 0x64, 1, 24, 4, .ro, .val 0, 0, 2 ^ 32 - 1⟩
/-- PE_STAT.KATFAIL, spec/17_startup_and_live_change.md (R382). -/
def PE_STAT_KATFAIL : Fld := ⟨0x30000, 0x100, 192, 0x64, 1, 7, 1, .w1c, .val 0, 0, 2 ^ 32 - 1⟩
/-- PE_STAT.EVREF, spec/17_startup_and_live_change.md (R380). -/
def PE_STAT_EVREF : Fld := ⟨0x30000, 0x100, 192, 0x64, 1, 6, 1, .w1c, .val 0, 0, 2 ^ 32 - 1⟩
/-- PE_STAT.PENDOFF, spec/17_startup_and_live_change.md (R364). -/
def PE_STAT_PENDOFF : Fld := ⟨0x30000, 0x100, 192, 0x64, 1, 5, 1, .ro, .val 0, 0, 2 ^ 32 - 1⟩
/-- PE_STAT.PENDON, spec/17_startup_and_live_change.md (R364). -/
def PE_STAT_PENDON : Fld := ⟨0x30000, 0x100, 192, 0x64, 1, 4, 1, .ro, .val 0, 0, 2 ^ 32 - 1⟩
/-- PE_STAT.MASTER, spec/17_startup_and_live_change.md (R4). -/
def PE_STAT_MASTER : Fld := ⟨0x30000, 0x100, 192, 0x64, 1, 2, 1, .ro, .val 0, 0, 2 ^ 32 - 1⟩
/-- PE_STAT.STATE, spec/17_startup_and_live_change.md (R4). -/
def PE_STAT_STATE : Fld := ⟨0x30000, 0x100, 192, 0x64, 1, 0, 2, .ro, .val 0, 0, 2 ^ 32 - 1⟩
/-- PE_UCVER.VERSION, spec/17_startup_and_live_change.md (R4). -/
def PE_UCVER_VERSION : Fld := ⟨0x30000, 0x100, 192, 0x68, 1, 0, 32, .ro, .val 0, 0, 2 ^ 32 - 1⟩
/-- PT_STAT.FULL, spec/18_partners_and_consistency.md (R386). -/
def PT_STAT_FULL : Fld := ⟨0xb0000, 0x0, 1, 0x0, 1, 19, 1, .w1c, .val 0, 0, 2 ^ 32 - 1⟩
/-- PT_STAT.CAPEVT, spec/18_partners_and_consistency.md (R389). -/
def PT_STAT_CAPEVT : Fld := ⟨0xb0000, 0x0, 1, 0x0, 1, 18, 1, .w1c, .val 0, 0, 2 ^ 32 - 1⟩
/-- PT_STAT.VIOLEVT, spec/18_partners_and_consistency.md (R391). -/
def PT_STAT_VIOLEVT : Fld := ⟨0xb0000, 0x0, 1, 0x0, 1, 17, 1, .w1c, .val 0, 0, 2 ^ 32 - 1⟩
/-- PT_STAT.UNADMEVT, spec/18_partners_and_consistency.md (R4). -/
def PT_STAT_UNADMEVT : Fld := ⟨0xb0000, 0x0, 1, 0x0, 1, 16, 1, .w1c, .val 0, 0, 2 ^ 32 - 1⟩
/-- PT_STAT.USED, spec/18_partners_and_consistency.md (R4). -/
def PT_STAT_USED : Fld := ⟨0xb0000, 0x0, 1, 0x0, 1, 0, 13, .ro, .val 0, 0, 2 ^ 32 - 1⟩
/-- PT_UNADM.UNADM, spec/18_partners_and_consistency.md (R4). -/
def PT_UNADM_UNADM : Fld := ⟨0xb0000, 0x0, 1, 0x4, 1, 16, 16, .rc, .val 0, 0, 2 ^ 32 - 1⟩
/-- PT_UNADM.OTHER, spec/18_partners_and_consistency.md (R390, R396). -/
def PT_UNADM_OTHER : Fld := ⟨0xb0000, 0x0, 1, 0x4, 1, 0, 16, .rc, .val 0, 0, 2 ^ 32 - 1⟩
/-- PT_SEL.ENTRY, spec/18_partners_and_consistency.md (R4). -/
def PT_SEL_ENTRY : Fld := ⟨0xb0000, 0x0, 1, 0x8, 1, 0, 12, .rw, .val 0, 0, 2 ^ 32 - 1⟩
/-- PT_ENT.VALID, spec/18_partners_and_consistency.md (R4). -/
def PT_ENT_VALID : Fld := ⟨0xb0000, 0x0, 1, 0xc, 1, 31, 1, .ro, .val 0, 0, 2 ^ 32 - 1⟩
/-- PT_ENT.PINNED, spec/18_partners_and_consistency.md (R386). -/
def PT_ENT_PINNED : Fld := ⟨0xb0000, 0x0, 1, 0xc, 1, 30, 1, .ro, .val 0, 0, 2 ^ 32 - 1⟩
/-- PT_ENT.KIND, spec/18_partners_and_consistency.md (R4). -/
def PT_ENT_KIND : Fld := ⟨0xb0000, 0x0, 1, 0xc, 1, 27, 3, .ro, .val 0, 0, 2 ^ 32 - 1⟩
/-- PT_ENT.LANE, spec/18_partners_and_consistency.md (R4). -/
def PT_ENT_LANE : Fld := ⟨0xb0000, 0x0, 1, 0xc, 1, 22, 5, .ro, .val 0, 0, 2 ^ 32 - 1⟩
/-- PT_ENT.PRIV, spec/18_partners_and_consistency.md (R4). -/
def PT_ENT_PRIV : Fld := ⟨0xb0000, 0x0, 1, 0xc, 1, 19, 3, .ro, .val 0, 0, 2 ^ 32 - 1⟩
/-- PT_ENT.RULE, spec/18_partners_and_consistency.md (R4). -/
def PT_ENT_RULE : Fld := ⟨0xb0000, 0x0, 1, 0xc, 1, 0, 9, .ro, .val 0, 0, 2 ^ 32 - 1⟩
/-- PT_ID0.ID0, spec/18_partners_and_consistency.md (R4). -/
def PT_ID0_ID0 : Fld := ⟨0xb0000, 0x0, 1, 0x10, 1, 0, 32, .ro, .val 0, 0, 2 ^ 32 - 1⟩
/-- PT_ID1.ID1, spec/18_partners_and_consistency.md (R4). -/
def PT_ID1_ID1 : Fld := ⟨0xb0000, 0x0, 1, 0x14, 1, 0, 32, .ro, .val 0, 0, 2 ^ 32 - 1⟩
/-- PT_DROP.CAP, spec/18_partners_and_consistency.md (R389). -/
def PT_DROP_CAP : Fld := ⟨0xb0000, 0x0, 1, 0x18, 1, 16, 16, .rc, .val 0, 0, 2 ^ 32 - 1⟩
/-- PT_DROP.VIOL, spec/18_partners_and_consistency.md (R391). -/
def PT_DROP_VIOL : Fld := ⟨0xb0000, 0x0, 1, 0x18, 1, 0, 16, .rc, .val 0, 0, 2 ^ 32 - 1⟩
/-- PT_OUT.OUT, spec/18_partners_and_consistency.md (R395). -/
def PT_OUT_OUT : Fld := ⟨0xb0000, 0x0, 1, 0x1c, 1, 0, 5, .ro, .val 0, 0, 2 ^ 32 - 1⟩
/-- DEV_BRIM0.GATE, spec/18_partners_and_consistency.md (R4). -/
def DEV_BRIM0_GATE : Fld := ⟨0x0, 0x0, 1, 0x120, 1, 24, 8, .rc, .val 0, 0, 2 ^ 32 - 1⟩
/-- DEV_BRIM0.REFR, spec/18_partners_and_consistency.md (R4). -/
def DEV_BRIM0_REFR : Fld := ⟨0x0, 0x0, 1, 0x120, 1, 16, 8, .rc, .val 0, 0, 2 ^ 32 - 1⟩
/-- DEV_BRIM0.INGR, spec/18_partners_and_consistency.md (R4). -/
def DEV_BRIM0_INGR : Fld := ⟨0x0, 0x0, 1, 0x120, 1, 0, 12, .rc, .val 0, 0, 2 ^ 32 - 1⟩
/-- DEV_BRIM1.BOARD, spec/18_partners_and_consistency.md (R4). -/
def DEV_BRIM1_BOARD : Fld := ⟨0x0, 0x0, 1, 0x124, 1, 16, 9, .rc, .val 0, 0, 2 ^ 32 - 1⟩
/-- DEV_BRIM1.EVENT, spec/18_partners_and_consistency.md (R4). -/
def DEV_BRIM1_EVENT : Fld := ⟨0x0, 0x0, 1, 0x124, 1, 0, 11, .rc, .val 0, 0, 2 ^ 32 - 1⟩
/-- DEV_BRIM2.MGMT, spec/18_partners_and_consistency.md (R4). -/
def DEV_BRIM2_MGMT : Fld := ⟨0x0, 0x0, 1, 0x128, 1, 16, 9, .rc, .val 0, 0, 2 ^ 32 - 1⟩
/-- DEV_BRIM2.ROW, spec/18_partners_and_consistency.md (R4). -/
def DEV_BRIM2_ROW : Fld := ⟨0x0, 0x0, 1, 0x128, 1, 0, 9, .rc, .val 0, 0, 2 ^ 32 - 1⟩
/-- SN_EPOCHH.EPOCHH, spec/18_partners_and_consistency.md (R4). -/
def SN_EPOCHH_EPOCHH : Fld := ⟨0x100000, 0x2000, 25, 0x4, 1, 0, 7, .ro, .val 0, 0, 2 ^ 32 - 1⟩
/-- SN_FLAGS.NOGRID, spec/18_partners_and_consistency.md (R4). -/
def SN_FLAGS_NOGRID : Fld := ⟨0x100000, 0x2000, 25, 0x10, 1, 3, 1, .ro, .val 0, 0, 2 ^ 32 - 1⟩
/-- SN_FLAGS.MIXED, spec/18_partners_and_consistency.md (R379). -/
def SN_FLAGS_MIXED : Fld := ⟨0x100000, 0x2000, 25, 0x10, 1, 2, 1, .ro, .val 0, 0, 2 ^ 32 - 1⟩
/-- SN_FLAGS.GLIDE, spec/18_partners_and_consistency.md (R30). -/
def SN_FLAGS_GLIDE : Fld := ⟨0x100000, 0x2000, 25, 0x10, 1, 1, 1, .ro, .val 0, 0, 2 ^ 32 - 1⟩
/-- SN_FLAGS.MFAULT, spec/18_partners_and_consistency.md (R168). -/
def SN_FLAGS_MFAULT : Fld := ⟨0x100000, 0x2000, 25, 0x10, 1, 0, 1, .ro, .val 0, 0, 2 ^ 32 - 1⟩
/-- SN_LATCH.EXPIRED1, spec/18_partners_and_consistency.md (R400). -/
def SN_LATCH_EXPIRED1 : Fld := ⟨0x100000, 0x2000, 25, 0x14, 1, 3, 1, .w1c, .val 0, 0, 2 ^ 32 - 1⟩
/-- SN_LATCH.EXPIRED0, spec/18_partners_and_consistency.md (R4). -/
def SN_LATCH_EXPIRED0 : Fld := ⟨0x100000, 0x2000, 25, 0x14, 1, 2, 1, .w1c, .val 0, 0, 2 ^ 32 - 1⟩
/-- SN_LATCH.HELD1, spec/18_partners_and_consistency.md (R4). -/
def SN_LATCH_HELD1 : Fld := ⟨0x100000, 0x2000, 25, 0x14, 1, 1, 1, .ro, .val 0, 0, 2 ^ 32 - 1⟩
/-- SN_LATCH.HELD0, spec/18_partners_and_consistency.md (R4). -/
def SN_LATCH_HELD0 : Fld := ⟨0x100000, 0x2000, 25, 0x14, 1, 0, 1, .ro, .val 0, 0, 2 ^ 32 - 1⟩
/-- DEV_ID.PART, spec/19_register_maps.md (R4). -/
def DEV_ID_PART : Fld := ⟨0x0, 0x0, 1, 0x0, 1, 16, 16, .ro, .val 29074, 0, 2 ^ 32 - 1⟩
/-- DEV_ID.STEP, spec/19_register_maps.md (R4). -/
def DEV_ID_STEP : Fld := ⟨0x0, 0x0, 1, 0x0, 1, 8, 8, .ro, .val 176, 0, 2 ^ 32 - 1⟩
/-- DEV_REV.ROM, spec/19_register_maps.md (R4). -/
def DEV_REV_ROM : Fld := ⟨0x0, 0x0, 1, 0x4, 1, 16, 16, .ro, .val 0, 0, 2 ^ 32 - 1⟩
/-- DEV_REV.FW, spec/19_register_maps.md (R4). -/
def DEV_REV_FW : Fld := ⟨0x0, 0x0, 1, 0x4, 1, 0, 16, .ro, .val 0, 0, 2 ^ 32 - 1⟩
/-- DEV_ALERT.BLK, spec/19_register_maps.md (R411). -/
def DEV_ALERT_BLK : Fld := ⟨0x0, 0x0, 1, 0x8, 1, 0, 13, .ro, .val 0, 0, 2 ^ 32 - 1⟩
/-- DEV_ALERTEN.BLK, spec/19_register_maps.md (R411). -/
def DEV_ALERTEN_BLK : Fld := ⟨0x0, 0x0, 1, 0xc, 1, 0, 13, .rw, .val 0, 0, 2 ^ 32 - 1⟩
/-- DEV_MPCNT.FRAMES, spec/19_register_maps.md (R4). -/
def DEV_MPCNT_FRAMES : Fld := ⟨0x0, 0x0, 1, 0x28, 1, 16, 16, .ro, .val 0, 0, 2 ^ 32 - 1⟩
/-- DEV_MPCNT.CRCERR, spec/19_register_maps.md (R4). -/
def DEV_MPCNT_CRCERR : Fld := ⟨0x0, 0x0, 1, 0x28, 1, 8, 8, .rc, .val 0, 0, 2 ^ 32 - 1⟩
/-- DEV_MPCNT.FMTERR, spec/19_register_maps.md (R4). -/
def DEV_MPCNT_FMTERR : Fld := ⟨0x0, 0x0, 1, 0x28, 1, 0, 8, .rc, .val 0, 0, 2 ^ 32 - 1⟩
/-- DEV_NVMCTRL.LEN, spec/19_register_maps.md (R412). -/
def DEV_NVMCTRL_LEN : Fld := ⟨0x0, 0x0, 1, 0x40, 1, 16, 8, .wo, .val 0, 0, 2 ^ 32 - 1⟩
/-- DEV_NVMCTRL.SEL, spec/19_register_maps.md (R4). -/
def DEV_NVMCTRL_SEL : Fld := ⟨0x0, 0x0, 1, 0x40, 1, 4, 1, .wo, .val 0, 0, 2 ^ 32 - 1⟩
/-- DEV_NVMCTRL.CMD, spec/19_register_maps.md (R4). -/
def DEV_NVMCTRL_CMD : Fld := ⟨0x0, 0x0, 1, 0x40, 1, 0, 2, .wo, .val 0, 0, 2 ^ 32 - 1⟩
/-- DEV_NVMADDR.ADDR, spec/19_register_maps.md (R4). -/
def DEV_NVMADDR_ADDR : Fld := ⟨0x0, 0x0, 1, 0x44, 1, 0, 32, .rw, .val 0, 0, 2 ^ 32 - 1⟩
/-- DEV_NVMSTAT.CAUSE, spec/19_register_maps.md (R413). -/
def DEV_NVMSTAT_CAUSE : Fld := ⟨0x0, 0x0, 1, 0x48, 1, 4, 4, .ro, .val 0, 0, 2 ^ 32 - 1⟩
/-- DEV_NVMSTAT.ERR, spec/19_register_maps.md (R4). -/
def DEV_NVMSTAT_ERR : Fld := ⟨0x0, 0x0, 1, 0x48, 1, 3, 1, .w1c, .val 0, 0, 2 ^ 32 - 1⟩
/-- DEV_NVMSTAT.REF, spec/19_register_maps.md (R413). -/
def DEV_NVMSTAT_REF : Fld := ⟨0x0, 0x0, 1, 0x48, 1, 2, 1, .w1c, .val 0, 0, 2 ^ 32 - 1⟩
/-- DEV_NVMSTAT.DONE, spec/19_register_maps.md (R4). -/
def DEV_NVMSTAT_DONE : Fld := ⟨0x0, 0x0, 1, 0x48, 1, 1, 1, .w1c, .val 0, 0, 2 ^ 32 - 1⟩
/-- DEV_NVMSTAT.BUSY, spec/19_register_maps.md (R4). -/
def DEV_NVMSTAT_BUSY : Fld := ⟨0x0, 0x0, 1, 0x48, 1, 0, 1, .ro, .val 0, 0, 2 ^ 32 - 1⟩
/-- DEV_NVMDATAw.DATA, spec/19_register_maps.md (R412). -/
def DEV_NVMDATA_DATA : Fld := ⟨0x0, 0x0, 1, 0x80, 16, 0, 32, .rw, .val 0, 0, 2 ^ 32 - 1⟩
/-- SEC_INGSTAT.LATE, spec/19_register_maps.md (R16). -/
def SEC_INGSTAT_LATE : Fld := ⟨0x10000, 0x1000, 24, 0x48, 1, 16, 16, .rc, .val 0, 0, 2 ^ 32 - 1⟩
/-- SEC_INGSTAT.BURSTS, spec/19_register_maps.md (R4). -/
def SEC_INGSTAT_BURSTS : Fld := ⟨0x10000, 0x1000, 24, 0x48, 1, 0, 16, .ro, .val 0, 0, 2 ^ 32 - 1⟩
/-- SEC_INGCFG.DELAY, spec/19_register_maps.md (R15). -/
def SEC_INGCFG_DELAY : Fld := ⟨0x10000, 0x1000, 24, 0x4c, 1, 16, 6, .ro, .val 16, 0, 2 ^ 32 - 1⟩
/-- SEC_INGCFG.FEEDERS, spec/19_register_maps.md (R4). -/
def SEC_INGCFG_FEEDERS : Fld := ⟨0x10000, 0x1000, 24, 0x4c, 1, 0, 7, .ro, .val 0, 0, 2 ^ 32 - 1⟩
/-- PE_LOAD.MAX, spec/19_register_maps.md (R4). -/
def PE_LOAD_MAX : Fld := ⟨0x30000, 0x100, 192, 0x0, 1, 16, 16, .rc, .val 0, 0, 2 ^ 32 - 1⟩
/-- PE_LOAD.LAST, spec/19_register_maps.md (R4). -/
def PE_LOAD_LAST : Fld := ⟨0x30000, 0x100, 192, 0x0, 1, 0, 16, .ro, .val 0, 0, 2 ^ 32 - 1⟩
/-- PE_SLOTS.OCC, spec/19_register_maps.md (R9). -/
def PE_SLOTS_OCC : Fld := ⟨0x30000, 0x100, 192, 0x4, 1, 0, 12, .ro, .val 0, 0, 2 ^ 32 - 1⟩

end F

/-- Fields of the SEC registers, part 0. -/
def fieldsSEC0 : List Fld :=
  [F.SEC_ANGLE_TICK_SAMPLE, F.SEC_ANGLE_TICK_TICK, F.SEC_ANGLE_CYC_CYCLE, F.SEC_FREQ_FREQ, F.SEC_REF_STAT_QUAL,
   F.SEC_REF_STAT_VALID, F.SEC_REF_STAT_EXTENDED, F.SEC_REF_STAT_GLIDE, F.SEC_REF_STAT_TARGET, F.SEC_GLIDE_N,
   F.SEC_GLIDE_ERR, F.SEC_ANGLE_EVT_CHGCNT, F.SEC_ANGLE_EVT_WRAP, F.SEC_ANGLE_EVT_LATE, F.SEC_ANGLE_EVT_RANGE,
   F.SEC_ANGLE_EVT_LOSS, F.SEC_ANGLE_EVT_GLIDEEXT, F.SEC_ANGLE_EVT_REFCHG, F.SEC_EPOCH_NUM_EPOCH, F.SEC_EPOCH_TS_NS]
/-- Fields of the SEC registers, part 1. -/
def fieldsSEC1 : List Fld :=
  [F.SEC_REF_CFG_OFFSET, F.SEC_REF_CFG_SRC, F.SEC_REF_CFG_EN, F.SEC_ANGLE_CFG_VMIN, F.SEC_ANGLE_CFG_Q,
   F.SEC_ANGLE_CFG_TBSEL, F.SEC_ANGLE_CFG_NOM, F.SEC_HALFCNT_EMPTY, F.SEC_HALFCNT_HALF, F.SEC_SVCNT_REJECT,
   F.SEC_SVCNT_INVAL, F.SEC_SVCNT_QUAD, F.SEC_MASTER_ROTCNT, F.SEC_MASTER_ROTREQ, F.SEC_MASTER_REQ,
   F.SEC_MASTER_CUR, F.SEC_STALECNT_LATE, F.SEC_STALECNT_SUBST, F.SEC_SPSTAT_AFLWC, F.SEC_SPSTAT_XBLK]
/-- Fields of the SEC registers, part 2. -/
def fieldsSEC2 : List Fld :=
  [F.SEC_SPSTAT_ALARM, F.SEC_SPSTAT_MFAULT, F.SEC_SPSTAT_ROT, F.SEC_SPSTAT_SUBST, F.SEC_BDID_ID,
   F.SEC_BDIR_IR, F.SEC_PLYSTAT_AUDIT, F.SEC_PLYSTAT_GATES, F.SEC_PLYSTAT_RANKDIV, F.SEC_COMMITLAT_LASTLAT,
   F.SEC_COMMITLAT_MAXLAT, F.SEC_PLYCFG_DEPTH, F.SEC_CFGVER_VERSION, F.SEC_SWCYC_CYCLE, F.SEC_SWSTAT_DONE,
   F.SEC_SWSTAT_PENDING, F.SEC_INGSTAT_LATE, F.SEC_INGSTAT_BURSTS, F.SEC_INGCFG_DELAY, F.SEC_INGCFG_FEEDERS]
/-- Fields of the CV registers, part 0. -/
def fieldsCV0 : List Fld :=
  [F.CV_CFG_SECTION, F.CV_CFG_OWEN, F.CV_CFG_INUSE, F.CV_STAT_PD, F.CV_STAT_CALDONE,
   F.CV_STAT_OWCHG, F.CV_STAT_URGREF, F.CV_STAT_DROP, F.CV_STAT_REFLOSS, F.CV_STAT_RATIO,
   F.CV_STAT_REFRDY, F.CV_CONV_BUSY, F.CV_CONV_OWT, F.CV_CONV_URG, F.CV_CONV_CHSEL,
   F.CV_SLOT_EN0, F.CV_SLOT_EN1, F.CV_SLOT_EN2, F.CV_SLOT_EN3, F.CV_SLOT_EN4]
/-- Fields of the CV registers, part 1. -/
def fieldsCV1 : List Fld :=
  [F.CV_SLOT_EN5, F.CV_SLOT_EN6, F.CV_SLOT_EN7, F.CV_SLOT_CH0, F.CV_SLOT_CH1,
   F.CV_SLOT_CH2, F.CV_SLOT_CH3, F.CV_SLOT_CH4, F.CV_SLOT_CH5, F.CV_SLOT_CH6,
   F.CV_SLOT_CH7, F.CV_QSTAT_LASTSEQ, F.CV_QSTAT_BRIM, F.CV_QSTAT_FILL, F.CV_QLAST_ENTRY,
   F.CV_DROPCNT_CHAINDISC, F.CV_DROPCNT_DROP, F.CV_URGCNT_URG, F.CV_URGCNT_ABORT, F.CV_URGREF_REFUSED]
/-- Fields of the CV registers, part 2. -/
def fieldsCV2 : List Fld :=
  [F.CV_URGREF_MERGED, F.CV_URGREF_DEFERRED, F.CV_SLIP_MAXSLIP, F.CV_REF_VMON, F.CV_REF_SRC,
   F.CV_REF_GROUP, F.CV_OWCFG_THRESH, F.CV_OWCFG_INTERVAL, F.CV_OWSTAT_SUSPECT, F.CV_OWSTAT_FLAG,
   F.CV_OWCNT_URGTESTS, F.CV_OWCNT_TESTS, F.CV_CAL_CMD, F.CV_CAL_CH, F.CV_CALVAL_EXPECT,
   F.CV_CALSTAT_CH, F.CV_CALSTAT_RESULT, F.CV_CALSTAT_STATE, F.CV_CALSTAT_UNCAL, F.CV_OFF_OFF]
/-- Fields of the CV registers, part 3. -/
def fieldsCV3 : List Fld :=
  [F.CV_GAIN_GAIN]
/-- Fields of the FC registers, part 0. -/
def fieldsFC0 : List Fld :=
  [F.FC_CTRL_START, F.FC_CTRL_STOP, F.FC_STAT_REFUSED, F.FC_STAT_REFILL, F.FC_STAT_PENDING,
   F.FC_STAT_BUSY, F.FC_STAT_DIRTY, F.FC_STAT_STATE, F.FC_COEFADDR_TAP, F.FC_COEFDATA_COEF,
   F.FC_QCNT_OVR, F.FC_QCNT_HOLD, F.FC_DELAY_CORR]
/-- Fields of the PE registers, part 0. -/
def fieldsPE0 : List Fld :=
  [F.PE_PLYSTAT_SHARED, F.PE_PLYSTAT_OWN, F.PE_PLYSTAT_DLMISS, F.PE_PLYSTAT_DIVERGE, F.PE_PLYSTAT_ACTIVE,
   F.PE_PLYCNT_COMMIT, F.PE_PLYCNT_STAGED, F.PE_SQCNT_BAND, F.PE_SQCNT_OTHER, F.PE_PLYREF_POOL,
   F.PE_PLYREF_GATE, F.PE_PLYREF_SUPER, F.PE_PLYREF_ABANDON, F.PE_DIVINFO_AUDIT, F.PE_DIVINFO_INST,
   F.PE_DIVINFO_TEPOCH, F.PE_DLCNT_MISS, F.PE_DLCNT_CONSEC, F.PE_CTRL_RETURN, F.PE_CTRL_EVAC]
/-- Fields of the PE registers, part 1. -/
def fieldsPE1 : List Fld :=
  [F.PE_STAT_FEEDERS, F.PE_STAT_KATFAIL, F.PE_STAT_EVREF, F.PE_STAT_PENDOFF, F.PE_STAT_PENDON,
   F.PE_STAT_MASTER, F.PE_STAT_STATE, F.PE_UCVER_VERSION, F.PE_LOAD_MAX, F.PE_LOAD_LAST,
   F.PE_SLOTS_OCC]
/-- Fields of the DEV registers, part 0. -/
def fieldsDEV0 : List Fld :=
  [F.DEV_PLYPOOL_BRIM, F.DEV_PLYPOOL_USED, F.DEV_STAT_ACTT, F.DEV_STAT_UCMIX, F.DEV_STAT_MIXED,
   F.DEV_STAT_MIXEVT, F.DEV_STAT_RSTCAUSE, F.DEV_STAT_STATE, F.DEV_CTRL_CHGABORT, F.DEV_CTRL_RELOAD,
   F.DEV_IMGSTAT_OK, F.DEV_IMGSTAT_SIGNED, F.DEV_IMGSTAT_KEY, F.DEV_IMGSTAT_FALLBACK, F.DEV_IMGSTAT_UNFIN,
   F.DEV_IMGSTAT_BANK, F.DEV_IMGSTAT_CAUSE, F.DEV_IMGSTAT_BLOCK, F.DEV_IMGVER_VERSION, F.DEV_CHGSTAT_RESULT]
/-- Fields of the DEV registers, part 1. -/
def fieldsDEV1 : List Fld :=
  [F.DEV_CHGSTAT_PEND, F.DEV_CHGSTAT_ROLL, F.DEV_CHGSTAT_ABREF, F.DEV_CHGSTAT_DONE, F.DEV_CHGSTAT_LEFT,
   F.DEV_CHGVER_VERSION, F.DEV_BRIM0_GATE, F.DEV_BRIM0_REFR, F.DEV_BRIM0_INGR, F.DEV_BRIM1_BOARD,
   F.DEV_BRIM1_EVENT, F.DEV_BRIM2_MGMT, F.DEV_BRIM2_ROW, F.DEV_ID_PART, F.DEV_ID_STEP,
   F.DEV_REV_ROM, F.DEV_REV_FW, F.DEV_ALERT_BLK, F.DEV_ALERTEN_BLK, F.DEV_MPCNT_FRAMES]
/-- Fields of the DEV registers, part 2. -/
def fieldsDEV2 : List Fld :=
  [F.DEV_MPCNT_CRCERR, F.DEV_MPCNT_FMTERR, F.DEV_NVMCTRL_LEN, F.DEV_NVMCTRL_SEL, F.DEV_NVMCTRL_CMD,
   F.DEV_NVMADDR_ADDR, F.DEV_NVMSTAT_CAUSE, F.DEV_NVMSTAT_ERR, F.DEV_NVMSTAT_REF, F.DEV_NVMSTAT_DONE,
   F.DEV_NVMSTAT_BUSY, F.DEV_NVMDATA_DATA]
/-- Fields of the LC registers, part 0. -/
def fieldsLC0 : List Fld :=
  [F.LC_CTRL_CMD, F.LC_STAT_CONSEC, F.LC_STAT_RESTORED, F.LC_STAT_FALLBACK, F.LC_STAT_STK,
   F.LC_STAT_OVR, F.LC_STAT_STATE, F.LC_CFG_WARM, F.LC_CFG_ASEC, F.LC_CFG_DEADLINE,
   F.LC_RET_NV, F.LC_RET_NC, F.LC_PROG_LEN, F.LC_SCAN_MAX, F.LC_SCAN_LAST,
   F.LC_SCANCNT_SCANS, F.LC_OVRCNT_OVR, F.LC_VADDR_KIND, F.LC_VADDR_INDEX, F.LC_VDATA_DATA]
/-- Fields of the LCF registers, part 0. -/
def fieldsLCF0 : List Fld :=
  [F.LC_FSTAT_REF, F.LC_FSTAT_FORCEDN, F.LC_FSTAT_TESTMODE, F.LC_FSTAT_COUNT, F.LC_FSEL_ENTRY,
   F.LC_FCTRL_RELALL, F.LC_FCTRL_RELEASE, F.LC_FCTRL_APPLY, F.LC_FDEF_ACTIVE, F.LC_FDEF_KIND,
   F.LC_FDEF_TARGET, F.LC_FVAL_VALUE]
/-- Fields of the LN registers, part 0. -/
def fieldsLN0 : List Fld :=
  [F.LN_TCCFG_PERIOD, F.LN_TCCFG_SECTION, F.LN_TCCFG_RING, F.LN_TCCFG_TILES, F.LN_TCSTAT_FOUND,
   F.LN_TCSTAT_SAFE, F.LN_TCSTAT_RBMM, F.LN_TCSTAT_OUTFLT, F.LN_TCSTAT_GRPMM, F.LN_TCSTAT_CTAGMM,
   F.LN_TCSTAT_ENUMERR, F.LN_TCSTAT_LOST, F.LN_TCSTAT_RUN, F.LN_TCCTRL_CONF, F.LN_TCCTRL_ENUM,
   F.LN_TCSVC_LAST, F.LN_TCSVC_FIRST, F.LN_TCSEL_ADDR, F.LN_TCCNT_DCRC, F.LN_TCCNT_MISS]
/-- Fields of the LN registers, part 1. -/
def fieldsLN1 : List Fld :=
  [F.LN_TCCNT_DROP, F.LN_TILESTAT_ACLAIM, F.LN_TILESTAT_LOST, F.LN_TILESTAT_UNSERVED, F.LN_TILESTAT_STAT,
   F.LN_TILEIO_RB, F.LN_TILEIO_CMD, F.LN_TILEIO_IN, F.LN_TILEID_SERIAL, F.LN_TILECFG_FEEDER,
   F.LN_TILECFG_CTAG, F.LN_CFG_REFCLK, F.LN_CFG_MODE, F.LN_CTRL_RETRAIN, F.LN_CTRL_STOP,
   F.LN_CTRL_START, F.LN_STAT_STATE, F.LN_STAT_PENDING, F.LN_STAT_RETRAINING, F.LN_STAT_REFUSED]
/-- Fields of the LN registers, part 2. -/
def fieldsLN2 : List Fld :=
  [F.LN_STAT_DOWNEVT, F.LN_STAT_SIGDET, F.LN_STAT_LOCK, F.LN_STAT_UP, F.LN_LINKCNT_DOWNS,
   F.LN_LINKCNT_INVAL, F.LN_CDR_PPM, F.LN_FRMCNT_RXDISC, F.LN_FRMCNT_TXDISC, F.LN_TXEQ_SWING,
   F.LN_TXEQ_POST, F.LN_TXEQ_PRE, F.LN_EQCTRL_FORCE, F.LN_EQSTAT_BOUNDEVT, F.LN_EQSTAT_ATBOUND,
   F.LN_EQMET_EYE, F.LN_EQMET_MSE, F.LN_CTLE_FVAL, F.LN_DFE_FVAL, F.LN_CTLE_MAX]
/-- Fields of the LN registers, part 3. -/
def fieldsLN3 : List Fld :=
  [F.LN_DFE_MAX, F.LN_CTLE_MIN, F.LN_DFE_MIN, F.LN_CTLE_VALUE, F.LN_DFE_VALUE,
   F.LN_PRBSCTRL_CPOLY, F.LN_PRBSCTRL_CEN, F.LN_PRBSCTRL_GPOLY, F.LN_PRBSCTRL_GEN, F.LN_PRBSSTAT_LOSTEVT,
   F.LN_PRBSSTAT_LOCKED, F.LN_PRBSERR_ERRORS, F.LN_PRBSBITS_BITS, F.LN_INJ_KIND, F.LN_INJ_LEN,
   F.LN_INJ_RATE, F.LN_INJCNT_INJECTED, F.LN_ETHCFG_PAIRLANE, F.LN_ETHCFG_TCEN, F.LN_ETHCFG_PTPTB]
/-- Fields of the LN registers, part 4. -/
def fieldsLN4 : List Fld :=
  [F.LN_ETHCFG_PTPEN, F.LN_ETHCFG_SB, F.LN_ETHCFG_PB, F.LN_TSQHEAD_VALID, F.LN_TSQHEAD_ID,
   F.LN_TSQNS_NS, F.LN_TSQSTAT_OVF, F.LN_TSQSTAT_FILL, F.LN_LAUNCH_LATE, F.LN_LAUNCH_SENT,
   F.LN_SVRX_DISC, F.LN_SVRX_ACC, F.LN_GORX_DISC, F.LN_GORX_ACC, F.LN_PTPFWD_NOMATCH,
   F.LN_PTPFWD_FWD, F.LN_LATCOMP_TXLAT, F.LN_LATCOMP_RXLAT]
/-- Fields of the TB registers, part 0. -/
def fieldsTB0 : List Fld :=
  [F.TB_CTRL_DISABLE, F.TB_CTRL_ENABLE, F.TB_STAT_BASE, F.TB_STAT_WREF, F.TB_STAT_PPSEVT,
   F.TB_STAT_STEPREF, F.TB_STAT_LOCKEVT, F.TB_STAT_HOLDOVER, F.TB_STAT_STEPPED, F.TB_STAT_LOCK,
   F.TB_STAT_EN, F.TB_CFG_DOMAIN, F.TB_CFG_LOCKTH, F.TB_CFG_HOLD, F.TB_CFG_PPSOUT,
   F.TB_CFG_PPSPOL, F.TB_CFG_SRC, F.TB_NS_NS, F.TB_RATE_RATE, F.TB_STEP_STEP]
/-- Fields of the TB registers, part 1. -/
def fieldsTB1 : List Fld :=
  [F.TB_OFFSET_OFFSET, F.TB_BASENS_BASENS, F.TB_BASESECL_SECL, F.TB_BASESECH_NSHI, F.TB_BASESECH_SECH,
   F.TB_PPSCAP_CAP, F.TB_PPSAT_AT]
/-- Fields of the PR registers, part 0. -/
def fieldsPR0 : List Fld :=
  [F.PR_CFG_PAIRID, F.PR_CFG_REFSEC, F.PR_CFG_SIDE, F.PR_CFG_EN, F.PR_CTRL_CLRFAIL,
   F.PR_CTRL_CLRDEMOTE, F.PR_CTRL_CASTLE, F.PR_STAT_GHIGH, F.PR_STAT_RINGSVC, F.PR_STAT_NOPEER,
   F.PR_STAT_PAIROKIN, F.PR_STAT_PAIROKREL, F.PR_STAT_CASTLING, F.PR_STAT_CONTEST, F.PR_STAT_DEMHELD,
   F.PR_STAT_DEMOTED, F.PR_STAT_FAILED, F.PR_STAT_ACTIVE, F.PR_STAT_TAKEEVT, F.PR_STAT_CASTREF]
/-- Fields of the PR registers, part 1. -/
def fieldsPR1 : List Fld :=
  [F.PR_STAT_CASTEVT, F.PR_STAT_DEMOUTEVT, F.PR_STAT_DEMINEVT, F.PR_STAT_CONTESTEVT, F.PR_STAT_MMEVT,
   F.PR_STAT_ROLEEVT, F.PR_CLAIM_CLAIM, F.PR_CLAIM_G, F.PR_PCLAIM_PCLAIM, F.PR_PCLAIM_PSEEN,
   F.PR_PCLAIM_PG, F.PR_ALIGN_ALIGNED, F.PR_MMSEC_MM, F.PR_CONTEST_COUNT, F.PR_CONTEST_PRES,
   F.PR_CONTEST_RES, F.PR_CNT_MISMATCH, F.PR_CNT_TAKEOVERS, F.PR_CNT_CASTLES, F.PR_CASTLE_REASON]
/-- Fields of the EL registers, part 0. -/
def fieldsEL0 : List Fld :=
  [F.EL_CFG_SIZE, F.EL_STAT_FMT, F.EL_STAT_QOVF, F.EL_STAT_RETEVT, F.EL_STAT_SUSPEVT,
   F.EL_STAT_TORNEVT, F.EL_STAT_RTCVALID, F.EL_STAT_WEAR, F.EL_STAT_HOLD, F.EL_STAT_FROZEN,
   F.EL_STAT_FULL, F.EL_STAT_READY, F.EL_CTRL_ERASE, F.EL_CTRL_ERASEARM, F.EL_CTRL_THAW,
   F.EL_CTRL_FREEZE, F.EL_HEAD_HEAD, F.EL_FIRST_FIRST, F.EL_CAP_RETIRED, F.EL_CAP_FREE]
/-- Fields of the EL registers, part 1. -/
def fieldsEL1 : List Fld :=
  [F.EL_FULLCNT_COUNT, F.EL_UNLOG_COUNT, F.EL_WEAR_SLOW, F.EL_WEAR_VERIFY, F.EL_OPTL_OPTL,
   F.EL_OPTH_OPTH, F.EL_PWRCNT_PCC, F.EL_RTCL_RTCL, F.EL_RTCH_RTCH, F.EL_RDSEQ_SEQ,
   F.EL_RDSTAT_SUSPCNT, F.EL_RDSTAT_STATE, F.EL_RDDATA_DATA]
/-- Fields of the DR registers, part 0. -/
def fieldsDR0 : List Fld :=
  [F.DR_STAT_UNCEVT, F.DR_STAT_NOSPACE, F.DR_STAT_DRAMFAIL, F.DR_STAT_READY, F.DR_CTRL_MANTRIG,
   F.DR_CTRL_SECTION, F.DR_BLOCKS_FREE, F.DR_BLOCKS_RING, F.DR_RECS_CLOSED, F.DR_RECS_OPEN,
   F.DR_LASTID_ID, F.DR_REFCNT_REFUSED, F.DR_REFCNT_IGNORED, F.DR_ECC_UNCORR, F.DR_ECC_CORR,
   F.DR_ACK_ID, F.DR_SEC_OPEN, F.DR_SEC_CONT, F.DR_SEC_ID]
/-- Fields of the CK registers, part 0. -/
def fieldsCK0 : List Fld :=
  [F.CK_CTRL_CONT, F.CK_CTRL_ABORT, F.CK_CTRL_PAUSE, F.CK_CTRL_START, F.CK_STAT_RESULT,
   F.CK_STAT_OWNED, F.CK_STAT_BUSY, F.CK_STAT_DONE, F.CK_STAT_STATE, F.CK_CFG_MODE,
   F.CK_CFG_SSPACE, F.CK_CFG_PRESET, F.CK_CFG_WIDTH, F.CK_CFG_REFOUT, F.CK_CFG_REFIN,
   F.CK_POLY_POLY, F.CK_INIT_INIT, F.CK_XOROUT_XOROUT, F.CK_SRC_SRC, F.CK_DST_DST]
/-- Fields of the CK registers, part 1. -/
def fieldsCK1 : List Fld :=
  [F.CK_LEN_LEN, F.CK_VALUE_VALUE, F.CK_RESULT_RESULT, F.CK_OUTLEN_OUTLEN]
/-- Fields of the PT registers, part 0. -/
def fieldsPT0 : List Fld :=
  [F.PT_STAT_FULL, F.PT_STAT_CAPEVT, F.PT_STAT_VIOLEVT, F.PT_STAT_UNADMEVT, F.PT_STAT_USED,
   F.PT_UNADM_UNADM, F.PT_UNADM_OTHER, F.PT_SEL_ENTRY, F.PT_ENT_VALID, F.PT_ENT_PINNED,
   F.PT_ENT_KIND, F.PT_ENT_LANE, F.PT_ENT_PRIV, F.PT_ENT_RULE, F.PT_ID0_ID0,
   F.PT_ID1_ID1, F.PT_DROP_CAP, F.PT_DROP_VIOL, F.PT_OUT_OUT]
/-- Fields of the SN registers, part 0. -/
def fieldsSN0 : List Fld :=
  [F.SN_EPOCHH_EPOCHH, F.SN_FLAGS_NOGRID, F.SN_FLAGS_MIXED, F.SN_FLAGS_GLIDE, F.SN_FLAGS_MFAULT,
   F.SN_LATCH_EXPIRED1, F.SN_LATCH_EXPIRED0, F.SN_LATCH_HELD1, F.SN_LATCH_HELD0]

/-- Every register field of the device. -/
def allFields : List Fld :=
  fieldsSEC0 ++ fieldsSEC1 ++ fieldsSEC2 ++ fieldsCV0 ++ fieldsCV1 ++ fieldsCV2 ++
  fieldsCV3 ++ fieldsFC0 ++ fieldsPE0 ++ fieldsPE1 ++ fieldsDEV0 ++ fieldsDEV1 ++
  fieldsDEV2 ++ fieldsLC0 ++ fieldsLCF0 ++ fieldsLN0 ++ fieldsLN1 ++ fieldsLN2 ++
  fieldsLN3 ++ fieldsLN4 ++ fieldsTB0 ++ fieldsTB1 ++ fieldsPR0 ++ fieldsPR1 ++
  fieldsEL0 ++ fieldsEL1 ++ fieldsDR0 ++ fieldsCK0 ++ fieldsCK1 ++ fieldsPT0 ++
  fieldsSN0

end Sys2Proof.Machine
end

