-- ==== Sys2Proof/Machine/State.lean ====
section
/-! DEFINITION. The state of the block as plain data. Every register field lives in `State.regs`; what the registers do not
show lives in the structures below. A field's default is its reset value. -/

namespace Sys2Proof.Machine

/-- The phasor of a feeder that a tracker follows, in one epoch (R23): epoch, core clock of its sample instant, angle in turns,
square of its magnitude (over √2), and whether no used channel carries invalid quality. -/
structure TrackPt where
  epoch : Nat := 0
  at_ : Nat := 0
  turns : Rat := 0
  sq : Rat := 0
  ok : Bool := false
deriving DecidableEq, Repr

/-- A tracker and its entry of the reference list (R23, R24, R28). -/
structure EntrySt where
  /-- Consecutive valid epochs (R28). -/
  validRun : Nat := 0
  /-- Consecutive failing epochs (R24). -/
  failRun : Nat := 0
  /-- The entry is lost (R24). -/
  lost : Bool := false
  /-- Tracker frequency in 0.1 mHz, held while the entry fails (R24). -/
  freq : Nat := 500000
  /-- Phase of the reference in ticks at the last report, offset applied (R26). -/
  phase : Rat := 0
  /-- Core clock of the last report; a failing entry continues its phase from here (R24). -/
  at_ : Nat := 0
deriving DecidableEq, Repr

/-- One sampled epoch: number, core clock and stamp of its sample instant (R22, R38). -/
structure EpochRec where
  epoch : Nat := 0
  at_ : Nat := 0
  stamp : Nat := 0
  /-- SEC_FREQ at the instant, and whether a glide was in progress (R401). -/
  freq : Nat := 0
  glide : Bool := false
deriving DecidableEq, Repr

/-- One phase of an element instance (R112, R117, R121). -/
structure PhSt where
  started : Bool := false
  op : Bool := false
  /-- Operate timer T in s or cycles (R112). -/
  t : Rat := 0
  /-- Integrator g, minimum-time counter u, reset timer w (R117). -/
  g : Rat := 0
  u : Rat := 0
  w : Rat := 0
  fwd : Bool := false
  rev : Bool := false
  /-- Direction sealed on the remembered voltage (R123). -/
  sealed : Bool := false
deriving DecidableEq, Repr

/-- A committed ply until its check (R199, R203): target epoch, outputs asserted, audit mark, and the enclosure of each
state quantity between the shortest and the longest epoch durations. -/
structure Commit where
  target : Nat
  bits : Nat := 0
  q : Quality := {}
  mark : Bool := false
  /-- Element state at the shortest durations, the committed one, and at the longest. -/
  lo : List PhSt := []
  hi : List PhSt := []
  /-- BF: active, and T at both bounds. -/
  active : Bool := false
  bfLo : Rat := 0
  bfHi : Rat := 0
  /-- Section element: the feeders whose SECTRIP it has set (R192). -/
  targets : List Nat := []
deriving DecidableEq, Repr

/-- The measurement part of a feeder on the section board (R161). -/
structure MeasPart where
  /-- Samples of IA, IB, IC, IN with their quality. -/
  samples : List (Rat × Quality) := []
  /-- Full-cycle phasors over √2. -/
  full : List C := []
  /-- Half-cycle phasors over √2. -/
  half : List C := []
  /-- Saturation flags of IA, IB, IC, IN (R96). -/
  sat : Nat := 0
  /-- Quality of the full-cycle and of the half-cycle phasors. -/
  q : List Quality := []
  qHalf : List Quality := []
  /-- Radii about the samples, the full-cycle and the half-cycle phasors: empty but for a ply (R190). -/
  rSmp : List Rat := []
  rFull : List Rat := []
  rHalf : List Rat := []
  /-- The part was substituted under the stalemate rule (R163). -/
  subst : Bool := false
deriving DecidableEq, Repr

/-- The element part of a feeder on the section board (R161). -/
structure ElemPart where
  /-- START, OP and the quality of each, of the instances named in interlocking groups (R161, R176). -/
  starts : List (Nat × Bool × Bool × Quality × Quality) := []
  /-- BACKTRIP of the BF instance (R155). -/
  backtrip : Bool := false
  backtripQ : Quality := {}
  /-- Tile light-input states and qualities, by input (R161). -/
  lights : List (Nat × Bool × Quality) := []
  subst : Bool := false
deriving DecidableEq, Repr

/-- Section timers of one arc zone (R180). -/
structure ArcSt where
  op : Bool := false
  /-- Core clock at which AF_OPz asserted. -/
  opAt : Nat := 0
  /-- The zone is blocked, with epochs left of the hold of AF_OPz (R104, R179). -/
  blocked : Bool := false
  hold : Nat := 0
  q : Quality := {}
  /-- A light input counts. -/
  light : Bool := false
  /-- Time for which light has counted without a passing check feeder, in s. -/
  lightT : Option Rat := none
  lwc : Bool := false
deriving DecidableEq, Repr

/-- The section state that the master writes to the master area (R167, R172, R175, R180). -/
structure MasterSt where
  bdStart : List Bool := [false, false, false]
  czStart : List Bool := [false, false, false]
  /-- The operate timer of a phase runs, and its time (R172). -/
  bdRun : List Bool := [false, false, false]
  bdT : List Rat := [0, 0, 0]
  /-- A phase is blocked (R174). -/
  bdBlk : List Bool := [false, false, false]
  bdOp : List Bool := [false, false, false]
  /-- Epochs left of the hold of BD_OP_x through a block (R104, R174). -/
  bdHold : List Nat := [0, 0, 0]
  /-- Time of each phase at or above the alarm threshold; `none` while below (R175). -/
  alarmT : List (Option Rat) := [none, none, none]
  alarm : Bool := false
  /-- Id and Ir of the phases in A, and the qualities of main and check zone. -/
  id_ : List Rat := [0, 0, 0]
  ir : List Rat := [0, 0, 0]
  qMain : List Quality := [{}, {}, {}]
  qCheck : List Quality := [{}, {}, {}]
  arcs : List ArcSt := []
deriving DecidableEq, Repr

/-- A page of the section board (R161). -/
structure Page where
  epoch : Nat := 0
  meas : Tab MeasPart := []
  elem : Tab ElemPart := []
  master : Option MasterSt := none
deriving DecidableEq, Repr

/-- A pending rotation of the master (R167): the handover epoch, the engine asked for, the cause code of record 0x0502. -/
structure Rotation where
  h : Nat
  req : Nat
  cause : Nat
deriving DecidableEq, Repr

/-- One value of a row of the disturbance recorder (R330): the group (0 local, 1 epoch, otherwise 2 + the rate of a
stream), the row's number in its group (tap sample m, epoch, or date in sample intervals), its instant as a core clock, the
channel and the word stored. -/
structure DrCell where
  grp : Nat
  row : Nat
  at_ : Nat
  chan : Nat
  word : Nat
deriving DecidableEq, Repr

/-- A section: its angle clock, reference list, grid, board and switch-over. -/
structure SecSt where
  /-- The grid has started (R19). -/
  running : Bool := false
  /-- Angle in ticks at core clock `t0` (R19), the rate from there in Hz. -/
  theta0 : Rat := 0
  t0 : Nat := 0
  rate : Rat := 0
  entries : List EntrySt := [{}, {}, {}, {}, {}]
  /-- Glide: error e at its start in ticks, its core clock, its slew in Hz (R30). -/
  glideE : Rat := 0
  glideAt : Nat := 0
  slew : Rat := 0
  /-- Cycles of the target that the glide has run by `glideAt`, and whether the clamp has slowed it (R31). -/
  glideCyc : Rat := 0
  clamped : Bool := false
  /-- Wraps of the cycle count that have been shown in WRAP (R20). -/
  wraps : Nat := 0
  /-- Next epoch to sample, to become due, to reach its deadline (R34). -/
  nextSample : Nat := 0
  nextDue : Nat := 0
  nextDeadline : Nat := 0
  /-- Recent sample instants, newest first (R22, R37, R38). -/
  epochs : List EpochRec := []
  /-- Stamp that a read of SEC_EPOCH_NUM would latch (R21). -/
  stamp : Nat := 0
  /-- The 32 pages of the section board by epoch mod 32 (R161). -/
  pages : Tab Page := []
  /-- Working section state of the master (R167). -/
  mst : MasterSt := {}
  /-- Epoch whose section evaluation is running (R162). -/
  evalOpen : Option Nat := none
  /-- The open evaluation is computed: `mst` holds its result. -/
  evald : Bool := false
  /-- Epoch of the latest completed section evaluation (R167). -/
  evalDone : Option Nat := none
  /-- Signals as they stood when the section evaluation began (R182). -/
  reads : Tab Entry := []
  /-- Committed plies of section elements awaiting their check: 0 differential, 1 + z arc zone z (R203). -/
  committed : Tab Commit := []
  /-- A substitution was made for the present epoch: SSTAT bit 2 (R208). -/
  substNow : Bool := false
  /-- A pending rotation by request, and one for an evacuation (R167). -/
  rotReq : Option Rotation := none
  rotEvac : Option Rotation := none
  /-- First epoch of the section's present configuration (R376); `State.oldCfg` serves the epochs before it. -/
  cfgFrom : Nat := 0
  /-- Items on their way to the rank ingress, oldest first (R16, R82, R196). -/
  toIngress : List IngressItem := []
  /-- Resampler: dated samples of the section's streams, (stream, date in sample intervals of the stream, 8 values with
  quality words) (R78), and the next epoch whose grid sample a stream forms (R79). -/
  svPoints : List (Nat × Nat × List (Int × Nat)) := []
  svNext : Tab Nat := []
  /-- Later epochs that a stream has formed already (R79). -/
  svDone : List (Nat × Nat) := []
  /-- A manual trigger waits for the next deadline (R327). -/
  manTrig : Bool := false
  /-- Trigger signals as of the previous deadline (R327). -/
  trigPrev : List (SigBit × Bool) := []
  /-- Recent rows, newest first, bytes of them in the row buffer, and the blocks of the pre-trigger ring (R329, R330, R396). -/
  rows : List DrCell := []
  rowFill : Nat := 0
  ringBlocks : Nat := 0
  /-- Open record of the section (R328). -/
  recOpen : Option Nat := none
deriving DecidableEq, Repr

/-- The model of R87 with its phasors over √2. -/
structure Model where
  d : Rat := 0
  s : Rat := 0
  y : List C := []
deriving DecidableEq, Repr

/-- A dependent channel of a ply (R191): feeder, channel, the angles and limits of its confirming samples. -/
structure Dep where
  feeder : Nat
  ch : Nat
  /-- Model of the run-ahead fit and the epoch Er it ends at (R188). -/
  model : Model := {}
  er : Nat := 0
  /-- Epochs whose grid sample has still to pass; an urgent ply waits for one conversion of the channel. -/
  wait : List Nat := []
  urgent : Bool := false
  /-- Its urgent request has been taken by the converter (R48, R200). -/
  asked : Bool := false
deriving DecidableEq, Repr

/-- A staged ply (R184, R192). -/
structure Ply where
  engine : Nat
  /-- Feeder and instance, or section element: `sec` set, inst 0 differential, 1 + z arc zone z. -/
  feeder : Nat := 0
  inst : Nat := 0
  sec : Option Nat := none
  target : Nat := 0
  deps : List Dep := []
  /-- What it commits (R192). -/
  commit : Commit := { target := 0 }
  /-- Tiles' outputs driven: (lane, address, output bits). -/
  gates : List (Nat × Nat × Nat) := []
  /-- Signals read, with the entry read (R194). -/
  watch : List (Nat × Entry) := []
  /-- The slot comes from the shared pool (R195). -/
  shared : Bool := false
  /-- Its slot: 0 to 15 an own slot of the engine, from 16 on a slot of the shared pool (R195). -/
  slot : Nat := 0
  confirmed : Bool := false
  urgent : Bool := false
  /-- The target feeders whose SECTRIP it sets (R192). -/
  targets : List Nat := []
  q : Quality := {}
deriving DecidableEq, Repr

/-- A launch gate of a tile lane (R193). -/
structure Gate where
  ply : Nat
  addr : Nat
  bits : Nat
  open_ : Bool := false
  /-- FLAGS and CTAG of the frame, fixed at staging (R193). -/
  flags : Nat := 0
  ctag : Nat := 0
deriving DecidableEq, Repr

/-- A refused urgent request of the present core clock: who asked, for which input, and the plies that the refusal squashed, each
with its closed gates by lane (R48, R198). -/
structure UrgRefusal where
  by_ : Requester
  inp : Nat
  plies : List (Nat × Ply × List (Nat × Gate)) := []
deriving DecidableEq, Repr

/-- The requests that reach a converter on one core clock with none pending before (R48): the core clock, the first requester in the
order of R48 among those taken, and the refused requests. -/
structure UrgClk where
  at_ : Nat
  first : Requester
  refused : List UrgRefusal := []
deriving DecidableEq, Repr

/-- A conversion that runs or has been aborted (R39, R41, R47). -/
structure Conversion where
  inp : Nat
  urg : Bool := false
  owt : Bool := false
  /-- Section angle in ticks at its start (R49). -/
  angle : Nat := 0
  /-- Core clock at its start. -/
  at_ : Nat := 0
  /-- Slot position and slot instant in ticks, for a slot conversion (R41). -/
  slot : Nat := 0
  slotAngle : Nat := 0
  /-- Urgent, asked for by an engine while the input's pull currents were on (R50). -/
  pulled : Bool := false
deriving DecidableEq, Repr

/-- An entry of a result queue (R43) with what travels beside it. -/
structure QEnt where
  word : Nat
  angle : Nat := 0
  slotAngle : Nat := 0
  /-- REFRDY was set; pull currents were on at an engine's request (R50, R52). -/
  refOk : Bool := true
  pulled : Bool := false
  /-- The place of a slot entry dropped on a full queue, reported to the chain (R45, R71). -/
  dropped : Bool := false
deriving DecidableEq, Repr

/-- Open-wire test state of an input (R55, R56). -/
structure OwSt where
  /-- Attempts without a start (R55). -/
  attempts : Nat := 0
  /-- An attempt is due at the next slot completion. -/
  due : Bool := false
  /-- Pull currents on since this core clock, with the reference code (R55), and whether it was made with REFRDY set (R52). -/
  pull : Option (Nat × Int) := none
  refOk : Bool := true
  failRun : Nat := 0
  passRun : Nat := 0
  /-- Core clock of the next test. -/
  nextAt : Nat := 0
deriving DecidableEq, Repr

/-- A calibration session (R59, R61). -/
structure CalSt where
  inp : Nat
  /-- Core clock of its last accepted command. -/
  lastAt : Nat := 0
  sum : Int := 0
  count : Nat := 0
  ovr : Bool := false
  refLost : Bool := false
  zero : Option Rat := none
  /-- Coefficients to be stored (off_c, gain_c). -/
  newCoef : Option (Int × Nat) := none
  /-- Averaging waits for an erased spare sector (R336). -/
  waitErase : Bool := false
deriving DecidableEq, Repr

/-- A converter. -/
structure ConvSt where
  /-- Position of the next slot instant and its even tick (R22, R40). -/
  slotTick : Nat := 0
  cur : Option Conversion := none
  /-- Slot conversions that wait for a running conversion (R41). -/
  waiting : List Conversion := []
  /-- An aborted conversion that restarts (R47). -/
  aborted : Option Conversion := none
  /-- SEQ of the next completion (R44). -/
  seq : Nat := 0
  queue : List QEnt := []
  /-- Pending urgent request, with who asked (R48). -/
  pendUrg : Option (Nat × List Requester) := none
  lastUrg : Option Nat := none
  /-- The requests of the latest core clock on which one was taken with none pending (R48). -/
  took : Option UrgClk := none
  /-- Requesters of the urgent conversion that runs. -/
  urgBy : List Requester := []
  /-- The pending urgent conversion was asked for while the input's pull currents were on (R50). -/
  pulledUrg : Bool := false
  ow : List OwSt := [{}, {}, {}, {}, {}, {}, {}, {}]
  cal : Option CalSt := none
  /-- New coefficients that apply from the next grid instant (R61): input, off, gain. -/
  newCoef : Option (Nat × Int × Nat) := none
deriving DecidableEq, Repr

/-- One input's state in a filter chain (R64 to R67). -/
structure InpChain where
  /-- Latest 29 corrected conversions, newest first, in 1/256 code. -/
  convs : List Rat := []
  /-- Latest 64 CIC outputs, newest first, and how many of them belong to an incomplete shift (R74). -/
  cic : List Rat := []
  gathered : Nat := 0
  /-- FIR outputs, newest first, with the index j of R67. -/
  fir : List (Int × Rat) := []
  /-- Slot angles of conversions that give a quality to the samples to which they contribute, and whether by OVR
  (R70, R71). -/
  marks : List (Nat × Quality × Bool) := []
  /-- Previous slot result (R71), in 1/256 code. -/
  last : Rat := 0
  /-- Next epoch to deliver. -/
  epoch : Nat := 0
  /-- Slot angle of the latest slot result taken. -/
  lastAt : Nat := 0
  /-- Grid samples formed, oldest first, whose windows are still open: epoch and value (R67, R70). -/
  formed : List (Nat × Int) := []
deriving DecidableEq, Repr

/-- A filter chain; its state, PENDING, DIRTY and counters are in FC_STAT. -/
structure ChainSt where
  coefs : List Int := []
  inps : List InpChain := [{}, {}, {}, {}, {}, {}, {}, {}]
  /-- Shifts being computed: input and index j (R65, R74). -/
  due : List (Nat × Int) := []
  /-- Samples delivered whose burst is not complete: epoch, input, value, quality (R82). -/
  outs : List (Nat × Nat × Int × Quality) := []
  /-- STARTING: a start waits for the next slot instant (R75, R363); a stop given meanwhile (R364). -/
  startWait : Bool := false
  pendOff : Bool := false
  /-- First slot instant after the latest start, in ticks (R76). -/
  startAngle : Option Nat := none
deriving DecidableEq, Repr

/-- A reference group (R51, R52). -/
structure RefSt where
  powered : Bool := false
  /-- The sources that are out of their ranges; a group's own source may be changed while another is out (R51). -/
  out : List RefSource := []
  /-- Core clock at which its settling began. -/
  settleAt : Nat := 0
deriving DecidableEq, Repr

/-- One sample in a window (R101). -/
structure Smp where
  v : Rat := 0
  q : Quality := {}
  filled : Bool := false
deriving DecidableEq, Repr

/-- The measured quantities of a feeder in one epoch, channels in the order IA, IB, IC, IN, VA, VB, VC, VN. -/
structure Meas where
  models : List Model := []
  half : List C := []
  /-- Mean squares of R93, at their favourable and unfavourable bound; equal but for a ply (R190). -/
  ms : List Rat := []
  msHi : List Rat := []
  /-- Radii of the discs about X1, X2 and H, in RMS units: 0 but for a ply (R190). -/
  rFull : List Rat := []
  rSecond : List Rat := []
  rHalf : List Rat := []
  /-- Quality of full-window and of half-window quantities (R99, R101). -/
  qFull : List Quality := []
  qHalf : List Quality := []
  /-- The leakage rule adds questionable (R100). -/
  leak : Bool := false
  /-- Frequency in Hz and ROCOF in Hz/s (R94, R95). -/
  freq : Rat := 0
  freqQ : Quality := {}
  rocof : Rat := 0
  rocofQ : Quality := {}
  /-- Nominal frequency of the section in the epoch, in Hz (R26). -/
  nom : Rat := 50
deriving DecidableEq, Repr

/-- Captures of the fault locator (R157, R158). -/
structure FlSt where
  es : Option Nat := none
  /-- An initiating start stood in the latest evaluation (R157). -/
  any : Bool := false
  /-- Half-cycle and full-cycle phasors captured, with their quality and the phases and earth started at the capture. -/
  halfCap : Option (List C × Quality × Nat × Bool) := none
  fullCap : Option (List C × Quality × Nat × Bool) := none
  opSeen : Bool := false
  published : Bool := false
deriving DecidableEq, Repr

/-- An element instance (R104 to R159). -/
structure ElemSt where
  ph : List PhSt := [{}, {}, {}, {}]
  /-- Working outputs of the latest evaluation. -/
  bits : Nat := 0
  q : Quality := Quality.bad
  /-- Epochs left of a hold through a block; the instance is blocked (R104). -/
  hold : Nat := 0
  blocked : Bool := false
  /-- Memory of V1: phasor over √2, frequency, epoch, core clock (R122). -/
  mem : Option (C × Rat × Nat × Nat) := none
  /-- Thermal level θ (R147); 1 is 100 %. -/
  theta : Rat := 0
  /-- BF: active, T, current check, assertion instants of RETRIP and BACKTRIP (R153). -/
  active : Bool := false
  bfT : Rat := 0
  check : Bool := false
  taR : Nat := 0
  taB : Nat := 0
  /-- INR: own restraints A, B, C, measured and calculated residual; time of the cross-block hold in s (R132). -/
  rst : Nat := 0
  crossT : Option Rat := none
  fl : FlSt := {}
  /-- Result of the fault locator: DIST, XLOOP, LOOP, quality (R159). -/
  result : Option (Int × Int × Nat × Quality) := none
  /-- Committed ply awaiting its check (R199, R203). -/
  committed : Option Commit := none
deriving DecidableEq, Repr

/-- The frequency source in one epoch (R94): angles of V1 and of I1 in turns, source (0 none, 1 V1, 2 I1), quality of P and
core clock of the epoch. -/
structure RotPt where
  v1 : Rat := 0
  i1 : Rat := 0
  src : Nat := 0
  q : Quality := {}
  at_ : Nat := 0
deriving DecidableEq, Repr

/-- A source of a feeder (R82 to R84). -/
structure SrcSt where
  missRun : Nat := 0
  lost : Bool := false
deriving DecidableEq, Repr

/-- A feeder. -/
structure FeederSt where
  /-- Engine that evaluates it and its engine slot (R9, R381). -/
  engine : Nat := 0
  slot : Nat := 0
  wins : List (List Smp) := [[], [], [], [], [], [], [], []]
  prev : List Model := []
  meas : Meas := {}
  /-- The source phasor of each epoch, newest first (R94). -/
  rot : List RotPt := []
  /-- What a tracker follows, newest first (R23). -/
  track : List TrackPt := []
  /-- Frequencies with their core clocks, newest first, for ROCOF (R95). -/
  freqs : List (Rat × Quality × Nat) := []
  /-- Epochs since the last detection on IA, IB, IC, IN; `none` while the flag is clear (R96). -/
  satRun : List (Option Nat) := [none, none, none, none]
  srcs : List SrcSt := [{}, {}]
  /-- Bursts received and not yet due: source, epoch, samples (R83). -/
  bursts : List (Nat × Nat × List (Option (Int × Quality))) := []
  elems : Tab ElemSt := []
  /-- Epoch whose measurement is done and not yet written to the board, and epoch whose evaluation runs. -/
  measOpen : Option Nat := none
  evalOpen : Option Nat := none
  /-- Measurement parts that the next epoch has overtaken (R164). -/
  lateParts : Nat := 0
  /-- Instances evaluated in the open evaluation, the elements before it, and the signals that it reads, as they stood
  when it began (R109, R204). -/
  evalNext : Nat := 0
  saved : Tab ElemSt := []
  reads : Tab Entry := []
  /-- Duration of the epoch in s (R37). -/
  dt : Rat := 0
  /-- Form of the latest epoch: 0 whole, 1 half, 2 empty, and consecutive deadline misses (R83, R204). -/
  form : Nat := 0
  missRun : Nat := 0
  missed : Bool := false
deriving DecidableEq, Repr

/-- An engine; its state and counters are in PE_ registers. -/
structure EngSt where
  /-- The engine is being evacuated; first epoch of the rank's section at which its next feeder may migrate (R380, R381). -/
  evacFrom : Option Nat := none
  /-- Known-answer self-test running; home feeders return, the next one from this epoch on (R382). -/
  testing : Bool := false
  returnFrom : Option Nat := none
  /-- New microcode waits to be loaded (R383). -/
  rollout : Bool := false
  /-- Committed urgent plies under audit: their dependent channels with the epochs still to come (R201). -/
  audits : List Ply := []
  /-- A round of ply attempts is due (R186). -/
  roundDue : Bool := false
  /-- Plies discarded as decided-no-trip and as undecided (R191). -/
  noTrip : Nat := 0
  undecided : Nat := 0
deriving DecidableEq, Repr

/-- A timer of a logic core (R216). -/
structure TimerSt where
  e : Int := 0
  inp : Bool := false
  running : Bool := false
  /-- Core clock and section angle of its previous execution. -/
  at_ : Nat := 0
  angle : Int := 0
  fresh : Bool := true
deriving DecidableEq, Repr

/-- A counter of a logic core (R217). -/
structure CtrSt where
  n : Int := 0
  inp : Bool := false
deriving DecidableEq, Repr

/-- A logic core (R212). -/
structure CoreSt where
  pc : Nat := 0
  b : Bool := false
  bq : Quality := {}
  a : Int := 0
  aq : Quality := {}
  stack : List (Bool × Quality) := []
  vars : Tab Entry := []
  timers : Tab TimerSt := []
  ctrs : Tab CtrSt := []
  /-- Signal-table writes collected in this scan (R211). -/
  writes : Tab Entry := []
  /-- Entries that the core's signals take again when the first scan after a restart ends (R223). -/
  under : Tab Entry := []
  scanAt : Nat := 0
  overrun : Bool := false
  lastInTime : Bool := true
  /-- Kind of restart or stop waiting for the scan's end: 1 warm, 2 cold, 3 stop (R223, R364). -/
  pend : Nat := 0
  pendOff : Bool := false
  pendOn : Bool := false
  /-- Retained words at the end of the last completed scan: variables and counters (R224). -/
  keptVars : Tab Entry := []
  keptCtrs : Tab Int := []
  /-- The core was started warm at power-up with restored words. -/
  restored : Bool := false
deriving DecidableEq, Repr

/-- A force entry (R225): its LC_FDEF and LC_FVAL, and what is applied. -/
structure Force where
  /-- LC_FDEF and LC_FVAL as written for the entry. -/
  def_ : Nat := 0
  val : Nat := 0
  /-- The entry is applied; its target is a tile output, and its target and value. -/
  active : Bool := false
  output : Bool := false
  target : Nat := 0
  value : Nat := 0
deriving DecidableEq, Repr

/-- The device's view of one tile (R237 to R256). -/
structure DevTile where
  seq : Nat := 0
  cmd : Nat := 0
  /-- Latest valid up-frame, its core clock and its epoch tag (R253). -/
  up : Option UpFrame := none
  upAt : Nat := 0
  upEpoch : Nat := 0
  /-- Valid up-frames by epoch tag, newest first: tag, latest IN, OR of IN, WB, core clock of the latest (R253). -/
  hist : List (Nat × Nat × Nat × Nat × Nat) := []
  missRun : Nat := 0
  lost : Bool := false
  /-- SEQ of the refresh frame of this side that waits for its answer (R256), and an enumeration that does (R254). -/
  waiting : Option Nat := none
  enumWait : Bool := false
  configured : Bool := false
  /-- Configuration step: 0 to 3 writes of the items, 4 to 7 read back, 8 done, 9 left unconfigured (R254, R255). -/
  step : Nat := 0
  serial : Nat := 0
  ctag : Nat := 0
  /-- Core clock at which each command rose, for the minimum on time, and whether a source counted when the outputs were
  last looked at (R239). -/
  rose : List (Option (Nat × Bool)) := []
  /-- The tile answers: a frame has come and no loss or missing response since (R249, FOUND). -/
  answers : Bool := false
  /-- RB has differed from the expected state since, and it has been reported (R249). -/
  rbSince : Option Nat := none
  rbSaid : Bool := false
deriving DecidableEq, Repr

/-- The latest sample that an SV publication has sent (R284): smpCnt, smpSynch, 8 values with quality words. -/
structure SvOut where
  n : Nat := 0
  synch : Nat := 0
  values : List (Int × Nat) := []
deriving DecidableEq, Repr

/-- A GOOSE message as it goes out (R285, R286): its publication and numbers, timeAllowedToLive in ms, test field, and its members:
type, 0 BOOLEAN or 1 INT32, value, and quality member where it has one. -/
structure GooseOut where
  pub : Nat := 0
  stNum : Nat := 0
  sqNum : Nat := 0
  ttl : Nat := 0
  test : Bool := false
  members : List (Nat × Int × Option Nat) := []
deriving DecidableEq, Repr

/-- A frame queued on an Ethernet lane (R288, R291): class 1 PTP, 2 GOOSE, 3 SV, 4 management. -/
structure EthFrame where
  cls : Nat
  len : Nat := 64
  /-- Time target (time base, counter value) or angle target (section, angle). -/
  timeTgt : Option (Nat × Nat) := none
  angleTgt : Option (Nat × Nat) := none
  /-- Its launch condition is met, or it carries none. -/
  ready : Bool := false
  /-- Identifier of an originated PTP event message, whose stamp enters the queue (R300); its stamp calls for a follow-up
  message. -/
  ptpId : Option Nat := none
  follow : Bool := false
  /-- A forwarded Sync: ingress lane, sequenceId, sourcePortIdentity and ingress stamp; it is a one-step Sync, whose own
  correctionField takes the residence time and the link delay as it leaves (R301). -/
  resid : Option (Nat × Nat × Nat × Nat) := none
  oneStep : Bool := false
  /-- A forwarded Follow_Up whose Sync has not left yet: ingress lane, sequenceId, sourcePortIdentity (R301). -/
  await : Option (Nat × Nat × Nat) := none
  /-- priority1 and priority2 of an Announce that the port sends (R299). -/
  prio : Option (Nat × Nat) := none
  /-- correctionField of a forwarded PTP message, in ns (R301). -/
  corr : Int := 0
  /-- Its GOOSE message, or its SV publication and sample. -/
  goose : Option GooseOut := none
  sv : Option (Nat × SvOut) := none
  /-- Response to a request that is outstanding until the frame leaves: partner entry and REQID (R395). -/
  mgmt : Option (Nat × Nat) := none
deriving DecidableEq, Repr

/-- Transparent-clock and port state of PTP (R299, R301). -/
structure PtpSt where
  /-- sourcePortIdentity of the selected master on this port, and the core clock of its latest Announce. -/
  master : Option Nat := none
  announceAt : Nat := 0
  /-- meanLinkDelay in ns. -/
  linkDelay : Int := 0
  /-- Held residence sums: sequenceId, sourcePortIdentity, sum, core clock (R301). -/
  held : List (Nat × Nat × Int × Nat) := []
  /-- The port has not yet waited for an Announce (R299; log entry 170). -/
  listening : Bool := true
  /-- Identifier of the next event message that the port originates (R300). -/
  nextId : Nat := 0
  /-- A two-step Sync waits for its Follow_Up, and an own Pdelay_Req for its answer and its follow-up. -/
  syncSeq : Option Nat := none
  pdelayAsked : Bool := false
  pdelaySeq : Option Nat := none
  /-- Core clock of the next message interval. -/
  nextAt : Nat := 0
deriving DecidableEq, Repr

/-- A lane. -/
structure LaneSt where
  startAt : Nat := 0
  pendOff : Bool := false
  /-- Core clock since which the lane has been STOPPING (R260). -/
  stopAt : Nat := 0
  /-- Core clock at which LOCK last set (R263). -/
  lockAt : Nat := 0
  retrainAt : Nat := 0
  everUp : Bool := false
  gates : List Gate := []
  changeQ : List Nat := []
  refreshQ : List Nat := []
  /-- Configuration and enumeration frames: (type, address, item). -/
  confQ : List (Nat × Nat × Nat) := []
  /-- End of the present refresh period (R237). -/
  periodEnd : Nat := 0
  tiles : Tab DevTile := []
  /-- The chain has been enumerated and configured since the latest enumeration began (R254, R366). -/
  enumerated : Bool := false
  /-- Address of the tile that is being configured (R255). -/
  confAt : Option Nat := none
  /-- The frame that left last on a tile lane (R235). -/
  tx : Option DownFrame := none
  /-- In the present refresh period a partner frame has come, and one whose claim is at or above the own with bit 15
  (R309, R311). -/
  seen : Bool := false
  high : Bool := false
  /-- Core clock and CLAIM of the latest valid partner down-frame (R307), and runs of periods (R309, R311). -/
  partnerAt : Option Nat := none
  partnerClaim : Nat := 0
  highRun : Nat := 0
  seenRun : Nat := 0
  /-- Ring-break service in force (R311). -/
  ringSvc : Bool := false
  /-- LN_TCSVC has been written through the maintenance port (R257, R310). -/
  svcWritten : Bool := false
  ethQ : List EthFrame := []
  /-- The Ethernet frame that left last. -/
  ethTx : Option EthFrame := none
  tsq : List (Nat × Nat) := []
  /-- Identifiers of event messages whose stamps call for a follow-up message (R300). -/
  follows : List Nat := []
  /-- The counters of the four time bases at the timestamp point of the frame received last (R280). -/
  rxStamps : List Nat := []
  /-- Reservation window for a held target: (time base, counter value) (R290). -/
  resv : Bool := false
  /-- Core clock at which the frame in progress ends (R238, R260, R269, R290). -/
  txFree : Nat := 0
  ptp : PtpSt := {}
  /-- Peer frames queued per channel, the blocks of the frame that left last, and the frame that the receiver assembles: bytes 1 to 7
  of its START and the payload so far (R267 to R269). -/
  peerQ0 : List PeerFrame := []
  peerQ1 : List PeerFrame := []
  peerOut : List PeerBlock := []
  /-- Core clock at which the first block of `peerOut` began; the scrambler's last 58 bits, and the core clock up to which they stand,
  idle blocks following (R267). -/
  peerAt : Nat := 0
  scr : Nat := 0
  scrAt : Nat := 0
  peerAsm : Option (List Nat × List Nat) := none
  /-- Consecutive valid blocks since the alignment, the validity of the blocks received lately, newest first, and the core clock of
  the last loss (R263). -/
  run : Nat := 0
  win : List Bool := []
  downAt : Nat := 0
  /-- Running disparity of the received 8b/10b stream, from the first code-group after the alignment (R263). -/
  rd : Option Bool := none
  /-- Core clock since which rate injection runs, and the bits that it has inverted (R278). -/
  injAt : Option Nat := none
  injN : Nat := 0
  /-- Core clock since which the checker is locked, and the units of 2^16 bits counted since; the checker (R277). -/
  prbsAt : Nat := 0
  prbsN : Nat := 0
  chk : PrbsSt := {}
  /-- Register of the pattern generator at its start, and the core clock of the start (R276). -/
  gen : Nat := 0
  genAt : Nat := 0
deriving DecidableEq, Repr

/-- One port of a tile (R242, R243). -/
structure PortSt where
  claim : Nat := 0
  seqRec : Option Nat := none
  at_ : Nat := 0
  ferr : Bool := false
  grpmm : Bool := false
  lightSeen : Nat := 0
deriving DecidableEq, Repr

/-- A Gauntlet GT-16 tile (R230 to R257). -/
structure TileSt where
  powered : Bool := false
  serial : Nat := 0
  addr : Option Nat := none
  /-- Configuration bytes 0 to 35 and CTAG as held; bytes and CTAG written by a configuration that is not complete, and its items
  written so far (R435). -/
  conf : List Nat := []
  ctag : Nat := 0
  stage : List Nat := []
  stageTag : Nat := 0
  items : Nat := 0
  configured : Bool := false
  west : PortSt := {}
  east : PortSt := {}
  /-- Accepted port: some true is east (R243). -/
  accepted : Option Bool := none
  tie : Bool := false
  lastAcc : Nat := 0
  /-- In the safe state; core clock of the first accepted frame towards leaving it (R245). -/
  safe : Bool := true
  firstAcc : Option Nat := none
  cmd : Nat := 0
  /-- Groups that drive their safe pattern for a mismatch, as output bits (R246). -/
  grpBad : Nat := 0
  /-- Outputs off for overcurrent, and since when each command has been 0 (R248). -/
  outFault : Nat := 0
  zeroAt : List Nat := []
  fsup : Bool := false
  xerr : Bool := false
  /-- The field side drives the safe pattern for want of a valid word (R247). -/
  fieldSafe : Bool := false
  /-- The outputs and the safe pattern of the last valid word that the field side received, and the core clocks of the last valid
  words of the field side and of the logic side (R247). -/
  fcmd : Nat := 0
  fpat : Nat := 0
  fieldAt : Nat := 0
  logicAt : Nat := 0
  /-- Reported input states, wire-break classes, and the classes that wait for their debounce: (class, core clock) (R252). -/
  inp : Nat := 0
  wbc : Nat := 0
  cand : List (Option (Nat × Nat)) := []
  rb : Nat := 0
  /-- The answer last sent and the port on which it left, true for east (R244). -/
  sent : Option (Bool × UpFrame) := none
  /-- The down-frame last forwarded and the port on which it left (R231). -/
  fwd : Option (Bool × TileChars) := none
deriving DecidableEq, Repr

/-- A time base (R292 to R297). -/
structure TbSt where
  /-- Nanoseconds since PORn in units of 2^-40 / 6 ns at core clock `t0`; steps act on `step`. -/
  acc : Nat := 0
  t0 : Nat := 0
  /-- Sum of the steps applied to the counter. -/
  step : Int := 0
  /-- Core clocks at which discipline was enabled, at which LOCK last cleared, and of the latest update since the
  enabling. -/
  enabledAt : Nat := 0
  unlockedAt : Nat := 0
  lastUpd : Option Nat := none
  /-- Consecutive updates within and beyond the threshold (R295). -/
  okRun : Nat := 0
  badRun : Nat := 0
  /-- Base pair: counter value, seconds, nanoseconds (R296). -/
  baseC : Nat := 0
  baseS : Nat := 0
  baseNs : Nat := 0
  /-- The PPS output is high, since this core clock (R297). -/
  ppsHigh : Option Nat := none
deriving DecidableEq, Repr

/-- A GOOSE publication (R286). -/
structure PubSt where
  stNum : Nat := 0
  sqNum : Nat := 0
  /-- Members of the last message formed. -/
  last : List Entry := []
  /-- Interval to the next repetition in ms, and its core clock; none while the first message is held (R286, R289). -/
  interval : Nat := 0
  nextAt : Option Nat := none
  /-- The latest message's timeAllowedToLive in ms, twice the interval to the next repetition (R286), and its test field (R228). -/
  ttl : Nat := 0
  test : Bool := false
deriving DecidableEq, Repr

/-- A GOOSE subscription (R287). -/
structure SubSt where
  last : Option (Nat × Nat) := none
  expireAt : Nat := 0
  expired : Bool := false
deriving DecidableEq, Repr

/-- An open contest (R318). -/
structure Contest where
  sec : Nat
  c : Nat
  ranks : Nat := 0
  /-- Ranks that failed the self-test, and the section's next epoch to reach its deadline when the contest opened. -/
  failed : Nat := 0
  upto : Nat := 0
deriving DecidableEq, Repr

/-- A castling (R324, R325). -/
structure Castling where
  x : Nat
  newG : Nat
  /-- Accepted, and reference epoch of the request. -/
  accepted : Bool := false
  at_ : Nat := 0
  /-- This side takes the active role at X. -/
  taker : Bool := false
  switched : Bool := false
deriving DecidableEq, Repr

/-- Pair operation beside the PR_ registers. -/
structure PairSt where
  /-- Listening since this core clock, for the further 100 ms of side B, and the G of an active partner that has been heard (R308). -/
  listenAt : Option Nat := none
  longListen : Bool := false
  sawActive : Option Nat := none
  /-- Offset Δ by section, set while the section's bit of PR_ALIGN is set (R315). -/
  delta : Tab Int := []
  /-- Own digests (epoch, digest) and partner records by section, newest first (R316, R317). -/
  own : Tab (List (Nat × Nat)) := []
  peer : Tab (List PeerRec) := []
  /-- Consecutive compared mismatches by section (R318). -/
  mmRun : Tab Nat := []
  /-- Core clock of the latest mismatch of a section. -/
  mmAt : Tab Nat := []
  contest : Option Contest := none
  /-- Epoch of the close of the last contest, by section (R318); ranks whose staging has not resumed (R319). -/
  closedAt : Tab Nat := []
  stopped : Nat := 0
  castling : Option Castling := none
  /-- The latest record of peer channel 0 (R314). -/
  lastRec : Option PeerRec := none
  /-- SEQ of the records taken lately, the latest first (R314). -/
  seqs : List Nat := []
  /-- Epochs of the reference section at which the last channel 0 record and the last mismatch came (R323, R324). -/
  recEpoch : Nat := 0
  mmEpoch : Option Nat := none
  /-- This side took the active role under R319: section and epoch C, and the latest non-zero partner CLAIM since C + 4. -/
  took : Option (Nat × Nat) := none
  tookSeen : Nat := 0
  /-- The housekeeping firmware has stalled (R319; log entry 77). -/
  stalled : Bool := false
  /-- Own epoch and core clock of the latest feed frame, by section (R312). -/
  feed : Tab (Nat × Nat) := []
  /-- DEMOTE_IN# is low since, DEMOTE_OUT# is pulled low since (R320, R322). -/
  demLowAt : Option Nat := none
  pulseAt : Option Nat := none
  /-- The records sent on peer channel 0, newest first, at most 64, and the next SEQ of each channel (R267, R314). -/
  sent : List PeerRec := []
  seq : Nat := 0
  feedSeq : Nat := 0
deriving DecidableEq, Repr

/-- An event record before it is written (R338). -/
structure EvRec where
  code : Nat
  flags : Nat := 0
  time : Nat := 0
  suppr : Nat := 0
  subj : Nat := 0xFFFF
  sub2 : Nat := 0xFFFF
  epoch : Nat := 0xFFFFFFFF
  data : List Nat := []
  /-- Repeat count of a run that closed before the record was written, and the number of the run that it began (R348). -/
  repeat_ : Nat := 0
  run : Nat := 0
deriving DecidableEq, Repr

/-- Flood state of a code (R348). -/
structure FloodSt where
  subj : Nat := 0
  sub2 : Nat := 0
  lastAt : Nat := 0
  count : Nat := 0
  /-- Slot of the run's record, whose REPEAT is programmed at the close. -/
  slot : Option Nat := none
  /-- Number of the run, which its record carries until it is committed. -/
  run : Nat := 0
  tokens : Rat := 0
  tokAt : Nat := 0
  suppr : Nat := 0
  open_ : Bool := false
  used : Bool := false
deriving DecidableEq, Repr

/-- A save set as taken at the warning (R337): the two counts, the RTC, θ by feeder in 0.1 %, and for each core its program
CRC, Nv, Nc and retained words. -/
structure SaveSet where
  pcc : Nat := 0
  op : Nat := 0
  rtc : Nat := 0
  rtcValid : Bool := false
  thetas : Tab Nat := []
  cores : List (Nat × Nat × Nat × List Nat) := []
  /-- Counts of the repeat runs that stood open (R348). -/
  runs : Nat := 0
deriving DecidableEq, Repr

/-- The event log (R334 to R353); its registers hold head, counts and flags, its bytes are in `State.evNvm`. -/
structure LogSt where
  queue : List EvRec := []
  /-- Record being written: the record, its slot, the stage that runs (0 bytes, 1 CRC, 2 commit) (R344). -/
  writing : Option (EvRec × Nat × Nat) := none
  /-- Next slot to write: sector × 64 + place (1 to 63) (R352). -/
  slot : Nat := 1025
  gen : Nat := 1
  /-- Sectors erased ahead of the writing position, retired sectors (R352, R353). -/
  ahead : Nat := 0
  retired : List Nat := []
  /-- Events not queued: during a freeze, on overflow, first and last code (R339). -/
  lostFreeze : Nat := 0
  lostQueue : Nat := 0
  firstCode : Nat := 0
  lastCode : Nat := 0
  /-- Events not logged since the warning (R345). -/
  lostHold : Nat := 0
  frozenAt : Nat := 0
  armedAt : Option Nat := none
  flood : Tab FloodSt := []
  slowTotal : Nat := 0
  /-- Suspect records read in this power cycle (R347). -/
  suspects : List Nat := []
  /-- Slots of the committed records of the present generation, with their SEQ, newest first. -/
  index : List (Nat × Nat) := []
  /-- Operating time at the release of PORn, ms (R341), and the last correlation multiple (R343). -/
  opBase : Nat := 0
  corr : Nat := 0
  /-- RTC time in ms at core clock `rtcAt`, validity, value held by the last write of EL_RTCL, loss latch (R342, R424). -/
  rtc : Nat := 0
  rtcAt : Nat := 0
  rtcValid : Bool := false
  rtcHeld : Nat := 0
  vbatLost : Bool := false
  /-- The RTC has been set from TB0 since this start (R342). -/
  rtcFromTb : Bool := false
  /-- Save area: slot erased and writable, save in progress, power-cycle count and slot of the newest valid set (R337). -/
  saveErased : Bool := false
  saving : Bool := false
  newest : Option Nat := none
  saveSet : Option SaveSet := none
  /-- The RTC was valid at this start (R150). -/
  rtcAtStart : Bool := false
  /-- NVM discovered (R431). -/
  present : Bool := false
  /-- The identity written at the last format: layout version, capacity code and operating time at format (R335); sector 0 shows it
in bytes that the spec does not lay out (log entry 36). -/
  identity : Option (Nat × Nat × Nat) := none
  /-- Runs of R348 begun so far, page programs since the latest stage of a record (R353). -/
  runs : Nat := 0
  programs : Nat := 0
  /-- Calibration sector pairs whose spare is being erased (R336). -/
  calErasing : List Nat := []
  /-- Start record queued and waiting for the image CRC (R365). -/
  startWait : Bool := false
deriving DecidableEq, Repr

/-- What a record notes at its trigger for its file sets (R53, R72, R331). -/
structure DrNote where
  /-- Power-cycle count and operating time (ms) of the trigger; the triggers that fired. -/
  pcc : Nat := 0
  opAt : Nat := 0
  fired : List SigBit := []
  manual_ : Bool := false
  /-- The section's configuration version. -/
  version : Nat := 0
  /-- Section frequency at the trigger in 0.1 mHz, with which skews are computed. -/
  freq : Nat := 0
  /-- Local channels: input, skew in 1/8 tick, ratiometric. -/
  chans : List (Nat × Int × Bool) := []
  /-- Trigger time: extended time in ns of a locked stamp time base with a base pair, else RTC time in ms, tmq_code F. -/
  ext : Option Nat := none
  rtc : Nat := 0
deriving DecidableEq, Repr

/-- A disturbance record (R328 to R332). -/
structure DrRec where
  sec : Nat
  /-- Core clocks of its start, trigger instant, end, of the end its triggers ask for, and of the latest end it may have. -/
  start : Nat := 0
  trig : Nat := 0
  /-- Epoch of the trigger instant. -/
  epoch : Nat := 0
  stop : Nat := 0
  want : Nat := 0
  limit : Nat := 0
  open_ : Bool := true
  /-- The recorder settings under which it opened (R326). -/
  cfg : RecCfg := {}
  /-- The earlier record that a continuation names. -/
  link : Option Nat := none
  damaged : Bool := false
  blocks : Nat := 0
  /-- Values it holds once closed, newest first. -/
  rows : List DrCell := []
  /-- Acknowledged; an export of it has been served. -/
  acked : Bool := false
  exported : Bool := false
  /-- The groups that it contains, each with its analog channels in order (R330), and the bits of a row's digital channels. -/
  parts : List (Nat × List Nat) := [(1, [0])]
  digitals : List SigBit := []
  sources : List (Bool × Nat) := []
  /-- Uncorrectable words found in its rows: part, 64-bit word of the part's rows; its directory entry is unreadable (R333). -/
  lost : List (Nat × Nat) := []
  dirLost : Bool := false
  note : DrNote := {}
deriving DecidableEq, Repr

/-- A check unit's job beside its registers (R354, R356). -/
structure CkJob where
  /-- Core clock at which it began to run, and bytes it had consumed by then. -/
  startAt : Nat := 0
  done : Nat := 0
  /-- Bytes of the stored value read so far in mode 2 (R356), and bytes of the event NVM page in hand (R358). -/
  stored : List Nat := []
  page : List Nat := []
deriving DecidableEq, Repr

/-- A partner entry (R384 to R391). -/
structure Partner where
  /-- Kind as in PT_ENT.KIND. -/
  kind : Nat := 0
  pinned : Bool := false
  lane : Nat := 0
  /-- Identity beside kind and lane: the subscription of a pinned entry; sourcePortIdentity and domain, or IPv4 address
  and port, of a dynamic one (R384). -/
  key : Nat := 0
  id0 : Nat := 0
  id1 : Nat := 0
  rule : Nat := 0x1FF
  priv : Nat := 0
  /-- Caps (R388) and the tokens of the two buckets at `tokAt` (R389). -/
  capFrames : Rat := 0
  capBytes : Rat := 0
  capOut : Nat := 4
  ftok : Rat := 0
  btok : Rat := 0
  tokAt : Nat := 0
  /-- Core clock of the latest admitted frame (R386). -/
  lastAt : Nat := 0
  capDrop : Nat := 0
  viol : Nat := 0
deriving DecidableEq, Repr

/-- A response that the management service has formed, with the MAC, address and port that it goes to (R392 to R394). -/
structure Resp where
  mac : Nat := 0
  ip : Nat := 0
  port : Nat := 0
  /-- The management address and UDP port that answer. -/
  fromIp : Nat := 0
  fromPort : Nat := 0
  code : Nat := 0
  reqId : Nat := 0
  status : Nat := 0
  arg0 : Nat := 0
  arg1 : Nat := 0
  payload : List Nat := []
deriving DecidableEq, Repr

/-- A change session (R393). -/
structure Session where
  /-- The client that began it: lane, IPv4 address and source port (R384). -/
  client : Nat × Nat × Nat
  /-- Announced length of the package, and core clock of the last accepted request. -/
  len : Nat := 0
  lastAt : Nat := 0
deriving DecidableEq, Repr

/-- A change package under way (R373 to R378, R383). -/
structure Change where
  image : Image
  /-- The bytes with which the new bank was stored. -/
  bytes : List Nat := []
  version : Nat := 0
  anchor : Nat := 0
  /-- Sections still to switch over. -/
  left : List Nat := []
  started : Bool := false
  microcode : Bool := false
  rolling : Bool := false
deriving DecidableEq, Repr

/-- A snapshot page: two buffers of words by offset, the published one, latches (R398, R400). -/
structure SnapSt where
  buf0 : Tab Nat := []
  buf1 : Tab Nat := []
  /-- Buffer 1 is the published one. -/
  pub : Bool := false
  /-- The latched buffer and the core clock of its first latch; who holds it is in SN_LATCH. -/
  latch : Option (Bool × Nat) := none
deriving DecidableEq, Repr

/-- A command of the DEV_NVM registers (R412). -/
structure NvmCmd where
  cmd : Nat
  event : Bool
  addr : Nat
  len : Nat
  /-- Bytes to program, as DEV_NVMDATAw held them at the write. -/
  data : List Nat := []
deriving DecidableEq, Repr

/-- The balls (R302, R416, R420), true is high. -/
structure Pins where
  porn : Bool := false
  pwrgood : Bool := false
  /-- HOLDUP_WARN# is asserted. -/
  holdup : Bool := false
  /-- CCS#, ECS#, CRST#, ERST# as they stand between transfers (R420, R431). -/
  ccsN : Bool := true
  ecsN : Bool := true
  crstN : Bool := false
  erstN : Bool := false
  demoteIn : Bool := true
  /-- DEMOTE_OUT# is pulled low (R320). -/
  demoteOutLow : Bool := false
  pairOkIn : Bool := true
  testmode : Bool := false
  /-- FORCED# is high (R228, R420). -/
  forcedN : Bool := true
  /-- PPS_OUT0 to PPS_OUT3 as bits (R297). -/
  ppsOut : Nat := 0
  /-- Lane transmitters in electrical idle (R420). -/
  lanesIdle : Bool := true
deriving DecidableEq, Repr

/-- The W1C bits that the device has set on one core clock, by field key (R7). -/
structure W1cSt where
  at_ : Nat := 0
  bits : Tab Nat := []
deriving DecidableEq, Repr

/-- The maintenance port and the device as a whole. -/
structure DevSt where
  /-- Core clock of the release of PORn; of it or of RELOAD, from which ACTT counts (R365, R372). -/
  startAt : Nat := 0
  countAt : Nat := 0
  /-- Image check may run; converters powered at this core clock (R365). -/
  poweredAt : Nat := 0
  /-- STATUS of the most recent write frame (R410). -/
  wstatus : Nat := 0
  /-- Bytes driven on MSDO by the last frame (R408). -/
  mso : List Nat := []
  nvm : Option NvmCmd := none
  /-- Capacity of the configuration NVM as a power of two of MiB; `none` where SFDP discovery finds none (R367, R431). -/
  cfgSize : Option Nat := none
  /-- GEN of the running image, and its bytes: those of the bank that loaded, after a completed package those it was stored with (R370,
  R374, R378). -/
  gen : Nat := 0
  image : List Nat := []
  /-- Brodurn's public key in boot ROM (R371; log entry 165). -/
  romKey : List Nat := List.replicate 32 0
  /-- Cut number of the device page, core clock and TB0 value of the latest cut (R402). -/
  cut : Nat := 0
  cutAt : Option (Nat × Nat) := none
  /-- Frames of ARP answered (R392). -/
  arps : Nat := 0
  /-- The new bank is being stored (R413). -/
  storing : Bool := false
deriving DecidableEq, Repr

/-- The block. -/
structure State where
  /-- Commands that wait, first in first out. -/
  pending : List Instr := []
  /-- Core clocks of 1.2 GHz since the model began (R422). -/
  now : Nat := 0
  /-- The model's own counter of free values (log entry 1). -/
  free : Nat := 0
  /-- Register fields that differ from their reset value (R404). -/
  regs : Tab Nat := []
  /-- The W1C bits that the device has set on the latest core clock on which it set any (R7). -/
  w1c : W1cSt := {}
  /-- The loaded configuration (R367); `none` until an image loads and in NO_IMAGE. -/
  cfg : Option Image := none
  /-- The configuration before the latest switch-overs, for the epochs before them (R36, R376). -/
  oldCfg : Option Image := none
  pins : Pins := {}
  dev : DevSt := {}
  secs : Tab SecSt := []
  convs : Tab ConvSt := []
  chains : Tab ChainSt := []
  refs : Tab RefSt := []
  feeders : Tab FeederSt := []
  engines : Tab EngSt := []
  plies : Tab Ply := []
  /-- The signal table (R205) and the hidden copies of forced entries (R226). -/
  sigs : Tab Entry := []
  hidden : Tab Entry := []
  forces : Tab Force := []
  cores : Tab CoreSt := []
  lanes : Tab LaneSt := []
  tiles : Tab TileSt := []
  tbs : Tab TbSt := []
  pubs : Tab PubSt := []
  svOuts : Tab SvOut := []
  subs : Tab SubSt := []
  pair : PairSt := {}
  log : LogSt := {}
  recs : Tab DrRec := []
  cks : Tab CkJob := []
  partners : Tab Partner := []
  /-- Responses formed by the management service, newest first (R392). -/
  resps : List Resp := []
  session : Option Session := none
  change : Option Change := none
  snaps : Tab SnapSt := []
  /-- Configuration NVM and event NVM, erased bytes 0xFF (R334, R367). -/
  cfgNvm : Mem := []
  evNvm : Mem := []
  /-- Check buffer (R357) and change-package buffer (R393), unwritten bytes 0. -/
  ckBuf : Mem := []
  pkgBuf : Mem := []
deriving DecidableEq, Repr

/-- A stop with a fault. No rule stops the device, so no meaning answers with it; safe. -/
inductive Fault where
  /-- Raised by nothing: the spec names no state in which the block stops. -/
  | none_
deriving DecidableEq, Repr

/-- A refusal to give a command its meaning. -/
inductive Refusal where
  /-- An arm of exec that has no meaning yet; safe. -/
  | notModelled (mnemonic : String)
deriving DecidableEq, Repr

/-- The block as it stands before the first release of PORn: every field at its reset value, nothing configured (R420). -/
def State.reset : State := {}

end Sys2Proof.Machine
end

