-- ==== Sys2Proof/Machine/Ops.lean ====
section
/-! DEFINITION. The operations that every command shares: register fields, the parts of the state, time, free values,
signals and event records. -/

namespace Sys2Proof.Machine

/-! ## Register fields -/

/-- The value of a register field of instance `i`, index `j` (R4). -/
def State.getF (s : State) (f : Fld) (i : Nat := 0) (j : Nat := 0) : Nat := Tab.get s.regs (f.resetVal i j) (f.key i j)

/-- The bits set on core clock `now` under `key`, with `b` among them (R7). -/
def W1cSt.note (x : W1cSt) (now key b : Nat) : W1cSt :=
  if b = 0 then x else ⟨now, Tab.upd (if x.at_ = now then x.bits else []) 0 key (fun y => y ||| b)⟩

/-- The bits under `key` that the device has set on core clock `now` (R7). -/
def W1cSt.on (x : W1cSt) (now key : Nat) : Nat := if x.at_ = now then Tab.get x.bits 0 key else 0

/-- The state with a register field written by the device, cut to the field's width; a W1C bit set is noted (R7). -/
def State.setF (s : State) (f : Fld) (i v : Nat) (j : Nat := 0) : State :=
  { s with regs := Tab.put s.regs (f.resetVal i j) (f.key i j) (v % 2 ^ f.width)
           w1c := if f.acc = .w1c ∧ f.width = 1 then s.w1c.note s.now (f.key i j) (v % 2) else s.w1c }

/-- A write of `v` to a W1C field: a 1 clears the bit, unless the device sets it on the same core clock (R4, R7). -/
def State.clearW1c (s : State) (f : Fld) (i v : Nat) (j : Nat := 0) : State :=
  let x := s.getF f i j
  { s with regs := Tab.put s.regs (f.resetVal i j) (f.key i j) (x - (x &&& (v - (v &&& s.w1c.on s.now (f.key i j))))) }

/-- A saturating counter field raised by `n`. -/
def State.incF (s : State) (f : Fld) (i : Nat := 0) (n : Nat := 1) (j : Nat := 0) : State :=
  s.setF f i (satAdd f.width (s.getF f i j) n) j

/-- A wrapping counter field raised by `n`. -/
def State.bumpF (s : State) (f : Fld) (i : Nat := 0) (n : Nat := 1) (j : Nat := 0) : State :=
  s.setF f i (s.getF f i j + n) j

/-- One bit of a field written. -/
def State.setBitF (s : State) (f : Fld) (i b : Nat) (v : Bool) (j : Nat := 0) : State :=
  s.setF f i (setBit (s.getF f i j) b v) j

/-- One bit of a W1C field of several bits set by the device (R7). -/
def State.raiseBit (s : State) (f : Fld) (i b : Nat) (j : Nat := 0) : State :=
  let t := s.setBitF f i b true j
  { t with w1c := t.w1c.note t.now (f.key i j) (2 ^ b) }

/-- A write of a word to an RW field: an encoding that the field's table does not define leaves it unchanged (R4, R6). -/
def State.writeRw (s : State) (f : Fld) (i w : Nat) (j : Nat := 0) : State :=
  let v := fieldOf w f.lo f.width
  if f.okLo ≤ v ∧ v ≤ f.okHi then s.setF f i v j else s

/-- A single-bit field, read as a truth value. -/
def State.flag (s : State) (f : Fld) (i : Nat := 0) (j : Nat := 0) : Bool := s.getF f i j == 1

/-- A brim raised to the fill that has just been seen (R396). -/
def State.brim (s : State) (f : Fld) (n : Nat) : State := s.setF f 0 (max (s.getF f) (min n (2 ^ f.width - 1)))

/-- `f` applied where `c` holds. -/
def State.onlyIf (s : State) (c : Bool) (f : State → State) : State := if c then f s else s

/-! ## Parts of the state -/

def State.sec (s : State) (k : Nat) : SecSt := Tab.get s.secs {} k
def State.updSec (s : State) (k : Nat) (f : SecSt → SecSt) : State := { s with secs := Tab.upd s.secs {} k f }
def State.conv (s : State) (k : Nat) : ConvSt := Tab.get s.convs {} k
def State.updConv (s : State) (k : Nat) (f : ConvSt → ConvSt) : State := { s with convs := Tab.upd s.convs {} k f }
def State.chain (s : State) (k : Nat) : ChainSt := Tab.get s.chains {} k
def State.updChain (s : State) (k : Nat) (f : ChainSt → ChainSt) : State := { s with chains := Tab.upd s.chains {} k f }
def State.ref (s : State) (k : Nat) : RefSt := Tab.get s.refs {} k
def State.updRef (s : State) (k : Nat) (f : RefSt → RefSt) : State := { s with refs := Tab.upd s.refs {} k f }
def State.feeder (s : State) (k : Nat) : FeederSt := Tab.get s.feeders {} k
def State.updFeeder (s : State) (k : Nat) (f : FeederSt → FeederSt) : State :=
  { s with feeders := Tab.upd s.feeders {} k f }
def State.engine (s : State) (k : Nat) : EngSt := Tab.get s.engines {} k
def State.updEngine (s : State) (k : Nat) (f : EngSt → EngSt) : State := { s with engines := Tab.upd s.engines {} k f }
def State.core (s : State) (k : Nat) : CoreSt := Tab.get s.cores {} k
def State.updCore (s : State) (k : Nat) (f : CoreSt → CoreSt) : State := { s with cores := Tab.upd s.cores {} k f }
def State.lane (s : State) (k : Nat) : LaneSt := Tab.get s.lanes {} k
def State.updLane (s : State) (k : Nat) (f : LaneSt → LaneSt) : State := { s with lanes := Tab.upd s.lanes {} k f }
def State.tb (s : State) (k : Nat) : TbSt := Tab.get s.tbs {} k
def State.updTb (s : State) (k : Nat) (f : TbSt → TbSt) : State := { s with tbs := Tab.upd s.tbs {} k f }
/-- The tile at a position of a lane's chain. -/
def State.tile (s : State) (lane pos : Nat) : TileSt := Tab.get s.tiles {} (64 * lane + pos)
def State.updTile (s : State) (lane pos : Nat) (f : TileSt → TileSt) : State :=
  { s with tiles := Tab.upd s.tiles {} (64 * lane + pos) f }
def State.ck (s : State) (k : Nat) : CkJob := Tab.get s.cks {} k
def State.updLog (s : State) (f : LogSt → LogSt) : State := { s with log := f s.log }
def State.updPair (s : State) (f : PairSt → PairSt) : State := { s with pair := f s.pair }
def State.updPins (s : State) (f : Pins → Pins) : State := { s with pins := f s.pins }
def State.updDev (s : State) (f : DevSt → DevSt) : State := { s with dev := f s.dev }

/-- The working output bits of an instance, and an instance changed. -/
def FeederSt.elem (x : FeederSt) (i : Nat) : ElemSt := Tab.get x.elems {} i
def FeederSt.updElem (x : FeederSt) (i : Nat) (f : ElemSt → ElemSt) : FeederSt := { x with elems := Tab.upd x.elems {} i f }

/-- `f` folded over the numbers below `n`. -/
def State.forN (s : State) (n : Nat) (f : State → Nat → State) : State := (List.range n).foldl f s

/-- `l` with its element `i` changed, unchanged where it has none. -/
def modAt {α : Type} (l : List α) (i : Nat) (f : α → α) : List α :=
  (List.range l.length).zip l |>.map (fun p => if p.1 = i then f p.2 else p.2)

/-- How many elements of a list meet `p`. -/
def countIf {α : Type} (l : List α) (p : α → Bool) : Nat := (l.filter p).length

/-! ## Configuration -/

/-- The loaded image, empty before one loads (R372). -/
def State.img (s : State) : Image := s.cfg.getD {}

/-- The image that applies to epoch `e` of section `k` (R36, R376). -/
def State.imgAt (s : State) (k e : Nat) : Image := if e < (s.sec k).cfgFrom then s.oldCfg.getD s.img else s.img

def Image.sec (m : Image) (k : Nat) : SectionCfg := Tab.get m.secs {} k
def Image.feeder (m : Image) (f : Nat) : Option FeederCfg := Tab.find m.feeders f
def Image.conv (m : Image) (c : Nat) : Option ConvCfg := Tab.find m.convs c
def Image.lane (m : Image) (n : Nat) : LaneCfg := Tab.get m.lanes {} n
def Image.tb (m : Image) (n : Nat) : TbCfg := Tab.get m.tbs {} n
/-- Source and domain of a time base: by default TB0 takes PTP, in the domain of the time base's number (R293). -/
def Image.tbSrc (m : Image) (n : Nat) : Nat := (m.tb n).src.getD (if n = 0 then 1 else 0)
def Image.tbDomain (m : Image) (n : Nat) : Nat := (m.tb n).domain.getD n

/-- The feeders of a section in ascending index: f = 64 × section + position (R9). -/
def Image.feedersOf (m : Image) (k : Nat) : List (Nat × FeederCfg) := m.feeders.filter (fun p => p.1 / 64 == k)

/-- The tile chain of a section with its lane (R13). -/
def Image.chainOf (m : Image) (k : Nat) : Option (Nat × ChainCfg) := m.chains.find? (fun p => p.2.section_ == k)

/-- The input's channel: feeder and channel number (R10, R11). -/
def Image.inputOf (m : Image) (ain : Nat) : Option (Nat × Nat) :=
  m.feeders.findSome? (fun p =>
    ((List.range 8).find? (fun c => match p.2.chans.getD c none with
      | some ch => match ch.src with | .conv a _ => a == ain | .stream _ => false
      | none => false)).map (fun c => (p.1, c)))

/-- The inputs of a converter that a channel of a feeder uses (R10). -/
def Image.assignedOf (m : Image) (n : Nat) : List Nat := (List.range 8).filter (fun i => (m.inputOf (8 * n + i)).isSome)

/-! ## Time -/

/-- Core clocks in a microsecond and in a millisecond (R422). -/
def usClk : Nat := 1200
def msClk : Nat := 1200000

/-- The instant moved to `t` where that lies ahead (log entry 10). -/
def State.advanceTo (s : State) (t : Nat) : State := { s with now := max s.now t }

/-- The angle of a section in ticks at core clock `t` (R19), with 24 fractional bits. -/
def SecSt.thetaAt (x : SecSt) (t : Nat) : Rat := x.theta0 + x.rate * ((t : Rat) - x.t0) * 65536 / 1200000000

/-- The present angle of a section. -/
def State.theta (s : State) (k : Nat) : Rat := (s.sec k).thetaAt s.now

/-- The angle in whole ticks, of 48 bits (R20). -/
def State.tick (s : State) (k : Nat) : Nat := (s.theta k).floor.toNat % 2 ^ 48

/-- The cycle of a section's clock, counted without end, that a 32-bit cycle count stands for (R20). -/
def State.cycleOf (s : State) (k c : Nat) : Nat :=
  let cur := (s.theta k).floor.toNat / 65536
  let d := (c + 2 ^ 32 - cur % 2 ^ 32) % 2 ^ 32
  if d ≤ 2 ^ 31 then cur + d else cur + d - 2 ^ 32

/-- The first core clock on which the angle has reached `a` ticks, at the present rate (R35). -/
def SecSt.clockOf (x : SecSt) (a : Rat) : Nat :=
  if x.rate ≤ 0 then x.t0 else (((x.t0 : Rat) + (a - x.theta0) * 1200000000 / (65536 * x.rate)).ceil).toNat

/-- The angle target `t` counts as reached at angle `a` (R20). -/
def reached (a t : Nat) : Bool := decide ((a + 2 ^ 48 - t % 2 ^ 48) % 2 ^ 48 < 2 ^ 47)

/-- The clock's base moved to the present instant, with 24 fractional bits of a tick, and its rate set. -/
def SecSt.rebase (x : SecSt) (now : Nat) (rate : Rat) : SecSt :=
  { x with theta0 := ((x.thetaAt now * 2 ^ 24).floor : Rat) / 2 ^ 24, t0 := now, rate := rnd rate }

/-- The duration of an epoch in seconds between two sample instants, on the device oscillator (R37). -/
def SecSt.epochRec (x : SecSt) (e : Nat) : Option EpochRec := x.epochs.find? (fun r => r.epoch == e)

/-- Duration of epoch e in seconds: from its sample instant to the next, which ends it (R22, R37, R253); the present
rate's where one of the two is not known. -/
def State.epochDur (s : State) (k e : Nat) : Rat :=
  match (s.sec k).epochRec e, (s.sec k).epochRec (e + 1) with
  | some a, some b => ((b.at_ : Rat) - a.at_) / 1200000000
  | _, _ => 1 / (128 * (if (s.sec k).rate ≤ 0 then 50 else (s.sec k).rate))

/-- The nanoseconds of a time base since PORn before steps, at core clock `t`: 5 · (2^40 + RATE) units a clock (R292). -/
def State.tbAcc (s : State) (k t : Nat) : Nat :=
  let x := s.tb k
  (x.acc + 5 * ((t : Int) - x.t0) * (2 ^ 40 + sext 32 (s.getF F.TB_RATE_RATE k))).toNat

/-- The 32-bit counter of a time base at core clock `t` (R292). -/
def State.tbNsAt (s : State) (k t : Nat) : Nat :=
  unsext 32 (((s.tbAcc k t) / (6 * 2 ^ 40) : Nat) + (s.tb k).step)

def State.tbNs (s : State) (k : Nat) : Nat := s.tbNsAt k s.now

/-- The mask of a list of bit numbers. -/
def maskOf (l : List Nat) : Nat := (l.map (fun i => 2 ^ i)).sum

/-! ## Free values -/

/-- A fresh free value below 2^w, and the counter advanced (log entry 1). -/
def State.fresh (s : State) (w : Nat) : Nat × State := (Config.freeNat s.free % 2 ^ w, { s with free := s.free + 1 })

/-! ## Device signals and the signal table -/

/-- FORCING: any force is applied (R209, R228). -/
def State.forcing (s : State) : Bool := s.forces.any (fun p => p.2.active)

/-- The side holds the active role (R306); a device that is not part of a pair holds it from protection active (R365). -/
def State.isActive (s : State) : Bool := s.flag F.PR_STAT_ACTIVE

/-- The device signals (R209). -/
def State.deviceSig (s : State) (k : Nat) : Entry :=
  if k = 0 then Entry.mk' (b2n s.forcing) Quality.ok
  else if k ≤ 4 then Entry.mk' (s.getF F.TB_STAT_LOCK (k - 1)) Quality.ok
  else if k = 5 then Entry.mk' (b2n s.isActive) Quality.ok
  else if k = 6 then Entry.mk' (b2n (s.pins.holdup || s.flag F.EL_STAT_HOLD)) Quality.ok
  else Entry.absent

/-- A read of the signal table (R205, R206); a forced entry reads as forced (R226). -/
def State.sig (s : State) (id : Nat) : Entry :=
  if 123648 ≤ id ∧ id < 123904 then s.deviceSig (id - 123648) else Tab.get s.sigs Entry.absent id

/-- A force applies to the signal. -/
def State.forcedSig (s : State) (id : Nat) : Bool := s.forces.any (fun p => p.2.active && !p.2.output && p.2.target == id)

/-- A write of an entry; it goes into the hidden copy while the signal is forced (R226). -/
def State.putSig (s : State) (id : Nat) (e : Entry) : State :=
  if s.forcedSig id then { s with hidden := Tab.put s.hidden Entry.absent id e }
  else { s with sigs := Tab.put s.sigs Entry.absent id e }

/-- The entry as its writer left it, beneath a force. -/
def State.sigBelow (s : State) (id : Nat) : Entry :=
  if s.forcedSig id then Tab.get s.hidden Entry.absent id else s.sig id

/-- A named bit counts as 1 (R110). -/
def State.sigCounts (s : State) (b : SigBit) : Bool := (s.sig b.id).counts b.bit

def feederSig (f o : Nat) : Nat := 80 * f + o
def sectionSig (k o : Nat) : Nat := 122880 + 32 * k + o

/-- The packed outputs of an instance as they stand for a reader. -/
def State.instSig (s : State) (f i : Nat) : Entry := s.sig (feederSig f i)

/-- Two and four bytes, least significant first. -/
def le2 (x : Nat) : List Nat := leBytes 2 x
def le4 (x : Nat) : List Nat := leBytes 4 x

/-! ## Engines and roles -/

/-- The engine of a rank slot of section `k`: slot div 12 within the rank (R9). -/
def engineOf (k slot : Nat) : Nat := 8 * k + slot / 12

/-- The section master's engine (R165): SEC_MASTER.CUR within the rank. -/
def State.master (s : State) (k : Nat) : Nat := 8 * k + s.getF F.SEC_MASTER_CUR k

/-- Feeders that an engine holds. -/
def State.held (s : State) (e : Nat) : List Nat := (s.feeders.filter (fun p => p.2.engine == e)).map Prod.fst

/-- FEEDERS and OCC of an engine follow what it holds (R9, R381). -/
def State.syncEngine (s : State) (e : Nat) : State :=
  let l := s.held e
  (s.setF F.PE_STAT_FEEDERS e l.length).setF F.PE_SLOTS_OCC e ((l.map (fun f => 2 ^ (s.feeder f).slot)).sum)

/-- Status outputs GPIO0 to GPIO7 (R416). -/
def State.gpio (s : State) (n : Nat) : Bool :=
  s.pins.porn && match n with
  | 0 => s.getF F.DEV_STAT_STATE == 3
  | 1 => s.isActive
  | 2 => s.flag F.PR_STAT_FAILED || s.flag F.PR_STAT_DEMOTED
  | 3 => s.getF F.DEV_STAT_STATE == 4
  | 4 => s.flag F.EL_STAT_FULL || s.flag F.EL_STAT_WEAR
  | 5 => s.flag F.DR_STAT_DRAMFAIL
  | 6 => (List.range 192).any (fun e => s.flag F.PE_PLYSTAT_DIVERGE e || s.flag F.PE_PLYSTAT_DLMISS e)
  | 7 => (List.range 4).any (fun k => s.img.tbSrc k != 0 && !s.flag F.TB_STAT_LOCK k)
  | _ => false

end Sys2Proof.Machine
end

