-- ==== Sys2Proof/Machine/LogOps.lean ====
section
/-! DEFINITION. Event records: their stamps, the flood modes, the queue and the start of writing (R338 to R352). -/

namespace Sys2Proof.Machine

/-! ## Event records -/

/-- Operating time in ms (R341). -/
def State.opTime (s : State) : Nat := s.log.opBase + (s.now - s.dev.startAt) / msClk

/-- RTC time in ms, on the RTC's own crystal, whose rate against the core clock is free (R342, R424; log entry 26). -/
def State.rtcMs (s : State) : Nat :=
  (s.log.rtc + (if s.now = s.log.rtcAt then 0 else Config.rtcElapsed s.log.rtcAt s.now)) % 2 ^ 48

/-- The stamp is a calendar stamp: start-up, NO_IMAGE, test, recovery (R340). -/
def State.calendar (s : State) : Bool :=
  s.getF F.DEV_STAT_STATE != 3 || s.forcing || s.flag F.PR_STAT_FAILED || s.flag F.PR_STAT_DEMOTED

/-- The record of an event as it enters the queue (R338, R340). -/
def State.mkRec (s : State) (code subj sub2 epoch : Nat) (data : List Nat) : EvRec :=
  { code := code
    flags := b2n s.calendar + 2 * b2n (!s.log.rtcValid) + 4 * b2n s.forcing
    time := if s.calendar then s.rtcMs else s.opTime % 2 ^ 48
    subj := subj, sub2 := sub2, epoch := epoch, data := data }

/-- The flood mode of a code (R348): none for 0x0001, 0x0002 and 0x0007, repeat with 1 s for 0x0003 by default. -/
def State.floodMode (s : State) (code : Nat) : FloodMode :=
  if code = 1 ∨ code = 2 ∨ code = 7 then .off
  else Tab.get s.img.flood (if code = 3 then .rep 1000 else .off) code

/-- The first and last code of the events not logged (R339, record 0x0004). -/
def LogSt.note (l : LogSt) (code : Nat) : LogSt :=
  { l with firstCode := if l.lostFreeze + l.lostQueue + l.lostHold = 0 then code else l.firstCode, lastCode := code }

/-- A record enters the queue of 1,024 records, or is counted (R344, R345, R350, R351). -/
def State.enqueue (s : State) (r : EvRec) : State :=
  if !s.log.present then s
  else if s.flag F.EL_STAT_FULL then s.incF F.EL_FULLCNT_COUNT
  else if s.flag F.EL_STAT_HOLD then
    s.updLog (fun l => { l.note r.code with lostHold := l.lostHold + 1 })
  else if 1024 ≤ s.log.queue.length then
    let s := (s.incF F.EL_UNLOG_COUNT).setF F.EL_STAT_QOVF 0 1
    if s.flag F.EL_STAT_FROZEN then s.updLog (fun l => { l.note r.code with lostFreeze := l.lostFreeze + 1 })
    else s.updLog (fun l => { l.note r.code with lostQueue := l.lostQueue + 1 })
  else (s.brim F.DEV_BRIM1_EVENT (s.log.queue.length + 1)).updLog (fun l => { l with queue := l.queue ++ [r] })

/-- The repeat-mode filter of R348: the event joins the open run of its code, or a new run begins with its record. -/
def FloodSt.repeat (x : FloodSt) (r : EvRec) (now window : Nat) : Bool × FloodSt :=
  if x.used && x.open_ && x.subj == r.subj && x.sub2 == r.sub2 && decide (now ≤ x.lastAt + window * msClk) then
    (false, { x with lastAt := now, count := x.count + 1, open_ := decide (x.count + 1 < 0xFFFFFF) })
  else (true, { x with used := true, open_ := true, subj := r.subj, sub2 := r.sub2, lastAt := now, count := 0, slot := none })

/-- The tokens of a code's bucket at `now`: Burst tokens that refill at Rate (R348). -/
def FloodSt.refill (x : FloodSt) (now rate burst : Nat) : FloodSt :=
  if x.used then
    { x with tokens := minQ burst (x.tokens + rate * ((now : Rat) - x.tokAt) / 1200000000), tokAt := now }
  else { x with used := true, tokens := burst, tokAt := now }

/-- The record that began a run takes its repeat count. -/
def EvRec.setRepeat (r : EvRec) (run n : Nat) : EvRec := if r.run = run then { r with repeat_ := n } else r

/-! ## The event NVM's bytes -/

/-- A byte of sector 0 as the identity left it (R335). -/
def State.identityAt (s : State) (a : Nat) : BitVec 8 :=
  match s.log.identity with
  | some (v, n, t) => Config.identityByte [v, n, t] a
  | none => 0xFF

/-- Bytes of the event NVM; programming over the identity in sector 0 has cleared bits of it. -/
def State.evRead (s : State) (a n : Nat) : List Nat :=
  if 4096 ≤ a then Mem.readN 0xFF s.evNvm a n
  else (List.range n).map (fun i =>
    (if a + i < 4096 then Mem.read 0xFF s.evNvm (a + i) &&& s.identityAt (a + i) else Mem.read 0xFF s.evNvm (a + i)).toNat)

/-- Pages of 256 bytes that a program of `n` bytes at `a` touches (R334). -/
def pagesOf (a n : Nat) : Nat := if n = 0 then 0 else (a + n - 1) / 256 - a / 256 + 1

/-- Bytes programmed; the page programs are counted for their timing (R353). -/
def State.evProgram (s : State) (a : Nat) (l : List Nat) : State :=
  { s with evNvm := Mem.programN s.evNvm a l, log := { s.log with programs := s.log.programs + pagesOf a l.length } }

def State.evErase (s : State) (sector : Nat) : State := { s with evNvm := Mem.erase s.evNvm (4096 * sector) 4096 }

/-- REPEAT of a closed run programmed into its record, or kept with the record until it is committed (R348). -/
def State.closeRun (s : State) (code : Nat) : State :=
  match Tab.find s.log.flood code with
  | none => s
  | some x =>
    let n := min x.count 0xFFFFFF
    let s := match x.slot with
      | some slot => if n = 0 then s else s.evProgram (64 * slot + 60) (leBytes 3 (0xFFFFFF - n))
      | none => if x.run = 0 then s else s.updLog (fun l => { l with
          queue := l.queue.map (fun (r : EvRec) => r.setRepeat x.run n)
          writing := l.writing.map (fun (w : EvRec × Nat × Nat) => (w.1.setRepeat x.run n, w.2)) })
    s.updLog (fun l => { l with flood := Tab.set l.flood code { x with open_ := false, count := 0, slot := none } })

/-! ## The event NVM -/

/-- Sectors of the event NVM: 4 KiB each of 2^SIZE MiB (R334). -/
def State.evSectors (s : State) : Nat := 256 * 2 ^ s.getF F.EL_CFG_SIZE

/-- The 64 bytes of a slot, numbered sector × 64 + place (R338, R352). -/
def State.slotBytes (s : State) (slot : Nat) : List Nat := s.evRead (64 * slot) 64

/-- The next sector after `x` that is not retired (R353). -/
def State.nextSector (s : State) (x : Nat) : Option Nat :=
  ((List.range (s.log.retired.length + 1)).map (fun i => x + 1 + i)).find?
    (fun y => !s.log.retired.contains y) |>.filter (fun y => decide (y < s.evSectors))

/-- Log sectors not yet written: those behind the present one, and the present one while it holds no record (EL_CAP). -/
def State.freeSectors (s : State) : Nat :=
  let cur := s.log.slot / 64
  let later := s.evSectors - (cur + 1) - (s.log.retired.filter (fun y => decide (cur < y))).length
  later + (if s.log.slot % 64 = 1 ∧ s.log.writing = none then 1 else 0)

/-- EL_CAP follows the writing position and the retired sectors. -/
def State.syncCap (s : State) : State :=
  (s.setF F.EL_CAP_RETIRED 0 s.log.retired.length).setF F.EL_CAP_FREE 0 s.freeSectors

/-- The slot is the last one of the last usable log sector, kept for record 0x0007 (R351). -/
def State.lastSlot (s : State) : Bool := s.log.slot % 64 == 63 && (s.nextSector (s.log.slot / 64)).isNone

/-- Bytes 0 to 55 of a record with its SEQ (R338). -/
def recBytes (r : EvRec) (seq pcc : Nat) : List Nat :=
  le4 seq ++ le2 r.code ++ [r.flags, 0] ++ leBytes 6 r.time ++ le4 pcc ++ le2 (min r.suppr 0xFFFF) ++ le2 r.subj ++
  le2 r.sub2 ++ le4 r.epoch ++ (r.data ++ List.replicate 28 0).take 28

/-- Log writes may start (R344, R345, R350, R351). -/
def State.mayWrite (s : State) : Bool :=
  s.flag F.EL_STAT_READY && !s.flag F.EL_STAT_HOLD && !s.flag F.EL_STAT_FROZEN && !s.flag F.EL_STAT_FULL

/-- The header of a sector whose first slot is about to be written (R352). -/
def State.openSector (s : State) (seq : Nat) : State :=
  let a := 4096 * (s.log.slot / 64)
  let s := (s.evProgram a (le4 s.log.gen)).evProgram (a + 8) (le4 seq)
  s.evProgram (a + 56) (le4 (crcOf crc32c (s.evRead a 12)))

/-- A log sector takes records: nothing is programmed in it but its erase count, or it was opened in this generation
(R352). -/
def State.sectorFree (s : State) (y : Nat) : Bool :=
  let cells := s.evNvm.filter (fun c => decide (4096 * y ≤ c.1) && decide (c.1 < 4096 * y + 4096))
  cells.all (fun c => decide (c.1 < 4096 * y + 64)) &&
    (cells.all (fun c => decide (4096 * y + 4 ≤ c.1) && decide (c.1 < 4096 * y + 8)) ||
      leNat (s.evRead (4096 * y) 4) == s.log.gen)

/-- The next record needs a sector that is not erased yet. -/
def State.waitsErase (s : State) : Bool := s.log.slot % 64 == 1 && !s.sectorFree (s.log.slot / 64)

/-- The writing of the next record begins: the front of the queue, or 0x0007 in the last slot (R344, R351). -/
def State.startWrite (s : State) : State :=
  if !s.mayWrite || s.log.writing.isSome || s.waitsErase ||
      (s.log.startWait && (s.log.queue.head?.map (fun r => r.code)) == some 1) then s
  else
    let seq := s.getF F.EL_HEAD_HEAD + 1
    if s.lastSlot then
      let r := s.mkRec 7 0xFFFF 0xFFFF 0xFFFFFFFF (le4 seq)
      s.updLog (fun l => { l with writing := some (r, l.slot, 0) })
    else match s.log.queue with
      | [] => s
      | r :: q =>
        let s := if s.log.slot % 64 = 1 then s.openSector seq else s
        (s.updLog (fun l => { l with writing := some (r, l.slot, 0), queue := q })).syncCap

/-- The EPOCH of a record (R338): none; the present epoch of a section; the epoch that the event is about. -/
inductive EvEpoch where
  | none
  | sec (k : Nat)
  | at (e : Nat)
deriving DecidableEq, Repr

/-- An event: stamped, filtered by its code's flood mode and queued (R340, R348). After the warning and while the log is full every
event is counted (R345, R351); one that finds the queue full begins no run and takes no token. -/
def State.post (s : State) (code : Nat) (subj : Nat := 0xFFFF) (sub2 : Nat := 0xFFFF) (sec : EvEpoch := .none)
    (data : List Nat := []) : State :=
  let epoch := match sec with
    | .sec k => if (s.sec k).running then s.getF F.SEC_EPOCH_NUM_EPOCH k else 0xFFFFFFFF
    | .at e => e % 2 ^ 32
    | .none => 0xFFFFFFFF
  let r := s.mkRec code subj sub2 epoch data
  let x := Tab.get s.log.flood {} code
  let full := decide (1024 ≤ s.log.queue.length)
  if !s.log.present || s.flag F.EL_STAT_FULL || s.flag F.EL_STAT_HOLD then s.enqueue r
  else match s.floodMode code with
  | .off => s.enqueue r
  | .rep w =>
    let (write, x') := x.repeat r s.now w
    if write && full then s.enqueue r
    else
    let n := s.log.runs + 1
    let s := if write && x.open_ && x.used then s.closeRun code else s
    let s := s.updLog (fun l => { l with
      flood := Tab.set l.flood code (if write then { x' with run := n } else x'), runs := if write then n else l.runs })
    if write then s.enqueue { r with run := n }
    else if x'.open_ then s else (s.updLog (fun l => { l with flood := Tab.set l.flood code { x' with slot := x.slot } })).closeRun code
  | .rate rate burst =>
    let x := x.refill s.now rate burst
    if x.tokens < 1 then
      s.updLog (fun l => { l with flood := Tab.set l.flood code { x with suppr := x.suppr + 1 } })
    else if full then s.enqueue r
    else
      (s.updLog (fun l => { l with flood := Tab.set l.flood code { x with tokens := x.tokens - 1, suppr := 0 } })).enqueue
        { r with suppr := min x.suppr 0xFFFF }

/-- An event, and the writing of the queue where it is idle (R340, R344). -/
def State.event (s : State) (code : Nat) (subj : Nat := 0xFFFF) (sub2 : Nat := 0xFFFF) (sec : EvEpoch := .none)
    (data : List Nat := []) : State :=
  (s.post code subj sub2 sec data).startWrite

end Sys2Proof.Machine
end

