-- ==== Sys2Proof/Machine/Filter.lean ====
section
/-! DEFINITION. The filter chains: CIC, FIR, phase delay, sample qualities, stopping and loading (R64 to R76). -/

namespace Sys2Proof.Machine

/-- A real rounded to the nearest integer (log entry 30). -/
def roundQ (x : Rat) : Int := (x + 1 / 2).floor

/-! ## Slot tables -/

/-- ENk and CHk of CV_SLOT. -/
def slotEnF : Nat → Fld
  | 0 => F.CV_SLOT_EN0 | 1 => F.CV_SLOT_EN1 | 2 => F.CV_SLOT_EN2 | 3 => F.CV_SLOT_EN3
  | 4 => F.CV_SLOT_EN4 | 5 => F.CV_SLOT_EN5 | 6 => F.CV_SLOT_EN6 | _ => F.CV_SLOT_EN7
def slotChF : Nat → Fld
  | 0 => F.CV_SLOT_CH0 | 1 => F.CV_SLOT_CH1 | 2 => F.CV_SLOT_CH2 | 3 => F.CV_SLOT_CH3
  | 4 => F.CV_SLOT_CH4 | 5 => F.CV_SLOT_CH5 | 6 => F.CV_SLOT_CH6 | _ => F.CV_SLOT_CH7

/-- The slot position of an input (R40). -/
def State.slotOfInput (s : State) (n inp : Nat) : Option Nat :=
  (List.range 8).find? (fun k => s.flag (slotEnF k) n && s.getF (slotChF k) n == inp)

/-- The section of a converter. -/
def State.convSec (s : State) (n : Nat) : Nat := s.getF F.CV_CFG_SECTION n

/-! ## The stages -/

/-- The impulse response of the CIC stage × 4,096 (R64). -/
def cicTaps : List Rat :=
  [1, 4, 10, 20, 35, 56, 84, 120, 161, 204, 246, 284, 315, 336, 344, 336, 315, 284, 246, 204, 161, 120, 84, 56, 35, 20,
   10, 4, 1]

/-- A weighted sum of the newest values; values not yet there count as 0. -/
def dot (w : List Rat) (x : List Rat) : Rat := sumQ (List.zipWith (· * ·) w x)

/-- Amplitude of a symmetric filter with taps `w` at `t` turns a tap, counted from its middle. -/
def amplitude (w : List Rat) (t : Rat) : Rat :=
  sumQ (List.zipWith (fun (c : Rat) (i : Nat) => c * (cisTurns (t * ((2 * i : Nat) - (w.length - 1 : Rat)) / 2)).re) w (List.range w.length))

/-- The figures of R66 that bind the default coefficients: 64 of them, symmetric, of 24 bits, gain 1 at DC, and at every harmonic
the ripple of 0.02 dB up to the 31st and the attenuation of 80 dB from the 97th to the 2,048th. -/
def meetsR66 (l : List Int) : Bool :=
  let gain (h : Nat) : Rat :=
    amplitude (cicTaps.map (fun c => c / 4096)) ((h : Rat) / 4096) * amplitude (l.map (fun c => (c : Rat) / 2 ^ 23)) ((h : Rat) / 512)
  l.length == 64 && l.reverse == l && l.sum == 2 ^ 23 && l.all (fun c => decide (-(2 ^ 23) ≤ c) && decide (c < 2 ^ 23)) &&
    (List.range 32).all (fun h => decide (9977001 / 10000000 ≤ gain h) && decide (gain h ≤ 10023052 / 10000000)) &&
    (List.range 1952).all (fun i => decide (-(1 / 10000) ≤ gain (97 + i)) && decide (gain (97 + i) ≤ 1 / 10000))

/-- Half of a filter that meets R66, to stand in where the free values of log entry 2 do not meet it. -/
def halfFilter : List Int :=
  [-65, -436, -1416, -2994, -4324, -3610, 1046, 9857, 19680, 24078, 16159, -6614, -38375, -64836, -68744, -38960] ++
  [21422, 92807, 144857, 148405, 88518, -26847, -166053, -281149, -320902, -245611, -39710, 281143, 670617, 1060353, 1375122, 1550886]

/-- The default coefficients (R66): free values among those that meet its figures (log entry 2). -/
def defaultCoefs : List Int :=
  let free := (List.range 64).map Config.defaultCoef
  if meetsR66 free then free else halfFilter ++ halfFilter.reverse

/-- The cubic of R67 at μ through four points. -/
def farrow (mu x0 x1 x2 x3 : Rat) : Rat :=
  -(mu * (mu - 1) * (mu - 2) / 6) * x0 + (mu + 1) * (mu - 1) * (mu - 2) / 2 * x1 -
    (mu + 1) * mu * (mu - 2) / 2 * x2 + (mu + 1) * mu * (mu - 1) / 6 * x3

/-- A corrected conversion enters the input at slot angle `a` (ticks less 2k): a CIC output on every eighth conversion,
a shift due on every fourth output; the phase is the one that places x[j] at 512 j + 2k (R64, R65, R67). -/
def InpChain.take (x : InpChain) (a : Nat) (v : Rat) : InpChain × Option Int :=
  let convs := (v :: x.convs).take 29
  let i := a / 16
  let x := { x with convs := convs, last := v }
  if i % 8 != 2 then (x, none)
  else
    let x := { x with cic := (dot cicTaps convs / 4096 :: x.cic).take 64 }
    if i % 32 = 10 then ({ x with gathered := 0 }, some ((i : Int) / 32 - 8)) else ({ x with gathered := x.gathered + 1 }, none)

/-- The value x[j] (R67), 0 where the line does not hold it. -/
def InpChain.firAt (x : InpChain) (j : Int) : Rat := ((x.fir.find? (fun p => p.1 == j)).map Prod.snd).getD 0

/-- One shift: the FIR output of index `j` from the 64 latest CIC outputs, coefficient 0 on the newest of them (R65, log entry
135). -/
def InpChain.shift (x : InpChain) (coefs : List Int) (j : Int) : InpChain :=
  { x with fir := ((j, dot (coefs.map (fun c => (c : Rat) / 2 ^ 23)) x.cic) :: x.fir).take 4 }

/-- The offset of the phase delay in 1/8 tick: corr − 16 k (R67). -/
def delay8 (corr : Int) (k : Nat) : Int := corr - 16 * k

/-- The offset of a channel against its tap samples in 1/8 tick, which its skew field holds: 2 k ticks less corr / 8 ticks (R72). -/
def skew8 (corr : Int) (k : Nat) : Int := 16 * k - corr

/-- The epoch whose grid sample output `j` completes: j0 + 2 = j (R67). -/
def epochOfShift (corr : Int) (k : Nat) (j : Int) : Int := j - 2 - delay8 corr k / 4096

/-- The grid sample of epoch `e` (R67); a value beyond its 32 bits is held at the nearest one (log entry 154). -/
def InpChain.sample (x : InpChain) (corr : Int) (k : Nat) (e : Int) : Int :=
  let j0 := e + delay8 corr k / 4096
  let mu : Rat := (delay8 corr k % 4096 : Int) / 4096
  clampInt (-2147483648) 2147483647
    (roundQ (farrow mu (x.firAt (j0 - 1)) (x.firAt j0) (x.firAt (j0 + 1)) (x.firAt (j0 + 2))))

/-- The slot angle `a` lies in the window of epoch `e` (R70). -/
def contributes (e a : Nat) : Bool := decide (512 * e ≤ a + 5280) && decide (a ≤ 512 * e + 5294)

/-- The marks in the window of an epoch. -/
def InpChain.marksOf (x : InpChain) (e : Nat) : List (Nat × Quality × Bool) := x.marks.filter (fun m => contributes e m.1)

/-- The window of epoch `e` reaches back before the first slot instant after the start (R76). -/
def ChainSt.beforeStart (c : ChainSt) (e : Nat) : Bool :=
  match c.startAngle with
  | some a => decide (512 * e < a + 5280)
  | none => true

/-! ## Delivery -/

/-- The calibration session of the converter is on input `inp`, or its new coefficients wait for a grid instant (R59, R61). -/
def ConvSt.underCal (c : ConvSt) (inp : Nat) : Bool :=
  (match c.cal with | some x => x.inp == inp | none => false) ||
  (match c.newCoef with | some x => x.1 == inp | none => false)

/-- The sources of a feeder in the order of its channels: converter chains and SV streams (R82). -/
def FeederCfg.sources (c : FeederCfg) : List (Bool × Nat) :=
  (c.chans.filterMap (fun o => o.map (fun ch => match ch.src with
    | .conv ain _ => (false, ain / 8)
    | .stream j => (true, j)))).eraseDups

/-- The input of a channel on converter `n`. -/
def ChanCfg.inputOn (c : ChanCfg) (n : Nat) : Option Nat :=
  match c.src with
  | .conv ain _ => if ain / 8 = n then some (ain % 8) else none
  | .stream _ => none

/-- The inputs of a feeder on converter `n`, one place for each of its eight channels. -/
def FeederCfg.inputsOn (c : FeederCfg) (n : Nat) : List (Option Nat) := c.chans.map (fun o => o.bind (fun ch => ch.inputOn n))

/-- The delivered sample of an epoch and input. -/
def ChainSt.outAt (c : ChainSt) (e inp : Nat) : Option (Int × Quality) :=
  (c.outs.find? (fun o => o.1 == e && o.2.1 == inp)).map (fun o => o.2.2)

/-- The burst of a feeder for epoch `e` once every input it has on the converter is delivered (R82). -/
def ChainSt.burstOf (c : ChainSt) (n e f : Nat) (g : FeederCfg) : Option IngressItem :=
  let ins := g.inputsOn n
  if ins.any Option.isSome && ins.all (fun o => match o with | some i => (c.outAt e i).isSome | none => true) then
    some (.burst f ((g.sources.findIdx? (fun x => x == (false, n))).getD 0) e (ins.map (fun o => o.bind (c.outAt e))))
  else none

/-- A grid sample delivered: it waits for its burst, which then goes to the rank ingress (R69, R82). -/
def State.deliver (s : State) (n inp e : Nat) (v : Int) (q : Quality) : State :=
  let k := s.convSec n
  let s := s.updChain n (fun c => { c with
    outs := (e, inp, v, q) :: c.outs.filter (fun (o : Nat × Nat × Int × Quality) => decide (e < o.1 + 32)) })
  let c := s.chain n
  let bursts := ((s.imgAt k e).feedersOf k).filterMap (fun p =>
    if (p.2.inputsOn n).contains (some inp) then c.burstOf n e p.1 p.2 else none)
  s.updSec k (fun x => { x with toIngress := x.toIngress ++ bursts })

/-- The combined quality of a grid sample of the chain (R71). -/
def State.sampleQual (s : State) (n inp e : Nat) : Quality :=
  let c := s.chain n
  let marks := (c.inps.getD inp {}).marksOf e
  Quality.joins ([Quality.when (c.beforeStart e) Quality.bad,
    Quality.when (bitOf (s.getF F.CV_OWSTAT_FLAG n) inp) Quality.bad,
    Quality.when (bitOf (s.getF F.CV_CALSTAT_UNCAL n) inp) Quality.quest,
    Quality.when ((s.conv n).underCal inp) Quality.testQ] ++ marks.map (fun m => m.2.1))

/-- FC_QCNT.OVR counts a grid sample with a contributing conversion that has OVR set (R71). -/
def State.countOvr (s : State) (n inp e : Nat) : State :=
  if (((s.chain n).inps.getD inp {}).marksOf e).any (fun m => m.2.2) then s.incF F.FC_QCNT_OVR n else s

/-- Epochs `x.epoch` to `e` of an input that are not delivered take 0, or the value already formed, with invalid quality beside every
other that R71 gives them (R74, R76). -/
def State.deliverZeros (s : State) (n inp e : Nat) : State :=
  let x := (s.chain n).inps.getD inp {}
  let from_ := x.epoch
  let s := (List.range (e + 1 - from_)).foldl (fun s i =>
    (s.countOvr n inp (from_ + i)).deliver n inp (from_ + i) (Tab.get x.formed 0 (from_ + i))
      (Quality.bad.join (s.sampleQual n inp (from_ + i)))) s
  s.updChain n (fun c => { c with inps := modAt c.inps inp (fun x => { x with
    epoch := max x.epoch (e + 1), formed := x.formed.filter (fun (p : Nat × Int) => decide (e < p.1)) }) })

/-- The phase correction of an input (FC_DELAYc, R68). -/
def State.corr (s : State) (n inp : Nat) : Int := sext 13 (s.getF F.FC_DELAY_CORR n inp)

/-- The grid sample of epoch `e` leaves with its qualities, epochs before it that were not formed as zeros (R71, R76). -/
def State.deliverFormed (s : State) (n inp e : Nat) (v : Int) : State :=
  let x := (s.chain n).inps.getD inp {}
  let s := if x.epoch < e then s.deliverZeros n inp (e - 1) else s
  let s := (s.countOvr n inp e).deliver n inp e v (s.sampleQual n inp e)
  s.updChain n (fun c => { c with inps := modAt c.inps inp (fun x => { x with
    epoch := e + 1, formed := x.formed.filter (fun (p : Nat × Int) => decide (e < p.1))
    marks := x.marks.filter (fun (m : Nat × Quality × Bool) => decide (512 * e ≤ m.1 + 5280)) }) })

/-- The window of epoch `e` is over once the latest slot result is its last: the next slot of the input lies past it (R70). -/
def InpChain.windowOver (x : InpChain) (e : Nat) : Bool := decide (512 * e + 5294 < x.lastAt + 16)

/-- The formed grid samples of an input whose windows are over are delivered (R69 to R71). -/
def State.release (s : State) (n inp : Nat) : State :=
  let x := (s.chain n).inps.getD inp {}
  (x.formed.filter (fun p => x.windowOver p.1)).foldl (fun s p => s.deliverFormed n inp p.1 p.2) s

/-- The formed grid samples of every input leave as the chain stops: the rest of their windows is discarded (R71, R74). -/
def State.releaseAll (s : State) (n : Nat) : State :=
  (List.range 8).foldl (fun s i =>
    let x := (s.chain n).inps.getD i {}
    match x.formed.getLast? with
    | some p => (s.release n i).deliverZeros n i p.1
    | none => s) s

/-- A shift of an input completed: its FIR output, and the grid sample that the output completes (R65, R67). -/
def State.runShift (s : State) (n inp : Nat) (j : Int) : State :=
  match s.slotOfInput n inp with
  | none => s
  | some k =>
    let s := s.updChain n (fun c => { c with inps := modAt c.inps inp (fun x => x.shift c.coefs j)
                                             due := c.due.filter (fun (d : Nat × Int) => !(d.1 == inp && d.2 == j)) })
    let e := epochOfShift (s.corr n inp) k j
    let x := (s.chain n).inps.getD inp {}
    if e < (x.epoch : Int) ∨ x.formed.any (fun p => decide (e ≤ (p.1 : Int))) then s
    else (s.updChain n (fun c => { c with inps := modAt c.inps inp (fun y => { y with
      formed := y.formed ++ [(e.toNat, x.sample (s.corr n inp) k e.toNat)] }) })).release n inp

/-- Every shift being computed completes. -/
def State.runShifts (s : State) (n : Nat) : State := (s.chain n).due.foldl (fun s d => s.runShift n d.1 d.2) s

/-! ## Rows of the disturbance recorder (R330) -/

/-- A value of a row, where the section records. Without room in the 256 KiB row buffer it is stored as 0xFFFF_FFFF and the open
record is damaged (R396). -/
def State.noteRow (s : State) (k grp row at_ chan word : Nat) : State :=
  if ((s.img.sec k).recorder.enabled || (s.sec k).recOpen.isSome) && (s.sec k).running then
    let fits := decide ((s.sec k).rowFill + 4 ≤ 262144)
    let cell : DrCell := { grp := grp, row := row, at_ := at_, chan := chan, word := if fits then word else 0xFFFFFFFF }
    let s := s.updSec k (fun x => { x with rows := cell :: x.rows, rowFill := if fits then x.rowFill + 4 else x.rowFill })
    if fits then s
    else match (s.sec k).recOpen with
      | some id => { s with recs := s.recs.map (fun (p : Nat × DrRec) => if p.1 = id then (id, { p.2 with damaged := true }) else p) }
      | none => s
  else s

/-- The quality of the tap sample that the conversion at slot angle `a` completes, from its own 29 conversions; one that reaches
back before a start is invalid (R71, R72). -/
def ChainSt.tapQual (c : ChainSt) (x : InpChain) (a : Nat) : Quality :=
  Quality.joins (Quality.when (match c.startAngle with | some b => decide (a < b + 448) | none => true) Quality.bad ::
    (x.marks.filter (fun m => decide (a ≤ m.1 + 448))).map (fun m => m.2.1))

/-- The tap sample that a conversion at slot angle `slotAngle` of position `pos` completes, as a value of group L: sample m
represents angle 128 m + 2 pos, the row standing at 128 m and the rest being the channel's skew (R72, R330). -/
def State.tapRow (s : State) (n inp pos slotAngle : Nat) : State :=
  let a := slotAngle - 2 * pos
  if a / 16 % 8 ≠ 2 then s
  else match s.img.inputOf (8 * n + inp) with
    | none => s
    | some (f, ch) =>
      let x := (s.chain n).inps.getD inp {}
      let ppu := match ((s.img.feeder f).bind (fun g => g.chans.getD ch none)).map (fun c => c.src) with
        | some (.conv _ p) => p
        | _ => 0
      let q := ((s.chain n).tapQual x slotAngle).join (Quality.when (bitOf (s.getF F.CV_OWSTAT_FLAG n) inp) Quality.bad)
      let k := s.convSec n
      let m : Nat := (a - 224) / 128
      s.noteRow k 0 m ((s.sec k).clockOf ((128 * m : Nat) : Rat)) (8 * n + inp)
        (if q.usable then binary32 ((x.cic.headD 0) * ppu) else 0xFFFFFFFF)

/-! ## Slot results -/

/-- The chain takes no slot results: STOPPED, or its start has not come. -/
def State.chainStopped (s : State) (n : Nat) : Bool := s.getF F.FC_STAT_STATE n == 0 || (s.chain n).startWait

/-- The correction of R58, in 1/256 corrected code. -/
def State.correct (s : State) (n inp : Nat) (code : Int) : Rat :=
  ((code : Rat) - (sext 32 (s.getF F.CV_OFF_OFF n inp) : Rat) / 16) * (s.getF F.CV_GAIN_GAIN n inp : Rat) / 2 ^ 30 * 256

/-- A value with its quality enters an input at a slot angle; a shift becomes due on every fourth CIC output (R64, R65). -/
def State.chainEnter (s : State) (n inp slotAngle : Nat) (v : Rat) (q : Quality) (ovr : Bool) : State :=
  match s.slotOfInput n inp with
  | none => s
  | some k =>
    let x := (s.chain n).inps.getD inp {}
    let x := if q = Quality.ok then x else { x with marks := (slotAngle, q, ovr) :: x.marks }
    let (x, due) := ({ x with lastAt := slotAngle }).take (slotAngle - 2 * k) v
    ((s.updChain n (fun c => { c with inps := modAt c.inps inp (fun _ => x)
                                      due := c.due ++ (match due with | some j => [(inp, j)] | none => []) })).tapRow n inp k
      slotAngle).release n inp

/-- A slot entry at the head of the queue: discarded while the chain is stopped (R46), else corrected and entered. -/
def State.chainTake (s : State) (n inp slotAngle : Nat) (code : Int) (q : Quality) (ovr : Bool) : State :=
  if s.chainStopped n then s.incF F.CV_DROPCNT_CHAINDISC n
  else s.chainEnter n inp slotAngle (s.correct n inp code) (q.join (Quality.when ovr Quality.quest)) ovr

/-- A dropped slot result: the previous one of the input takes its place, questionable beside what its own conversion gives (R71). -/
def State.chainHold (s : State) (n inp slotAngle : Nat) (q : Quality) (ovr : Bool) : State :=
  if s.chainStopped n then s
  else (s.chainEnter n inp slotAngle ((s.chain n).inps.getD inp {}).last (Quality.quest.join q) ovr).incF F.FC_QCNT_HOLD n

/-- FILTER_SHIFT: a shift that is being computed completes (R65). -/
def execFilterShift (n inp : Nat) (s : State) : Host.Outcome State Fault Refusal :=
  .next (match (s.chain n).due.find? (fun d => d.1 == inp) with
    | some d => s.runShift n d.1 d.2
    | none => s)

/-! ## Stopping, starting, loading -/

/-- REFILL: epochs until the first sample of full quality after a start (R76). -/
def State.setRefill (s : State) (n : Nat) : State :=
  match (s.chain n).startAngle with
  | some a =>
    let full := (a + 5280 + 511) / 512
    let x := s.sec (s.convSec n)
    s.setF F.FC_STAT_REFILL n (min 11 (full - (x.nextSample - 1)))
  | none => s.setF F.FC_STAT_REFILL n 0

/-- The chain stops at once: the CIC outputs of the incomplete shift are discarded, the line is dirty (R74). -/
def State.chainStopNow (s : State) (n : Nat) : State :=
  (((s.releaseAll n).updChain n (fun c => { c with
    inps := c.inps.map (fun (x : InpChain) => { x with cic := x.cic.drop x.gathered, gathered := 0 }) })).setF
    F.FC_STAT_STATE n 0).setF F.FC_STAT_DIRTY n 1

/-- A stop of a running chain (R74). -/
def State.chainDisable (s : State) (n : Nat) : State :=
  if (s.chain n).due.isEmpty then s.chainStopNow n else s.setF F.FC_STAT_STATE n 2

/-- FC_CTRL.STOP (R74, R364). -/
def State.chainStop (s : State) (n : Nat) : State :=
  if !decide (n < 32) then s else
  match s.getF F.FC_STAT_STATE n with
  | 1 => if (s.chain n).startWait then s.updChain n (fun c => { c with pendOff := true }) else s.chainDisable n
  | 2 => s.setF F.FC_STAT_PENDING n 0
  | _ => s

/-- A start from STOPPED; FC_STAT shows RUNNING from here (R75, R363). -/
def State.chainBegin (s : State) (n : Nat) : State :=
  (s.updChain n (fun c => { c with startWait := true, pendOff := false })).setF F.FC_STAT_STATE n 1

/-- FC_CTRL.START (R75, R364). -/
def State.chainStart (s : State) (n : Nat) : State :=
  if !decide (n < 32) then s else
  match s.getF F.FC_STAT_STATE n with
  | 0 => s.chainBegin n
  | 1 => s.updChain n (fun c => { c with pendOff := false })
  | _ => s.setF F.FC_STAT_PENDING n 1

/-- The end of STOPPING: the shift completes and delivers; a pending start begins (R74, R75). -/
def State.chainStopDone (s : State) (n : Nat) : State :=
  if s.getF F.FC_STAT_STATE n != 2 then s else
    let s := ((s.runShifts n).releaseAll n).setF F.FC_STAT_STATE n 0
    if s.flag F.FC_STAT_PENDING n then (s.setF F.FC_STAT_PENDING n 0).chainBegin n else s

/-- The chain starts at the slot instant `a`: a dirty line is cleared to zero (R75, R76). -/
def State.chainRun (s : State) (n a : Nat) : State :=
  let c := s.chain n
  if !c.startWait then s else
    let dirty := s.flag F.FC_STAT_DIRTY n
    let s := s.updChain n (fun c => { c with
      startWait := false, startAngle := some a
      inps := if dirty then c.inps.map (fun (x : InpChain) => { x with convs := [], cic := [], gathered := 0, fir := [] })
        else c.inps })
    let s := ((s.setF F.FC_STAT_DIRTY n 0).setF F.FC_STAT_STATE n 1).setRefill n
    if c.pendOff then (s.updChain n (fun c => { c with pendOff := false })).chainDisable n else s

def execFcStop (n : Nat) (s : State) : Host.Outcome State Fault Refusal := .next (s.chainStop n)
def execFcStopComplete (n : Nat) (s : State) : Host.Outcome State Fault Refusal := .next (s.chainStopDone n)
def execFcStart (n : Nat) (s : State) : Host.Outcome State Fault Refusal := .next (s.chainStart n)

/-- FC_RUN_START: the next slot instant of the section is reached. -/
def execFcRunStart (n : Nat) (s : State) : Host.Outcome State Fault Refusal :=
  .next (if (s.chain n).startWait && (s.sec (s.convSec n)).running then
      (s.advanceTo ((s.sec (s.convSec n)).clockOf ((s.conv n).slotTick : Rat))).chainRun n (s.conv n).slotTick
    else s)

/-- A write refused while the chain is not STOPPED (R73). -/
def State.chainBusy (s : State) (n : Nat) : State := (s.setF F.FC_STAT_BUSY n 1).incF F.FC_STAT_REFUSED n

/-- TAP after a read or an accepted write of FC_COEFDATA. -/
def State.nextTap (s : State) (n : Nat) : State := s.bumpF F.FC_COEFADDR_TAP n

/-- The coefficient that FC_COEFDATA shows. -/
def State.coef (s : State) (n : Nat) : Nat := unsext 24 ((s.chain n).coefs.getD (s.getF F.FC_COEFADDR_TAP n) 0)

def execCoefdataRead (n : Nat) (s : State) : Host.Outcome State Fault Refusal := .next (s.nextTap n)

/-- A coefficient list with entry `i` written, padded with zeros to 64. -/
def setCoef (l : List Int) (i : Nat) (v : Int) : List Int := (List.range 64).map (fun k => if k = i then v else l.getD k 0)

def State.coefWrite (s : State) (n w : Nat) : State :=
  if s.getF F.FC_STAT_STATE n != 0 then s.chainBusy n
  else (s.updChain n (fun c => { c with coefs := setCoef c.coefs (s.getF F.FC_COEFADDR_TAP n) (sext 24 w) })).nextTap n

def execCoefdataWrite (n : Nat) (w : Word) (s : State) : Host.Outcome State Fault Refusal := .next (s.coefWrite n w.toNat)

/-- A write of FC_DELAYc; outside −3,968 to +3,968 the field is left unchanged (R68, R73). -/
def State.delayWrite (s : State) (n inp w : Nat) : State :=
  if s.getF F.FC_STAT_STATE n != 0 then s.chainBusy n
  else if sext 13 w < -3968 ∨ 3968 < sext 13 w then s
  else s.setF F.FC_DELAY_CORR n w inp

def execDelayWrite (n inp : Nat) (w : Word) (s : State) : Host.Outcome State Fault Refusal := .next (s.delayWrite n inp w.toNat)

end Sys2Proof.Machine
end

