-- ==== Sys2Proof/Machine/Measure.lean ====
section
/-! DEFINITION. The measurement layer: windows, channel models, phasors, frequency, saturation and their qualities
(R83 to R102). -/

namespace Sys2Proof.Machine

/-! ## The channel model -/

/-- The window index list m = 0 to 127. -/
def win128 : List Nat := List.range 128

/-- The ramp m less its projection on a constant and harmonics 1 to 5 (R87): the direction that finds the slope. -/
def mPerp (m : Nat) : Rat :=
  (m : Rat) - 127 / 2 + sumQ ((List.range 5).map (fun i =>
    let h : Int := i + 1
    rnd (cos128 (h * m) + (1 + cos128 h) / sin128 h * sin128 (h * m))))

/-- The slope s per epoch of the fitted line (R87). -/
def slopeOf (x : List Rat) : Rat :=
  let p := win128.map mPerp
  0 - rnd (dot p x / dot p p)

/-- One DFT term sum over a window with the line removed: the sum of (x[E-m] - d + s m) exp(-j 2π h (E - m) / 128). -/
def dftSum (x : List Rat) (d s : Rat) (h : Int) (e : Int) : C :=
  (List.zip (List.range x.length) x).foldl (fun (a : C) (p : Nat × Rat) =>
    a.add (C.smul (p.2 - d + s * p.1) (cisNeg (h * (e - p.1))))) ⟨0, 0⟩

def C.rnd (a : C) : C := ⟨Sys2Proof.Machine.rnd a.re, Sys2Proof.Machine.rnd a.im⟩

/-- The model fitted over the 128 samples ending at epoch `e`, newest first; phasors are over √2 (R87, R88). -/
def fit (x : List Rat) (e : Nat) : Model :=
  let s := slopeOf x
  let d := sumQ x / 128 + s * (127 / 2)
  { d := d, s := s
    y := (List.range 5).map (fun i => C.rnd (C.smul (1 / 128) (dftSum x d s (i + 1) e))) }

/-- The half-cycle phasor over √2 (R89). -/
def halfPhasor (x : List Rat) (mo : Model) (e : Nat) : C := C.rnd (C.smul (1 / 64) (dftSum (x.take 64) mo.d mo.s 1 e))

/-- Harmonic `h` of a model over √2. -/
def Model.harm (mo : Model) (h : Nat) : C := mo.y.getD (h - 1) ⟨0, 0⟩

/-- The model evaluated at position `m` of the window that ends at epoch `er` (R87, R96, R188). -/
def Model.at_ (mo : Model) (er : Nat) (m : Rat) : Rat :=
  mo.d - mo.s * m + sumQ ((List.range 5).map (fun i =>
    2 * ((mo.harm (i + 1)).mul (cisTurns ((i + 1) * ((er : Rat) - m) / 128))).re))

/-- The RMS magnitude of a phasor held over √2. -/
def mag (y : C) : Rat := sqrtQ (2 * y.sq)

/-! ## Windows -/

/-- The newest `n` samples of a window; samples before the first are 0 and invalid. -/
def padWin (w : List Smp) (n : Nat) : List Smp := (w ++ List.replicate n ({ q := Quality.bad } : Smp)).take n

def FeederSt.win (x : FeederSt) (c : Nat) : List Smp := padWin (x.wins.getD c []) 128

/-- A delivered value in primary amperes or volts (R85): per-unit value of a converter channel, 1 mA or 10 mV of a
stream. -/
def ChanCfg.primary (ch : ChanCfg) (n : Nat) (v : Int) : Rat :=
  match ch.src with
  | .conv _ ppu => v * ppu
  | .stream _ => if n < 4 then (v : Rat) / 1000 else (v : Rat) / 100

/-- The source of a channel as its place in the feeder's list of sources. -/
def FeederCfg.srcOf (c : FeederCfg) (n : Nat) : Nat :=
  match c.chan n with
  | some ch =>
    let key := match ch.src with
      | .conv ain _ => (false, ain / 8)
      | .stream j => (true, j)
    (c.sources.findIdx? (fun x => x == key)).getD 0
  | none => 0

/-- The burst of a source for epoch `e` (R82, R83). -/
def FeederSt.burst (x : FeederSt) (src e : Nat) : Option (List (Option (Int × Quality))) :=
  (x.bursts.find? (fun b => b.1 == src && b.2.1 == e)).map (fun b => b.2.2)

def FeederSt.src (x : FeederSt) (i : Nat) : SrcSt := x.srcs.getD i {}

/-- The prediction of epoch `e` by the model of the epoch before (R96, R101). -/
def FeederSt.predict (x : FeederSt) (n e : Nat) : Rat := (x.prev.getD n {}).at_ (e - 1) (-1)

/-- The sample of channel `n` in epoch `e`: delivered; invalid for a lost source (R84); else filled (R101). -/
def FeederSt.sampleOf (x : FeederSt) (c : FeederCfg) (n e : Nat) : Smp :=
  match c.chan n with
  | none => ⟨0, Quality.bad, false⟩
  | some ch => match x.burst (c.srcOf n) e with
    | some l => match l.getD n none with
      | some (v, q) => ⟨ch.primary n v, q, false⟩
      | none => ⟨0, Quality.bad, false⟩
    | none =>
      if (x.src (c.srcOf n)).lost then ⟨0, Quality.bad, false⟩
      else ⟨rnd (x.predict n e), Quality.quest, true⟩

/-- The samples of an epoch enter the windows. -/
def FeederSt.pushEpoch (x : FeederSt) (c : FeederCfg) (e : Nat) : FeederSt :=
  { x with wins := (List.range 8).map (fun n => (x.sampleOf c n e :: x.wins.getD n []).take 128)
           bursts := x.bursts.filter (fun (b : Nat × Nat × List (Option (Int × Quality))) => decide (e < b.2.1)) }

/-- The channel's sample of the latest epoch is missing (R83). -/
def FeederSt.missing (x : FeederSt) (n : Nat) : Bool := ((x.wins.getD n []).head?.map (fun s => s.filled)).getD false

/-- The quality of quantities from a window of `n` samples with at most `lim` filled ones (R99, R101). -/
def winQual (w : List Smp) (lim : Nat) : Quality :=
  (Quality.joins (w.map (fun s => s.q))).join (Quality.when (decide (lim < (w.filter (fun s => s.filled)).length)) Quality.bad)

/-! ## Saturation (R96) -/

/-- Detection on a current channel in epoch `e`. -/
def detectSat (c : FeederCfg) (prev : Model) (s : Smp) (e : Nat) : Bool :=
  let p := prev.at_ (e - 1) (-1)
  let x1 := 2 * (prev.harm 1).sq
  let r := s.v - p
  let floor := c.satFloor * c.inA
  let ks := c.ks / 100
  s.q.usable && !s.filled && decide (floor * floor ≤ x1) && decide (ks * ks * 2 * x1 ≤ r * r) && decide (absQ s.v < absQ p)

/-- Epochs since the last detection, counted while the flag is set. -/
def satNext (run : Option Nat) (detect : Bool) : Option Nat :=
  if detect then some 0 else run.map (· + 1)

/-- The flag clears in the first epoch without detection after 128 epochs without one. -/
def satDue (run : Option Nat) : Bool := match run with | some n => decide (128 < n) | none => false

/-- The flags that are due to clear have cleared. -/
def FeederSt.clearSat (x : FeederSt) : FeederSt := { x with satRun := x.satRun.map (fun r => if satDue r then none else r) }

/-- The saturation flags of IA, IB, IC, IN as bits. -/
def FeederSt.satBits (x : FeederSt) : Nat :=
  (List.range 4).foldl (fun a n => a + 2 ^ n * b2n ((x.satRun.getD n none).isSome)) 0

/-! ## Sequence components -/

/-- 1∠120°. -/
def cis120 : C := ⟨-1 / 2, 7987674491742652408 / 2 ^ 63⟩
def cis240 : C := cis120.conj

/-- Zero, positive and negative sequence of three phasors (R91). -/
def seq0 (a b c : C) : C := C.smul (1 / 3) ((a.add b).add c)
def seqPos (acb : Bool) (a b c : C) : C :=
  let (x, y) := if acb then (cis240, cis120) else (cis120, cis240)
  C.smul (1 / 3) ((a.add (x.mul b)).add (y.mul c))
def seqNeg (acb : Bool) (a b c : C) : C := seqPos (!acb) a b c

/-- Full-cycle phasor over √2 of a channel, and its half-cycle one. -/
def Meas.y1 (m : Meas) (n : Nat) : C := (m.models.getD n {}).harm 1
def Meas.h1 (m : Meas) (n : Nat) : C := m.half.getD n ⟨0, 0⟩

/-- Sequence components of the phases that begin at channel `o` (0 currents, 4 voltages). -/
def Meas.zero (m : Meas) (o : Nat) : C := seq0 (m.y1 o) (m.y1 (o + 1)) (m.y1 (o + 2))
def Meas.pos (m : Meas) (acb : Bool) (o : Nat) : C := seqPos acb (m.y1 o) (m.y1 (o + 1)) (m.y1 (o + 2))
def Meas.neg (m : Meas) (acb : Bool) (o : Nat) : C := seqNeg acb (m.y1 o) (m.y1 (o + 1)) (m.y1 (o + 2))

/-- The same from the half-cycle phasors. -/
def Meas.zeroHalf (m : Meas) (o : Nat) : C := seq0 (m.h1 o) (m.h1 (o + 1)) (m.h1 (o + 2))
def Meas.posHalf (m : Meas) (acb : Bool) (o : Nat) : C := seqPos acb (m.h1 o) (m.h1 (o + 1)) (m.h1 (o + 2))
def Meas.negHalf (m : Meas) (acb : Bool) (o : Nat) : C := seqNeg acb (m.h1 o) (m.h1 (o + 1)) (m.h1 (o + 2))

/-- Quality of the full-window quantities of listed channels, with the leakage rule (R99, R100). -/
def Meas.qOf (m : Meas) (l : List Nat) : Quality :=
  (Quality.joins (l.map (fun n => m.qFull.getD n Quality.bad))).join (Quality.when m.leak Quality.quest)
def Meas.qHalfOf (m : Meas) (l : List Nat) : Quality :=
  (Quality.joins (l.map (fun n => m.qHalf.getD n Quality.bad))).join (Quality.when m.leak Quality.quest)
/-- Quality of RMS values, which the leakage rule does not touch. -/
def Meas.qRms (m : Meas) (l : List Nat) : Quality := Quality.joins (l.map (fun n => m.qFull.getD n Quality.bad))

/-- The square of Vn/√3. -/
def FeederCfg.vph2 (c : FeederCfg) : Rat := c.vnV * c.vnV / 3

/-- The harmonic ratio of order `h` of channel `n` in %, with its quality: 0 and questionable where |X1| is below 2 % of In or of
Vn/√3 (R92). -/
def Meas.ratio (m : Meas) (c : FeederCfg) (n h : Nat) : Rat × Quality :=
  let x1 := 2 * (m.y1 n).sq
  let nom2 := if n < 4 then c.inA * c.inA else c.vph2
  if 2500 * x1 < nom2 then (0, (m.qOf [n]).join Quality.quest)
  else (mag ((m.models.getD n {}).harm h) / mag (m.y1 n) * 100, m.qOf [n])

/-! ## Frequency (R94, R95, R100) -/

/-- The frequency source, 1 V1, 2 I1, 0 none, with the channels it reads (R94). -/
def freqSource (c : FeederCfg) (m : Meas) : Nat × List Nat :=
  let v := m.pos c.acb 4
  let i := m.pos c.acb 0
  let vm := c.v1min / 100
  let im := c.i1min / 100 * c.inA
  if c.has3 4 ∧ vm * vm * c.vph2 ≤ 2 * v.sq then (1, [4, 5, 6])
  else if c.fallback ∧ c.has3 0 ∧ im * im ≤ 2 * i.sq then (2, [0, 1, 2])
  else (0, [])

/-- A difference of angles in turns reduced to (-1/2, 1/2]. -/
def wrapTurn (x : Rat) : Rat := x - (x - 1 / 2).ceil

/-- The angle of the source phasor `src` in an epoch. -/
def RotPt.turns (x : RotPt) (src : Nat) : Rat := if src = 2 then x.i1 else x.v1

/-- The sum of dphi of source `src` over the newest `n` epochs, in turns. -/
def rotation (l : List RotPt) (src n : Nat) : Rat :=
  sumQ (((List.zip l l.tail).take n).map (fun p => wrapTurn (p.1.turns src - p.2.turns src)))

/-- Seconds between two core clocks. -/
def clkSec (a b : Nat) : Rat := ((a : Rat) - b) / 1200000000

/-- Duration of the newest `n` epochs in s, between the sample instants that their rotations lie between (log entry 159), if the
list reaches back so far. -/
def rotDur (l : List RotPt) (n : Nat) : Option Rat :=
  match l.head?, l[n]? with
  | some a, some b => some (clkSec a.at_ b.at_)
  | _, _ => none

/-- The frequency of R94 from the list of P, newest first, with its quality: the window is the newest 128 × Nf epochs. A held
and a clamped value add invalid to the quality of the source phasors (R98, R99). -/
def freqOf (nf : Nat) (l : List RotPt) (held : Rat) : Rat × Quality :=
  let n := 128 * nf
  let src := (l.head?.map (fun p => p.src)).getD 0
  let w := l.take n
  let q := Quality.joins (w.map (fun p => p.q))
  match rotDur l n with
  | some d =>
    if src = 0 ∨ w.any (fun p => p.src != src) ∨ d ≤ 0 then (held, q.join Quality.bad)
    else
      let f := ((nf : Rat) + rotation l src n) / d
      let f := (roundQ (f * 10000) : Rat) / 10000
      if f < 40 then (40, q.join Quality.bad) else if 72 < f then (72, q.join Quality.bad) else (f, q)
  | none => (held, q.join Quality.bad)

/-- ROCOF over Nr cycles from the list of frequencies, newest first (R95). -/
def ROCOF (nr : Nat) (l : List (Rat × Quality × Nat)) : Rat × Quality :=
  match l.head?, l[128 * nr]? with
  | some a, some b =>
    let d := clkSec a.2.2 b.2.2
    if d ≤ 0 then (0, Quality.bad) else ((a.1 - b.1) / d, a.2.1.join b.2.1)
  | _, _ => (0, Quality.bad)

/-- The leakage rule: a valid frequency more than 1 Hz from the mean grid rate over the full window (R100). -/
def leaks (f : Rat) (q : Quality) (l : List RotPt) : Bool :=
  match rotDur l 128 with
  | some d => q.usable && decide (0 < d) && decide (1 < absQ (f - 1 / d))
  | none => false

/-! ## What the trackers follow (R23) -/

/-- The voltage channels that a tracker uses: VA, VB and VC, or the first configured of them. -/
def FeederCfg.trackChans (c : FeederCfg) : List Nat :=
  if c.has3 4 then [4, 5, 6] else (([4, 5, 6].find? (fun n => c.has n)).map (fun n => [n])).getD []

/-- The tracked phasor of a feeder: its positive-sequence voltage, or the fundamental of its first phase voltage. -/
def Meas.tracked (m : Meas) (c : FeederCfg) : C :=
  if c.has3 4 then m.pos c.acb 4 else match c.trackChans with
  | [n] => m.y1 n
  | _ => ⟨0, 0⟩

/-- The tracked phasor of epoch `e`, sampled at core clock `t`, enters the list of the latest 129. -/
def FeederSt.noteTrack (x : FeederSt) (c : FeederCfg) (m : Meas) (e t : Nat) : FeederSt :=
  let p := m.tracked c
  let ok := !c.trackChans.isEmpty && c.trackChans.all (fun n => (m.qFull.getD n Quality.bad).usable)
  { x with track := ({ epoch := e, at_ := t, turns := p.turns, sq := p.sq, ok := ok } :: x.track).take 129 }

/-- The tracker's frequency: R94 with Nf = 1 on the tracked phasor over the latest 128 epochs, once they are there. -/
def trackHz (l : List TrackPt) : Option Rat :=
  match l.head?, l[128]? with
  | some a, some b =>
    if b.at_ < a.at_ ∧ (l.take 129).all (fun p => p.ok) then
      let r := sumQ (((List.zip l l.tail).take 128).map (fun p => wrapTurn (p.1.turns - p.2.turns)))
      some ((roundQ ((1 + r) / clkSec a.at_ b.at_ * 10000) : Rat) / 10000)
    else none
  | _, _ => none

/-! ## One epoch -/

/-- The phasors, mean squares and qualities of the windows in epoch `e` (R87 to R93, R99, R101). -/
def FeederSt.phasors (x : FeederSt) (c : FeederCfg) (e : Nat) : Meas :=
  let w := (List.range 8).map (fun n => x.win n)
  let models := w.map (fun l => fit (l.map (fun s => s.v)) e)
  { models := models
    half := (List.zip w models).map (fun p => halfPhasor (p.1.map (fun s => s.v)) p.2 e)
    ms := w.map (fun l => sumQ (l.map (fun s => s.v * s.v)) / 128)
    msHi := w.map (fun l => sumQ (l.map (fun s => s.v * s.v)) / 128)
    rFull := List.replicate 8 0, rSecond := List.replicate 8 0, rHalf := List.replicate 8 0
    qFull := w.map (fun l => winQual l c.fillLimit)
    qHalf := w.map (fun l => winQual (l.take 64) (c.fillLimit / 2)) }

/-- Frequency, ROCOF and the leakage rule in the epoch sampled at core clock `t` (R94, R95, R100); the source phasor of a
leaking epoch is questionable, and so is each frequency whose window holds the epoch (R99). -/
def FeederSt.rotate (x : FeederSt) (c : FeederCfg) (m : Meas) (nom : Rat) (t : Nat) : FeederSt :=
  let (src, chs) := freqSource c m
  let l := (({ v1 := (m.pos c.acb 4).turns, i1 := (m.pos c.acb 0).turns, src := src, q := m.qOf chs, at_ := t } : RotPt) ::
    x.rot).take (128 * c.nf + 130)
  let held := if x.freqs.isEmpty then nom else x.meas.freq
  let (f, fq) := freqOf c.nf l held
  let lk := leaks f fq l
  let fq := fq.join (Quality.when lk Quality.quest)
  let fs := ((f, fq, t) :: x.freqs).take (128 * c.nr + 1)
  let (r, rq) := ROCOF c.nr fs
  let l := if lk then (match l with | a :: rest => { a with q := a.q.join Quality.quest } :: rest | [] => []) else l
  { x with rot := l, freqs := fs, meas := { m with freq := f, freqQ := fq, rocof := r, rocofQ := rq, leak := lk, nom := nom } }

/-- The measurement of epoch `e`, whose samples have entered the windows (R86 to R102). -/
def FeederSt.measure (x : FeederSt) (c : FeederCfg) (e : Nat) (nom : Rat) (t : Nat) : FeederSt :=
  let sat := (List.range 4).map (fun n =>
    let s := ((x.wins.getD n []).head?).getD {}
    satNext (x.satRun.getD n none) (c.has n && detectSat c (x.prev.getD n {}) s e))
  let m := x.phasors c e
  let y := (x.rotate c m nom t).noteTrack c m e t
  { y with prev := m.models, satRun := sat }

/-- SATURATION_FLAG_CLEAR (R96): it comes about inside the measurement that DATA_DUE has started. -/
def execSaturationFlagClear (f ch : Nat) (s : State) : Host.Outcome State Fault Refusal :=
  .next (if (s.feeder f).measOpen.isSome && satDue ((s.feeder f).satRun.getD ch none) then
      s.updFeeder f (fun x => { x with satRun := modAt x.satRun ch (fun _ => none) })
    else s)

end Sys2Proof.Machine
end

