-- ==== Sys2Proof/Machine/Publish.lean ====
section
/-! DEFINITION. What follows a write of the signal table: tile commands (R239), watch lists (R194) and GOOSE formation
(R286). -/

namespace Sys2Proof.Machine

/-! ## Tile chains -/

/-- The chain that the image places on a lane (R13, R232). -/
def State.chainCfg (s : State) (lane : Nat) : Option ChainCfg := Tab.find s.img.chains lane

/-- Settings of the tile at an address. -/
def State.tileCfg (s : State) (lane addr : Nat) : Option TileCfg :=
  (s.chainCfg lane).bind (fun c => c.tiles[addr]?)

/-- Refresh period P of a lane in core clocks (R232). -/
def State.periodClk (s : State) (lane : Nat) : Nat := ((s.chainCfg lane).getD {}).period * usClk

/-- Masks of the parallel groups of a tile's two halves as lists of output bits (R232, R435). -/
def groupMasks (lo hi : Nat) : List Nat :=
  (match lo with | 1 => [0x03, 0x0C] | 2 => [0x0F] | _ => []) ++
  (match hi with | 1 => [0x30, 0xC0] | 2 => [0xF0] | _ => [])

def TileCfg.groups (t : TileCfg) : List Nat := groupMasks t.grpLo t.grpHi

/-- The group mask of an output, its own bit where it is in none. -/
def TileCfg.groupOf (t : TileCfg) (n : Nat) : Nat := (t.groups.find? (fun m => bitOf m n)).getD (2 ^ n)

/-- The force that applies to an output of a feeder: one on any output of its group forces it too (R225, R250). -/
def State.outForce (s : State) (t : TileCfg) (n : Nat) : Option Nat :=
  (s.forces.find? (fun p => p.2.active && p.2.output && p.2.target % 2048 == t.feeder &&
    bitOf (t.groupOf n) (fieldOf p.2.target 12 3))).map (fun p => p.2.value % 2)

/-- The feeder's setting "accept test quality" (R105). -/
def State.acceptsTest (s : State) (f : Nat) : Bool := ((s.img.feeder f).getD {}).acceptTest

/-- A source bit of an output counts as 1 (R239). -/
def State.srcCounts (s : State) (f : Nat) (b : SigBit) : Bool :=
  let e := s.sig b.id
  e.counts b.bit && (!e.q.test || s.acceptsTest f)

/-- The OR of the sources of an output. -/
def State.outSources (s : State) (t : TileCfg) (n : Nat) : Bool :=
  (t.outs.getD n {}).srcs.any (s.srcCounts t.feeder)

/-- The rise of an output's command as its sources stand (R239). -/
def State.riseOf (s : State) (t : TileCfg) (d : DevTile) (n : Nat) : Option (Nat × Bool) :=
  let src := s.outSources t n
  match d.rose.getD n none with
  | none => if src then some (s.now, true) else none
  | some (c, b) =>
    let held := decide (s.now < c + (t.outs.getD n {}).minOnMs * msClk)
    if src then (if b || held then some (c, true) else some (s.now, true))
    else if held then some (c, false) else none

/-- The rises of every output with a minimum on time brought up to date after a write of signals (R239). -/
def State.noteRises (s : State) : State :=
  s.img.chains.foldl (fun s c =>
    (List.range c.2.tiles.length).foldl (fun s a =>
      let t := c.2.tiles.getD a { feeder := 0 }
      if t.outs.all (fun o => o.minOnMs == 0) then s else
        let d := Tab.get (s.lane c.1).tiles {} a
        let rose := (List.range 8).map (fun n => s.riseOf t d n)
        s.updLane c.1 (fun l => { l with tiles := Tab.upd l.tiles {} a (fun d => { d with rose := rose }) })) s) s

/-- The command of one output: its sources, its minimum on time, its force (R226, R239). -/
def State.outCmd (s : State) (t : TileCfg) (d : DevTile) (n : Nat) : Bool :=
  match s.outForce t n with
  | some v => v == 1
  | none => s.outSources t n ||
    (match d.rose.getD n none with
     | some (c, _) => decide (s.now < c + (t.outs.getD n {}).minOnMs * msClk)
     | none => false)

/-- The command byte of a tile (R239). -/
def State.tileCmd (s : State) (lane addr : Nat) : Nat :=
  match s.tileCfg lane addr with
  | some t =>
    let d := Tab.get (s.lane lane).tiles {} addr
    (List.range 8).foldl (fun a n => a + 2 ^ n * b2n (s.outCmd t d n)) 0
  | none => 0

/-- The forced outputs of a tile, as bits (R226, R250). -/
def State.forcedOuts (s : State) (lane addr : Nat) : Nat :=
  match s.tileCfg lane addr with
  | some t => (List.range 8).foldl (fun a n => a + 2 ^ n * b2n (s.outForce t n).isSome) 0
  | none => 0

/-- FLAGS bit 2 of a down-frame: the command holds a forced output (R235). -/
def State.tileForced (s : State) (lane addr : Nat) : Bool := s.forcedOuts lane addr != 0

/-- FLAGS of a down-frame (R235). -/
def State.frameFlags (s : State) (lane a : Nat) : Nat :=
  s.getF F.PR_CFG_SIDE + 2 * b2n s.isActive + 4 * b2n (s.tileForced lane a)

/-- The effective service range of a lane holds the address (R257, R311, R319, R321). -/
def State.inRange (s : State) (lane addr : Nat) : Bool :=
  if s.flag F.PR_STAT_FAILED || s.flag F.PR_STAT_DEMOTED then false
  else if (s.lane lane).ringSvc then decide (addr < ((s.chainCfg lane).getD {}).tiles.length)
  else decide (s.getF F.LN_TCSVC_FIRST lane ≤ addr) && decide (addr ≤ s.getF F.LN_TCSVC_LAST lane)

/-- The lane of a feeder's tile and the tile's address (R9, R13). -/
def State.tileOf (s : State) (f : Nat) : Option (Nat × Nat) :=
  match s.img.chainOf (f / 64) with
  | some (lane, c) => ((List.range c.tiles.length).find? (fun a => (c.tiles.getD a { feeder := 0 }).feeder == f)).map (fun a => (lane, a))
  | none => none

/-- Kinds of element (R107, R134). -/
def ElemKind.isTh : ElemKind → Bool
  | .th _ => true
  | _ => false
def ElemKind.isFl : ElemKind → Bool
  | .fl _ => true
  | _ => false

/-- The image populates the signal ID (R206 to R208). -/
def State.populated (s : State) (id : Nat) : Bool :=
  if id < 122880 then
    match s.img.feeder (id / 80) with
    | none => false
    | some c =>
      let o := id % 80
      if o < 48 then (Tab.find c.elems o).isSome
      else if o ≤ 72 then (s.tileOf (id / 80)).isSome
      else if o = 74 then c.elems.any (fun p => p.2.kind.isTh)
      else if 75 ≤ o ∧ o ≤ 77 then c.elems.any (fun p => p.2.kind.isFl)
      else o != 79
  else if id < 123648 then
    let k := (id - 122880) / 32
    let o := id % 32
    let c := s.img.sec k
    (Tab.find s.img.secs k).isSome &&
      (if o < 4 then decide (o < c.zsi.length) else if o ≤ 14 then c.bd.enabled else if o = 15 then true
       else decide ((o - 16) % 8 < c.arcs.length))
  else if id < 123904 then decide (id ≤ 123654)
  else if 124928 ≤ id ∧ id < 126976 then s.img.goSubs.any (fun p => p.2.map.any (fun m => m.2 == id))
  else if 126976 ≤ id ∧ id < 131072 then (Tab.find s.img.cores ((id - 126976) / 1024)).isSome
  else false

/-- A change frame queued to each tile of a lane whose command an evaluation changed from what it was in `old`, once protection is
active (R366). A queue that holds 64 of them takes no more; a refresh frame waits outside a full queue (R396; log entry 162). -/
def State.queueChange (s old : State) (lane n : Nat) : State :=
  if s.getF F.LN_STAT_STATE lane != 2 || s.getF F.DEV_STAT_STATE != 3 then s else
    let changed := (List.range n).filter (fun a => s.inRange lane a && s.tileCmd lane a != old.tileCmd lane a)
    let s := s.updLane lane (fun l => { l with changeQ := (l.changeQ ++ changed).take 64 })
    s.brim F.DEV_BRIM0_REFR (min 64 ((s.lane lane).changeQ.length + (s.lane lane).refreshQ.length))

/-- Change frames for the commands, of any section's tiles, that a feeder or section evaluation changed from what they were in `old`; a
change that only a scheme-logic publication caused waits for the refresh (R14, R17, R240). -/
def State.queueChanges (s old : State) : State :=
  s.img.chains.foldl (fun s c => s.queueChange old c.1 c.2.tiles.length) s

/-! ## Plies -/

/-- Causes of a squash by the counter that holds them (R198). -/
inductive SqCause where
  | band | other | super
deriving DecidableEq, Repr

/-- OWN, SHARED, USED and GATES follow what is held (R193, R195). -/
def State.syncPlies (s : State) (e : Nat) : State :=
  let own := (s.plies.filter (fun p => p.2.engine == e && !p.2.shared)).length
  let sh := (s.plies.filter (fun p => p.2.engine == e && p.2.shared)).length
  let used := (s.plies.filter (fun p => p.2.shared)).length
  let s := (((s.setF F.PE_PLYSTAT_OWN e own).setF F.PE_PLYSTAT_SHARED e sh).setF F.DEV_PLYPOOL_USED 0 used)
  s.setF F.DEV_PLYPOOL_BRIM 0 (max used (s.getF F.DEV_PLYPOOL_BRIM))

/-- SEC_PLYSTAT.GATES of a section follows the gates of its lane. -/
def State.syncGates (s : State) (k : Nat) : State :=
  match s.img.chainOf k with
  | some (lane, _) => s.setF F.SEC_PLYSTAT_GATES k (s.lane lane).gates.length
  | none => s

/-- A ply leaves its slot; its closed gates are free (R192, R195). -/
def State.dropPly (s : State) (id : Nat) : State :=
  match Tab.find s.plies id with
  | none => s
  | some p =>
    let lanes := s.lanes.map (fun l => (l.1, { l.2 with gates := l.2.gates.filter (fun g => g.open_ || g.ply != id) }))
    (({ s with plies := Tab.del s.plies id, lanes := lanes }).syncPlies p.engine).syncGates (p.engine / 8)

/-- A squash, counted by its cause (R198). -/
def State.squash (s : State) (id : Nat) (c : SqCause) : State :=
  match Tab.find s.plies id with
  | none => s
  | some p =>
    let s := match c with
      | .band => s.incF F.PE_SQCNT_BAND p.engine
      | .other => s.incF F.PE_SQCNT_OTHER p.engine
      | .super => s.incF F.PE_PLYREF_SUPER p.engine
    s.dropPly id

/-- Every ply that meets a condition squashed for one cause. -/
def State.squashAll (s : State) (c : SqCause) (p : Ply → Bool) : State :=
  ((s.plies.filter (fun x => p x.2)).map Prod.fst).foldl (fun s id => s.squash id c) s

/-- A watched signal of the ply differs in value or validity from what the ply read (R194). -/
def Ply.watchChanged (p : Ply) (s : State) : Bool :=
  p.watch.any (fun w => (s.sig w.1).value != w.2.value || decide ((s.sig w.1).q.validity ≠ w.2.q.validity))

/-- Plies whose watch list changed are squashed (R194, R198 WATCH). -/
def State.squashWatch (s : State) : State := s.squashAll .other (fun p => p.watchChanged s)

/-! ## Ethernet transmission -/

/-- Extended time of a time base in ns: the base pair's time plus the counter's advance since it, or the time since
PORn (R296). -/
def State.extNs (s : State) (k : Nat) : Nat :=
  let x := s.tb k
  if s.flag F.TB_STAT_BASE k then x.baseS * 1000000000 + x.baseNs + (s.tbNs k + 2 ^ 32 - x.baseC) % 2 ^ 32
  else (((s.tbAcc k s.now) / (6 * 2 ^ 40) : Nat) + x.step).toNat

/-- What a step by `d` adds to the counter with its wraps: a step back past the first of them counts none (R294, R296; log entry 167). -/
def State.stepBy (s : State) (k : Nat) (d : Int) : Int :=
  let total : Int := (((s.tbAcc k s.now) / (6 * 2 ^ 40) : Nat) : Int) + (s.tb k).step
  if total + d < 0 then (total + d) % 2 ^ 32 - total else d

/-- The extended time in ns of a past counter value of a time base. -/
def State.extOf (s : State) (k stamp : Nat) : Nat := s.extNs k - (s.tbNs k + 2 ^ 32 - stamp % 2 ^ 32) % 2 ^ 32

/-- The launch target of a message formed now (R289). -/
def State.goTarget (s : State) : LaunchMode → Option (Nat × Nat) × Option (Nat × Nat)
  | .immediate => (none, none)
  | .angle k t =>
    let a := (s.theta k).ceil.toNat + 1024
    let c := if t % 65536 ≥ a % 65536 then a / 65536 else a / 65536 + 1
    (none, some (k, c * 65536 + t % 65536))
  | .time k p o =>
    let x := s.extNs k + 100000
    let per := p * 1000000
    let off := o * 1000
    let n := if x ≤ off then 0 else (x - off + per - 1) / per
    (some (k, (s.tbNs k + (n * per + off - s.extNs k)) % 2 ^ 32), none)

/-- The modes of a lane that carry Ethernet (R258). -/
def LaneMode.eth : LaneMode → Bool
  | .eth1g => true
  | .eth10g => true
  | _ => false

/-- A frame queued on an Ethernet lane that is ON (R260); a time target that has passed is discarded (R288). -/
def State.queueEth (s : State) (lane : Nat) (f : EthFrame) : State :=
  if s.getF F.LN_STAT_STATE lane != 2 || !(s.img.lane lane).mode.eth then s
  else match f.timeTgt, f.angleTgt with
    | some (k, t), _ =>
      if (s.tbNs k + 2 ^ 32 - t) % 2 ^ 32 < 2 ^ 31 then s.incF F.LN_LAUNCH_LATE lane
      else s.updLane lane (fun l => { l with ethQ := l.ethQ ++ [f] })
    | none, some (k, a) =>
      if reached (s.tick k) a then (s.incF F.LN_LAUNCH_LATE lane).setF F.SEC_ANGLE_EVT_LATE k 1
      else s.updLane lane (fun l => { l with ethQ := l.ethQ ++ [f] })
    | none, none => s.updLane lane (fun l => { l with ethQ := l.ethQ ++ [{ f with ready := true }] })

/-! ## GOOSE publication -/

/-- The members of a publication as value and quality. -/
def State.members (s : State) (p : GoPub) : List Entry := p.members.map (fun id => { s.sig id with forced := false })

/-- The counter after `n`, which wraps from 0xFFFF_FFFF to 1 (R286). -/
def goNext (n : Nat) : Nat := if n = 0xFFFFFFFF then 1 else n + 1

/-- The publication sends on this side (R304, R313). -/
def State.publishes (s : State) (p : GoPub) : Bool := p.both || s.isActive

/-- The signal is binary (R206 to R209): tile inputs and outputs, the section trip, the outputs of a section and device signals; a
subscribed value by the type of its member; of a core's signals those that `core` says. -/
def Image.binary (m : Image) (core : Bool) (id : Nat) : Bool :=
  if id < 122880 then (decide (48 ≤ id % 80) && decide (id % 80 ≤ 71)) || id % 80 == 73
  else if id < 123648 then id % 32 != 15
  else if id < 123904 then true
  else if id < 126976 then m.goSubs.any (fun p => p.2.map.any (fun x => x.2 == id && ((p.2.types.getD x.1 (1, false)).1 == 0)))
  else core

/-- The members of a message: BOOLEAN for a binary signal, INT32 for any other, each with the quality member that the publication gives it
(R285). -/
def Image.goMembers (m : Image) (p : GoPub) (l : List Entry) : List (Nat × Int × Option Nat) :=
  ((List.range p.members.length).zip (p.members.zip l)).map (fun x =>
    let e := x.2.2
    (if m.binary (p.bools.contains x.1) x.2.1 then 0 else 1, e.value.toInt,
      if p.withQ.contains x.1 then some (wordOfQual e.q) else none))

/-- Bytes of an integer in BER, and of a field with `n` bytes of content (log entry 151). -/
def berInt (v : Int) : Nat :=
  if -128 ≤ v ∧ v < 128 then 1 else if -32768 ≤ v ∧ v < 32768 then 2 else if -8388608 ≤ v ∧ v < 8388608 then 3
  else if -2147483648 ≤ v ∧ v < 2147483648 then 4 else 5
def berField (n : Nat) : Nat := n + (if n < 128 then 2 else if n < 256 then 3 else 4)

/-- Bytes of a GOOSE frame from the destination address to the FCS, without a VLAN tag (R285; log entry 151). -/
def GooseOut.len (g : GooseOut) (p : GoPub) : Nat :=
  let data := (g.members.map (fun x => (if x.1 = 0 then 3 else berField (berInt x.2.1)) + (if x.2.2.isSome then 5 else 0))).sum
  let ints : List Int := [g.ttl, g.stNum, g.sqNum, p.confRev, (g.members.map (fun x => 1 + b2n x.2.2.isSome)).sum]
  let apdu := p.names + 6 + 10 + 3 + 3 + (ints.map (fun v => berField (berInt v))).sum + berField data
  max 64 (26 + berField apdu)

/-- A message of a publication queued on its lanes (R285, R286). -/
def State.sendGoose (s : State) (i : Nat) (p : GoPub) (x : PubSt) (tt at_ : Option (Nat × Nat)) : State :=
  let g : GooseOut := { pub := i, stNum := x.stNum, sqNum := x.sqNum, ttl := x.ttl, test := x.test, members := s.img.goMembers p x.last }
  p.lanes.foldl (fun s n => s.queueEth n { cls := 2, len := g.len p, timeTgt := tt, angleTgt := at_, goose := some g }) s

/-- Formation of a new message of publication `i` where a member changed: stNum + 1, sqNum 0, launch target (R286,
R289); its test field follows FORCING (R228). -/
def State.formOne (s : State) (i : Nat) (p : GoPub) : State :=
  let x := Tab.get s.pubs {} i
  let now := s.members p
  if now = x.last ∨ !s.publishes p then s else
    let (tt, at_) := s.goTarget p.launch
    let y : PubSt := { x with stNum := goNext x.stNum, sqNum := 0, last := now, interval := p.tmin,
                              nextAt := if tt.isNone && at_.isNone then some (s.now + p.tmin * msClk) else none
                              ttl := 2 * p.tmin, test := s.forcing }
    ({ s with pubs := Tab.set s.pubs i y }).sendGoose i p y tt at_

/-- Formation of every publication with a changed member (R286). -/
def State.formGoose (s : State) : State := s.img.goPubs.foldl (fun s p => s.formOne p.1 p.2) s

/-- What follows each publication of signal-table writes: watch lists and GOOSE. -/
def State.published (s : State) : State := s.noteRises.squashWatch.formGoose

end Sys2Proof.Machine
end

