-- ==== Sys2Proof/Machine/Angle.lean ====
section
/-! DEFINITION. The angle clock, its references and its glides (R19 to R36, R436). -/

namespace Sys2Proof.Machine

/-! ## Entries -/

/-- A frequency of a tracker in Hz. -/
def EntrySt.hz (x : EntrySt) : Rat := (x.freq : Rat) / 10000

/-- The phase of the entry at core clock `t`, in ticks, its offset applied (R24, R26). -/
def EntrySt.phaseAt (x : EntrySt) (t : Nat) : Rat := x.phase + x.hz * ((t : Rat) - x.at_) * 65536 / 1200000000

/-- Nominal frequency of a section in 0.1 mHz (R26). -/
def SectionCfg.nomFreq (c : SectionCfg) : Nat := if c.nom60 then 600000 else 500000

/-- Clamped to the clock's range (R19, R31). -/
def clampHz (r : Rat) : Rat := minQ 72 (maxQ 40 r)

/-- A phase difference reduced to −32,768 to +32,767 ticks (R30). -/
def wrapTicks (x : Rat) : Rat := x - 65536 * ((x + 32768) / 65536).floor

/-- The target entry and one entry of a section. -/
def State.target (s : State) (k : Nat) : Nat := s.getF F.SEC_REF_STAT_TARGET k
def SecSt.entry (x : SecSt) (n : Nat) : EntrySt := x.entries.getD n {}

/-- The phase error of the clock against an entry, in ticks (R30). -/
def SecSt.errTo (x : SecSt) (now n : Nat) : Rat := wrapTicks (x.thetaAt now - (x.entry n).phaseAt now)

/-! ## Rates and glides -/

/-- The clock's rate set from now on; SEC_FREQ shows it, rounded down to 0.1 mHz (DESIGN CHOICE, log entry 131). -/
def State.setRate (s : State) (k : Nat) (r : Rat) : State :=
  (s.updSec k (fun x => x.rebase s.now r)).setF F.SEC_FREQ_FREQ k (r * 10000).floor.toNat

/-- The glide's error at core clock `t` (R30). -/
def SecSt.glideErr (x : SecSt) (f : Rat) (t : Nat) : Rat :=
  x.glideE + (x.rate - f) * ((t : Rat) - x.glideAt) * 65536 / 1200000000

/-- The end of a glide: the clock follows its target (R30, R31). -/
def State.endGlide (s : State) (k : Nat) : State :=
  let f := ((s.sec k).entry (s.target k)).hz
  ((((s.updSec k (fun x => { x with glideE := 0, slew := 0 })).setF F.SEC_REF_STAT_GLIDE k 0).setF
    F.SEC_REF_STAT_EXTENDED k 0).setRate k (clampHz f))

/-- A glide towards entry `n` starts (R30, R32); an error of 0 ends it at once. -/
def State.startGlide (s : State) (k n : Nat) : State :=
  let x := s.sec k
  let e := x.errTo s.now n
  let cyc := max 1 (absQ e / 8192).ceil.toNat
  let f := (x.entry n).hz
  let slew := f * e / (cyc * 65536)
  let s := (((s.setF F.SEC_GLIDE_N k cyc).setF F.SEC_REF_STAT_GLIDE k 1).setF F.SEC_REF_STAT_EXTENDED k 0).updSec k
    (fun x => { x with glideE := e, glideAt := s.now, slew := slew, glideCyc := 0, clamped := clampHz (f - slew) != f - slew })
  if e = 0 then s.endGlide k else s.setRate k (clampHz (f - slew))

/-- The glide's error taken up to the present and the rate set for the target's frequency as it stands (R30). -/
def State.stepGlide (s : State) (k : Nat) (oldHz : Rat) : State :=
  let x := s.sec k
  let e := x.glideErr oldHz s.now
  if (0 ≤ x.glideE ∧ e ≤ 0) ∨ (x.glideE ≤ 0 ∧ 0 ≤ e) then s.endGlide k
  else
    let cyc := x.glideCyc + oldHz * ((s.now : Rat) - x.glideAt) / 1200000000
    let f := (x.entry (s.target k)).hz
    (s.updSec k (fun y => { y with glideE := e, glideAt := s.now, glideCyc := cyc
                                   clamped := x.clamped || clampHz (f - x.slew) != f - x.slew })).setRate k (clampHz (f - x.slew))

/-- Outside a glide the clock follows its target (R436). -/
def State.follow (s : State) (k : Nat) : State :=
  let x := s.sec k
  let e := x.errTo s.now (s.target k)
  let f := (x.entry (s.target k)).hz
  if absQ e ≤ 8192 then s.setRate k (clampHz (f * (1 - e / 65536))) else s.startGlide k (s.target k)

/-! ## Target choice -/

/-- The entry is enabled (SEC_REF_CFGn.EN). -/
def State.entryOn (s : State) (k n : Nat) : Bool := n == 4 || s.flag F.SEC_REF_CFG_EN k n

def State.qualified (s : State) (k n : Nat) : Bool := n == 4 || bitOf (s.getF F.SEC_REF_STAT_QUAL k) n

/-- The best entry: enabled, qualified, of highest priority (R29). -/
def State.bestEntry (s : State) (k : Nat) : Nat :=
  ((List.range 5).find? (fun n => s.entryOn k n && s.qualified k n)).getD 4

/-- The target chosen under R29. -/
def State.chosen (s : State) (k : Nat) : Nat :=
  let t := s.target k
  if ((s.sec k).entry t).lost || decide (s.bestEntry k < t) then s.bestEntry k else t

/-- A change of target: the entry 4 takes its phase from the clock; REFCHG, CHGCNT, the glide and the record (R29,
R30). The record's e is rounded down to whole ticks (DESIGN CHOICE, log entry 131). -/
def State.changeTarget (s : State) (k n : Nat) : State :=
  let old := s.target k
  let lost := ((s.sec k).entry old).lost
  let s := if n = 4 then s.updSec k (fun x => { x with
      entries := modAt x.entries 4 (fun y => { y with phase := x.thetaAt s.now, at_ := s.now }) }) else s
  let e := (s.sec k).errTo s.now n
  let s := ((s.setF F.SEC_REF_STAT_TARGET k n).setF F.SEC_ANGLE_EVT_REFCHG k 1).incF F.SEC_ANGLE_EVT_CHGCNT k
  let s := s.startGlide k n
  s.event 0x0101 k 0xFFFF (.sec k) ([old, n, b2n lost, s.getF F.SEC_GLIDE_N k] ++ le2 (unsext 16 e.floor))

/-- TARGET_CHOICE (R29). -/
def State.chooseTarget (s : State) (k : Nat) : State :=
  let n := s.chosen k
  if n = s.target k then s else s.changeTarget k n

/-! ## Trackers -/

/-- A channel of a feeder is flagged for open wire (R57). -/
def State.owChan (s : State) (c : FeederCfg) (n : Nat) : Bool :=
  match c.chan n with
  | some ch => (match ch.src with
    | .conv ain _ => bitOf (s.getF F.CV_OWSTAT_FLAG (ain / 8)) (ain % 8)
    | .stream _ => false)
  | none => false

/-- What the tracker of an entry reports of feeder `f` (R23, "Frequency trackers"): whether R23 holds but for the frequency's
range, the frequency in Hz, and the reference's phase in ticks. The phasor's angle belongs to the middle of its window (DEDUCED,
log entry 14); its phase zero is the positive-going zero crossing, and it goes on at the tracker's frequency to the present
instant. -/
def State.trackOf (s : State) (f : Nat) (c : FeederCfg) (vmin : Nat) : Option (Bool × Rat × Rat) :=
  let l := (s.feeder f).track
  match l.head?, l[63]?, l[64]?, trackHz l with
  | some a, some b, some d, some hz =>
    let big := decide (((vmin : Rat) / 100) * (vmin / 100) * c.vph2 ≤ 2 * a.sq)
    let mid : Rat := ((b.at_ : Rat) + d.at_) / 2
    let phase := 512 * ((a.epoch : Rat) - 127 / 2) + (a.turns + 1 / 4) * 65536 + hz * ((s.now : Rat) - mid) * 65536 / 1200000000
    some (big && c.trackChans.all (fun n => !s.owChan c n), hz, phase)
  | _, _, _, _ => none

/-- An entry's report of an epoch: measured values, or those held (R24). -/
def EntrySt.report (x : EntrySt) (valid : Bool) (freq : Nat) (phase : Rat) (now : Nat) : EntrySt :=
  if valid then { x with validRun := x.validRun + 1, failRun := 0, lost := false, freq := freq, phase := phase, at_ := now }
  else { x with validRun := 0, failRun := x.failRun + 1 }

/-- The phase of the time-base entry: tick 0 at each whole second, plus the offset (R26). -/
def State.tbPhase (s : State) (c : SectionCfg) : Rat :=
  ((s.extNs c.ref3Tb % 1000000000 : Nat) : Rat) / 1000000000 * ((c.nomFreq : Rat) / 10000) * 65536 + c.ref3Off

/-- VALID and QUAL of one entry after its report; qualification is set by ENTRY_QUALIFIED (R28). -/
def State.showEntry (s : State) (k n : Nat) (valid : Bool) : State :=
  let s := s.setBitF F.SEC_REF_STAT_VALID k n valid
  if valid then s else s.setBitF F.SEC_REF_STAT_QUAL k n false

/-- The report of entry `n`. -/
def State.reportEntry (s : State) (k n : Nat) (valid : Bool) (freq : Nat) (phase : Rat) : State :=
  (s.updSec k (fun x => { x with entries := modAt x.entries n (fun y => y.report valid freq phase s.now) })).showEntry k n valid

/-- The tracker of a voltage-transformer entry reports (R23, R24); RANGE tells of a frequency outside 40 Hz to 72 Hz. -/
def State.reportVt (s : State) (k n : Nat) : State :=
  let r := (s.img.sec k).refs.getD n {}
  match (r.feederOf k n).bind (fun f => (s.img.feeder f).bind (fun c => s.trackOf f c (s.getF F.SEC_ANGLE_CFG_VMIN k))) with
  | some (ok, hz, phase) =>
    let inRange := decide (40 ≤ hz) && decide (hz ≤ 72)
    let s := s.onlyIf (!inRange) (fun s => s.setF F.SEC_ANGLE_EVT_RANGE k 1)
    s.reportEntry k n (ok && inRange) (roundQ (hz * 10000)).toNat (phase + r.off)
  | none => s.reportEntry k n false 0 0

/-- All trackers report at the end of an epoch (R23, R24). -/
def State.reportAll (s : State) (k : Nat) : State :=
  let c := s.img.sec k
  let s := (List.range 3).foldl (fun s n => s.reportVt k n) s
  let s := s.reportEntry k 3 (s.flag F.TB_STAT_LOCK c.ref3Tb) c.nomFreq (s.tbPhase c)
  s.updSec k (fun x => { x with entries := modAt x.entries 4 (fun y => { y with validRun := y.validRun + 1 }) })

/-- The end of an epoch for the clock: reports, target choice, glide or following (R29, R30, R436). -/
def State.endEpoch (s : State) (k : Nat) : State :=
  let old := ((s.sec k).entry (s.target k)).hz
  let t := s.target k
  let s := (s.reportAll k).chooseTarget k
  if s.target k != t then s
  else if s.flag F.SEC_REF_STAT_GLIDE k then s.stepGlide k old
  else s.follow k

/-- The sample instant of the next epoch: its number, stamp and record (R22, R38). -/
def State.stampEpoch (s : State) (k : Nat) : State :=
  let x := s.sec k
  let e := x.nextSample
  let stamp := s.tbNsAt (s.getF F.SEC_ANGLE_CFG_TBSEL k) s.now
  let r : EpochRec := { epoch := e, at_ := s.now, stamp := stamp, freq := s.getF F.SEC_FREQ_FREQ k
                        glide := s.flag F.SEC_REF_STAT_GLIDE k }
  (s.updSec k (fun x => { x with nextSample := e + 1, stamp := stamp, epochs := (r :: x.epochs).take 64 })).setF
    F.SEC_EPOCH_NUM_EPOCH k e

/-- The section's clock as its grid starts: cycle 0, tick 0, nominal rate, target entry 4 (R19, R29). -/
def SecSt.start (x : SecSt) (now nom : Nat) : SecSt :=
  { x with running := true, theta0 := 0, t0 := now, rate := (nom : Rat) / 10000, glideE := 0, slew := 0, clamped := false, wraps := 0,
           nextSample := 0, nextDue := 0, nextDeadline := 0, epochs := []
           entries := [{ freq := nom }, { freq := nom }, { freq := nom }, { freq := nom }, { freq := nom, at_ := now }] }

/-! ## Commands -/

/-- ENTRY_LOST: an entry has failed in 16 consecutive epochs (R24); then the target is chosen (R29). -/
def State.loseEntry (s : State) (k n : Nat) : State :=
  let x := (s.sec k).entry n
  if (s.sec k).running && decide (n < 4) && decide (16 ≤ x.failRun) && !x.lost then
    let s := s.updSec k (fun x => { x with entries := modAt x.entries n (fun y => { y with lost := true }) })
    let s := if s.target k = n then s.setF F.SEC_ANGLE_EVT_LOSS k 1 else s
    s.chooseTarget k
  else s

def execEntryLost (k n : Nat) (s : State) : Host.Outcome State Fault Refusal := .next (s.loseEntry k n)

/-- ENTRY_QUALIFIED: 128 × Q consecutive valid epochs have ended (R28); then the target is chosen (R29). -/
def State.qualifyEntry (s : State) (k n : Nat) : State :=
  let x := (s.sec k).entry n
  if (s.sec k).running && decide (n < 4) && decide (128 * s.getF F.SEC_ANGLE_CFG_Q k ≤ x.validRun) then
    (s.setBitF F.SEC_REF_STAT_QUAL k n true).chooseTarget k
  else s

def execEntryQualified (k n : Nat) (s : State) : Host.Outcome State Fault Refusal := .next (s.qualifyEntry k n)

/-- The core clock on which the glide's error reaches 0, if its rate brings it there (R30). -/
def SecSt.glideZero (x : SecSt) (f : Rat) : Option Nat :=
  let d := (x.rate - f) * 65536 / 1200000000
  if d = 0 ∨ x.glideE / d > 0 then none else some (((x.glideAt : Rat) - x.glideE / d).ceil).toNat

/-- GLIDE_END (R30). -/
def execGlideEnd (k : Nat) (s : State) : Host.Outcome State Fault Refusal :=
  .next (if s.flag F.SEC_REF_STAT_GLIDE k then
      match (s.sec k).glideZero ((s.sec k).entry (s.target k)).hz with
      | some t => (s.advanceTo t).endGlide k
      | none => s
    else s)

/-- The core clock at which the glide has run its n cycles of the target (R31). -/
def State.glideCycles (s : State) (k : Nat) : Nat :=
  let x := s.sec k
  let f : Rat := (x.entry (s.target k)).hz
  if f = 0 then x.glideAt
  else
    let n : Rat := ((s.getF F.SEC_GLIDE_N k : Nat) : Rat)
    ((x.glideAt : Rat) + (n - x.glideCyc) * 1200000000 / f).ceil.toNat

/-- The glide reaches its end before it has run its n cycles, or as it does. -/
def State.glideEnds (s : State) (k : Nat) : Bool :=
  match (s.sec k).glideZero ((s.sec k).entry (s.target k)).hz with
  | some t => decide (t ≤ s.glideCycles k)
  | none => false

/-- GLIDE_EXTENDED: n cycles have passed and the error is not 0, because the clamp has slowed the glide (R31). -/
def execGlideExtended (k : Nat) (s : State) : Host.Outcome State Fault Refusal :=
  .next (if s.flag F.SEC_REF_STAT_GLIDE k && (s.sec k).clamped && !s.glideEnds k then
      ((s.advanceTo (s.glideCycles k)).setF F.SEC_REF_STAT_EXTENDED k 1).setF F.SEC_ANGLE_EVT_GLIDEEXT k 1
    else s)

/-- CYCLE_WRAP: the cycle count wraps and the angle goes on (R20). A wrap that another command's instant has already passed is
shown now. -/
def execCycleWrap (k : Nat) (s : State) : Host.Outcome State Fault Refusal :=
  .next (if (s.sec k).running then
      let a : Nat := ((s.sec k).wraps + 1) * 2 ^ 48
      (((s.advanceTo ((s.sec k).clockOf ((a : Nat) : Rat))).updSec k (fun x => { x with wraps := x.wraps + 1 })).setF
        F.SEC_ANGLE_EVT_WRAP k 1)
    else s)

/-- A read of SEC_ANGLE_TICK latches the cycle count of the same instant (R21). -/
def execAngleTickRead (k : Nat) (s : State) : Host.Outcome State Fault Refusal :=
  .next (if k < 24 then s.setF F.SEC_ANGLE_CYC_CYCLE k (s.tick k / 65536) else s)

/-- A read of SEC_EPOCH_NUM latches the stamp of the same grid instant (R21). -/
def execEpochNumRead (k : Nat) (s : State) : Host.Outcome State Fault Refusal :=
  .next (if k < 24 then s.setF F.SEC_EPOCH_TS_NS k (s.sec k).stamp else s)

end Sys2Proof.Machine
end

