-- ==== Sys2Proof/Machine/Convert.lean ====
section
/-! DEFINITION. Converters: slot, urgent and open-wire conversions, result queues, references and calibration
(R39 to R63). -/

namespace Sys2Proof.Machine

/-- A conversion time of 200 ns in core clocks. -/
def convClk : Nat := 240

/-- The converter is powered. -/
def State.convOn (s : State) (n : Nat) : Bool := decide (n < 32) && !s.flag F.CV_STAT_PD n

/-- The converter is powered and its section's grid runs. -/
def State.slotsRun (s : State) (n : Nat) : Bool := s.convOn n && (s.sec (s.convSec n)).running

/-- Whole ticks of the section's angle, not reduced. -/
def State.ticks (s : State) (k : Nat) : Nat := (s.theta k).floor.toNat

/-- The core clock of the converter's next slot instant (R22, R41). -/
def State.nextSlotClk (s : State) (n : Nat) : Nat := (s.sec (s.convSec n)).clockOf ((s.conv n).slotTick : Rat)

/-- The next slot instant of input `inp` in ticks. -/
def State.nextSlotOf (s : State) (n inp : Nat) : Option Nat :=
  (s.slotOfInput n inp).map (fun k =>
    let t := (s.conv n).slotTick
    t + (2 * k + 16 - t % 16) % 16)

/-! ## Conversions -/

/-- CV_CONV while a conversion runs (R39). -/
def State.showConv (s : State) (n : Nat) : State :=
  match (s.conv n).cur with
  | some c => (((s.setF F.CV_CONV_BUSY n 1).setF F.CV_CONV_OWT n (b2n c.owt)).setF F.CV_CONV_URG n (b2n c.urg)).setF
      F.CV_CONV_CHSEL n c.inp
  | none => ((s.setF F.CV_CONV_BUSY n 0).setF F.CV_CONV_OWT n 0).setF F.CV_CONV_URG n 0

/-- A conversion starts now, stamped with the angle (R39, R42, R49). -/
def State.startConv (s : State) (n : Nat) (c : Conversion) : State :=
  let c := { c with at_ := s.now, angle := s.ticks (s.convSec n) }
  let s := (s.updConv n (fun x => { x with cur := some c })).showConv n
  if c.urg || c.owt then s
  else
    let late := (s.now - (s.sec (s.convSec n)).clockOf (c.slotAngle : Rat)) * 5 / 6
    s.setF F.CV_SLIP_MAXSLIP n (max (s.getF F.CV_SLIP_MAXSLIP n) (min late 1023))

/-- At least 200 ns remain before the next slot instant (R41). -/
def State.roomForTest (s : State) (n : Nat) : Bool := decide (s.now + convClk ≤ s.nextSlotClk n)

/-- The open-wire state of an input. -/
def State.ow (s : State) (n inp : Nat) : OwSt := (s.conv n).ow.getD inp {}

/-- The test conversion of an attempt that has been abandoned, its currents off (R50, R57). -/
def State.abandoned (s : State) (n : Nat) (c : Conversion) : Bool := c.owt && (s.ow n c.inp).pull.isNone

/-- The slot conversion that waits starts (R41). -/
def State.startWaiting (s : State) (n : Nat) : State :=
  match (s.conv n).waiting with
  | w :: r => (s.updConv n (fun x => { x with waiting := r })).startConv n w
  | [] => s

/-- The state of an input's test changed. -/
def State.updOw (s : State) (n inp : Nat) (f : OwSt → OwSt) : State :=
  s.updConv n (fun x => { x with ow := modAt x.ow inp f })

/-- The open-wire request for `inp` is taken out of the pending urgent request. -/
def ConvSt.unaskTest (x : ConvSt) (inp : Nat) : ConvSt :=
  match x.pendUrg with
  | some (i, l) =>
    if i = inp then
      let l := l.filter (fun r => r != .openWire)
      { x with pendUrg := if l.isEmpty then none else some (i, l) }
    else x
  | none => x

/-- An open-wire attempt in progress is abandoned, its currents off and its urgent request, if one is pending, withdrawn
(R50, R57). -/
def State.dropAttempt (s : State) (n inp : Nat) : State :=
  (s.updOw n inp (fun o => { o with pull := none, due := o.due || o.pull.isSome })).updConv n (fun x => x.unaskTest inp)

/-- 400 ns or less remain before the next slot instant of the input (R55). -/
def State.slotNear (s : State) (n inp : Nat) : Bool :=
  match s.nextSlotOf n inp with
  | some a => decide ((s.sec (s.convSec n)).clockOf (a : Rat) ≤ s.now + 480)
  | none => false

/-- What runs after a completion: the aborted conversion, else the slot conversion that waits (R41, R47); a test restarts before it
(log entry 156). A test that finds no room is tried again, in its attempt while more than 400 ns remain before the next slot
instant of its input, else after that slot conversion (R55). -/
def State.resume (s : State) (n : Nat) : State :=
  let x := s.conv n
  match x.aborted with
  | some a =>
    let s := s.updConv n (fun x => { x with aborted := none })
    if a.owt && (!s.roomForTest n || s.abandoned n a) then
      (if s.slotNear n a.inp then s.dropAttempt n a.inp else s).startWaiting n
    else s.startConv n a
  | none => s.startWaiting n

/-- The pull currents of an input go off where its own slot conversion begins with them on; the attempt is repeated (R55). -/
def State.owOff (s : State) (n inp : Nat) : State :=
  if (s.ow n inp).pull.isSome then s.dropAttempt n inp else s

/-- SLOT_INSTANT: the slot conversion of an enabled position starts, or waits for the conversion that runs (R41). -/
def State.slot (s : State) (n : Nat) : State :=
  let a := (s.conv n).slotTick
  let k := a % 16 / 2
  let s := (s.advanceTo (s.nextSlotClk n)).chainRun n a
  let s := s.updConv n (fun x => { x with slotTick := a + 2 })
  if !s.flag (slotEnF k) n then s
  else
    let c : Conversion := { inp := s.getF (slotChF k) n, slot := k, slotAngle := a }
    let s := s.owOff n c.inp
    match (s.conv n).cur with
    | some _ => s.updConv n (fun x => { x with waiting := x.waiting ++ [c] })
    | none => s.startConv n c

def execSlotInstant (n : Nat) (s : State) : Host.Outcome State Fault Refusal := .next (if s.slotsRun n then s.slot n else s)

/-- The code of R39 and OVR, from the two voltages in nV; halves round up (log entry 30). -/
def convCode (vdiff vref : Int) : Int × Bool :=
  let c := roundQ (131072 * (vdiff : Rat) / vref)
  if c > 131071 then (131071, true) else if c < -131072 then (-131072, true) else (c, false)

/-- The queue entry of R43. -/
def entryWord (c : Conversion) (ovr : Bool) (seq : Nat) (code : Int) : Nat :=
  2 ^ 29 * c.inp + 2 ^ 28 * b2n c.urg + 2 ^ 27 * b2n c.owt + 2 ^ 26 * b2n ovr + 2 ^ 18 * seq + unsext 18 code

/-- Entries in the queue, and CV_QSTAT.FILL and BRIM. -/
def ConvSt.fill (c : ConvSt) : Nat := (c.queue.filter (fun e => !e.dropped)).length
def State.showQueue (s : State) (n : Nat) : State :=
  let f := (s.conv n).fill
  (s.setF F.CV_QSTAT_FILL n f).setF F.CV_QSTAT_BRIM n (max f (s.getF F.CV_QSTAT_BRIM n))

/-- A completed conversion enters the queue with the next SEQ, or is dropped (R43 to R45). REFRDY at the completion says whether it
was made while REFRDY was clear (R52, log entry 132). -/
def State.enterQueue (s : State) (n : Nat) (c : Conversion) (code : Int) (ovr : Bool) : State :=
  let x := s.conv n
  let e : QEnt := { word := entryWord c ovr x.seq code, angle := c.angle, slotAngle := c.slotAngle,
                    refOk := s.flag F.CV_STAT_REFRDY n, pulled := c.pulled }
  let full := 64 ≤ x.fill
  let s := (s.setF F.CV_QSTAT_LASTSEQ n x.seq).updConv n (fun x => { x with seq := (x.seq + 1) % 256 })
  if full then
    let s := (s.incF F.CV_DROPCNT_DROP n).setF F.CV_STAT_DROP n 1
    if c.urg || c.owt then s else s.updConv n (fun x => { x with queue := x.queue ++ [{ e with dropped := true }] })
  else
    ((s.updConv n (fun x => { x with queue := x.queue ++ [e] })).setF F.CV_QLAST_ENTRY n e.word).showQueue n

/-! ## Open-wire tests -/

/-- CV_OWSTAT.FLAG changed, with its record (R57). -/
def State.setOwFlag (s : State) (n inp : Nat) (v : Bool) : State :=
  ((s.setBitF F.CV_OWSTAT_FLAG n inp v).setF F.CV_STAT_OWCHG n 1).event 0x0201 n inp (.sec (s.convSec n)) [b2n v]

/-- A test passes or fails (R56): 10 ms until the next while suspect or flagged, else the configured interval. -/
def State.owResult (s : State) (n inp : Nat) (fail : Bool) : State :=
  let o := s.ow n inp
  let flagged := bitOf (s.getF F.CV_OWSTAT_FLAG n) inp
  let fr := if fail then o.failRun + 1 else 0
  let pr := if fail then 0 else o.passRun + 1
  let s := if fail then s.setBitF F.CV_OWSTAT_SUSPECT n inp true
    else if flagged then s else s.setBitF F.CV_OWSTAT_SUSPECT n inp false
  let s := if fail && !flagged && decide (3 ≤ fr) then s.setOwFlag n inp true
    else if !fail && flagged && decide (3 ≤ pr) then s.setOwFlag n inp false else s
  let fast := bitOf (s.getF F.CV_OWSTAT_FLAG n) inp || bitOf (s.getF F.CV_OWSTAT_SUSPECT n) inp
  let next := s.now + (if fast then 10 * msClk else s.getF F.CV_OWCFG_INTERVAL n * 100 * msClk)
  s.updOw n inp (fun o =>
    { o with failRun := fr, passRun := pr, attempts := 0, due := false, pull := none, nextAt := next })

/-- A test conversion completes: its currents go off and it is judged, unless REFRDY was clear at its completion or at that of the
reference code's conversion (R52, R55). A result whose queue entry is dropped is still judged (log entry 132). -/
def State.owComplete (s : State) (n : Nat) (c : Conversion) (code : Int) (ovr : Bool) : State :=
  let s := s.incF F.CV_OWCNT_TESTS n
  let s := if c.urg then s.incF F.CV_OWCNT_URGTESTS n else s
  match (s.ow n c.inp).pull with
  | none => s
  | some (_, ref) =>
    if !s.flag F.CV_STAT_REFRDY n || !(s.ow n c.inp).refOk then s.updOw n c.inp (fun o => { o with pull := none, due := true })
    else s.owResult n c.inp (ovr || decide ((s.getF F.CV_OWCFG_THRESH n : Int) ≤ |code - ref|))

/-- An engine's urgent request for the input is pending. -/
def ConvSt.engineAsks (x : ConvSt) (inp : Nat) : Bool :=
  match x.pendUrg with | some (i, l) => i == inp && l.any (fun r => r != .openWire) | none => false

/-- A slot conversion completes on an input whose attempt is due: its currents go on, its code is the reference (R55). They stay
off while an engine's request for the input is pending (R50, log entry 132). -/
def State.owPull (s : State) (n inp : Nat) (code : Int) : State :=
  if (s.ow n inp).due && !(s.conv n).underCal inp && !(s.conv n).engineAsks inp then
    s.updOw n inp (fun o => { o with due := false, pull := some (s.now, code), refOk := s.flag F.CV_STAT_REFRDY n })
  else s

/-! ## Calibration averaging -/

/-- A session ends with a result code (R59, R60). -/
def State.calEnd (s : State) (n r : Nat) : State :=
  (((s.setF F.CV_CALSTAT_RESULT n r).setF F.CV_CALSTAT_STATE n 0).setF F.CV_STAT_CALDONE n 1).updConv n
    (fun x => { x with cal := none })

/-- A slot conversion of the input under calibration is averaged (R61). -/
def CalSt.add (c : CalSt) (code : Int) (ovr : Bool) : CalSt :=
  if c.count < 4096 ∧ !c.waitErase then { c with sum := c.sum + code, count := c.count + 1, ovr := c.ovr || ovr } else c

/-- A slot conversion of the session's input, made with REFRDY set (R52), one that ran when the command was accepted included
(log entry 133). -/
def State.calAverage (s : State) (n inp : Nat) (code : Int) (ovr : Bool) : State :=
  let st := s.getF F.CV_CALSTAT_STATE n
  if !s.flag F.CV_STAT_REFRDY n then s
  else s.updConv n (fun x => match x.cal with
    | some c => if c.inp == inp && (st == 1 || (st == 3 && c.newCoef.isNone)) then { x with cal := some (c.add code ovr) } else x
    | none => x)

/-- CONVERSION_COMPLETE: 200 ns after its start the running conversion completes (R44). -/
def State.complete (s : State) (n : Nat) (c : Conversion) (vdiff vref : Int) : State :=
  let s := s.advanceTo (c.at_ + convClk)
  let (code, ovr) := convCode vdiff vref
  let grp := n / 8 * 8
  let s := (List.range 8).foldl (fun s i => s.setF F.CV_REF_VMON (grp + i) (vref / 1000000).toNat) s
  let s := s.enterQueue n c code ovr
  let s := if c.owt then s.owComplete n c code ovr
    else if c.urg then s
    else (s.owPull n c.inp code).calAverage n c.inp code ovr
  ((s.updConv n (fun x => { x with cur := none, urgBy := [] })).showConv n).resume n

def execConversionComplete (n : Nat) (vdiff vref : Int) (s : State) : Host.Outcome State Fault Refusal :=
  .next (match (s.conv n).cur with
    | some c => s.complete n c vdiff vref
    | none => s)

/-! ## Transfers -/

/-- The quality that a conversion gives its result (R52, R59); test stays with the conversions of a session that ends without storage
(log entry 155). -/
def State.entryQual (s : State) (n inp : Nat) (e : QEnt) : Quality :=
  (Quality.when (!e.refOk) Quality.bad).join (Quality.when ((s.conv n).underCal inp) Quality.testQ)

/-- An entry goes to the consumer of its kind (R43, R44). -/
def State.consume (s : State) (n : Nat) (e : QEnt) : State :=
  let inp := fieldOf e.word 29 3
  let ovr := bitOf e.word 26
  let code := sext 18 e.word
  if e.dropped then s.chainHold n inp e.slotAngle (s.entryQual n inp e) ovr
  else if bitOf e.word 27 then s
  else if bitOf e.word 28 then
    let q := (s.entryQual n inp e).join (Quality.when e.pulled Quality.quest)
    s.updSec (s.convSec n) (fun x => { x with toIngress := x.toIngress ++ [.urgent n inp code ovr e.angle q] })
  else s.chainTake n inp e.slotAngle code (s.entryQual n inp e) ovr

/-- The head of the queue, with the reports of dropped entries behind it, leaves (R44, R45). -/
def State.transfer (s : State) (n : Nat) : State :=
  match (s.conv n).queue with
  | [] => s
  | e :: r =>
    let gone := r.takeWhile (fun d => d.dropped)
    let s := s.updConv n (fun x => { x with queue := r.dropWhile (fun d => d.dropped) })
    ((e :: gone).foldl (fun s d => s.consume n d) s).showQueue n

def execQueueEntryTransfer (n : Nat) (s : State) : Host.Outcome State Fault Refusal := .next (s.transfer n)

/-! ## Urgent conversions -/

/-- The plies of an engine that wait for an urgent conversion of a channel not yet taken by its converter; or, of a request
displaced again, all that wait. -/
def Ply.waitsUrgent (p : Ply) (e f ch : Nat) (displaced : Bool) : Bool :=
  p.engine == e && p.urgent &&
    p.deps.any (fun d => d.feeder == f && d.ch == ch && d.urgent && (displaced || !d.asked))

/-- A refused request is returned: the plies of the engine that made it are squashed, LATE (R48, R198). -/
def State.urgRefuse (s : State) (n inp : Nat) (displaced : Bool) (by_ : Requester) : State :=
  let s := (s.setF F.CV_STAT_URGREF n 1).incF F.CV_URGREF_REFUSED n
  match by_, s.img.inputOf (8 * n + inp) with
  | .engine e, some (f, ch) => s.squashAll .other (fun p => p.waitsUrgent e f ch displaced)
  | _, _ => s

/-- A request has been taken: the plies of its engine that wait for the channel have been asked for (R200). -/
def State.urgTaken (s : State) (n inp : Nat) (by_ : Requester) : State :=
  match by_, s.img.inputOf (8 * n + inp) with
  | .engine e, some (f, ch) =>
    { s with plies := s.plies.map (fun (p : Nat × Ply) => if p.2.waitsUrgent e f ch false then
        (p.1, { p.2 with deps := p.2.deps.map (fun (d : Dep) =>
          if d.feeder = f ∧ d.ch = ch then { d with asked := true } else d) }) else p) }
  | _, _ => s

/-- An urgent conversion starts; the conversion that runs is aborted (R47, R49). -/
def State.startUrgent (s : State) (n inp : Nat) (by_ : List Requester) : State :=
  let s := match (s.conv n).cur with
    | some c => (s.incF F.CV_URGCNT_ABORT n).updConv n (fun x => { x with
        aborted := if s.abandoned n c then none else some c })
    | none => s
  let p := (s.conv n).pulledUrg
  let s := (s.incF F.CV_URGCNT_URG n).updConv n (fun x => { x with
    lastUrg := some s.now, urgBy := by_, pendUrg := none, pulledUrg := false })
  s.startConv n { inp := inp, urg := true, owt := by_.all (fun r => r == .openWire), pulled := p }

/-- R50: an engine's request for an input whose currents are on switches them off and abandons the attempt. -/
def State.urgPull (s : State) (n inp : Nat) (by_ : Requester) : State :=
  match by_, (s.ow n inp).pull with
  | .engine _, some _ => (s.dropAttempt n inp).updConv n (fun x => { x with pulledUrg := true })
  | _, _ => s

/-- 4 µs have passed since the previous urgent start (R48). -/
def State.urgFree (s : State) (n : Nat) : Bool :=
  match (s.conv n).lastUrg with
  | some t => decide (t + 4 * usClk ≤ s.now)
  | none => true

/-- Engine requests come before open-wire requests, and the lowest-numbered engine first (R48). -/
def requesterBefore : Requester → Requester → Bool
  | .engine a, .engine b => decide (a < b)
  | .engine _, .openWire => true
  | .openWire, _ => false

/-- The requests of this same core clock, where one was taken with none pending (R48). -/
def State.tookNow (s : State) (n : Nat) : Option UrgClk :=
  (s.conv n).took.bind (fun p => if p.at_ = s.now then some p else none)

/-- What the request of this core clock holds: the input and requesters of the pending request, or of the urgent conversion that
has started on this clock. -/
def State.urgHeld (s : State) (n : Nat) : Option (Nat × List Requester) :=
  match (s.conv n).pendUrg with
  | some p => some p
  | none => match s.tookNow n, (s.conv n).cur with
    | some _, some c => if c.urg then some (c.inp, (s.conv n).urgBy) else none
    | _, _ => none

/-- The input and requesters of the held request change: of the pending one, or of the conversion just started (R48), which keeps the
mark of R50 where its input stays. -/
def State.setUrgHeld (s : State) (n inp : Nat) (l : List Requester) (pending : Bool) : State :=
  if pending then s.updConv n (fun x => { x with pendUrg := some (inp, l) })
  else (s.updConv n (fun x => { x with
      urgBy := l, pulledUrg := false
      cur := x.cur.map (fun (c : Conversion) =>
        { c with inp := inp, owt := l.all (fun r => r == .openWire), pulled := x.pulledUrg || (c.pulled && c.inp == inp) }) })).showConv n

/-- The requester comes first among those of this core clock that are taken, or leaves the first as it is (R48). -/
def UrgClk.lead (x : UrgClk) (by_ : Requester) : UrgClk := if requesterBefore by_ x.first then { x with first := by_ } else x

/-- A request for the input of the held one merges with it. -/
def State.urgMerge (s : State) (n inp : Nat) (l : List Requester) (by_ : Requester) : State :=
  ((((s.incF F.CV_URGREF_MERGED n).urgPull n inp by_).setUrgHeld n inp
    ((if (s.ow n inp).pull.isSome && by_ != .openWire then l.filter (fun r => r != .openWire) else l) ++ [by_])
    (s.conv n).pendUrg.isSome).updConv n (fun x => { x with took := x.took.map (fun y => y.lead by_) })).urgTaken n inp by_

/-- A request refused on the core clock of the held one, with the plies that its refusal squashes. -/
def State.refusal (s : State) (n inp : Nat) (displaced : Bool) (by_ : Requester) : UrgRefusal :=
  let hit : List (Nat × Ply) := match by_, s.img.inputOf (8 * n + inp) with
    | .engine e, some (f, ch) => s.plies.filter (fun p => p.2.waitsUrgent e f ch displaced)
    | _, _ => []
  { by_ := by_, inp := inp
    plies := hit.map (fun p => (p.1, p.2, s.lanes.flatMap (fun (l : Nat × LaneSt) =>
      (l.2.gates.filter (fun g => !g.open_ && g.ply == p.1)).map (fun g => (l.1, g))))) }

/-- A request is refused, and the refusal noted with those of its core clock. -/
def State.urgRefuseNow (s : State) (n inp : Nat) (displaced : Bool) (by_ : Requester) : State :=
  (s.urgRefuse n inp displaced by_).updConv n (fun x => { x with took := x.took.map (fun y =>
    { y with refused := y.refused ++ [s.refusal n inp displaced by_] }) })

/-- A ply that a refusal of this core clock squashed stands again, its gates with it. -/
def State.unsquash (s : State) (x : Nat × Ply × List (Nat × Gate)) : State :=
  let (id, p, gs) := x
  if (Tab.find s.plies id).isSome then s
  else
    let s := (s.setF F.PE_SQCNT_OTHER p.engine (s.getF F.PE_SQCNT_OTHER p.engine - 1))
    let s := gs.foldl (fun s g => s.updLane g.1 (fun l => { l with gates := l.gates ++ [g.2] })) { s with plies := Tab.set s.plies id p }
    (s.syncPlies p.engine).syncGates (p.engine / 8)

/-- A request refused earlier on this core clock merges after all: the request now held is for its input (R48). -/
def State.unrefuse (s : State) (n : Nat) (r : UrgRefusal) : State :=
  let s := (s.setF F.CV_URGREF_REFUSED n (s.getF F.CV_URGREF_REFUSED n - 1)).incF F.CV_URGREF_MERGED n
  (r.plies.foldl (fun s x => s.unsquash x) s).urgTaken n r.inp r.by_

/-- A request for another input takes the place of one that reached the converter on the same core clock and comes after it; the
displaced ones are refused, the merged among them no longer counted as merged, and earlier refused requests for its input merge
(R48). -/
def State.urgDisplace (s : State) (n inp i : Nat) (l : List Requester) (x : UrgClk) (by_ : Requester) : State :=
  let pending := (s.conv n).pendUrg.isSome
  let (back, still) := x.refused.partition (fun r => r.inp == inp)
  let s := (s.setF F.CV_URGREF_MERGED n (s.getF F.CV_URGREF_MERGED n - (l.length - 1))).updConv n (fun c => { c with pulledUrg := false })
  let s := (by_ :: back.map (fun r => r.by_)).foldl (fun s r => s.urgPull n inp r) s
  let s := (s.setUrgHeld n inp (by_ :: back.map (fun r => r.by_)) pending).updConv n (fun c =>
    { c with took := some { at_ := s.now, first := by_, refused := still } })
  back.foldl (fun s r => s.unrefuse n r) ((l.foldl (fun s r => s.urgRefuseNow n i true r) s).urgTaken n inp by_)

/-- An urgent request reaches a converter (R48). -/
def State.urgent (s : State) (n inp : Nat) (by_ : Requester) : State :=
  if !decide (n < 32) then s
  else if (s.slotOfInput n inp).isNone || !s.slotsRun n then s.urgRefuse n inp false by_
  else match s.urgHeld n with
    | some (i, l) =>
      if i = inp then s.urgMerge n inp l by_
      else match s.tookNow n with
        | some x => if requesterBefore by_ x.first then s.urgDisplace n inp i l x by_ else s.urgRefuseNow n inp false by_
        | none => s.urgRefuse n inp false by_
    | none =>
      let free := s.urgFree n
      let s := (s.urgPull n inp by_).updConv n (fun x => { x with took := some { at_ := s.now, first := by_ } })
      (if free then s.startUrgent n inp [by_]
        else (s.incF F.CV_URGREF_DEFERRED n).updConv n (fun x => { x with pendUrg := some (inp, [by_]) })).urgTaken n inp by_

def execUrgentRequest (n inp : Nat) (by_ : Requester) (s : State) : Host.Outcome State Fault Refusal := .next (s.urgent n inp by_)

/-- DEFERRED_URGENT_START: 4 µs after the previous urgent start (R48). -/
def execDeferredUrgentStart (n : Nat) (s : State) : Host.Outcome State Fault Refusal :=
  .next (match (s.conv n).pendUrg, (s.conv n).lastUrg with
    | some (inp, l), some t => (s.advanceTo (t + 4 * usClk)).startUrgent n inp l
    | _, _ => s)

/-! ## Open-wire scheduling -/

/-- OPEN_WIRE_INTERVAL: the interval of an input with its test enabled passes; an attempt is due (R54 to R57). -/
def execOpenWireInterval (n inp : Nat) (s : State) : Host.Outcome State Fault Refusal :=
  .next (if s.slotsRun n && decide (inp < 8) && bitOf (s.getF F.CV_CFG_OWEN n) inp && !(s.ow n inp).due &&
      (s.ow n inp).pull.isNone && !(s.conv n).underCal inp then
    (s.advanceTo (s.ow n inp).nextAt).updOw n inp (fun o => { o with due := true, attempts := 0 })
    else s)

/-- The test conversion starts, 1,500 ns or more after the currents went on: when the converter is idle with 200 ns
left, or as an urgent request after 8 attempts without a start (R41, R55). -/
def State.owStart (s : State) (n inp t : Nat) : State :=
  let s := s.advanceTo (t + 1800)
  if 8 ≤ (s.ow n inp).attempts then s.urgent n inp .openWire
  else if (s.conv n).cur.isNone && s.roomForTest n then s.startConv n { inp := inp, owt := true }
  else s

/-- A test conversion of the input has started: it runs, or has been aborted and waits. -/
def ConvSt.started (x : ConvSt) (inp : Nat) : Bool :=
  (match x.cur with | some c => c.owt && c.inp == inp | none => false) ||
  (match x.aborted with | some c => c.owt && c.inp == inp | none => false)

/-- A test conversion of the input has started or is asked for as urgent. -/
def ConvSt.testing (x : ConvSt) (inp : Nat) : Bool :=
  x.started inp || (match x.pendUrg with | some (i, l) => i == inp && l.contains .openWire | none => false)

def execOpenWireTestStart (n inp : Nat) (s : State) : Host.Outcome State Fault Refusal :=
  .next (match (s.ow n inp).pull with
    | some (t, _) => if (s.conv n).testing inp then s else s.owStart n inp t
    | none => s)

/-- OPEN_WIRE_ATTEMPT_TIMEOUT: 400 ns before the input's next slot instant with no start the currents go off, and an urgent
request still pending is withdrawn (R55). -/
def execOpenWireAttemptTimeout (n inp : Nat) (s : State) : Host.Outcome State Fault Refusal :=
  .next (match (s.ow n inp).pull, s.nextSlotOf n inp with
    | some _, some a =>
      if (s.conv n).started inp then s
      else ((s.advanceTo ((s.sec (s.convSec n)).clockOf (a : Rat) - 480)).dropAttempt n inp).updOw n inp
        (fun o => { o with attempts := o.attempts + 1 })
    | _, _ => s)

/-! ## References -/

/-- `f` on every converter of a group (R12). -/
def State.forGroup (s : State) (g : Nat) (f : State → Nat → State) : State :=
  (List.range 8).foldl (fun s i => f s (8 * g + i)) s

/-- The source that an image gives a group: that of the lowest of its converters in use, where their blocks disagree
(R12, R51; log entry 134). -/
def Image.groupSource (m : Image) (g : Nat) : RefSource :=
  (((List.range 8).findSome? (fun i => if (m.assignedOf (8 * g + i)).isEmpty then none else m.conv (8 * g + i))).map
    (fun c => c.ref)).getD .internal

def State.groupSource (s : State) (g : Nat) : RefSource := s.img.groupSource g

/-- The group's source is within its range. -/
def State.refInRange (s : State) (g : Nat) : Bool := !(s.ref g).out.contains (s.groupSource g)

/-- Settling time of a source in core clocks (R51). -/
def RefSource.settle : RefSource → Nat
  | .internal => 2 * msClk
  | .external => 600000
  | .supply => 0

/-- The measured reference voltage of a group, which nothing in the device fixes: a free value (log entry 1). -/
def State.measureRef (s : State) (g : Nat) : State :=
  let (v, s) := s.fresh 16
  s.forGroup g (fun s n => s.setF F.CV_REF_VMON n v)

/-- REFRDY of a group clears and averaging in it ends with NOREF (R52, R60). -/
def State.refLose (s : State) (g : Nat) : State :=
  s.forGroup g (fun s n =>
    let s := s.setF F.CV_STAT_REFRDY n 0
    let st := s.getF F.CV_CALSTAT_STATE n
    let averaging := match (s.conv n).cal with | some c => c.newCoef.isNone | none => false
    if st == 1 || (st == 3 && averaging) then s.calEnd n 3 else s)

/-- REFERENCE_OUT_OF_RANGE: a source leaves its range; of a powered group's own source REFRDY clears and REFLOSS sets (R52). -/
def State.refOut (s : State) (g : Nat) (src : RefSource) : State :=
  let mine := (s.ref g).powered && decide (s.groupSource g = src)
  let s := s.updRef g (fun r => { r with out := src :: r.out })
  if mine then ((s.measureRef g).refLose g).forGroup g (fun s n => s.setF F.CV_STAT_REFLOSS n 1) else s

def execReferenceOutOfRange (r : GroupRef) (s : State) : Host.Outcome State Fault Refusal :=
  .next (if (s.ref r.grp).out.contains r.src then s else s.refOut r.grp r.src)

/-- A source's settling time begins (R51). -/
def State.settleRef (s : State) (g : Nat) : State := s.updRef g (fun r => { r with settleAt := s.now })

/-- REFERENCE_RETURN: a source that had left its range returns; that of a powered group settles (R51). -/
def State.refBack (s : State) (g : Nat) (src : RefSource) : State :=
  let mine := (s.ref g).powered && decide (s.groupSource g = src)
  let s := s.updRef g (fun r => { r with out := r.out.filter (fun x => x != src) })
  if mine then (s.settleRef g).measureRef g else s

def execReferenceReturn (r : GroupRef) (s : State) : Host.Outcome State Fault Refusal :=
  .next (if (s.ref r.grp).out.contains r.src then s.refBack r.grp r.src else s)

/-- REFRDY_SET: the settling time has passed in range; RATIO shows the supply source (R51). -/
def execRefrdySet (g : Nat) (s : State) : Host.Outcome State Fault Refusal :=
  .next (if (s.ref g).powered && s.refInRange g then
      (s.advanceTo ((s.ref g).settleAt + (s.groupSource g).settle)).forGroup g (fun s n =>
        (s.setF F.CV_STAT_REFRDY n 1).setF F.CV_STAT_RATIO n (b2n (decide (s.groupSource g = .supply))))
    else s)

/-! ## The calibration area (R336) -/

/-- The spare and current sectors of a pair: a sector is valid by its commit byte and CRC. -/
def State.calValid (s : State) (sector : Nat) : Bool :=
  let a := 4096 * sector
  s.evRead (a + 4095) 1 == [0xA5] &&
    leNat (s.evRead (a + 4036) 4) == crcOf crc32c (s.evRead a 2048 ++ s.evRead (a + 4032) 4)

def State.calGen (s : State) (sector : Nat) : Nat := leNat (s.evRead (4096 * sector + 4032) 4)

/-- The current sector of pair `q`, if one is valid. -/
def State.calCurrent (s : State) (q : Nat) : Option Nat :=
  let a := 1 + 2 * q
  match s.calValid a, s.calValid (a + 1) with
  | true, true => some (if s.calGen a < s.calGen (a + 1) then a + 1 else a)
  | true, false => some a
  | false, true => some (a + 1)
  | false, false => none

/-- The entry of an input (R62). -/
def calEntry (ain : Nat) (off : Int) (gain time pcc : Nat) : List Nat :=
  let b := le2 ain ++ [0, 0] ++ le4 (unsext 32 off) ++ le4 gain ++ leBytes 6 time ++ le4 pcc ++ List.replicate 6 0
  b ++ le4 (crcOf crc32c b)

/-- The coefficients that the calibration area holds for an input (R63); none where the memory failed its discovery (R431). -/
def State.calLoad (s : State) (ain : Nat) : Option (Int × Nat) :=
  if !s.log.present then none
  else (s.calCurrent (ain / 64)).bind (fun sector =>
    let b := s.evRead (4096 * sector + 32 * (ain % 64)) 32
    if leNat (b.take 2) = ain ∧ leNat (b.drop 28) = crcOf crc32c (b.take 28) then
      some (sext 32 (leNat ((b.drop 4).take 4)), leNat ((b.drop 8).take 4))
    else none)

/-- A sector is valid and holds an entry (R336). -/
def State.calHolds (s : State) (sector ain : Nat) (entry : List Nat) : Bool :=
  s.calValid sector && s.evRead (4096 * sector + 32 * (ain % 64)) 32 == entry

/-- The spare sector of a pair (R336); of a pair without a current sector the first one. -/
def State.calSpare (s : State) (q : Nat) : Nat :=
  match s.calCurrent q with
  | some c => 2 * (1 + 2 * q) + 1 - c
  | none => 1 + 2 * q

/-- The spare sector of the pair is erased. -/
def State.calReady (s : State) (q : Nat) : Bool :=
  let a := 4096 * s.calSpare q
  !s.log.calErasing.contains q && s.evNvm.all (fun c => decide (c.1 < a) || decide (a + 4096 ≤ c.1))

/-- The bytes that a storage programs: the entries with the new one, then generation and CRC (R336). -/
def State.calImage (s : State) (ain : Nat) (entry : List Nat) : List Nat × List Nat :=
  let q := ain / 64
  let (old, gen) := match s.calCurrent q with
    | some c => (s.evRead (4096 * c) 2048, s.calGen c + 1)
    | none => (List.replicate 2048 0xFF, 1)
  let body := old.take (32 * (ain % 64)) ++ entry ++ old.drop (32 * (ain % 64) + 32)
  (body, le4 gen ++ le4 (crcOf crc32c (body ++ le4 gen)))

/-- The erase of the pair's spare sector begins. -/
def State.calErase (s : State) (q : Nat) : State :=
  s.updLog (fun l => { l with calErasing := l.calErasing.filter (fun x => x != q) ++ [q] })

/-- An entry stored: the current sector's entries with the new one, into the spare; the old sector is then erased
(R336). A storage comes here once the spare is erased (log entry 157). -/
def State.calStore (s : State) (ain : Nat) (entry : List Nat) : State :=
  let (body, tail) := s.calImage ain entry
  let a := 4096 * s.calSpare (ain / 64)
  let t := ((s.evProgram a body).evProgram (a + 4032) tail).evProgram (a + 4095) [0xA5]
  match s.calCurrent (ain / 64) with
  | some _ => t.calErase (ain / 64)
  | none => t

/-- A storage that fails before its commit byte: the bytes that it worked on are free values within what a program can leave, and the
spare is erased again (log entry 157). -/
def State.calTorn (s : State) (ain : Nat) (entry : List Nat) : State :=
  let (body, tail) := s.calImage ain entry
  let a := 4096 * s.calSpare (ain / 64)
  let torn (l x : List Nat) : List Nat := (l.zip x).map (fun p => p.1 ||| p.2)
  let (x, s) := s.fresh (8 * 2048)
  let (y, s) := s.fresh (8 * 8)
  ((s.evProgram a (torn body (leBytes 2048 x))).evProgram (a + 4032) (torn tail (leBytes 8 y))).calErase (ain / 64)

/-- CALIBRATION_ERASE_COMPLETE: the spare sector of a pair is erased; an averaging that waits for it starts (R336). -/
def execCalibrationEraseComplete (q : Nat) (s : State) : Host.Outcome State Fault Refusal :=
  .next (if !s.log.calErasing.contains q then s else
    let s := (s.evErase (s.calSpare q)).updLog (fun l => { l with calErasing := l.calErasing.filter (fun x => x != q) })
    { s with convs := s.convs.map (fun p => (p.1, { p.2 with cal := p.2.cal.map (fun (c : CalSt) =>
        if (8 * p.1 + c.inp) / 64 = q then { c with waitErase := false } else c) })) })

/-! ## Calibration commands -/

/-- The input is assigned to a feeder channel. -/
def State.inUse (s : State) (n inp : Nat) : Bool := bitOf (s.getF F.CV_CFG_INUSE n) inp

/-- A command refused or rejected without a session's end. -/
def State.calRefuse (s : State) (n r : Nat) : State := s.setF F.CV_CALSTAT_RESULT n r

/-- BUSY: a session on another input, or averaging running (R60). -/
def State.calBusy (s : State) (n inp : Nat) : Bool :=
  (match (s.conv n).cal with | some c => c.inp != inp | none => false) ||
    s.getF F.CV_CALSTAT_STATE n == 1 || s.getF F.CV_CALSTAT_STATE n == 3

/-- The refusals that both points share, in the order of their names UNUSED, BUSY, NOREF, OWIRE (log entry 31). -/
def State.calRefusal (s : State) (n inp : Nat) : Option Nat :=
  if !s.inUse n inp then some 12
  else if s.calBusy n inp then some 2
  else if !s.flag F.CV_STAT_REFRDY n then some 3
  else if bitOf (s.getF F.CV_OWSTAT_FLAG n) inp then some 4
  else none

/-- CAL_ZERO (R59); open-wire tests of the input are suspended (R57). -/
def State.calZero (s : State) (n inp : Nat) : State :=
  if !decide (n < 32) then s else
  match s.calRefusal n inp with
  | some r => s.calRefuse n r
  | none =>
    (((s.setF F.CV_CALSTAT_STATE n 1).setF F.CV_CALSTAT_CH n inp).setF F.CV_CALSTAT_RESULT n 0).updConv n
      (fun x => { x with cal := some { inp := inp, lastAt := s.now } }) |>.dropAttempt n inp

/-- CAL_FULL (R59, R60): NOZERO and a CV_CALVAL out of range end an open session. -/
def State.calFull (s : State) (n inp : Nat) : State :=
  if !decide (n < 32) then s else
  match s.calRefusal n inp with
  | some r => s.calRefuse n r
  | none => match (s.conv n).cal with
    | none => s.calRefuse n 5
    | some c =>
      let v := s.getF F.CV_CALVAL_EXPECT n
      if c.zero.isNone then s.calEnd n 5
      else if v < 32768 ∨ 131071 < v then s.calEnd n 6
      else
        let wait := !s.calReady ((8 * n + inp) / 64)
        let s := s.onlyIf wait (fun s => s.calErase ((8 * n + inp) / 64))
        ((s.setF F.CV_CALSTAT_STATE n 3).setF F.CV_CALSTAT_RESULT n 0).updConv n (fun x => { x with
          cal := some { c with lastAt := s.now, sum := 0, count := 0, ovr := false, newCoef := none, waitErase := wait } })

/-- CAL_ABORT: the session of the input ends (R59, R60); with no session open nothing changes (log entry 133). -/
def State.calAbort (s : State) (n inp : Nat) : State :=
  if !decide (n < 32) then s
  else if !s.inUse n inp then s.calRefuse n 12
  else match (s.conv n).cal with
    | some c => if c.inp = inp then s.calEnd n 11 else s.calRefuse n 2
    | none => s

def execCalZero (n inp : Nat) (s : State) : Host.Outcome State Fault Refusal := .next (s.calZero n inp)
def execCalFull (n inp : Nat) (s : State) : Host.Outcome State Fault Refusal := .next (s.calFull n inp)
def execCalAbort (n inp : Nat) (s : State) : Host.Outcome State Fault Refusal := .next (s.calAbort n inp)

/-- The zero point accepted or rejected (R60, R61). -/
def State.zeroDone (s : State) (n : Nat) (c : CalSt) (mean : Rat) : State :=
  if c.ovr then s.calEnd n 6
  else if mean < -4096 ∨ 4096 < mean then s.calEnd n 7
  else ((s.setF F.CV_CALSTAT_STATE n 2).setF F.CV_CALSTAT_RESULT n 1).updConv n
    (fun x => { x with cal := some { c with zero := some mean, count := 0, sum := 0 } })

/-- The full point accepted for storage, or rejected (R60, R61), with CV_CALVAL as it stands at the end of averaging (log entry
133). -/
def State.fullDone (s : State) (n : Nat) (c : CalSt) (zero mean : Rat) : State :=
  let gain := (s.getF F.CV_CALVAL_EXPECT n : Rat) / (mean - zero)
  if c.ovr then s.calEnd n 6
  else if mean = zero ∨ gain < 9 / 10 ∨ 11 / 10 < gain then s.calEnd n 8
  else s.updConv n (fun x => { x with
    cal := some { c with newCoef := some (roundQ (zero * 16), (roundQ (gain * 2 ^ 30)).toNat) } })

/-- CAL_AVERAGING_DONE: 4,096 slot conversions have been averaged. -/
def execCalAveragingDone (n : Nat) (s : State) : Host.Outcome State Fault Refusal :=
  .next (match (s.conv n).cal with
    | some c =>
      if c.count < 4096 ∨ c.newCoef.isSome then s
      else
        let mean := (c.sum : Rat) / 4096
        match s.getF F.CV_CALSTAT_STATE n, c.zero with
        | 1, _ => s.zeroDone n c mean
        | 3, some z => s.fullDone n c z mean
        | _, _ => s
    | none => s)

/-- The storage of the coefficients ends: `ok` says that the NVM reports no failure, and the entry is read back (R61, R62). A storage
that falls due while the pair's spare is being erased waits for it (log entry 157). -/
def State.calStored (s : State) (n : Nat) (c : CalSt) (off : Int) (gain : Nat) (ok : Bool) : State :=
  let ain := 8 * n + c.inp
  let entry := calEntry ain off gain (s.opTime % 2 ^ 48) (s.getF F.EL_PWRCNT_PCC)
  if !s.log.present then s.calEnd n 9
  else if s.log.calErasing.contains (ain / 64) then s
  else if !ok then (s.calTorn ain entry).calEnd n 9
  else
    let t := s.calStore ain entry
    if !t.calHolds (s.calSpare (ain / 64)) ain entry then (t.calErase (ain / 64)).calEnd n 9
    else
      let s := t.calEnd n 1
      let s := (s.setBitF F.CV_CALSTAT_UNCAL n c.inp false).updConv n (fun x => { x with newCoef := some (c.inp, off, gain) })
      s.event 0x0202 n c.inp (.sec (s.convSec n)) (le4 (unsext 32 off) ++ le4 gain)

def execCalStoreComplete (n : Nat) (ok : Bool) (s : State) : Host.Outcome State Fault Refusal :=
  .next (match (s.conv n).cal with
    | some c => match c.newCoef with
      | some (off, gain) => s.calStored n c off gain ok
      | none => s
    | none => s)

/-- CAL_SESSION_TIMEOUT: 600 s after the session's last accepted command (R59). -/
def execCalSessionTimeout (n : Nat) (s : State) : Host.Outcome State Fault Refusal :=
  .next (match (s.conv n).cal with
    | some c => (s.advanceTo (c.lastAt + 600000 * msClk)).calEnd n 10
    | none => s)

/-- New coefficients apply from a grid instant of the section (R61). -/
def State.applyCoef (s : State) (n : Nat) : State :=
  match (s.conv n).newCoef with
  | some (inp, off, gain) =>
    ((s.setF F.CV_OFF_OFF n (unsext 32 off) inp).setF F.CV_GAIN_GAIN n gain inp).updConv n (fun x => { x with newCoef := none })
  | none => s

end Sys2Proof.Machine
end

