-- ==== Sys2Proof/Machine/Elements.lean ====
section
/-! DEFINITION. The framework of the element library: starts, definite and inverse timers, quality and blocking
(R103, R104, R110 to R118), and the current elements (R119 to R132). Quantities carry a band, of width 0 in the normal
evaluation (R190). -/

namespace Sys2Proof.Machine

/-! ## What an evaluation reads -/

/-- An evaluation of a feeder in an epoch: settings, measurement, missing channels, signals read, the epoch's duration,
number, core clock, the present core clock, and the instances as evaluated so far. -/
structure EvCtx where
  c : FeederCfg
  m : Meas
  wins : List (List Smp)
  miss : List Bool
  reads : Tab Entry
  dt : Rat
  /-- The duration by which reset times and disk emulation advance: the epoch's, in a ply its other bound (R190, R191). -/
  dtOff : Rat := dt
  e : Nat
  at_ : Nat
  /-- Shortest and longest seconds from `at_` to the epoch's sample instant, which a ply does not know yet (R190). -/
  slack : Rat × Rat := (0, 0)
  /-- 1, in the favourable run of a ply -1 (R190, R191). -/
  sgn : Rat := 1
  now : Nat
  elems : Tab ElemSt
  /-- The one alternative of a breaker-failure current check that a ply takes: phase 0 to 2, 3 the residual (R191). -/
  only : Option Nat := none
  /-- Radii of the samples of the windows, newest first; none but for a ply (R190). -/
  rads : List (List Rat) := []

/-- A magnitude at the bound that is unfavourable for a comparison from above, and from below. -/
structure Mag where
  lo : Rat
  hi : Rat

/-- A phasor over √2 within a disc of radius `r` in RMS units (R190). -/
structure Disc where
  y : C
  r : Rat

def Disc.mag (d : Disc) : Mag := ⟨maxQ 0 (Sys2Proof.Machine.mag d.y - d.r), maxQ 0 (Sys2Proof.Machine.mag d.y + d.r)⟩
def Disc.add (a b : Disc) : Disc := ⟨a.y.add b.y, a.r + b.r⟩
def Disc.sub (a b : Disc) : Disc := ⟨a.y.sub b.y, a.r + b.r⟩
def Disc.neg (a : Disc) : Disc := ⟨a.y.neg, a.r⟩
def Disc.mulUnit (a : Disc) (u : C) : Disc := ⟨a.y.mul u, a.r⟩

/-- Full-cycle, half-cycle and second-harmonic phasor of a channel; its RMS. -/
def EvCtx.full (x : EvCtx) (n : Nat) : Disc := ⟨x.m.y1 n, x.m.rFull.getD n 0⟩
def EvCtx.half (x : EvCtx) (n : Nat) : Disc := ⟨x.m.h1 n, x.m.rHalf.getD n 0⟩
def EvCtx.second (x : EvCtx) (n : Nat) : Disc := ⟨(x.m.models.getD n {}).harm 2, x.m.rSecond.getD n 0⟩
def EvCtx.rms (x : EvCtx) (n : Nat) : Mag := ⟨sqrtQ (x.m.ms.getD n 0), sqrtQ (x.m.msHi.getD n 0)⟩

/-- The sum of three channels from `o`: 3 I0 or 3 V0 (R91). -/
def sum3 (f : Nat → Disc) (o : Nat) : Disc := ((f o).add (f (o + 1))).add (f (o + 2))

/-- A sequence component of three channels from `o`. -/
def EvCtx.seq (x : EvCtx) (neg : Bool) (o : Nat) : Disc :=
  ⟨if neg then x.m.neg x.c.acb o else x.m.pos x.c.acb o, ((x.full o).r + (x.full (o + 1)).r + (x.full (o + 2)).r) / 3⟩

/-- A listed channel's sample is missing in the epoch (R83). -/
def EvCtx.missing (x : EvCtx) (l : List Nat) : Bool := l.any (fun n => x.c.has n && x.miss.getD n false)

/-- A signal as read when the evaluation began (R109). -/
def EvCtx.sig (x : EvCtx) (id : Nat) : Entry := Tab.get x.reads Entry.absent id

def EvCtx.elem (x : EvCtx) (i : Nat) : ElemSt := Tab.get x.elems {} i

/-! ## Quality and blocking (R83, R103, R104) -/

/-- The phases of an instance reset. -/
def ElemSt.resetPh (x : ElemSt) : ElemSt := { x with ph := [{}, {}, {}, {}] }

/-- The outputs of an instance whose inputs are missing: held, questionable (R83); the epochs of a hold through a block run on
(R104). -/
def ElemSt.holdEpoch (x : ElemSt) : ElemSt := { x with q := x.q.join Quality.quest, hold := x.hold - 1 }

/-- A blocked epoch: reset, with the operate outputs that stood before the block held for 256 epochs (R104). -/
def ElemSt.block (x : ElemSt) (opMask : Nat) (q : Quality) : ElemSt :=
  let first := !x.blocked
  let ops := x.bits &&& opMask
  let hold := if first then (if ops = 0 then 0 else 256) else x.hold - 1
  { x.resetPh with blocked := true, hold := hold, bits := if hold = 0 then 0 else ops, q := { q with validity := .invalid } }

/-- The instance is blocked by the combined validity of its inputs (R103). -/
def blocks (onQuest : Bool) (q : Quality) : Bool :=
  decide (q.validity = .invalid) || (onQuest && decide (q.validity = .questionable))

/-- The end of a block: the instance goes on from its reset state. -/
def ElemSt.unblock (x : ElemSt) : ElemSt := if x.blocked then { x with blocked := false, hold := 0, bits := 0 } else x

/-- The block input (R110): it blocks; it is named and has invalid validity. -/
def EvCtx.blockIn (x : EvCtx) (b : Option SigBit) : Bool :=
  match b with
  | some s => (x.sig s.id).counts s.bit
  | none => false
def EvCtx.blockBad (x : EvCtx) (b : Option SigBit) : Bool :=
  match b with
  | some s => !(x.sig s.id).q.usable
  | none => false

/-! ## Timers and integrators (R112, R115 to R118) -/

/-- The advance of a timer by an epoch: its duration, or 1/128 cycle (R37). -/
def Delay.step (d : Delay) (dt : Rat) : Rat := match d with | .secs _ => dt | .cycles _ => 1 / 128
def Delay.limit (d : Delay) : Rat := match d with | .secs s => s | .cycles c => c

/-- T or g after an epoch without a start, under the reset mode; `w` counts from the drop-off (R112, R117). -/
def afterDrop (mode : ResetMode) (tdr w v : Rat) : Rat :=
  match mode with
  | .inst => 0
  | .definite => if tdr ≤ w then 0 else v
  | .disk => v

/-- Time since the drop-off. -/
def PhSt.nextW (p : PhSt) (dt : Rat) : Rat := if p.started then 0 else p.w + dt

/-- A definite-time phase in an epoch of duration `dt` for T and `off` for the reset time (R112). -/
def PhSt.definite (p : PhSt) (mode : ResetMode) (tdr : Rat) (d : Delay) (dt off : Rat) (on : Bool) : PhSt :=
  if on then
    let t := if p.started then p.t + d.step dt else if mode = .definite ∧ p.w + off ≤ tdr then p.t else 0
    { p with started := true, t := t, op := decide (d.limit ≤ t) }
  else
    let w := p.nextW off
    { p with started := false, op := false, w := w, t := afterDrop mode tdr w p.t }

/-- Curve time at kt = 1 for M > 1 (R115, R116, R118). -/
def userCurve (pts : List (Rat × Rat)) (m : Rat) : Rat :=
  let below := (pts.filter (fun p => decide (p.1 ≤ m))).getLast?
  let above := pts.find? (fun p => decide (m < p.1))
  match below, above with
  | none, some a => a.2
  | some b, none => b.2
  | some b, some a =>
    let k := (lnQ m - lnQ b.1) / (lnQ a.1 - lnQ b.1)
    expQ (lnQ b.2 + k * (lnQ a.2 - lnQ b.2))
  | none, none => 0

def Curve.time (cv : Curve) (m : Rat) : Rat :=
  match cv with
  | .definite => 0
  | .iecSi => (14 / 100) / (powQ m (2 / 100) - 1)
  | .iecVi => (135 / 10) / (m - 1)
  | .iecEi => 80 / (m * m - 1)
  | .iecLti => 120 / (m - 1)
  | .ieeeMi => (515 / 10000) / (powQ m (2 / 100) - 1) + 1140 / 10000
  | .ieeeVi => (1961 / 100) / (m * m - 1) + 491 / 1000
  | .ieeeEi => (282 / 10) / (m * m - 1) + 1217 / 10000
  | .user pts => userCurve pts m

/-- An inverse-time phase in an epoch with m_raw = q / Is, of duration `dt` for g and u and `off` for the reset (R117). -/
def PhSt.inverse (p : PhSt) (k : ThrCfg) (tr mraw dt off : Rat) (on : Bool) : PhSt :=
  let m := minQ mraw k.mmax
  if on then
    let g := if p.started ∧ 1 < m then minQ 1 (p.g + rnd (dt / (k.kt * k.curve.time m))) else p.g
    let u := if p.started then p.u + dt else 0
    { p with started := true, g := g, u := u, op := p.op || (decide (1 ≤ g) && decide (k.tmin ≤ u)) }
  else
    let w := p.nextW off
    let g := afterDrop k.reset k.tdr w p.g
    let g := if k.reset = .disk ∧ mraw < 1 then maxQ 0 (g - rnd (off * (1 - mraw * mraw) / (k.kt * tr))) else g
    { p with started := false, op := false, w := w, g := g }

/-- The packed outputs of phases: START, OP, then starts and operates of three phases (R108, R135). -/
def phaseBits (ph : List PhSt) (three : Bool) : Nat :=
  let st (i : Nat) := (ph.getD i {}).started
  let op (i : Nat) := (ph.getD i {}).op
  let n := if three then 3 else 1
  b2n ((List.range n).any st) + 2 * b2n ((List.range n).any op) +
    (if three then (List.range 3).foldl (fun a i => a + 2 ^ (2 + i) * b2n (st i) + 2 ^ (5 + i) * b2n (op i)) 0 else 0)

/-! ## Directional elements (R120 to R126) -/

/-- The half-angle in degrees under which a disc is seen; 360 where it holds 0 (R190). A negative radius, of the favourable run,
gives the negative of it. -/
def Disc.spread (d : Disc) : Rat :=
  let a := Sys2Proof.Machine.mag d.y
  let r := absQ d.r
  let h := if r = 0 then 0 else if a ≤ r then 360 else 360 * C.turns ⟨sqrtQ (a * a - r * r), r⟩
  if d.r < 0 then 0 - h else h

/-- φ of R121 and the spread of its band. -/
def phiOf (i v : Disc) (rca : Rat) : Rat × Rat := (wrapDeg (i.y.deg - v.y.deg - rca), i.spread + v.spread)

/-- The largest |φ| that decides forward, and the |φ| above which it is reverse, with the direction held before: a held one
widens its own range and the other begins beyond it (R121). -/
def dirLimits (w : Rat) (fwd rev : Bool) : Rat × Rat :=
  if fwd then (w + 2, maxQ (180 - w) (w + 2))
  else if rev then (minQ w (178 - w), 178 - w)
  else (w, 180 - w)

/-- Forward and reverse over the band of half-width `mg` about φ, with the direction held before (R121); of a negative `mg`, for
some φ of the band (R190). -/
def decideDir (phi mg w : Rat) (fwd rev : Bool) : Bool × Bool :=
  let a := absQ phi
  let l := dirLimits w fwd rev
  (decide (a + mg ≤ l.1), decide (l.2 < a - mg))

/-- The remembered V1 over √2, if the memory is valid in the epoch (R122); in a ply within the disc that its unknown
duration gives (R190). -/
def EvCtx.memory (x : EvCtx) (el : ElemSt) : Option Disc :=
  el.mem.bind (fun p =>
    if x.e ≤ p.2.2.1 + 1024 then
      let mid := (x.slack.1 + x.slack.2) / 2
      some ⟨p.1.mul (cisTurns (p.2.1 * (clkSec x.at_ p.2.2.2 + mid) - ((x.e : Rat) - p.2.2.1) / 128)),
        x.sgn * Sys2Proof.Machine.mag p.1 * piQ * p.2.1 * (x.slack.2 - x.slack.1)⟩
    else none)

/-- The memory updated where V1 and the frequency are good (R122); a ply remembers no predicted voltage. -/
def EvCtx.remember (x : EvCtx) (el : ElemSt) : ElemSt :=
  let v := x.m.pos x.c.acb 4
  if (x.seq false 4).r = 0 ∧ x.m.qOf [4, 5, 6] = Quality.ok ∧ x.m.freqQ = Quality.ok ∧ 49 / 100 * x.c.vph2 ≤ 2 * v.sq then
    { el with mem := some (v, x.m.freq, x.e, x.at_) }
  else el

/-- Polarising voltage of phase `p` (R121), and the remembered one (R122). -/
def EvCtx.pol (x : EvCtx) (p : Nat) : Disc :=
  let d := (x.full (4 + (p + 1) % 3)).sub (x.full (4 + (p + 2) % 3))
  if x.c.acb then d.neg else d

def polMem (acb : Bool) (v1 : Disc) (p : Nat) : Disc :=
  let a := C.mul ⟨0, -2 * cis120.im⟩ v1.y
  let y := match p with
    | 0 => a
    | 1 => (if acb then cis120 else cis240).mul a
    | _ => (if acb then cis240 else cis120).mul a
  ⟨y, 2 * cis120.im * v1.r⟩

/-- One phase of a DIR instance: the new phase, whether memory served, whether no polarising voltage was there over the whole
band (R133). -/
def EvCtx.dirPhase (x : EvCtx) (k : DirCfg) (ph : PhSt) (p : Nat) (vOk : Bool) (mem : Option Disc) : PhSt × Bool × Bool :=
  let i := x.full p
  let on := decide (k.imin * x.c.inA ≤ i.mag.lo)
  let v := x.pol p
  let own := vOk && decide (k.vpmin / 100 * x.c.vnV ≤ v.mag.lo)
  let use := if own || !k.memory then none else mem
  -- a ply whose band leaves open whether the own voltage polarises
  let either := !own && vOk && decide (k.vpmin / 100 * x.c.vnV ≤ v.mag.hi)
  if ph.sealed && on then (ph, use.isSome, false)
  else match (if own then some v else use.map (fun v1 => polMem x.c.acb v1 p)) with
    | some w =>
      let by_ (w : Disc) : Bool × Bool :=
        let (phi, mg) := phiOf i w k.rca
        decideDir phi mg k.w ph.fwd ph.rev
      let (f, r) := if on then by_ w else (false, false)
      let (f, r) := if either then (f && (by_ v).1, r && (by_ v).2) else (f, r)
      ({ ph with fwd := f, rev := r, sealed := use.isSome && (f || r) }, use.isSome, false)
    | none => ({ ph with fwd := false, rev := false, sealed := false }, false, !either)

/-- A DIR instance in an epoch (R120 to R123). -/
def EvCtx.dir (x : EvCtx) (k : DirCfg) (onQuest : Bool) (el : ElemSt) : ElemSt :=
  let qi := x.m.qOf [0, 1, 2]
  let qv := x.m.qOf [4, 5, 6]
  if x.missing [0, 1, 2, 4, 5, 6] then el.holdEpoch
  else
    let el := x.remember el
    if blocks onQuest qi then
      el.block 0 (qi.join qv)
    else
      let vOk := !blocks onQuest qv
      let mem := x.memory el
      let r := (List.range 3).map (fun p => x.dirPhase k (el.ph.getD p {}) p vOk mem)
      let sealed := r.any (fun p => p.1.sealed)
      let replaced := (k.memory && mem.isSome) || sealed
      if !vOk && !replaced && !k.lossNonDir then el.block 0 (qi.join qv)
      else
        let el := el.unblock
        let ndir := k.lossNonDir && !sealed && r.any (fun p => p.2.2)
        let useMem := r.any (fun p => p.2.1)
        let ph := r.map (fun p => p.1)
        let bit (f : PhSt → Bool) (o : Nat) := (List.range 3).foldl (fun a i => a + 2 ^ (o + i) * b2n (f (ph.getD i {}))) 0
        let q := if vOk then qi.join qv else (qi.join { qv with validity := .questionable }).join Quality.quest
        { el with ph := ph ++ [{}]
                  bits := bit (fun p => p.fwd) 0 + bit (fun p => p.rev) 3 + 64 * b2n ndir + 128 * b2n useMem
                  q := q.join (Quality.when ndir Quality.quest) }

/-- Operating current and polarising voltage of a DIRN instance (R124). -/
def EvCtx.dirnQty (x : EvCtx) (k : DirnCfg) : Disc × Disc :=
  if k.negSeq then (x.seq true 0, (x.seq true 4).neg)
  else (if k.usesIn x.c then x.full 3 else sum3 x.full 0, (if k.usesVn x.c then x.full 7 else sum3 x.full 4).neg)

def DirnCfg.chansI (k : DirnCfg) (c : FeederCfg) : List Nat := if !k.negSeq && k.usesIn c then [3] else [0, 1, 2]
def DirnCfg.chansV (k : DirnCfg) (c : FeederCfg) : List Nat := if !k.negSeq && k.usesVn c then [7] else [4, 5, 6]

/-- A DIRN instance in an epoch (R124). -/
def EvCtx.dirn (x : EvCtx) (k : DirnCfg) (onQuest : Bool) (el : ElemSt) : ElemSt :=
  let qi := x.m.qOf (k.chansI x.c)
  let qv := x.m.qOf (k.chansV x.c)
  if x.missing (k.chansI x.c ++ k.chansV x.c) then el.holdEpoch
  else if blocks onQuest qi || (blocks onQuest qv && !k.lossNonDir) then el.block 0 (qi.join qv)
  else
    let el := el.unblock
    let ph := el.ph.getD 0 {}
    let (i, v) := x.dirnQty k
    let vOk := !blocks onQuest qv
    let on := vOk && decide (k.imin * x.c.inA ≤ i.mag.lo) && decide (k.vpmin / 100 * sqrtQ x.c.vph2 ≤ v.mag.lo)
    let (phi, mg) := phiOf i v k.rca
    let (f, r) := if on then decideDir phi mg k.w ph.fwd ph.rev else (false, false)
    let q := if vOk then qi.join qv else (qi.join { qv with validity := .questionable }).join Quality.quest
    { el with ph := modAt el.ph 0 (fun p => { p with fwd := f, rev := r })
              bits := b2n f + 2 * b2n r + 4 * b2n (!vOk)
              q := q }

/-- The direction condition of a controlled instance for phase `p` (R126), and the quality of the linked outputs. -/
def EvCtx.direction (x : EvCtx) (k : ThrCfg) (oc : Bool) (p : Nat) : Bool :=
  match k.direction, k.dirLink with
  | .non, _ => true
  | _, none => false
  | d, some l =>
    let b := (x.elem l).bits
    let o := match d with | .reverse => (if oc then 3 else 1) | _ => 0
    if oc then bitOf b (o + p) || bitOf b 6 else bitOf b o || bitOf b 2

def EvCtx.dirQual (x : EvCtx) (k : ThrCfg) : Quality :=
  match k.dirLink with
  | some l => if k.direction = .non ∧ !k.projected then Quality.ok else (x.elem l).q
  | none => Quality.ok

/-! ## Inrush restraint (R131, R132) -/

/-- The 2nd harmonic ratio in % is at or above `thr` at its unfavourable bound; 0 below 2 % of In (R92). -/
def ratioAbove (c : FeederCfg) (x1 x2 : Disc) (thr : Rat) : Bool :=
  let a := x1.mag
  if a.hi < c.inA / 50 then decide (thr ≤ 0) else decide (thr * maxQ a.lo (c.inA / 50) ≤ x2.mag.hi * 100)

/-- One restraint: it sets at the threshold, clears 2 points below it or at the unrestraint current. -/
def EvCtx.restrained (x : EvCtx) (k : InrCfg) (old : Bool) (x1 x2 : Disc) : Bool :=
  decide (x1.mag.lo < k.unrestraint * x.c.inA) && ratioAbove x.c x1 x2 (if old then k.thr - 2 else k.thr)

/-- The residual sources that EF instances use: measured, calculated (R132). -/
def FeederCfg.inrSources (c : FeederCfg) : Bool × Bool :=
  let use (b : Bool) := c.elems.any (fun p => match p.2.kind with
    | .thr .ef t => t.usesIn c == b
    | _ => false)
  (use true, use false)

/-- The channels that the INR instance reads. -/
def FeederCfg.inrChans (c : FeederCfg) (k : InrCfg) : List Nat := [0, 1, 2] ++ (if c.inrSources.1 && k.residual then [3] else [])

/-- The restraints in force as bits A, B, C, measured, calculated residual. -/
def ElemSt.restraints (el : ElemSt) : Nat := if el.crossT.isSome then 31 else el.rst

/-- The cross-block hold (R132): its time counts from the epoch in which the last restraint, set in the epoch before (`was`),
has cleared alone. -/
def crossNext (k : InrCfg) (any was : Bool) (t : Option Rat) (dt : Rat) : Option Rat :=
  if !k.cross then none
  else if any then some 0
  else match t with
    | some v =>
      let v := if was then 0 else v + dt
      if k.hold ≤ v then none else some v
    | none => none

/-- Quality of the ratio: questionable below 2 % of In (R92). -/
def ratioQual (c : FeederCfg) (x1 : Disc) : Quality := Quality.when (decide (x1.mag.lo < c.inA / 50)) Quality.quest

/-- An INR instance in an epoch. -/
def EvCtx.inr (x : EvCtx) (k : InrCfg) (onQuest : Bool) (el : ElemSt) : ElemSt :=
  let (useM, useC) := x.c.inrSources
  let chans := x.c.inrChans k
  if x.missing chans then el.holdEpoch
  else
    let currents := ([0, 1, 2].filter x.c.has).map x.full ++ (if useM && k.residual then [x.full 3] else []) ++
      (if useC && k.residual then [sum3 x.full 0] else [])
    let q := (x.m.qOf (chans.filter x.c.has)).join (Quality.joins (currents.map (ratioQual x.c)))
    if blocks onQuest q then { el.block 0 q with rst := 0, crossT := none }
    else
      let el := el.unblock
      let on (i : Nat) (a b : Disc) := x.restrained k (bitOf el.rst i) a b
      let r := (List.range 3).foldl (fun a n => a + 2 ^ n * b2n (x.c.has n && on n (x.full n) (x.second n))) 0 +
        (if k.residual && useM then 8 * b2n (on 3 (x.full 3) (x.second 3)) else 0) +
        (if k.residual && useC then 16 * b2n (on 4 (sum3 x.full 0) (sum3 x.second 0)) else 0)
      let cross := crossNext k (r != 0) (el.rst != 0) el.crossT x.dt
      let el := { el with rst := r, crossT := cross }
      let f := el.restraints
      let n := (bitOf f 3 && (useM || cross.isSome)) || (bitOf f 4 && (useC || cross.isSome))
      { el with bits := f % 8 + 8 * b2n n + 16 * b2n (f % 8 != 0 || n), q := q }

/-- The feeder's INR instance. -/
def FeederCfg.inrOf (c : FeederCfg) : Option Nat :=
  (c.elems.find? (fun p => match p.2.kind with | .inr _ => true | _ => false)).map Prod.fst

/-- A phase of an OC (bit p), or an EF by its residual source, is restrained; quality of the restraint. -/
def EvCtx.inrush (x : EvCtx) (k : ThrCfg) (bit : Nat) : Bool :=
  match k.inrush, x.c.inrOf with
  | true, some i => bitOf (x.elem i).restraints bit
  | _, _ => false
def EvCtx.inrushQual (x : EvCtx) (k : ThrCfg) : Quality :=
  match k.inrush, x.c.inrOf with
  | true, some i => (x.elem i).q
  | _, _ => Quality.ok

/-! ## Threshold elements (R111 to R114, R127 to R130) -/

/-- The channels that a threshold element reads. -/
def ThrCfg.chans (k : ThrCfg) (t : ThrKind) (c : FeederCfg) : List Nat :=
  match t with
  | .sef => [3]
  | .ef => if k.usesIn c then [3] else [0, 1, 2]
  | _ => [0, 1, 2]

/-- The quality of the operating quantity. -/
def EvCtx.thrQual (x : EvCtx) (t : ThrKind) (k : ThrCfg) : Quality :=
  let l := (k.chans t x.c).filter x.c.has
  match k.mode with
  | .half => x.m.qHalfOf l
  | .rms => x.m.qRms l
  | .full => x.m.qOf l

/-- The settings of the DIRN that an SEF names. -/
def EvCtx.linkedDirn (x : EvCtx) (k : ThrCfg) : Option DirnCfg :=
  k.dirLink.bind (fun l => (Tab.find x.c.elems l).bind (fun e => match e.kind with | .dirn d => some d | _ => none))

/-- |IN| cos φ, its sign turned by direction reverse (R128). -/
def EvCtx.projected (x : EvCtx) (k : ThrCfg) : Mag :=
  let i := x.full 3
  match x.linkedDirn k with
  | some d =>
    let (o, v) := x.dirnQty d
    let (phi, _) := phiOf o v d.rca
    let p := rnd (mag i.y * (cisDeg phi).re)
    let p := if k.direction = .reverse then 0 - p else p
    let a := mag i.y * maxQ (-1) (minQ 1 ((o.spread + v.spread) / 57))
    ⟨p - i.r - a, p + i.r + a⟩
  | none => i.mag

/-- The operating quantity of phase `p` (R113, R127 to R130). -/
def EvCtx.thrQty (x : EvCtx) (t : ThrKind) (k : ThrCfg) (p : Nat) : Mag :=
  match t with
  | .oc => match k.mode with
    | .full => (x.full p).mag
    | .half => (x.half p).mag
    | .rms => x.rms p
  | .ef =>
    let f := if k.mode = .half then x.half else x.full
    (if k.usesIn x.c then f 3 else sum3 f 0).mag
  | .sef => if k.projected then x.projected k else (x.full 3).mag
  | .nps => (x.seq true 0).mag
  | .bc =>
    let i1 := (x.seq false 0).mag
    let i2 := (x.seq true 0).mag
    if i1.lo < k.i1min * x.c.inA ∨ i1.lo = 0 then ⟨0, 0⟩ else ⟨i2.lo / i1.hi * 100, i2.hi / i1.lo * 100⟩

/-- The unit of the thresholds: In, 1 A for SEF, 1 % for BC. -/
def EvCtx.thrUnit (x : EvCtx) (t : ThrKind) : Rat := match t with | .sef => 1 | .bc => 1 | _ => x.c.inA

/-- The start threshold (R111, R117). -/
def EvCtx.thrStart (x : EvCtx) (t : ThrKind) (k : ThrCfg) : Rat :=
  if k.curve = .definite then k.startS t * x.thrUnit t else k.ms * k.isOf t * x.thrUnit t

/-- BC: the ratio counts only while |I1| ≥ I1min (R130). -/
def EvCtx.thrGate (x : EvCtx) (t : ThrKind) (k : ThrCfg) : Bool :=
  match t with
  | .bc => decide (k.i1min * x.c.inA ≤ (x.seq false 0).mag.lo)
  | _ => true

/-- The restraint bit of a phase: A to C of an OC; the residual source of an EF (R132). -/
def ThrCfg.inrBit (k : ThrCfg) (t : ThrKind) (c : FeederCfg) (p : Nat) : Nat :=
  match t with
  | .ef => if k.usesIn c then 3 else 4
  | _ => p

/-- One phase of a threshold element. -/
def EvCtx.thrPhase (x : EvCtx) (t : ThrKind) (k : ThrCfg) (ph : PhSt) (p : Nat) (blocked : Bool) : PhSt :=
  let q := x.thrQty t k p
  let s := x.thrStart t k
  let oc := decide (t = .oc)
  let free := x.direction k oc p && !x.inrush k (k.inrBit t x.c p) && !blocked && x.thrGate t k && (!oc || x.c.has p)
  let on := free && decide ((if ph.started then k.r * s else s) ≤ q.lo)
  if k.curve = .definite then ph.definite k.reset k.tdr (k.delayOf t) x.dt x.dtOff on
  else ph.inverse k (k.trOf.getD 0) (q.lo / (k.isOf t * x.thrUnit t)) x.dt x.dtOff on

/-- The channels of the linked DIR or DIRN, which a controlled or projected instance reads (R83, R126, R128). -/
def EvCtx.linkChans (x : EvCtx) (k : ThrCfg) : List Nat :=
  if k.direction = .non ∧ !k.projected then []
  else match k.dirLink.bind (fun l => (Tab.find x.c.elems l).map (fun e => e.kind)) with
    | some (ElemKind.dir _) => [0, 1, 2, 4, 5, 6]
    | some (ElemKind.dirn d) => d.chansI x.c ++ d.chansV x.c
    | _ => []

/-- The channels of the restraint that an instance takes (R83, R132). -/
def EvCtx.inrushChans (x : EvCtx) (k : ThrCfg) : List Nat :=
  match k.inrush, x.c.inrOf.bind (fun i => (Tab.find x.c.elems i).map (fun e => e.kind)) with
  | true, some (ElemKind.inr r) => x.c.inrChans r
  | _, _ => []

/-- A threshold element in an epoch: OC, EF, SEF, NPS or BC. -/
def EvCtx.thr (x : EvCtx) (t : ThrKind) (k : ThrCfg) (onQuest : Bool) (el : ElemSt) : ElemSt :=
  let q := ((x.thrQual t k).join (x.dirQual k)).join (x.inrushQual k)
  if x.missing (k.chans t x.c ++ x.linkChans k ++ x.inrushChans k) then el.holdEpoch
  else if blocks onQuest q then el.block 0xE2 q
  else
    let el := el.unblock
    let three := decide (t = .oc)
    let ph := (List.range 4).map (fun p =>
      if p < (if three then 3 else 1) then x.thrPhase t k (el.ph.getD p {}) p (x.blockIn k.block) else {})
    { el with ph := ph, bits := phaseBits ph three, q := q.join (Quality.when (x.blockBad k.block) Quality.quest) }

end Sys2Proof.Machine
end

