-- ==== Sys2Proof/Machine/Voltage.lean ====
section
/-! DEFINITION. Voltage, frequency, thermal and breaker failure elements and the fault locator (R134 to R159), and the
evaluation of a feeder's instances in their order (R109). -/

namespace Sys2Proof.Machine

/-! ## Voltage elements (R137 to R141) -/

/-- The channels of a voltage quantity. -/
def VoltQty.chans : VoltQty → List Nat
  | .resMeasured => [7]
  | _ => [4, 5, 6]

/-- The quantity has three phases or loops. -/
def VoltQty.three : VoltQty → Bool
  | .phase => true
  | .phasePhase => true
  | _ => false

/-- The bounds of the true RMS of phase `a` less phase `b`, sample by sample (R93, R190). -/
def EvCtx.rmsDiff (x : EvCtx) (a b : Nat) : Mag :=
  let v (n : Nat) := (padWin (x.wins.getD n []) 128).map (fun s => s.v)
  let r (n : Nat) := ((x.rads.getD n []) ++ List.replicate 128 (0 : Rat)).take 128
  let d := List.zip (List.zipWith (· - ·) (v a) (v b)) (List.zipWith (· + ·) (r a) (r b))
  let sq (f : Rat × Rat → Rat) := sqrtQ (sumQ (d.map (fun p => f p * f p)) / 128)
  ⟨sq (fun p => maxQ 0 (absQ p.1 - p.2)), sq (fun p => maxQ 0 (absQ p.1 + p.2))⟩

/-- The quantity of phase or loop `p`: a UV on a sequence quantity uses V1, an OV V2. -/
def EvCtx.voltQty (x : EvCtx) (t : VoltKind) (k : VoltCfg) (p : Nat) : Mag :=
  match k.qtyOf t x.c with
  | .phase => if k.rmsMode then x.rms (4 + p) else (x.full (4 + p)).mag
  | .phasePhase =>
    if k.rmsMode then x.rmsDiff (4 + p) (4 + (p + 1) % 3)
    else ((x.full (4 + p)).sub (x.full (4 + (p + 1) % 3))).mag
  | .sequence => (x.seq (decide (t = .ov)) 4).mag
  | .resMeasured => (x.full 7).mag
  | .resCalculated => (sum3 x.full 4).mag

/-- The reference of the thresholds (R137). -/
def EvCtx.voltRef (x : EvCtx) (t : VoltKind) (k : VoltCfg) : Rat := if k.qtyOf t x.c = .phasePhase then x.c.vnV else sqrtQ x.c.vph2

/-- The start condition of a phase, started or not (R111, R139). -/
def EvCtx.voltOn (x : EvCtx) (t : VoltKind) (k : VoltCfg) (started : Bool) (p : Nat) : Bool :=
  let q := x.voltQty t k p
  let u := x.voltRef t k
  let s := (if started then k.ratio t * k.startS t else k.startS t) * u
  match t with
  | .uv => decide (k.vdead * u ≤ q.lo) && decide (q.hi ≤ s)
  | _ => decide (s ≤ q.lo)

/-- A voltage element in an epoch. -/
def EvCtx.volt (x : EvCtx) (t : VoltKind) (k : VoltCfg) (onQuest : Bool) (el : ElemSt) : ElemSt :=
  let qty := k.qtyOf t x.c
  let l := qty.chans.filter x.c.has
  let q := if k.rmsMode then x.m.qRms l else x.m.qOf l
  if x.missing l then el.holdEpoch
  else if blocks onQuest q then el.block 0xE2 q
  else
    let el := el.unblock
    let n := if qty.three then 3 else 1
    let free := !x.blockIn k.block
    let on (p : Nat) := free && (n == 1 || (qty == .phasePhase) || x.c.has (4 + p)) && x.voltOn t k (el.ph.getD p {}).started p
    let q := q.join (Quality.when (x.blockBad k.block) Quality.quest)
    if k.all && n == 3 then
      -- one start and one timer, kept as the fourth phase (R139)
      let st := (List.range 3).map on
      let all := st.all id
      let tm := (el.ph.getD 3 {}).definite k.reset k.tdr (k.delayOf t) x.dt x.dtOff all
      let ph := (List.range 3).map (fun p => { (el.ph.getD p {}) with started := st.getD p false, op := tm.op && st.getD p false })
      let bits := phaseBits ph true
      { el with ph := ph ++ [tm], q := q, bits := bits - bits % 4 + b2n all + 2 * b2n tm.op }
    else
      let ph := (List.range 4).map (fun p =>
        if p < n then (el.ph.getD p {}).definite k.reset k.tdr (k.delayOf t) x.dt x.dtOff (on p) else {})
      { el with ph := ph, bits := phaseBits ph qty.three, q := q }

/-! ## Frequency elements (R142 to R144) -/

/-- The start condition of a frequency element, started or not. -/
def freqOn (t : FreqKind) (k : FreqCfg) (nom : Rat) (started : Bool) (f rocof : Rat) : Bool :=
  let s := k.startS t nom
  match t with
  | .uf => if started then decide (f < s + k.h) else decide (f ≤ s)
  | .of => if started then decide (s - k.h < f) else decide (s ≤ f)
  | .rf =>
    let q := match k.sense with
      | .rising => rocof
      | .falling => 0 - rocof
      | .either => absQ rocof
    decide ((if started then k.r * s else s) ≤ q)

/-- A frequency element in an epoch. -/
def EvCtx.freq (x : EvCtx) (t : FreqKind) (k : FreqCfg) (onQuest : Bool) (el : ElemSt) : ElemSt :=
  let qf := if t = .rf then x.m.rocofQ else x.m.freqQ
  let useV := decide (0 < k.vblock)
  let q := if useV then qf.join (x.m.qOf [4, 5, 6]) else qf
  let l := [4, 5, 6] ++ (if x.c.fallback && (freqSource x.c x.m).1 != 1 then [0, 1, 2] else [])
  if x.missing l then el.holdEpoch
  else if blocks onQuest q then el.block 2 q
  else
    let el := el.unblock
    let low := useV && decide (mag (x.m.pos x.c.acb 4) < k.vblock * sqrtQ x.c.vph2)
    let ph := el.ph.getD 0 {}
    let on := !low && !x.blockIn k.block && freqOn t k x.m.nom ph.started x.m.freq x.m.rocof
    let ph := ph.definite .inst 0 (.secs (k.delayOf t)) x.dt x.dtOff on
    { el with ph := [ph, {}, {}, {}], bits := phaseBits [ph] false,
              q := q.join (Quality.when (x.blockBad k.block) Quality.quest) }

/-! ## Thermal overload (R146 to R149) -/

/-- The equivalent heating current (R147). -/
def EvCtx.heating (x : EvCtx) (k : ThCfg) : Rat :=
  let irms := maxQs (([0, 1, 2].filter x.c.has).map (fun n => (x.rms n).lo))
  if k.k2 = 0 then irms else sqrtQ (irms * irms + k.k2 * 2 * (x.m.neg x.c.acb 0).sq)

/-- θ after an epoch (R147). -/
def thetaNext (k : ThCfg) (inA ieq dt theta : Rat) : Rat :=
  let tau := k.tau * 60 * (if ieq < k.ion * k.ib * inA then k.kc else 1)
  let u := ieq / (k.k * k.ib * inA)
  let ss := u * u
  rnd (minQ 10 (maxQ 0 (ss + (theta - ss) * expQ (0 - dt / tau))))

/-- A TH instance in an epoch: START, ALARM and OP in bits 0 to 2. -/
def EvCtx.th (x : EvCtx) (k : ThCfg) (onQuest : Bool) (el : ElemSt) : ElemSt :=
  let l := [0, 1, 2].filter x.c.has
  let q := (x.m.qRms l).join (if k.k2 = 0 then Quality.ok else x.m.qOf l)
  if x.missing l then el.holdEpoch
  else if blocks onQuest q then el.block 4 q
  else
    let el := el.unblock
    let ieq := x.heating k
    let th := thetaNext k x.c.inA ieq x.dt el.theta
    let base := k.k * k.ib * x.c.inA
    let on (b : Nat) (set keep : Bool) := if bitOf el.bits b then keep else set
    let start := on 0 (decide (base ≤ ieq)) (decide (98 / 100 * base ≤ ieq))
    let alarm := on 1 (decide (k.alarm / 100 ≤ th)) (decide ((k.alarm - 2) / 100 ≤ th))
    let op := on 2 (decide (1 ≤ th)) (decide (k.release / 100 < th))
    let bits := if x.blockIn k.block then 0 else b2n start + 2 * b2n alarm + 4 * b2n op
    { el with theta := th, bits := bits, q := q.join (Quality.when (x.blockBad k.block) Quality.quest) }

/-- THETA in 0.1 %, saturating (R148). -/
def thetaSig (theta : Rat) : Nat := min 10000 (theta * 1000).floor.toNat

/-- θ of a TH instance before any heating: θinit (R146, R150). -/
def ElemKind.thetaInit : ElemKind → Rat
  | .th c => c.init / 100
  | _ => 0

/-- An instance in its reset state (R376). -/
def ElemCfg.fresh (g : ElemCfg) : ElemSt := { theta := g.kind.thetaInit }

/-! ## Breaker failure (R151 to R154) -/

/-- The operate bits of an instance by its kind (R104, R108, R135). -/
def ElemKind.opMask : ElemKind → Nat
  | .thr _ _ => 2
  | .volt _ _ => 2
  | .freq _ _ => 2
  | .th _ => 4
  | .bf _ => 6
  | _ => 0

/-- START and OP outputs of an instance by its kind (R108, R135). -/
def ElemKind.startOut : ElemKind → Nat
  | .thr _ _ => 1
  | .volt _ _ => 1
  | .freq _ _ => 1
  | .th _ => 1
  | .bf _ => 1
  | _ => 0
def ElemKind.opOut : ElemKind → Nat
  | .thr _ _ => 2
  | .volt _ _ => 2
  | .freq _ _ => 2
  | .th _ => 4
  | _ => 0

/-- The OP output of an instance. -/
def EvCtx.opOf (x : EvCtx) (i : Nat) : Bool :=
  match Tab.find x.c.elems i with
  | some e => (x.elem i).bits &&& e.kind.opMask != 0
  | none => false

/-- The channels of the residual check. -/
def BfCfg.resChans (k : BfCfg) (c : FeederCfg) : List Nat := if k.residual then (if k.usesIn c then [3] else [0, 1, 2]) else []

/-- The alternatives of the current check: the configured phases, 3 for the residual (R152). -/
def EvCtx.bfAlts (x : EvCtx) (k : BfCfg) : List Nat :=
  ([0, 1, 2].filter x.c.has ++ (if k.residual then [3] else [])).filter (fun n => match x.only with | some o => n == o | none => true)

/-- The checked half-cycle magnitudes with their thresholds (R152). -/
def EvCtx.bfChecks (x : EvCtx) (k : BfCfg) : List (Mag × Rat) :=
  (x.bfAlts k).map (fun n =>
    if n < 3 then ((x.half n).mag, k.ibf * x.c.inA)
    else ((if k.usesIn x.c then x.half 3 else sum3 x.half 0).mag, k.ibfn * x.c.inA))

/-- The magnitudes of the 48 newest samples of the checked channels at the bound that is unfavourable for the check, with their
thresholds (R152, R190). -/
def EvCtx.bfSamples (x : EvCtx) (k : BfCfg) : List (List Rat × Rat) :=
  let w (n : Nat) := (padWin (x.wins.getD n []) 48).map (fun s => s.v)
  let r (n : Nat) := ((x.rads.getD n []) ++ List.replicate 48 (0 : Rat)).take 48
  let low (v r : List Rat) := List.zipWith (fun a b => maxQ 0 (absQ a - b)) v r
  let sum (f : Nat → List Rat) := List.zipWith (· + ·) (f 0) (List.zipWith (· + ·) (f 1) (f 2))
  (x.bfAlts k).map (fun n =>
    if n < 3 then (low (w n) (r n), k.ibf * x.c.inA)
    else (if k.usesIn x.c then low (w 3) (r 3) else low (sum w) (sum r), k.ibfn * x.c.inA))

/-- No sample among the 48 newest reaches √2 × 0.9 × its threshold (R152). -/
def EvCtx.bfQuiet (x : EvCtx) (k : BfCfg) : Bool :=
  (x.bfSamples k).all (fun p => p.1.all (fun v => decide (v * v < 2 * (81 / 100) * p.2 * p.2)))

/-- The current check of R152. -/
def EvCtx.bfCheck (x : EvCtx) (k : BfCfg) (old : Bool) : Bool :=
  if old then
    !((x.bfChecks k).all (fun p => decide (p.1.lo < 9 / 10 * p.2)) || x.bfQuiet k)
  else (x.bfChecks k).any (fun p => decide (p.2 ≤ p.1.lo))

/-- A named signal counts: its value is 1 with validity good or questionable; it has invalid validity (R153). -/
def EvCtx.sigOn (x : EvCtx) (id : Nat) : Bool := decide ((x.sig id).value = 1) && (x.sig id).q.usable
def EvCtx.sigBad (x : EvCtx) (id : Nat) : Bool := !(x.sig id).q.usable

/-- The initiation of R153. -/
def EvCtx.bfInit (x : EvCtx) (k : BfCfg) : Bool := k.inits.any x.opOf || k.initSigs.any x.sigOn

/-- Questionable added by invalid named signals and by an initiating OP that carries invalid, whatever its value (R153). -/
def EvCtx.bfDoubt (x : EvCtx) (k : BfCfg) : Bool :=
  k.initSigs.any x.sigBad || (match k.cbSig with | some id => x.sigBad id | none => false) ||
    k.inits.any (fun i => !(x.elem i).q.usable)

/-- The stretched pulses of RETRIP and BACKTRIP (R153). -/
def ElemSt.pulses (el : ElemSt) (k : BfCfg) (rt bt : Bool) (now : Nat) : ElemSt :=
  let tp := (k.tp * 1200000000).floor.toNat
  let one (on : Bool) (cond : Bool) (ta : Nat) : Bool × Nat :=
    if cond && !on then (true, now) else if on && !cond && decide (ta + tp ≤ now) then (false, ta) else (on, ta)
  let (r, taR) := one (bitOf el.bits 1) rt el.taR
  let (b, taB) := one (bitOf el.bits 2) bt el.taB
  { el with taR := taR, taB := taB, bits := b2n el.active + 2 * b2n r + 4 * b2n b }

/-- A BF instance in an epoch (R151 to R154). -/
def EvCtx.bf (x : EvCtx) (k : BfCfg) (onQuest : Bool) (el : ElemSt) : ElemSt :=
  let l := ([0, 1, 2].filter x.c.has) ++ k.resChans x.c
  let q := x.m.qHalfOf l
  let rt (el : ElemSt) := el.active && k.retrip && decide (k.t1 ≤ el.bfT)
  let bt (el : ElemSt) := el.active && decide (k.t2 ≤ el.bfT)
  if x.missing l then (if el.blocked then el else el.pulses k (rt el) (bt el) x.now).holdEpoch
  else if blocks onQuest q && !k.cbMode then
    { el.block 6 q with active := false, bfT := 0, check := false }
  else
    let el := el.unblock
    let bad := blocks onQuest q
    let check := !bad && x.bfCheck k el.check
    let cb := k.cbMode && (match k.cbSig with | some id => x.sigOn id | none => false)
    let ok := check || cb
    let init := x.bfInit k
    let (active, t) :=
      if !el.active then (init && ok, 0)
      else if !ok || (!k.sealIn && !init) then (false, 0)
      else (true, el.bfT + x.dt)
    let el := { el with active := active, bfT := t, check := check }
    let el := el.pulses k (rt el) (bt el) x.now
    let q := (if bad then { q with validity := .questionable } else q).join (Quality.when (x.bfDoubt k) Quality.quest)
    { el with q := q }

/-! ## Fault locator (R156 to R159) -/

/-- Im(V / I) of a loop. -/
def loopX (v i : C) : Rat := (C.div v i).im

/-- The phasors IA, IB, IC, IN, VA, VB, VC over √2 of a capture. -/
def EvCtx.flSet (x : EvCtx) (half : Bool) : List C :=
  let f := if half then x.m.h1 else x.m.y1
  [f 0, f 1, f 2, if x.c.has 3 then f 3 else ((f 0).add (f 1)).add (f 2), f 4, f 5, f 6]

/-- Phase to earth loop x: Z = Vx / (Ix + k0 IN) (R158). -/
def flEarth (k : FlCfg) (p : List C) (i : Nat) : Rat :=
  let g (n : Nat) := p.getD n ⟨0, 0⟩
  loopX (g (4 + i)) ((g i).add ((C.smul k.k0mag (cisDeg k.k0deg)).mul (g 3)))

/-- Loop between phases i and i + 1. -/
def flPhases (p : List C) (i : Nat) : Rat :=
  let g (n : Nat) := p.getD n ⟨0, 0⟩
  loopX ((g (4 + i)).sub (g (4 + (i + 1) % 3))) ((g i).sub (g ((i + 1) % 3)))

/-- The candidate of smallest |X|: loop code and X. -/
def smallest (l : List (Nat × Rat)) : Nat × Rat :=
  match l with
  | [] => (0, 0)
  | a :: r => r.foldl (fun b c => if absQ c.2 < absQ b.2 then c else b) a

/-- The loop of R158: code 1 to 3 a phase to earth, 4 to 6 AB, BC, CA. -/
def flLoop (k : FlCfg) (p : List C) (started : Nat) (earthIn : Bool) (inA : Rat) : Nat × Rat :=
  let g (n : Nat) := mag (p.getD n ⟨0, 0⟩)
  let i0 := mag (((p.getD 0 ⟨0, 0⟩).add (p.getD 1 ⟨0, 0⟩)).add (p.getD 2 ⟨0, 0⟩))
  let big := maxQ (g 0) (maxQ (g 1) (g 2))
  let earth := earthIn || (decide (inA / 20 ≤ i0) && decide (big / 10 ≤ i0))
  let ph := (List.range 3).filter (fun i => bitOf started i)
  let e (i : Nat) := (1 + i, flEarth k p i)
  let pp (i : Nat) := (4 + i, flPhases p i)
  match ph with
  | [] => e (((List.range 3).find? (fun i => decide (g i = big))).getD 0)
  | [i] => e i
  | [i, j] =>
    let l := pp (if i = 0 ∧ j = 2 then 2 else i)
    if earth then smallest [e i, e j, l] else l
  | _ => smallest [pp 0, pp 1, pp 2]

/-- Phases started by the initiating OC instances; an initiating EF or SEF has started (R158). -/
def EvCtx.flStarts (x : EvCtx) (k : FlCfg) : Nat × Bool :=
  let oc (i : Nat) := match Tab.find x.c.elems i with
    | some e => (match e.kind with | .thr .oc _ => true | _ => false)
    | none => false
  let ph := k.inits.foldl (fun a i => if oc i then a ||| (x.elem i).bits / 4 % 8 else a) 0
  (ph, k.inits.any (fun i => !oc i && bitOf (x.elem i).bits 0))

/-- A capture of an epoch. -/
def EvCtx.flCapture (x : EvCtx) (k : FlCfg) (half : Bool) : List C × Quality × Nat × Bool :=
  let l := [0, 1, 2, 4, 5, 6] ++ (if x.c.has 3 then [3] else [])
  let (ph, earth) := x.flStarts k
  (x.flSet half, if half then x.m.qHalfOf l else x.m.qOf l, ph, earth)

/-- The state of the fault in an epoch: its start, its captures, its OP (R157). -/
def EvCtx.flTrack (x : EvCtx) (k : FlCfg) (f : FlSt) : FlSt :=
  let any := k.inits.any (fun i => bitOf (x.elem i).bits 0)
  let f := if any && !f.any then ({ es := some x.e } : FlSt) else f
  let f := { f with any := any, opSeen := f.opSeen || ((f.any || any) && k.inits.any x.opOf) }
  match f.es with
  | some es =>
    let f := if any && decide (x.e = es + 64) then { f with halfCap := some (x.flCapture k true) } else f
    let f := if any && decide (x.e = es + 128) then { f with fullCap := some (x.flCapture k false) } else f
    if !any && !f.opSeen then ({} : FlSt) else f
  | none => f

/-- A result: DIST in 0.01 km, XLOOP in 0.001 Ω, LOOP, quality, OUT (R158, R159). -/
def flResult (k : FlCfg) (inA : Rat) (cap : List C × Quality × Nat × Bool) (half : Bool) : (Int × Int × Nat × Quality) × Bool :=
  let (loop, xr) := flLoop k cap.1 cap.2.2.1 cap.2.2.2 inA
  let d := xr / k.x1
  ((clampInt (-8388608) 8388607 (roundQ (d * 100)), clampInt (-8388608) 8388607 (roundQ (xr * 1000)), loop,
    cap.2.1.join (Quality.when half Quality.quest)), decide (d < 0) || decide (k.length < d))

/-- An FL instance in an epoch: DONE and OUT in bits 0 and 1 (R157 to R159). DONE is no held output: it stands for one epoch. -/
def EvCtx.fl (x : EvCtx) (k : FlCfg) (onQuest : Bool) (el : ElemSt) : ElemSt :=
  let l := [0, 1, 2, 4, 5, 6] ++ (if x.c.has 3 then [3] else [])
  let q := (x.m.qOf l).join (x.m.qHalfOf l)
  let any := k.inits.any (fun i => bitOf (x.elem i).bits 0)
  if x.missing l then { el.holdEpoch with bits := 0 }
  else if blocks onQuest q then { el.block 0 q with fl := { any := any } }
  else
    let el := el.unblock
    let f := x.flTrack k el.fl
    let due := match f.es with | some es => decide (es + 128 ≤ x.e) | none => false
    let cap := match f.fullCap, f.halfCap with
      | some c, _ => some (c, false)
      | none, some c => some (c, true)
      | none, none => none
    match due && f.opSeen && !f.published, cap with
    | true, some (c, half) =>
      let (r, out) := flResult k x.c.inA c half
      { el with fl := { f with published := true }, result := some r, bits := 1 + 2 * b2n out, q := r.2.2.2 }
    | _, _ => { el with fl := f, bits := 0, q := q }

/-! ## A feeder's evaluation -/

/-- One instance in an epoch. -/
def EvCtx.step (x : EvCtx) (g : ElemCfg) (el : ElemSt) : ElemSt :=
  match g.kind with
  | .thr t k => x.thr t k g.blockOnQuest el
  | .dir k => x.dir k g.blockOnQuest el
  | .dirn k => x.dirn k g.blockOnQuest el
  | .inr k => x.inr k g.blockOnQuest el
  | .volt t k => x.volt t k g.blockOnQuest el
  | .freq t k => x.freq t k g.blockOnQuest el
  | .th k => x.th k g.blockOnQuest el
  | .bf k => x.bf k g.blockOnQuest el
  | .fl k => x.fl k g.blockOnQuest el

/-- The order of evaluation: INR, then DIR and DIRN, then the others in ascending number (R109). -/
def FeederCfg.order (c : FeederCfg) : List Nat :=
  let rank (k : ElemKind) : Nat := match k with | .inr _ => 0 | .dir _ => 1 | .dirn _ => 1 | _ => 2
  [0, 1, 2].flatMap (fun r => (c.elems.filter (fun p => rank p.2.kind == r)).map Prod.fst)

/-- The signals that a feeder's instances read (R109, R110, R153). -/
def FeederCfg.readIds (c : FeederCfg) : List Nat :=
  let blk (b : Option SigBit) : List Nat := match b with | some s => [s.id] | none => []
  c.elems.flatMap (fun p => match p.2.kind with
    | .thr _ k => blk k.block
    | .volt _ k => blk k.block
    | .freq _ k => blk k.block
    | .th k => blk k.block
    | .bf k => k.initSigs ++ (match k.cbSig with | some i => [i] | none => [])
    | _ => [])

/-- What the evaluation of epoch `e` reads. -/
def FeederSt.ctx (x : FeederSt) (c : FeederCfg) (e now : Nat) : EvCtx :=
  { c := c, m := x.meas, wins := x.wins, miss := (List.range 8).map x.missing, reads := x.reads, dt := x.dt, e := e
    at_ := (x.rot.head?.map (fun p => p.at_)).getD 0, now := now, elems := x.elems }

/-- The next instance in order evaluated. -/
def FeederSt.evalOne (x : FeederSt) (c : FeederCfg) (e now : Nat) : FeederSt :=
  match c.order[x.evalNext]? with
  | none => x
  | some i => match Tab.find c.elems i with
    | none => { x with evalNext := x.evalNext + 1 }
    | some g => { x with elems := Tab.set x.elems i ((x.ctx c e now).step g (x.elem i)), evalNext := x.evalNext + 1 }

/-- The instances evaluated up to place `n` of the order. -/
def FeederSt.evalTo (x : FeederSt) (c : FeederCfg) (e now n : Nat) : FeederSt :=
  (List.range (n - x.evalNext)).foldl (fun x _ => x.evalOne c e now) x

/-- The settings of a feeder for the epoch under evaluation, and that epoch. -/
def State.evaluating (s : State) (f : Nat) : Option (FeederCfg × Nat) :=
  (s.feeder f).evalOpen.bind (fun e => ((s.imgAt (f / 64) e).feeder f).map (fun c => (c, e)))

/-- An event inside an evaluation: the evaluation goes on up to the instance, if the event comes about there. -/
def State.within (s : State) (f inst : Nat) (p : ElemSt → ElemSt → Bool) : State :=
  match s.evaluating f with
  | none => s
  | some (c, e) =>
    let x := (s.feeder f).clearSat
    match c.order.findIdx? (fun i => i == inst) with
    | none => s
    | some k =>
      let y := x.evalTo c e s.now (k + 1)
      if x.evalNext ≤ k ∧ p (x.elem inst) (y.elem inst) then s.updFeeder f (fun _ => y) else s

/-- The operate output of a phase asserts. -/
def opRises (ph : Nat) (a b : ElemSt) : Bool := !(a.ph.getD ph {}).op && (b.ph.getD ph {}).op

/-- The instance is inverse-time. -/
def ElemCfg.isInverse (g : ElemCfg) : Bool := match g.kind with | .thr _ k => decide (k.curve ≠ .definite) | _ => false

def State.elemCfg (s : State) (f inst : Nat) : Option ElemCfg :=
  (s.evaluating f).bind (fun p => Tab.find p.1.elems inst)

/-- ELEMENT_DELAY_EXPIRY of a feeder's instance (R112). -/
def State.delayExpiry (s : State) (f inst ph : Nat) : State :=
  match s.elemCfg f inst with
  | some g => if g.isInverse then s else s.within f inst (opRises ph)
  | none => s

/-- INTEGRATOR_FULL (R117). -/
def execIntegratorFull (f inst ph : Nat) (s : State) : Host.Outcome State Fault Refusal :=
  .next (match s.elemCfg f inst with
    | some g => if g.isInverse then s.within f inst (opRises ph) else s
    | none => s)

/-- DEFINITE_RESET_EXPIRY: tdr has elapsed since the drop-off, so T or g becomes 0 (R112, R117). -/
def execDefiniteResetExpiry (f inst ph : Nat) (s : State) : Host.Outcome State Fault Refusal :=
  .next (s.within f inst (fun a b =>
    let p := a.ph.getD ph {}
    let q := b.ph.getD ph {}
    !q.started && !b.blocked && (decide (p.t ≠ 0) && decide (q.t = 0) || decide (p.g ≠ 0) && decide (q.g = 0))))

/-- BLOCK_HOLD_EXPIRY: the 256 epochs through a block have passed (R104). -/
def execBlockHoldExpiry (f inst : Nat) (s : State) : Host.Outcome State Fault Refusal :=
  .next (s.within f inst (fun a b => a.blocked && b.blocked && decide (0 < a.hold) && decide (b.hold = 0)))

/-- MEMORY_EXPIRY: more than 1,024 epochs have passed since the memory was stored (R122). -/
def execMemoryExpiry (f inst : Nat) (s : State) : Host.Outcome State Fault Refusal :=
  .next (match s.evaluating f, ((s.feeder f).elem inst).mem with
    | some (_, e), some m =>
      if m.2.2.1 + 1024 < e then s.updFeeder f (fun x => x.updElem inst (fun el => { el with mem := none })) else s
    | _, _ => s)

/-- CROSS_BLOCK_HOLD_EXPIRY (R132). -/
def execCrossBlockHoldExpiry (f inst : Nat) (s : State) : Host.Outcome State Fault Refusal :=
  .next (s.within f inst (fun a b => a.crossT.isSome && b.crossT.isNone))

/-- RETRIP_DELAY: T reaches t1 (R153). -/
def execRetripDelay (f inst : Nat) (s : State) : Host.Outcome State Fault Refusal :=
  .next (s.within f inst (fun a b => !bitOf a.bits 1 && bitOf b.bits 1))

/-- BACKTRIP_DELAY: T reaches t2 (R153). -/
def execBacktripDelay (f inst : Nat) (s : State) : Host.Outcome State Fault Refusal :=
  .next (s.within f inst (fun a b => !bitOf a.bits 2 && bitOf b.bits 2))

/-- MINIMUM_PULSE_EXPIRY: tp has passed since RETRIP or BACKTRIP asserted and its condition is gone (R153). -/
def execMinimumPulseExpiry (f inst : Nat) (back : Bool) (s : State) : Host.Outcome State Fault Refusal :=
  .next (
    let bit := if back then 2 else 1
    match s.elemCfg f inst with
    | some g => match g.kind with
      | .bf k =>
        let el := (s.feeder f).elem inst
        let ta := if back then el.taB else el.taR
        (s.advanceTo (ta + (k.tp * 1200000000).floor.toNat)).within f inst (fun a b => bitOf a.bits bit && !bitOf b.bits bit)
      | _ => s
    | none => s)

/-- CURRENT_CHECK_SAMPLE_CLEAR: 48 epochs without a sample at the level clear the check (R152). -/
def execCurrentCheckSampleClear (f inst : Nat) (s : State) : Host.Outcome State Fault Refusal :=
  .next (match s.evaluating f, s.elemCfg f inst with
    | some (c, e), some g => match g.kind with
      | .bf k =>
        if ((s.feeder f).ctx c e s.now).bfQuiet k then s.within f inst (fun a b => a.check && !b.check) else s
      | _ => s
    | _, _ => s)

/-- FAULT_LOCATOR_CAPTURE: the phasors of Es + 64 or Es + 128 (R157). -/
def execFaultLocatorCapture (f inst : Nat) (s : State) : Host.Outcome State Fault Refusal :=
  .next (s.within f inst (fun a b =>
    (a.fl.halfCap.isNone && b.fl.halfCap.isSome) || (a.fl.fullCap.isNone && b.fl.fullCap.isSome)))

end Sys2Proof.Machine
end

