-- ==== Sys2Proof/Machine/Board.lean ====
section
/-! DEFINITION. Bursts at the due angle, the section board, and the end of a feeder's evaluation (R15, R16, R83, R84,
R161 to R165, R203, R204, R253). -/

namespace Sys2Proof.Machine

/-! ## Angles of an epoch -/

/-- Ingress delay of section `k` for epoch `e` (R15). -/
def State.delayOf (s : State) (k e : Nat) : Nat := ((s.imgAt k e).sec k).delay

/-- Due angle and evaluation deadline of epoch `e` in ticks (R15), and the contribution cutoff (R162). -/
def State.dueAngle (s : State) (k e : Nat) : Nat := 512 * (e + s.delayOf k e)
def State.deadlineAngle (s : State) (k e : Nat) : Nat := 512 * (e + s.delayOf k e + 1)
def State.cutoffAngle (s : State) (k e : Nat) : Nat := s.deadlineAngle k e - 128

/-- The core clock on which the section's angle reaches `a`. -/
def State.angleClk (s : State) (k a : Nat) : Nat := (s.sec k).clockOf ((a : Nat) : Rat)

/-- The section's angle has reached `a`: what comes on this core clock comes late (R35). -/
def State.arrived (s : State) (k a : Nat) : Bool := decide (((a : Nat) : Rat) ≤ s.theta k)

/-- The section's angle has passed `a`. -/
def State.past (s : State) (k a : Nat) : Bool := decide (((a : Nat) : Rat) < s.theta k)

/-! ## The section board (R161) -/

/-- The page of an epoch. -/
def SecSt.page (x : SecSt) (e : Nat) : Page :=
  let p := Tab.get x.pages {} (e % 32)
  if p.epoch = e then p else { epoch := e }

def State.updPage (s : State) (k e : Nat) (f : Page → Page) : State :=
  s.updSec k (fun x => { x with pages := Tab.set x.pages (e % 32) (f (x.page e)) })

/-- Validity invalid with SUBST set (R163). -/
def Quality.substBad : Quality := ⟨.invalid, false, true⟩

/-- A substituted measurement part and element part (R163). -/
def MeasPart.substituted : MeasPart :=
  { samples := List.replicate 4 (0, Quality.substBad), full := List.replicate 4 ⟨0, 0⟩, half := List.replicate 4 ⟨0, 0⟩
    q := List.replicate 4 Quality.substBad, qHalf := List.replicate 4 Quality.substBad, subst := true }
def ElemPart.substituted : ElemPart := { backtripQ := Quality.substBad, subst := true }

/-- The measurement part of the feeder's present epoch (R161); a missing sample is written invalid. -/
def FeederSt.measPart (x : FeederSt) : MeasPart :=
  { samples := (List.range 4).map (fun n =>
      let w := ((x.wins.getD n []).head?).getD {}
      (w.v, if w.filled then Quality.bad else w.q))
    full := (List.range 4).map x.meas.y1
    half := (List.range 4).map x.meas.h1
    sat := x.satBits
    q := (List.range 4).map (fun n => x.meas.qOf [n])
    qHalf := (List.range 4).map (fun n => x.meas.qHalfOf [n]) }

/-- The instances of feeder `f` that interlocking groups of its section name (R176). -/
def SectionCfg.sendersOf (c : SectionCfg) (f : Nat) : List Nat :=
  ((c.zsi.flatMap id).filter (fun p => p.1 == f)).map Prod.snd

/-- The feeder's BF instance. -/
def FeederCfg.bfOf (c : FeederCfg) : Option Nat :=
  (c.elems.find? (fun p => match p.2.kind with | .bf _ => true | _ => false)).map Prod.fst

/-- The light inputs of the feeder's tile, as bits (R232). -/
def State.lightMask (s : State) (f : Nat) : Nat :=
  match s.tileOf f with
  | some (lane, a) => ((s.tileCfg lane a).map (fun t => t.light)).getD 0
  | none => 0

/-- INn of a feeder (R207). -/
def inSig (f n : Nat) : Nat := feederSig f (48 + n)

/-- The element part of a feeder (R161), from its output signals; START carries the quality of the evaluation, OP that of its
signal, which may be a commit's (R199); a forced input or output contributes as forced (R226). -/
def State.elemPart (s : State) (k e f : Nat) (c : FeederCfg) : ElemPart :=
  let lights := s.lightMask f
  let starts := (((s.imgAt k e).sec k).sendersOf f).map (fun i =>
    let g := s.instSig f i
    (i, g.bit 0, g.bit 1, if s.forcedSig (feederSig f i) then g.q else ((s.feeder f).elem i).q, g.q))
  let bt := match c.bfOf with
    | some i => s.instSig f i
    | none => Entry.mk' 0 Quality.ok
  { starts := starts, backtrip := bt.bit 2, backtripQ := bt.q
    lights := ((List.range 16).filter (fun n => bitOf lights n)).map (fun n =>
      let g := s.sig (inSig f n)
      (n, g.bit 0, g.q)) }

/-- A substitution counted, flagged and recorded (R163): part 0 measurement, 1 element. -/
def State.substRecord (s : State) (k e f part : Nat) : State :=
  (((s.incF F.SEC_STALECNT_SUBST k).setF F.SEC_SPSTAT_SUBST k 1).updSec k (fun x => { x with substNow := true })).event
    0x0501 k (f % 64) (.at e) [part]

/-! ## Tile inputs of an epoch (R253) -/

/-- State and quality of input `n` for epoch `e`, which ended at core clock `t`: of the latest up-frame tagged `e` or
earlier, for a light input the OR of the latest tag's frames. -/
def DevTile.inputAt (d : DevTile) (c : TileCfg) (p e t n : Nat) : Bool × Quality :=
  match d.hist.filter (fun h => decide (h.1 ≤ e)) with
  | [] => (false, Quality.bad)
  | h :: _ =>
    let (_, inp, any, wb, at_) := h
    let state := bitOf (if bitOf c.light n then any else inp) n
    if bitOf wb n then (false, Quality.bad)
    else if at_ + c.timeout10us * 10 * usClk < t then (false, Quality.bad)
    else if at_ + 4 * p < t then (state, Quality.quest)
    else (state, Quality.ok)

/-- The quality that the rows of R253 other than WB give a tile's inputs for epoch `e`: 0 good, 1 questionable, 2 invalid (R312). -/
def DevTile.tileQual (d : DevTile) (c : TileCfg) (p e t : Nat) : Nat :=
  match d.hist.filter (fun h => decide (h.1 ≤ e)) with
  | [] => 2
  | (_, _, _, _, at_) :: _ => if at_ + c.timeout10us * 10 * usClk < t then 2 else if at_ + 4 * p < t then 1 else 0

/-- The inputs of the tile at an address written into INn of its feeder. -/
def State.writeInputs (s : State) (k e lane a : Nat) (c : TileCfg) : State :=
  let d := Tab.get (s.lane lane).tiles {} a
  let t := match (s.sec k).epochRec (e + 1) with
    | some r => r.at_
    | none => s.now
  (List.range 16).foldl (fun s n =>
    let (v, q) := d.inputAt c (s.periodClk lane) e t n
    s.putSig (inSig c.feeder n) (Entry.mk' (b2n v) q)) s

/-- Every tile of the section's chain, on the side whose tiles answer it. -/
def State.inputsOfEpoch (s : State) (k e : Nat) : State :=
  match s.img.chainOf k with
  | some (lane, c) =>
    if s.isActive then
      (List.range c.tiles.length).foldl (fun s a => s.writeInputs k e lane a (c.tiles.getD a { feeder := 0 })) s
    else s
  | none => s

/-! ## The due angle (R83, R84, R86) -/

/-- A source is lost: its record (R84). -/
def State.sourceEvent (s : State) (code f : Nat) (e : EvEpoch) (src : Bool × Nat) : State :=
  s.event code f 0xFFFF e ([b2n src.1] ++ le2 src.2)

def FeederSt.updSrc (x : FeederSt) (i : Nat) (g : SrcSt → SrcSt) : FeederSt :=
  { x with srcs := (List.range 2).map (fun j => if j = i then g (x.src j) else x.src j) }

/-- One source at the due angle of epoch `e`: present, missing, lost from the 17th epoch on, or returned (R84). -/
def State.dueSource (s : State) (f e i : Nat) (src : Bool × Nat) : State :=
  let x := s.feeder f
  if (x.burst i e).isSome then
    let s := if (x.src i).lost then s.sourceEvent 0x0302 f (.at e) src else s
    s.updFeeder f (fun x => x.updSrc i (fun _ => {}))
  else
    let lose := !(x.src i).lost && decide (16 ≤ (x.src i).missRun)
    let s := s.updFeeder f (fun x => x.updSrc i (fun y => { missRun := y.missRun + 1, lost := y.lost || lose }))
    if lose then s.sourceEvent 0x0301 f (.at e) src else s

/-- The form of the epoch: 0 whole, 1 half, 2 empty (R83). -/
def FeederSt.formOf (x : FeederSt) (c : FeederCfg) (e : Nat) : Nat :=
  let n := c.sources.length
  let gone := ((List.range n).filter (fun i => (x.burst i e).isNone && !(x.src i).lost)).length
  if gone = 0 then 0 else if gone < n then 1 else 2

/-- The signals as a table. -/
def State.snapshot (s : State) (ids : List Nat) : Tab Entry := ids.foldl (fun t id => Tab.set t id (s.sig id)) []

/-- The recorder's channels of a feeder that come from its source `i`: group and channel (R330). -/
def Image.rowChans (m : Image) (f : Nat) (c : FeederCfg) (i : Nat) : List (Nat × Nat) :=
  ((List.range 8).filter (fun ch => (c.chan ch).isSome && c.srcOf ch == i)).filterMap (fun ch => (c.chan ch).map (fun g =>
    match g.src with
    | .conv ain _ => (0, ain)
    | .stream j => (2 + ((Tab.find m.svSubs j).map (fun (b : SvSub) => b.rate)).getD 0, 8 * f + ch)))

/-- The quantities missing in an epoch are invalid in the disturbance record: the values of the absent sources from its sample
instant to the next (R83, R330). -/
def State.voidRows (s : State) (k e f : Nat) (c : FeederCfg) : State :=
  let gone := (List.range c.sources.length).filter (fun i => ((s.feeder f).burst i e).isNone)
  if gone.isEmpty then s
  else
    let l := gone.flatMap (fun i => (s.imgAt k e).rowChans f c i)
    let at_ (e : Nat) : Nat := (((s.sec k).epochRec e).map (fun r => r.at_)).getD s.now
    let (a, b) := (at_ e, at_ (e + 1))
    s.updSec k (fun x => { x with rows := x.rows.map (fun (r : DrCell) =>
      if decide (a ≤ r.at_) && decide (r.at_ < b) && l.contains (r.grp, r.chan) then { r with word := 0xFFFFFFFF } else r) })

/-- The evaluation of a feeder starts: forms, windows, measurement (R83, R86). -/
def State.dueFeeder (s : State) (k e f : Nat) (c : FeederCfg) : State :=
  let s := ((List.zip (List.range c.sources.length) c.sources).foldl (fun s p => s.dueSource f e p.1 p.2) s).voidRows k e f c
  let form := (s.feeder f).formOf c e
  let s := if form = 1 then s.incF F.SEC_HALFCNT_HALF k else if form = 2 then s.incF F.SEC_HALFCNT_EMPTY k else s
  let at_ := (((s.sec k).epochRec e).map (fun r => r.at_)).getD s.now
  let nom : Rat := (((s.imgAt k e).sec k).nomFreq : Rat) / 10000
  let dt := s.epochDur k e
  let reads := s.snapshot c.readIds
  s.updFeeder f (fun x =>
    let x := { x with form := form, lateParts := x.lateParts + b2n x.measOpen.isSome }
    let y := (x.pushEpoch c e).measure c e nom at_
    { y with measOpen := some e, evalOpen := some e, evalNext := 0, saved := x.elems, reads := reads, dt := dt })

/-- A staged ply waits for a grid sample of epoch `e` of the section (R198 MISS). -/
def Ply.waitsGrid (p : Ply) (k e : Nat) : Bool := p.deps.any (fun d => d.feeder / 64 == k && !d.urgent && d.wait.contains e)

/-- The signals that the differential reads: isolators and the block input (R170, R171). -/
def Image.bdReads (m : Image) (k : Nat) : List Nat :=
  (m.feedersOf k).filterMap (fun p => match p.2.zone with | .isolator i => some i | _ => none) ++
    (match (m.sec k).bd.block with | some b => [b.id] | none => [])

/-- The signals that the section evaluation reads: those of the differential, other sections' BACKTRIP (R171, R182). -/
def Image.sectionReads (m : Image) (k : Nat) : List Nat :=
  m.bdReads k ++
    (m.feeders.filter (fun p => p.1 / 64 != k)).filterMap (fun p => p.2.bfOf.map (fun i => feederSig p.1 i))

/-- Element parts of epoch `e - 1` that are not on the board are substituted (R163); before the grid and for a feeder
that the epoch before did not have without count, flag or record. -/
def State.substElems (s : State) (k e : Nat) : State :=
  if e = 0 then s else
  ((s.imgAt k e).feedersOf k).foldl (fun s p =>
    if (Tab.find ((s.sec k).page (e - 1)).elem p.1).isSome then s
    else
      let s := s.updPage k (e - 1) (fun g => { g with elem := Tab.set g.elem p.1 ElemPart.substituted })
      if (((s.imgAt k (e - 1)).feeder p.1)).isSome then s.substRecord k (e - 1) p.1 1 else s) s

/-- An instance under a new image: its state where the number and the type stay, else its reset state (R376). -/
def FeederSt.adopt (x : FeederSt) (old : Option FeederCfg) (c : FeederCfg) : FeederSt :=
  { x with elems := c.elems.map (fun (p : Nat × ElemCfg) =>
      let same := match old.bind (fun o => Tab.find o.elems p.1) with
        | some g => g.kind.class_ == p.2.kind.class_
        | none => false
      (p.1, if same then x.elem p.1 else p.2.fresh)) }

/-- Signals of a feeder that the image no longer populates read as absent (R206, R376). -/
def State.clearSigs (s : State) (f : Nat) : State :=
  let keep (p : Nat × Entry) : Bool := p.1 / 80 != f || decide (122880 ≤ p.1) || s.populated p.1
  { s with sigs := s.sigs.filter keep, hidden := s.hidden.filter keep }

/-- The first epoch of a new configuration of a section (R376): the states of its instances, its signals, and the feeders
that it no longer has. -/
def State.adopt (s : State) (k : Nat) : State :=
  match s.oldCfg with
  | none => s
  | some o =>
    let m := s.img
    let s := (m.feedersOf k).foldl (fun s p => s.updFeeder p.1 (fun x => x.adopt (o.feeder p.1) p.2)) s
    let gone := ((o.feedersOf k).map Prod.fst).filter (fun f => (m.feeder f).isNone)
    let s := gone.foldl (fun s f =>
      let e := (s.feeder f).engine
      (({ s with feeders := Tab.del s.feeders f } : State).syncEngine e)) s
    ((o.feedersOf k).map Prod.fst).foldl (fun s f => s.clearSigs f) s

/-- DATA_DUE: the due angle of the next epoch is reached. -/
def State.dataDue (s : State) (k : Nat) : State :=
  let x := s.sec k
  let e := x.nextDue
  if !x.running || decide (x.nextDeadline ≠ e) || decide (x.nextSample < e + s.delayOf k e) then s
  else
    let s := s.advanceTo (s.angleClk k (s.dueAngle k e))
    let s := if e = x.cfgFrom then s.adopt k else s
    let m := s.imgAt k e
    let s := s.updSec k (fun x => { x with nextDue := e + 1, evalOpen := some e, substNow := false, reads := s.snapshot (m.sectionReads k) })
    let s := s.updPage k e (fun _ => { epoch := e })
    let s := s.inputsOfEpoch k e
    let s := s.squashAll .other (fun p => p.waitsGrid k e)
    let s := (m.feedersOf k).foldl (fun s p => s.dueFeeder k e p.1 p.2) s
    (s.substElems k e).published

def execDataDue (k : Nat) (s : State) : Host.Outcome State Fault Refusal := .next (s.dataDue k)

/-- SOURCE_LOST: a source's burst has been missing in 16 consecutive epochs (R84). -/
def execSourceLost (f i : Nat) (s : State) : Host.Outcome State Fault Refusal :=
  .next (match (s.img.feeder f).bind (fun c => c.sources[i]?) with
    | some src =>
      if decide (16 ≤ ((s.feeder f).src i).missRun) && !((s.feeder f).src i).lost then
        (s.updFeeder f (fun x => x.updSrc i (fun y => { y with lost := true }))).sourceEvent 0x0301 f (.sec (f / 64)) src
      else s
    | none => s)

/-! ## Measurement parts (R161 to R164) -/

/-- A part discarded as late (R164). -/
def State.lateCount (s : State) (k : Nat) : State := s.incF F.SEC_STALECNT_LATE k

/-- The measurement part of the feeder's present epoch has no place on the board any more. -/
def State.partLate (s : State) (k e f : Nat) : Bool :=
  s.past k (s.cutoffAngle k e) || (Tab.find ((s.sec k).page e).meas f).isSome

/-- Parts on the board that the master has not taken yet: it takes the measurement parts of an epoch and the element parts of the one
before it in that epoch's window (R162, R396; log entry 162). The board takes 256. -/
def State.boardFill (s : State) (k : Nat) : Nat :=
  let x := s.sec k
  ((List.range 3).map (fun i => (x.page (x.nextDeadline + i)).meas.length + (x.page (x.nextDeadline + i - 1)).elem.length)).sum
def State.boardRoom (s : State) (k : Nat) : Bool := decide (s.boardFill k < 256)

/-- MEASUREMENT_PART_WRITE: the part reaches the board, or is discarded after its due angle. -/
def State.writeMeas (s : State) (f : Nat) : State :=
  match (s.feeder f).measOpen with
  | none => s
  | some e =>
    let k := f / 64
    let late := s.partLate k e f
    let part := (s.feeder f).clearSat.measPart
    let s := s.updFeeder f (fun x => { x.clearSat with measOpen := none })
    if late || !s.boardRoom k then s.lateCount k
    else (s.updPage k e (fun g => { g with meas := Tab.set g.meas f part })).brim F.DEV_BRIM1_BOARD (s.boardFill k + 1)

def execMeasurementPartWrite (f : Nat) (s : State) : Host.Outcome State Fault Refusal := .next (s.writeMeas f)

/-- CONTRIBUTION_CUTOFF: missing measurement parts are substituted (R163). -/
def State.cutoff (s : State) (k : Nat) : State :=
  match (s.sec k).evalOpen with
  | none => s
  | some e =>
    let s := s.advanceTo (s.angleClk k (s.cutoffAngle k e))
    ((s.imgAt k e).feedersOf k).foldl (fun s p =>
      if (Tab.find ((s.sec k).page e).meas p.1).isSome then s
      else (s.updPage k e (fun g => { g with meas := Tab.set g.meas p.1 MeasPart.substituted })).substRecord k e p.1 0) s

def execContributionCutoff (k : Nat) (s : State) : Host.Outcome State Fault Refusal := .next (s.cutoff k)

/-- The feeder of a section whose measurement part is late: overtaken by the next epoch, or past its cutoff. -/
def State.lateFeeder (s : State) (k : Nat) : Option Nat :=
  ((s.feeders.filter (fun p => p.1 / 64 == k)).find? (fun p => decide (0 < p.2.lateParts) ||
    (match p.2.measOpen with | some e => s.partLate k e p.1 | none => false))).map Prod.fst

/-- LATE_CONTRIBUTION: a part after its due angle is discarded and counted (R164). -/
def State.lateContribution (s : State) (k : Nat) : State :=
  match s.lateFeeder k with
  | none => s
  | some f =>
    (s.updFeeder f (fun x => if 0 < x.lateParts then { x with lateParts := x.lateParts - 1 } else { x with measOpen := none })).lateCount k

def execLateContribution (k : Nat) (s : State) : Host.Outcome State Fault Refusal := .next (s.lateContribution k)

/-! ## The end of a feeder's evaluation -/

/-- A state quantity of the normal evaluation lies within the ply's enclosure, between its values at the two bounds of the
run (R203). -/
def within (a b v : Rat) : Bool := decide (minQ a b ≤ v) && decide (v ≤ maxQ a b)
def PhSt.enclosed (p lo hi : PhSt) : Bool :=
  within lo.t hi.t p.t && within lo.g hi.g p.g && within lo.u hi.u p.u && within lo.w hi.w p.w

/-- The phases whose state a commit holds: those whose operate outputs it asserts, all of them where it asserts no phase's
(R191, R192). -/
def Commit.phases (c : Commit) : List Nat :=
  (List.range 4).filter (fun i => c.bits / 32 % 8 == 0 || (decide (i < 3) && bitOf c.bits (5 + i)))

/-- The normal evaluation agrees with the commit: the outputs that it asserted, and its state quantities (R203). -/
def ElemSt.agrees (el : ElemSt) (c : Commit) : Bool :=
  decide (el.bits &&& c.bits = c.bits) &&
    c.phases.all (fun i => (el.ph.getD i {}).enclosed (c.lo.getD i {}) (c.hi.getD i {})) &&
    (!c.active || (el.active && within c.bfLo c.bfHi el.bfT))

/-- A divergence: DIVERGE, RANKDIV, PE_DIVINFO and the record (R203). -/
def State.diverge (s : State) (eng inst target : Nat) (mark : Bool) : State :=
  let s := (s.setF F.PE_PLYSTAT_DIVERGE eng 1).setF F.SEC_PLYSTAT_RANKDIV (eng / 8) 1
  let s := ((s.setF F.PE_DIVINFO_AUDIT eng (b2n mark)).setF F.PE_DIVINFO_INST eng inst).setF F.PE_DIVINFO_TEPOCH eng target
  s.event 0x0601 eng inst (.at target) [b2n mark]

/-- The check of R203 for one instance at the end of epoch `e`. -/
def State.checkCommit (s : State) (f e i : Nat) : State :=
  match ((s.feeder f).elem i).committed with
  | none => s
  | some c =>
    if c.target ≠ e then s
    else
      let ok := ((s.feeder f).elem i).agrees c
      let s := s.updFeeder f (fun x => x.updElem i (fun el => { el with committed := none }))
      if ok then s else s.diverge (s.feeder f).engine i e c.mark

/-- Outputs and quality of an instance as its signal shows them: those committed for a later epoch stand beside the others of
the normal evaluation, with the quality of the commit (R199). -/
def ElemSt.shown (el : ElemSt) : Nat × Quality :=
  match el.committed with
  | some c => (el.bits ||| c.bits, c.q)
  | none => (el.bits, el.q)

/-- The outputs of an instance written to the signal table, with the record of an operation. -/
def State.putInst (s : State) (f e i : Nat) (g : ElemCfg) : State :=
  let (bits, q) := ((s.feeder f).elem i).shown
  let old := (s.sigBelow (feederSig f i)).value.toNat
  let m := g.kind.opMask
  let s := s.putSig (feederSig f i) (Entry.mk' bits q)
  if (bits &&& m) &&& old = bits &&& m then s
  else s.event 0x0402 f i (.at e) [bits % 256, q.code, 0]

/-- THETA, and DIST, XLOOP and LOOP with their record (R135, R159). -/
def State.putExtra (s : State) (f e i : Nat) (g : ElemCfg) : State :=
  let el := (s.feeder f).elem i
  match g.kind with
  | .th _ => s.putSig (feederSig f 74) (Entry.mk' (thetaSig el.theta) el.q)
  | .fl _ =>
    match el.result with
    | some (d, x, l, q) =>
      let s := ((s.putSig (feederSig f 75) (Entry.mk' (unsext 24 d) q)).putSig (feederSig f 76) (Entry.mk' (unsext 24 x) q)).putSig
        (feederSig f 77) (Entry.mk' l q)
      if bitOf el.bits 0 then
        s.event 0x0410 f i (.at e) (le4 (unsext 32 d) ++ le4 (unsext 32 x) ++ [l, q.code, b2n (bitOf el.bits 1), 0] ++
          le4 ((el.fl.es.getD e) % 2 ^ 32))
      else s
    | none => s
  | _ => s

/-- A channel of the feeder is flagged for open wire (R57, R207). -/
def State.owOfFeeder (s : State) (c : FeederCfg) : Bool := (List.range 8).any (s.owChan c)

/-- FSTAT (R207). -/
def State.putFstat (s : State) (f : Nat) (c : FeederCfg) : State :=
  let x := s.feeder f
  let v := b2n (x.form == 1) + 2 * b2n (x.form == 2) + 4 * b2n x.missed + 8 * b2n (x.satBits != 0) +
    16 * b2n (s.owOfFeeder c) + 32 * b2n (x.srcs.any (fun y => y.lost))
  s.putSig (feederSig f 78) (Entry.mk' v Quality.ok)

/-- The largest present run of missed deadlines of an engine's feeders (PE_DLCNT.CONSEC). -/
def State.syncConsec (s : State) (eng : Nat) : State :=
  s.setF F.PE_DLCNT_CONSEC eng (min 255 ((s.feeders.filter (fun p => p.2.engine == eng)).foldl (fun a p => max a p.2.missRun) 0))

/-- FEEDER_EVALUATION_COMPLETE (R17, R161, R203): outputs, element part, change frames. -/
def State.evalComplete (s : State) (f : Nat) : State :=
  match s.evaluating f with
  | none => s
  | some (c, e) =>
    let k := f / 64
    if s.past k (s.deadlineAngle k e) then s
    else
      let s := s.updFeeder f (fun x =>
        let y := x.clearSat.evalTo c e s.now c.order.length
        { y with evalOpen := none, saved := [], reads := [], missRun := 0, missed := false })
      let s := s.squashAll .super (fun p => p.sec.isNone && p.feeder == f && decide (p.target ≤ e))
      let old := s
      let s := c.elems.foldl (fun s p => ((s.checkCommit f e p.1).putInst f e p.1 p.2).putExtra f e p.1 p.2) s
      let s := s.putFstat f c
      let part := s.elemPart k e f c
      let s := if s.boardRoom k then
          (s.updPage k e (fun g => { g with elem := Tab.set g.elem f part })).brim F.DEV_BRIM1_BOARD (s.boardFill k + 1)
        else s.lateCount k
      let s := (s.updEngine (s.feeder f).engine (fun g => { g with roundDue := true })).syncConsec (s.feeder f).engine
      (s.queueChanges old).published

def execFeederEvaluationComplete (f : Nat) (s : State) : Host.Outcome State Fault Refusal := .next (s.evalComplete f)

/-! ## A missed deadline (R204) -/

/-- The state that an element takes over a missed deadline: that of a commit for the epoch, else that before it. -/
def ElemSt.held (old : ElemSt) (c : Option Commit) (e : Nat) : ElemSt :=
  match c with
  | some c =>
    if c.target = e then
      { old with ph := c.lo, bits := old.bits ||| c.bits, active := old.active || c.active, bfT := if c.active then c.bfLo else old.bfT,
                 committed := none }
    else { old with committed := some c }
  | none => { old with committed := none }

/-- Every output of the feeder held, with a quality added: those of its instances, with THETA, DIST, XLOOP and LOOP (R135). -/
def State.holdOutputs (s : State) (f : Nat) (c : FeederCfg) (q : Quality) : State :=
  (c.elems.map Prod.fst ++ [74, 75, 76, 77].filter (fun o => s.populated (feederSig f o))).foldl (fun s o =>
    let g := s.sigBelow (feederSig f o)
    s.putSig (feederSig f o) { g with q := g.q.join q, forced := false }) s

/-- An unfinished evaluation of epoch `e` is abandoned at its deadline. -/
def State.missFeeder (s : State) (e f : Nat) (c : FeederCfg) : State :=
  let x := s.feeder f
  if x.evalOpen ≠ some e then s
  else
    let run := x.missRun + 1
    let elems := c.elems.map (fun p => (p.1, (Tab.get x.saved {} p.1).held ((x.elem p.1).committed) e))
    let s := s.updFeeder f (fun x => { x with
      elems := elems, evalOpen := none, saved := [], reads := [], missRun := run, missed := true })
    let s := s.holdOutputs f c (if 128 < run then Quality.bad else Quality.quest)
    let s := s.putFstat f c
    let s := (((s.setF F.PE_PLYSTAT_DLMISS x.engine 1).incF F.PE_DLCNT_MISS x.engine)).syncConsec x.engine
    s.event 0x0602 f 0xFFFF (.at e) (le2 (min run 0xFFFF))

/-- MISS_RUN_INVALID: from the 128th consecutive missed epoch the outputs carry invalid (R204). -/
def execMissRunInvalid (f : Nat) (s : State) : Host.Outcome State Fault Refusal :=
  .next (match s.img.feeder f with
    | some c => if 128 ≤ (s.feeder f).missRun then (s.holdOutputs f c Quality.bad).published else s
    | none => s)

end Sys2Proof.Machine
end

