-- ==== Sys2Proof/Machine/Section.lean ====
section
/-! DEFINITION. Section protection: bus differential, interlocking, arc zones, section trip, the master and its rotation
(R165 to R182). -/

namespace Sys2Proof.Machine

/-! ## What a section evaluation reads -/

/-- A section evaluation: settings, feeders, parts, signals as they stood, duration and clock. -/
structure SecCtx where
  k : Nat
  c : SectionCfg
  m : Image
  meas : Tab MeasPart
  elem : Tab ElemPart
  reads : Tab Entry
  /-- Sections whose configuration version is that of section `k` (R182). -/
  same : List Nat
  dt : Rat
  now : Nat

def SecCtx.feeders (x : SecCtx) : List (Nat × FeederCfg) := x.m.feedersOf x.k
def SecCtx.part (x : SecCtx) (f : Nat) : MeasPart := Tab.get x.meas MeasPart.substituted f
def SecCtx.epart (x : SecCtx) (f : Nat) : ElemPart := Tab.get x.elem ElemPart.substituted f
def SecCtx.sig (x : SecCtx) (id : Nat) : Entry := Tab.get x.reads Entry.absent id

/-! ## Zones (R171) -/

/-- Main-zone membership in the epoch, with the quality that an isolator adds. -/
def SecCtx.inMain (x : SecCtx) (g : FeederCfg) : Bool × Quality :=
  if !g.has3 0 then (false, Quality.ok)
  else match g.zone with
    | .no => (false, Quality.ok)
    | .yes => (true, Quality.ok)
    | .isolator i =>
      let e := x.sig i
      if e.q.usable then (decide (e.value = 1), e.q) else (true, { e.q with validity := .questionable })

def SecCtx.main (x : SecCtx) : List (Nat × FeederCfg) := x.feeders.filter (fun p => (x.inMain p.2).1)
def SecCtx.check (x : SecCtx) : List (Nat × FeederCfg) := x.feeders.filter (fun p => p.2.inCheck && p.2.has3 0)
def SecCtx.isoQual (x : SecCtx) : Quality := Quality.joins (x.feeders.map (fun p => (x.inMain p.2).2))

/-- The phasor of a feeder's phase under the measurement setting, its sign by polarity, and its quality. -/
def SecCtx.phasor (x : SecCtx) (f p : Nat) : Disc :=
  let m := x.part f
  if x.c.bd.half then ⟨m.half.getD p ⟨0, 0⟩, m.rHalf.getD p 0⟩ else ⟨m.full.getD p ⟨0, 0⟩, m.rFull.getD p 0⟩
def SecCtx.phasorQ (x : SecCtx) (f p : Nat) : Quality :=
  let m := x.part f
  if x.c.bd.half then m.qHalf.getD p Quality.bad else m.q.getD p Quality.bad

/-- Id and Ir of a zone in phase `p` (R172). -/
def SecCtx.diff (x : SecCtx) (l : List (Nat × FeederCfg)) (p : Nat) : Mag :=
  (l.foldl (fun (a : Disc) g => a.add (if g.2.reversed then (x.phasor g.1 p).neg else x.phasor g.1 p)) ⟨⟨0, 0⟩, 0⟩).mag
def SecCtx.restraint (x : SecCtx) (l : List (Nat × FeederCfg)) (p : Nat) : Mag :=
  l.foldl (fun (a : Mag) g => let m := (x.phasor g.1 p).mag; ⟨a.lo + m.lo, a.hi + m.hi⟩) ⟨0, 0⟩
def SecCtx.zoneQual (x : SecCtx) (l : List (Nat × FeederCfg)) (p : Nat) : Quality :=
  Quality.joins (l.map (fun g => x.phasorQ g.1 p))

/-- A saturation flag of phase `p` of a main-zone member is set (R173). -/
def SecCtx.saturated (x : SecCtx) (p : Nat) : Bool := x.main.any (fun g => bitOf (x.part g.1).sat p)

/-! ## Bus differential (R172 to R175) -/

/-- A zone's start: thresholds times the reset ratio while started (R172). -/
def zoneOn (c : BdCfg) (ib kk : Rat) (started : Bool) (d r : Mag) : Bool :=
  let f := if started then c.r else 1
  decide (f * c.idmin * ib ≤ d.lo) && decide (f * kk * r.hi ≤ d.lo)

/-- The block input of the differential: blocks, and is invalid (R110, R170). -/
def SecCtx.blockIn (x : SecCtx) : Bool := match x.c.bd.block with | some b => (x.sig b.id).counts b.bit | none => false
def SecCtx.blockBad (x : SecCtx) : Bool := match x.c.bd.block with | some b => !(x.sig b.id).q.usable | none => false

/-- Main-zone and check-zone quality of a phase. -/
def SecCtx.qMain (x : SecCtx) (p : Nat) : Quality :=
  ((x.zoneQual x.main p).join x.isoQual).join (Quality.when x.blockBad Quality.quest)
def SecCtx.qCheck (x : SecCtx) (p : Nat) : Quality := (x.zoneQual x.check p).join (Quality.when x.blockBad Quality.quest)

def SecCtx.mainBlocked (x : SecCtx) (p : Nat) : Bool := !(x.qMain p).usable
def SecCtx.checkBlocked (x : SecCtx) (p : Nat) : Bool := !(x.qCheck p).usable

/-- The starts of both zones in phase `p` (R172, R173). -/
def SecCtx.bdStart (x : SecCtx) (o : MasterSt) (p : Nat) : Bool :=
  let started := o.bdStart.getD p false
  let kk := if !started && x.saturated p then x.c.bd.ksat else x.c.bd.k
  !x.blockIn && !x.mainBlocked p && zoneOn x.c.bd x.c.ibase kk started (x.diff x.main p) (x.restraint x.main p)
def SecCtx.czStart (x : SecCtx) (o : MasterSt) (p : Nat) : Bool :=
  !x.blockIn && !x.checkBlocked p &&
    zoneOn x.c.bd x.c.ibase x.c.bd.kc (o.czStart.getD p false) (x.diff x.check p) (x.restraint x.check p)

/-- Epochs left of a hold through a block, in an epoch of it (R104). -/
def holdNext (blocked : Bool) (hold : Nat) (op : Bool) : Nat := if blocked then hold - 1 else if op then 256 else 0

/-- The alarm (R175). -/
def SecCtx.alarmT (x : SecCtx) (o : MasterSt) (start : Bool) (p : Nat) : Option Rat :=
  if !x.mainBlocked p && !start && decide (x.c.bd.ialarm * x.c.ibase ≤ (x.diff x.main p).lo) then
    some (match o.alarmT.getD p none with | some t => t + x.dt | none => 0)
  else none

def SecCtx.alarm (x : SecCtx) (o : MasterSt) (t : List (Option Rat)) : Bool :=
  if t.any (fun v => match v with | some v => decide (x.c.bd.alarmDelay ≤ v) | none => false) then true
  else if (List.range 3).all (fun p => !x.mainBlocked p && decide ((x.diff x.main p).lo < 9 / 10 * x.c.bd.ialarm * x.c.ibase)) then false
  else o.alarm

/-- The differential in an epoch. -/
def SecCtx.bd (x : SecCtx) (o : MasterSt) : MasterSt :=
  if !x.c.bd.enabled then o
  else
    let ph := [0, 1, 2]
    let bs := ph.map (x.bdStart o)
    let cs := ph.map (x.czStart o)
    let blk := ph.map (fun p => x.mainBlocked p || x.checkBlocked p)
    let run := ph.map (fun p => bs.getD p false && cs.getD p false)
    let t := ph.map (fun p => if run.getD p false && o.bdRun.getD p false then o.bdT.getD p 0 + x.dt else 0)
    let hold := ph.map (fun p =>
      if blk.getD p false then holdNext (o.bdBlk.getD p false) (o.bdHold.getD p 0) (o.bdOp.getD p false) else 0)
    let op := ph.map (fun p =>
      if blk.getD p false then decide (0 < hold.getD p 0) else run.getD p false && decide (x.c.bd.delay ≤ t.getD p 0))
    let at_ := ph.map (fun p => x.alarmT o (bs.getD p false) p)
    { o with
      bdStart := bs, czStart := cs, bdBlk := blk, bdRun := run, bdT := t, bdHold := hold, bdOp := op
      alarmT := at_, alarm := x.alarm o at_
      id_ := ph.map (fun p => (x.diff x.main p).lo), ir := ph.map (fun p => (x.restraint x.main p).lo)
      qMain := ph.map x.qMain, qCheck := ph.map x.qCheck }

/-! ## Arc zones (R178 to R180) -/

/-- Invalid replaced by questionable. -/
def Quality.soften (q : Quality) : Quality := if q.usable then q else { q with validity := .questionable }

/-- State and quality of a light input in the element part (R180). -/
def SecCtx.light (x : SecCtx) (l : Nat × Nat) : Bool × Quality :=
  match (x.epart l.1).lights.find? (fun g => g.1 == l.2) with
  | some g => g.2
  | none => (false, Quality.substBad)

/-- The phasors of a check feeder are invalid (R179). -/
def SecCtx.checkBad (x : SecCtx) (f : Nat) : Bool := !(Quality.joins ((x.part f).q.take 3)).usable

/-- A check feeder passes by its samples, or by its phasors (R179). -/
def SecCtx.passes (x : SecCtx) (iaf : Rat) (f : Nat) : Bool :=
  match x.m.feeder f with
  | none => false
  | some g =>
    let m := x.part f
    let thr := iaf * g.inA
    let s (n : Nat) := m.samples.getD n (0, Quality.bad)
    let low (n : Nat) := maxQ 0 (absQ (s n).1 - m.rSmp.getD n 0)
    let route1 := ([0, 1, 2].all (fun n => (s n).2.usable)) && [0, 1, 2].any (fun n => decide (3 / 2 * thr * thr ≤ low n * low n))
    let route2 := [0, 1, 2].any (fun n => decide (thr ≤ (Disc.mag ⟨m.full.getD n ⟨0, 0⟩, m.rFull.getD n 0⟩).lo))
    !x.checkBad f && (route1 || route2)

/-- Check feeders of an arc zone, by default the incomers of the section, and its trip targets, by default the check feeders
(R178). -/
def Image.incomers (m : Image) (k : Nat) : List Nat := ((m.feedersOf k).filter (fun p => decide (p.2.role = .incomer))).map Prod.fst
def Image.arcChecks (m : Image) (k : Nat) (c : ArcCfg) : List Nat := c.checks.getD (m.incomers k)
def Image.arcTargets (m : Image) (k : Nat) (c : ArcCfg) : List Nat := c.targets.getD (m.arcChecks k c)

/-- Arc zone `c` in an epoch. AF_OPz stays at least 100 ms, through a block too; a block resets the light timer (R104, R180). -/
def SecCtx.arc (x : SecCtx) (c : ArcCfg) (o : ArcSt) : ArcSt :=
  let checks := x.m.arcChecks x.k c
  let ls := c.lights.map x.light
  let light := ls.any (fun l => l.1 && l.2.usable)
  let pass := checks.any (x.passes c.iaf)
  let blocked := !checks.isEmpty && checks.all x.checkBad
  let on := !blocked && light && pass
  let hold := if blocked then holdNext o.blocked o.hold o.op else 0
  let op := on || decide (0 < hold) || (o.op && decide (x.now < o.opAt + 100 * msClk))
  let t := if light && !pass && !blocked then some (match o.lightT with | some t => t + x.dt | none => 0) else none
  let q := Quality.joins (ls.map (fun l => l.2.soften) ++
    checks.map (fun f => (Quality.joins ((x.part f).q.take 3 ++ (((x.part f).samples.take 3).map Prod.snd))).soften))
  { op := op, opAt := if on && !o.op then x.now else o.opAt, blocked := blocked, hold := hold, light := light, lightT := t
    q := if blocked then { q with validity := .invalid } else q
    lwc := light && (o.lwc || (match t with | some t => decide (c.lwcDelay ≤ t) | none => false)) }

/-- The section evaluation: the new section state. -/
def SecCtx.eval (x : SecCtx) (o : MasterSt) : MasterSt :=
  { x.bd o with arcs := (List.zip (List.range x.c.arcs.length) x.c.arcs).map (fun p => x.arc p.2 (o.arcs.getD p.1 {})) }

/-! ## Interlocking (R176) -/

/-- ZSI_BLK of a group. -/
def SecCtx.zsi (x : SecCtx) (l : List (Nat × Nat)) : Bool × Quality :=
  let g := l.map (fun p => match (x.epart p.1).starts.find? (fun a => a.1 == p.2) with
    | some a => (a.2.1, a.2.2.2.1)
    | none => (false, Quality.substBad))
  (g.any (fun a => a.1 && a.2.usable && !a.2.subst), Quality.joins (g.map Prod.snd))

/-! ## Committed section plies (R199) -/

/-- The outputs as they stand for readers: with those committed for a later epoch, and their quality (R199). -/
def MasterSt.withCommits (m : MasterSt) (c : Tab Commit) : MasterSt :=
  { m with
    bdOp := (List.range 3).map (fun p => m.bdOp.getD p false || (match Tab.find c 0 with | some x => bitOf x.bits p | none => false))
    arcs := (List.zip (List.range m.arcs.length) m.arcs).map (fun p => match Tab.find c (1 + p.1) with
      | some x => { p.2 with op := true, q := x.q }
      | none => p.2) }

/-- Quality of BD_OP_x of a phase and of BD_OP: that of a commit that has asserted it, else that of the zones. -/
def MasterSt.bdOpQ (m : MasterSt) (c : Tab Commit) (p : Nat) : Quality :=
  match Tab.find c 0 with
  | some x => if bitOf x.bits p then x.q else (m.qMain.getD p {}).join (m.qCheck.getD p {})
  | none => (m.qMain.getD p {}).join (m.qCheck.getD p {})
def MasterSt.bdQ (m : MasterSt) (c : Tab Commit) : Quality :=
  match Tab.find c 0 with
  | some x => x.q
  | none => Quality.joins (m.qMain ++ m.qCheck)

/-! ## Section trip (R181, R182) -/

/-- The targets of a back-trip source: its list, or the incomers of its section. -/
def Image.backTargets (m : Image) (f : Nat) (g : FeederCfg) : List Nat :=
  match g.backtrip with
  | some l => l
  | none => m.incomers (f / 64)

/-- The back-trip sources that name a feeder of section `k`, with their BF instances. -/
def Image.backSources (m : Image) (t : Nat) : List (Nat × Nat) :=
  m.feeders.filterMap (fun p => match p.2.bfOf with
    | some i => if (m.backTargets p.1 p.2).contains t then some (p.1, i) else none
    | none => none)

/-- A cross-section route of section `k` meets another configuration version (R182). -/
def SecCtx.crossBlocked (x : SecCtx) : Bool :=
  x.m.feeders.any (fun p => p.2.bfOf.isSome && (x.m.backTargets p.1 p.2).any (fun t =>
    let a := p.1 / 64
    let b := t / 64
    a != b && (a == x.k || b == x.k) && (!x.same.contains a || !x.same.contains b)))

/-- BACKTRIP of a source for a target in this section: its state and quality, if its route carries anything. -/
def SecCtx.backtrip (x : SecCtx) (p : Nat × Nat) : Option (Bool × Quality) :=
  if p.1 / 64 = x.k then some ((x.epart p.1).backtrip, (x.epart p.1).backtripQ)
  else if x.same.contains (p.1 / 64) then
    let e := x.sig (feederSig p.1 p.2)
    some (e.bit 2, e.q)
  else none

/-- A cause of a section trip: bit of the record, state, quality, source feeder. -/
abbrev Cause := Nat × Bool × Quality × Nat

/-- The inputs that the master considers for a feeder's SECTRIP (R181); a section ply committed for a later epoch that has set
it stands in place of its element (R199). -/
def SecCtx.causes (x : SecCtx) (m : MasterSt) (com : Tab Commit) (f : Nat) (g : FeederCfg) : List Cause :=
  let set (i : Nat) := (Tab.find com i).bind (fun c => if c.targets.contains f then some c.q else none)
  (match set 0 with
    | some q => [(0, true, q, 0)]
    | none => if x.c.bd.enabled && (x.inMain g).1 then [(0, m.bdOp.any id, m.bdQ com, 0)] else []) ++
  (List.zip (List.range m.arcs.length) (List.zip x.c.arcs m.arcs)).filterMap (fun p => match set (1 + p.1) with
    | some q => some (1, true, q, 0)
    | none => if (x.m.arcTargets x.k p.2.1).contains f then some (1, p.2.2.op, p.2.2.q, 0) else none) ++
  (x.m.backSources f).filterMap (fun p => (x.backtrip p).map (fun b => (2, b.1, b.2, p.1)))

/-- Value and quality of SECTRIP (R181): a considered input is good when its whole code is 0 (R97). -/
def secTrip (l : List Cause) : Bool × Quality :=
  let on := l.filter (fun (c : Cause) => c.2.1)
  let v := !on.isEmpty
  (v, { validity := if l.all (fun (c : Cause) => decide (c.2.2.1 = Quality.ok)) then .good else .questionable
        test := v && on.all (fun (c : Cause) => c.2.2.1.test)
        subst := on.any (fun (c : Cause) => c.2.2.1.subst) })

/-! ## The evaluation within the state -/

/-- The sections whose configuration version equals that of `k`. -/
def State.sameVersion (s : State) (k : Nat) : List Nat :=
  (List.range 24).filter (fun j => s.getF F.SEC_CFGVER_VERSION j == s.getF F.SEC_CFGVER_VERSION k)

def State.secCtx (s : State) (k e : Nat) : SecCtx :=
  let x := s.sec k
  { k := k, c := (s.imgAt k e).sec k, m := s.imgAt k e, meas := (x.page e).meas
    elem := if e = 0 then [] else (x.page (e - 1)).elem
    reads := x.reads, same := s.sameVersion k, dt := s.epochDur k e, now := s.now }

/-- Every measurement part of the epoch is on the board, written or substituted. -/
def State.secReady (s : State) (k e : Nat) : Bool :=
  ((s.imgAt k e).feedersOf k).all (fun p => (Tab.find ((s.sec k).page e).meas p.1).isSome)

/-- The new section state of the open evaluation. -/
def State.secNext (s : State) (k e : Nat) : MasterSt :=
  if (s.sec k).evald then (s.sec k).mst else (s.secCtx k e).eval (s.sec k).mst

/-- An event inside the section evaluation: the evaluation is computed, if the event comes about in it. -/
def State.secWithin (s : State) (k : Nat) (p : MasterSt → MasterSt → Bool) : State :=
  match (s.sec k).evalOpen with
  | none => s
  | some e =>
    if (s.sec k).evald || !s.secReady k e then s
    else
      let m := s.secNext k e
      if p (s.sec k).mst m then s.updSec k (fun x => { x with mst := m, evald := true }) else s

/-- BD_ALARM_DELAY (R175). -/
def execBdAlarmDelay (k : Nat) (s : State) : Host.Outcome State Fault Refusal :=
  .next (s.secWithin k (fun a b => !a.alarm && b.alarm))

/-- AF_OP_HOLD_EXPIRY: 100 ms since AF_OPz asserted (R180). -/
def execAfOpHoldExpiry (k z : Nat) (s : State) : Host.Outcome State Fault Refusal :=
  .next (
    let o := (s.sec k).mst.arcs.getD z {}
    if !o.op then s
    else (s.advanceTo (o.opAt + 100 * msClk)).secWithin k (fun a b => (a.arcs.getD z {}).op && !(b.arcs.getD z {}).op))

/-- LIGHT_WITHOUT_CURRENT (R180). -/
def execLightWithoutCurrent (k z : Nat) (s : State) : Host.Outcome State Fault Refusal :=
  .next (s.secWithin k (fun a b => !(a.arcs.getD z {}).lwc && (b.arcs.getD z {}).lwc))

/-- ELEMENT_DELAY_EXPIRY of a feeder's instance or of a phase of the differential (R112, R172). -/
def execElementDelayExpiry (t : TimerRef) (s : State) : Host.Outcome State Fault Refusal :=
  .next (match t with
    | .feeder f i p => s.delayExpiry f i p
    | .differential k p => s.secWithin k (fun a b => !a.bdOp.getD p false && b.bdOp.getD p false && !b.bdBlk.getD p false))

/-! ## Publication (R165, R208) -/

def State.putSec (s : State) (k o : Nat) (v : Bool) (q : Quality) : State := s.putSig (sectionSig k o) (Entry.mk' (b2n v) q)

/-- The signals of the differential. -/
def State.putBd (s : State) (k : Nat) (m : MasterSt) (com : Tab Commit) : State :=
  let s := [0, 1, 2].foldl (fun s p =>
    ((s.putSec k (4 + p) (m.bdStart.getD p false) (m.qMain.getD p {})).putSec k (7 + p) (m.czStart.getD p false)
      (m.qCheck.getD p {})).putSec k (10 + p) (m.bdOp.getD p false) (m.bdOpQ com p)) s
  let s := (s.putSec k 13 (m.bdOp.any id) (m.bdQ com)).putSec k 14 m.alarm (Quality.joins m.qMain)
  [0, 1, 2].foldl (fun s p => (s.setF F.SEC_BDID_ID k (roundQ (m.id_.getD p 0)).toNat p).setF F.SEC_BDIR_IR k
    (roundQ (m.ir.getD p 0)).toNat p) s

/-- SSTAT (R208). -/
def State.putSstat (s : State) (k : Nat) (mfault : Bool) : State :=
  s.putSig (sectionSig k 15) (Entry.mk' (s.getF F.SEC_SPSTAT_XBLK k + 2 * b2n mfault + 4 * b2n (s.sec k).substNow) Quality.ok)

/-- SECTRIP of a feeder, with the record of a rise (R181). -/
def State.putTrip (s : State) (e f : Nat) (l : List Cause) : State :=
  let (v, q) := secTrip l
  let old := (s.sigBelow (feederSig f 73)).bit 0
  let s := s.putSig (feederSig f 73) (Entry.mk' (b2n v) q)
  if v && !old then
    let on := l.filter (fun (c : Cause) => c.2.1)
    let bits := [0, 1, 2].foldl (fun a b => a + 2 ^ b * b2n (on.any (fun (c : Cause) => c.1 == b))) 0
    let src := match on.find? (fun (c : Cause) => c.1 == 2) with | some c => c.2.2.2 | none => 0
    s.event 0x0505 f 0xFFFF (.at e) ([bits] ++ le2 src)
  else s

/-- Records of a section element's operation and of light without current (R180, R192). -/
def State.secEvents (s : State) (k e : Nat) (o m : MasterSt) : State :=
  let ph (x : MasterSt) := [0, 1, 2].foldl (fun a p => a + 2 ^ p * b2n (x.bdOp.getD p false)) 0
  let s := if m.bdOp.any id && !o.bdOp.any id then s.event 0x0506 k 0xFFFF (.at e) [0, ph m, 0] else s
  (List.range m.arcs.length).foldl (fun s z =>
    let a := o.arcs.getD z {}
    let b := m.arcs.getD z {}
    let s := if b.op && !a.op then s.event 0x0506 k 0xFFFF (.at e) [1 + z, 0, 0] else s
    if b.lwc && !a.lwc then s.event 0x0504 k z (.at e) [] else s) s

/-- The outputs of section elements as the signal table holds them. -/
def State.secOld (s : State) (k n : Nat) (m : MasterSt) : MasterSt :=
  { m with
    bdOp := [0, 1, 2].map (fun p => (s.sigBelow (sectionSig k (10 + p))).bit 0)
    arcs := (List.range n).map (fun z =>
      { op := (s.sigBelow (sectionSig k (16 + z))).bit 0, lwc := (s.sigBelow (sectionSig k (24 + z))).bit 0 }) }

/-- The timer of a section element as a phase state: the operate timer of a phase of the differential, the light timer of an
arc zone (R192). -/
def MasterSt.bdPhase (m : MasterSt) (p : Nat) : PhSt := { started := m.bdRun.getD p false, op := m.bdOp.getD p false, t := m.bdT.getD p 0 }
def ArcSt.phase (o : ArcSt) : PhSt := { started := o.light, op := o.op, t := o.lightT.getD 0 }

/-- A section element agrees with its commit: the outputs that it asserted, the SECTRIP of its targets among them, and its
timers (R203). -/
def MasterSt.agrees (m : MasterSt) (i : Nat) (c : Commit) (targets : List Nat) : Bool :=
  c.targets.all (fun f => targets.contains f) &&
    (if i = 0 then
      [0, 1, 2].all (fun p => !bitOf c.bits p ||
        (m.bdOp.getD p false && (m.bdPhase p).enclosed (c.lo.getD p {}) (c.hi.getD p {})))
    else
      let o := m.arcs.getD (i - 1) {}
      o.op && o.phase.enclosed (c.lo.getD 0 {}) (c.hi.getD 0 {}))

/-- The section state with the committed state of an element in place of its own (R199, R204). -/
def MasterSt.take (m : MasterSt) (i : Nat) (c : Commit) (now : Nat) : MasterSt :=
  if i = 0 then
    let on (p : Nat) := bitOf c.bits p
    { m with
      bdStart := (List.range 3).map (fun p => on p || m.bdStart.getD p false)
      czStart := (List.range 3).map (fun p => on p || m.czStart.getD p false)
      bdRun := (List.range 3).map (fun p => on p || m.bdRun.getD p false)
      bdT := (List.range 3).map (fun p => if on p then (c.lo.getD p {}).t else m.bdT.getD p 0)
      bdOp := (List.range 3).map (fun p => on p || m.bdOp.getD p false) }
  else { m with arcs := modAt m.arcs (i - 1) (fun o =>
    { o with op := true, opAt := if o.op then o.opAt else now, light := true, lightT := none }) }

/-- The feeders whose SECTRIP a section element sets in a normal evaluation (R181). -/
def SecCtx.tripsOf (x : SecCtx) (i : Nat) : List Nat :=
  if i = 0 then x.main.map Prod.fst
  else match x.c.arcs[i - 1]? with
    | some a => x.m.arcTargets x.k a
    | none => []

/-- The check of R203 for every committed section ply of the epoch. -/
def State.checkSecCommits (s : State) (k e : Nat) (x : SecCtx) (m : MasterSt) : State :=
  (s.sec k).committed.foldl (fun s p =>
    if p.2.target ≠ e then s
    else
      let s := s.updSec k (fun y => { y with committed := Tab.del y.committed p.1 })
      if m.agrees p.1 p.2 (x.tripsOf p.1) then s else s.diverge (s.master k) 0xFF e p.2.mark) s

/-- Signals, SECTRIP, registers and records of a completed section evaluation. -/
def State.putSection (s : State) (k e : Nat) (x : SecCtx) (m : MasterSt) (com : Tab Commit) : State :=
  let s := (List.zip (List.range x.c.zsi.length) x.c.zsi).foldl (fun s p =>
    if p.2.isEmpty then s else s.putSec k p.1 (x.zsi p.2).1 (x.zsi p.2).2) s
  let s := if x.c.bd.enabled then s.putBd k m com else s
  let s := (List.zip (List.range m.arcs.length) m.arcs).foldl (fun s p =>
    (s.putSec k (16 + p.1) p.2.op p.2.q).putSec k (24 + p.1) p.2.lwc p.2.q) s
  let lwc := (List.zip (List.range m.arcs.length) m.arcs).foldl (fun a p => a + 2 ^ p.1 * b2n p.2.lwc) 0
  let s := ((s.setF F.SEC_SPSTAT_ALARM k (b2n m.alarm)).setF F.SEC_SPSTAT_AFLWC k lwc).setF F.SEC_SPSTAT_XBLK k (b2n x.crossBlocked)
  let s := s.putSstat k false
  x.feeders.foldl (fun s p => s.putTrip e p.1 (x.causes m com p.1 p.2)) s

/-- SECTION_EVALUATION_COMPLETE (R165, R167). -/
def State.sectionComplete (s : State) (k : Nat) : State :=
  match (s.sec k).evalOpen with
  | none => s
  | some e =>
    if s.past k (s.deadlineAngle k e) || !s.secReady k e then s
    else
      let x := s.secCtx k e
      let m := s.secNext k e
      let s := s.squashAll .super (fun p => p.sec == some k && decide (p.target ≤ e))
      let s := s.checkSecCommits k e x m
      let com := (s.sec k).committed
      let out := m.withCommits com
      let old := s
      let s := (s.secEvents k e (s.secOld k m.arcs.length m) out).putSection k e x out com
      let s := s.updSec k (fun x => { x with mst := m, evald := false, evalOpen := none, evalDone := some e })
      let s := s.updPage k e (fun g => { g with master := some m })
      let s := s.updEngine (s.master k) (fun g => { g with roundDue := true })
      (s.queueChanges old).published

def execSectionEvaluationComplete (k : Nat) (s : State) : Host.Outcome State Fault Refusal := .next (s.sectionComplete k)

/-! ## The master (R166 to R168) -/

/-- An engine of the rank may be master: ON, no evacuation, no divergence or missed deadline, at most 8 feeders (R166). -/
def State.eligible (s : State) (k r : Nat) : Bool :=
  let e := 8 * k + r
  s.getF F.PE_STAT_STATE e == 2 && (s.engine e).evacFrom.isNone && !s.flag F.PE_PLYSTAT_DIVERGE e &&
    !s.flag F.PE_PLYSTAT_DLMISS e && decide ((s.held e).length ≤ 8)

/-- The next eligible engine in ascending order after `r`, modulo 8. -/
def State.nextEligible (s : State) (k r : Nat) : Option Nat :=
  ((List.range 7).map (fun i => (r + 1 + i) % 8)).find? (s.eligible k)

/-- First epoch of the cycle after next (R167). -/
def State.cycleAfterNext (s : State) (k : Nat) : Nat := 128 * ((s.theta k).floor.toNat / 65536 + 2)

/-- A rotation at handover epoch `h`: CUR, MASTER, ROTCNT, ROT, the record, and the section plies (R167, R198). -/
def State.rotate (s : State) (k h r cause : Nat) : State :=
  let old := s.getF F.SEC_MASTER_CUR k
  let s := s.squashAll .other (fun p => p.sec == some k && decide (h ≤ p.target))
  let s := (s.setF F.SEC_MASTER_CUR k r).incF F.SEC_MASTER_ROTCNT k
  let s := ((s.setF F.PE_STAT_MASTER (8 * k + old) 0).setF F.PE_STAT_MASTER (8 * k + r) 1).setF F.SEC_SPSTAT_ROT k 1
  s.event 0x0502 k 0xFFFF (.at h) [old, r, cause]

/-- A write of ROTREQ (R167). -/
def State.rotreq (s : State) (k r : Nat) : State :=
  if !(s.sec k).running || s.getF F.SEC_MASTER_CUR k == r || !s.eligible k r || decide (8 ≤ r) then s
  else s.updSec k (fun x => { x with rotReq := some { h := s.cycleAfterNext k, req := r, cause := 0 } })

def execRotreq (k r : Nat) (s : State) : Host.Outcome State Fault Refusal := .next (s.rotreq k r)

/-- The section state that a new master reads: that of the latest completed page (R167). -/
def State.readMaster (s : State) (k h : Nat) : State :=
  s.updSec k (fun x => if x.evald then x else { x with mst := ((x.page (h - 1)).master).getD x.mst })

/-- A requested handover at the opening of the window of H: judged again (R167). -/
def State.handRequest (s : State) (k : Nat) (r : Rotation) : State :=
  let s := (s.advanceTo (s.angleClk k (s.dueAngle k r.h))).updSec k (fun x => { x with rotReq := none })
  if s.eligible k r.req && s.getF F.SEC_MASTER_CUR k != r.req then (s.rotate k r.h r.req 0).readMaster k r.h else s

/-- The handover before an evacuation: from the engine that is evacuated, if it is master still, to the next eligible one
(R167). -/
def State.handEvac (s : State) (k : Nat) (r : Rotation) : State :=
  let s := (s.advanceTo (s.angleClk k (s.dueAngle k r.h))).updSec k (fun x => { x with rotEvac := none })
  let cur := s.getF F.SEC_MASTER_CUR k
  if (s.engine (8 * k + cur)).evacFrom.isNone then s
  else match (if s.eligible k r.req then some r.req else s.nextEligible k cur) with
    | some n => (s.rotate k r.h n 1).readMaster k r.h
    | none => s

/-- MASTER_HANDOVER: at the opening of the window of H the role moves; of two pending handovers the one with the earlier H comes
first (R167). -/
def State.handover (s : State) (k : Nat) : State :=
  let open_ (o : Option Rotation) := o.bind (fun r => if (s.sec k).nextDue < r.h then none else some r)
  match open_ (s.sec k).rotEvac, open_ (s.sec k).rotReq with
  | some a, some b => if a.h < b.h then s.handEvac k a else s.handRequest k b
  | some a, none => s.handEvac k a
  | none, some b => s.handRequest k b
  | none, none => s

def execMasterHandover (k : Nat) (s : State) : Host.Outcome State Fault Refusal := .next (s.handover k)

/-- The section evaluation of epoch `e` has not completed at its deadline (R168); what a ply has committed for `e` is the state of
its element (R199). -/
def State.missSection (s : State) (k e : Nat) : State :=
  if (s.sec k).evalOpen ≠ some e then s
  else
    let m := if e = 0 then ({} : MasterSt) else (((s.sec k).page (e - 1)).master).getD {}
    let m := ((s.sec k).committed.filter (fun (p : Nat × Commit) => p.2.target == e)).foldl (fun m p => m.take p.1 p.2 s.now) m
    let s := s.updSec k (fun x => { x with
      mst := m, evald := false, evalOpen := none, evalDone := some e, committed := x.committed.filter (fun (p : Nat × Commit) => p.2.target != e) })
    let s := s.updPage k e (fun g => { g with master := some m })
    let s := ((s.putSstat k true).setF F.SEC_SPSTAT_MFAULT k 1).event 0x0503 k 0xFFFF (.at e) []
    match s.nextEligible k (s.getF F.SEC_MASTER_CUR k) with
    | some r => s.rotate k (e + 1) r 2
    | none => s

end Sys2Proof.Machine
end

