-- ==== Sys2Proof/Machine/Ply.lean ====
section
/-! DEFINITION. Run-ahead evaluation: prediction, bands, interval evaluation, staging, the confirm unit and commit
(R184 to R202). -/

namespace Sys2Proof.Machine

/-! ## Known and predicted samples (R184, R188, R189) -/

/-- The latest epoch up to which every burst of a source has reached the ingress, from the latest due epoch `d`. -/
def FeederSt.reach (x : FeederSt) (src d : Nat) : Nat :=
  d + ((List.range 64).takeWhile (fun i => (x.burst src (d + 1 + i)).isSome)).length

/-- Er of listed channels, given as feeder and channel: the latest epoch for which the samples of all of them have reached the
ingress (R185); one before it that is missing is predicted (log entry 51). -/
def State.commonOf (s : State) (d : Nat) (l : List (Nat × Nat)) : Nat :=
  let here (e : Nat) : Bool := l.all (fun p => match s.img.feeder p.1 with
    | some c => ((s.feeder p.1).burst (c.srcOf p.2) e).isSome
    | none => false)
  (List.range 64).foldl (fun o i => if here (d + 1 + i) then d + 1 + i else o) d

/-- The band of a channel about a prediction `p` (R189). -/
def FeederCfg.band (c : FeederCfg) (n : Nat) (p : Rat) : Rat :=
  match c.chan n with
  | some ch =>
    let nom := if n < 4 then c.inA else sqrtQ c.vph2
    rnd (ch.bandA / 100 * sqrtQ 2 * nom + ch.bandK / 100 * absQ p)
  | none => 0

/-- The epoch at which the fit of a channel ends: Er, or the latest epoch before it up to which its samples are known. -/
def FeederSt.fitEnd (x : FeederSt) (c : FeederCfg) (n d er : Nat) : Nat := min er (x.reach (c.srcOf n) d)

/-- The model fitted over the 128 most recent known samples of a channel (R188). -/
def FeederSt.runModel (x : FeederSt) (c : FeederCfg) (n d er : Nat) : Model :=
  let er := x.fitEnd c n d er
  let new := (List.range (er - d)).map (fun i => (x.sampleOf c n (er - i)).v)
  fit ((new ++ (x.win n).map (fun s => s.v)).take 128) er

/-- The prediction of a model at angle `a` (R188). -/
def Model.predict (mo : Model) (er : Nat) (a : Nat) : Rat := rnd (mo.at_ er ((er : Rat) - (a : Rat) / 512))

/-- A sample with its radius: known exactly where it has reached the ingress, else predicted within its band (R184). -/
def FeederSt.runSample (x : FeederSt) (c : FeederCfg) (n d er : Nat) (mo : Model) (e : Nat) : Smp × Rat :=
  if e ≤ d ∨ (x.burst (c.srcOf n) e).isSome ∨ !c.has n then (x.sampleOf c n e, 0)
  else
    let p := mo.predict (x.fitEnd c n d er) (512 * e)
    (⟨p, Quality.ok, false⟩, c.band n p)

/-- The windows of the eight channels at epoch `t`, newest first, with radii. -/
def FeederSt.runWins (x : FeederSt) (c : FeederCfg) (d er t : Nat) : List (List (Smp × Rat)) :=
  (List.range 8).map (fun n =>
    let mo := x.runModel c n d er
    (List.range (t - d)).map (fun i => x.runSample c n d er mo (t - i)) ++ (x.win n).map (fun (g : Smp) => (g, (0 : Rat))))

/-! ## Interval evaluation (R190) -/

/-- The magnitudes of the derivatives of X1, X2 and H with respect to the sample at position `m`. -/
def weights (m : Nat) : Rat × Rat × Rat :=
  let u := (List.range 128).map (fun i => if i = m then (1 : Rat) else 0)
  let mo := fit u 0
  (mag (mo.harm 1), mag (mo.harm 2), mag (halfPhasor u mo 0))

/-- The radii of X1, X2 and H of a window; negative ones (`sgn` -1) give the favourable bounds. -/
def radii (sgn : Rat) (w : List (Smp × Rat)) : Rat × Rat × Rat :=
  (List.zip (List.range w.length) w).foldl (fun (a : Rat × Rat × Rat) p =>
    if p.2.2 = 0 then a
    else
      let k := weights p.1
      (a.1 + sgn * k.1 * p.2.2, a.2.1 + sgn * k.2.1 * p.2.2, a.2.2 + sgn * k.2.2 * p.2.2)) (0, 0, 0)

/-- The bounds of a mean square. -/
def squares (w : List (Smp × Rat)) : Rat × Rat :=
  let lo (p : Smp × Rat) := maxQ 0 (absQ p.1.v - p.2)
  let hi (p : Smp × Rat) := absQ p.1.v + p.2
  (sumQ (w.map (fun p => lo p * lo p)) / 128, sumQ (w.map (fun p => hi p * hi p)) / 128)

/-- The measurement of epoch `e` of a run: enclosures from windows with radii; frequency stands as measured. -/
def FeederSt.runMeas (x : FeederSt) (c : FeederCfg) (sgn : Rat) (w : List (List (Smp × Rat))) (e : Nat) : Meas :=
  let y := { x with wins := w.map (fun (l : List (Smp × Rat)) => l.map Prod.fst) }
  let r := w.map (radii sgn)
  let q := w.map squares
  let m := y.phasors c e
  { m with
    rFull := r.map (fun a => a.1), rSecond := r.map (fun a => a.2.1), rHalf := r.map (fun a => a.2.2)
    ms := q.map (fun a => if 0 ≤ sgn then a.1 else a.2), msHi := q.map (fun a => if 0 ≤ sgn then a.2 else a.1)
    nom := x.meas.nom, leak := x.meas.leak, freq := x.meas.freq, freqQ := x.meas.freqQ, rocof := x.meas.rocof, rocofQ := x.meas.rocofQ }

/-- The duration of epoch `e` in a run: measured where it has elapsed, or the shortest or longest of R190. -/
def State.runDt (s : State) (k : Nat) (sgn : Rat) (e : Nat) : Rat :=
  if ((s.sec k).epochRec (e + 1)).isSome then s.epochDur k e else if 0 < sgn then 1 / (128 * 72) else 1 / (128 * 40)

/-- The sample instant of epoch `e` in a run: the latest one known, and the shortest and longest time from it (R190). -/
def State.runAt (s : State) (k e : Nat) : Nat × Rat × Rat :=
  match (s.sec k).epochRec e with
  | some r => (r.at_, 0, 0)
  | none => match (s.sec k).epochs with
    | r :: _ => (r.at_, ((e : Rat) - r.epoch) / (128 * 72), ((e : Rat) - r.epoch) / (128 * 40))
    | [] => (s.now, 0, 0)

/-- The instances that a ply of instance `i` evaluates: INR, DIR, DIRN, initiators and itself, in their order. -/
def FeederCfg.runOrder (c : FeederCfg) (i : Nat) : List Nat :=
  let inits := match (Tab.find c.elems i).map (fun g => g.kind) with
    | some (.bf k) => k.inits
    | _ => []
  let early (j : Nat) := match (Tab.find c.elems j).map (fun g => g.kind) with
    | some (.inr _) => true
    | some (.dir _) => true
    | some (.dirn _) => true
    | _ => false
  c.order.filter (fun j => j == i || early j || inits.contains j)

/-- One epoch of a run: the instances evaluated on the epoch's enclosures. -/
def State.runEpoch (s : State) (f i : Nat) (c : FeederCfg) (sgn : Rat) (only : Option Nat) (reads : Tab Entry)
    (w : List (List (Smp × Rat))) (e : Nat) (elems : Tab ElemSt) : Tab ElemSt :=
  let x := s.feeder f
  let (at_, slack) := s.runAt (f / 64) e
  let wi := w.map (fun l => (l.take 128).map Prod.fst)
  let m := x.runMeas c sgn (w.map (fun l => l.take 128)) e
  (c.runOrder i).foldl (fun el j => match Tab.find c.elems j with
    | some g =>
      let y : EvCtx := { c := c, m := m, wins := wi, miss := [], reads := reads, dt := s.runDt (f / 64) sgn e
                         dtOff := s.runDt (f / 64) (0 - sgn) e, e := e
                         at_ := at_, slack := slack, sgn := sgn, now := s.now, elems := el, only := only
                         rads := w.map (fun l => (l.take 128).map (fun p => sgn * p.2)) }
      Tab.set el j (y.step g (Tab.get el {} j))
    | none => el) elems

/-- The element carried from its last normal evaluation of epoch `d` to epoch `t` (R184). -/
def State.runTo (s : State) (f i : Nat) (c : FeederCfg) (sgn : Rat) (only : Option Nat) (d er t : Nat) : Tab ElemSt :=
  let x := s.feeder f
  let w := x.runWins c d er t
  let reads := s.snapshot c.readIds
  (List.range (t - d)).foldl (fun el n =>
    s.runEpoch f i c sgn only reads (w.map (fun l => l.drop (t - (d + 1 + n)))) (d + 1 + n) el) x.elems

/-! ## Alternatives (R191) -/

/-- An alternative of an operate output: its dependent channels, the output bits it sets, the current check it takes. -/
structure Alt where
  chans : List Nat
  mask : Nat
  only : Option Nat := none

/-- The channels that direction and restraint add (R126, R128, R132). -/
def FeederCfg.guards (c : FeederCfg) (t : ThrKind) (k : ThrCfg) (p : Nat) : List Nat :=
  let dir := match k.dirLink.bind (fun l => Tab.find c.elems l) with
    | some g => (match g.kind with
      | .dir _ => [p, 4 + (p + 1) % 3, 4 + (p + 2) % 3]
      | .dirn d => d.chansI c ++ d.chansV c
      | _ => [])
    | none => []
  let rst := match c.inrOf.bind (fun i => Tab.find c.elems i) with
    | some g => (match g.kind with
      | .inr r => if r.cross then [0, 1, 2] ++ (if c.inrSources.1 && r.residual then [3] else []) else if t = .oc then [p] else k.chans t c
      | _ => [])
    | none => []
  (if k.direction = .non ∧ !k.projected then [] else dir) ++ (if k.inrush then rst else [])

/-- The alternatives of an instance in their order. -/
def FeederCfg.alts (c : FeederCfg) (kind : ElemKind) : List Alt :=
  match kind with
  | .thr .oc k => ([0, 1, 2].filter c.has).map (fun p => { chans := ([p] ++ c.guards .oc k p).eraseDups, mask := 2 + 2 ^ (5 + p) })
  | .thr .bc _ => []
  | .thr t k => [{ chans := ((k.chans t c).filter c.has ++ c.guards t k 0).eraseDups, mask := 2 }]
  | .volt t k =>
    let qty := k.qtyOf t c
    if qty.three && !k.all then
      ([0, 1, 2].filter (fun p => c.has (4 + p))).map (fun p =>
        { chans := if qty = .phase then [4 + p] else [4 + p, 4 + (p + 1) % 3], mask := 2 + 2 ^ (5 + p) })
    else [{ chans := qty.chans.filter c.has, mask := if qty.three then 2 + 32 + 64 + 128 else 2 }]
  | .bf k =>
    ([0, 1, 2].filter c.has).map (fun p => { chans := [p], mask := 4, only := some p }) ++
      (if k.residual then [{ chans := k.resChans c, mask := 4, only := some 3 }] else [])
  | _ => []

/-- The instance may ask for urgent conversions: OC or EF, definite-time, no delay (R133). -/
def ElemKind.mayUrge : ElemKind → Bool
  | .thr .oc k => decide (k.curve = .definite) && decide ((k.delayOf .oc).limit = 0)
  | .thr .ef k => decide (k.curve = .definite) && decide ((k.delayOf .ef).limit = 0)
  | _ => false

/-- The alternatives of an initiating instance: its own where it stages plies, else all channels that it reads (R191). -/
def FeederCfg.initAlts (c : FeederCfg) (kind : ElemKind) : List Alt :=
  match kind with
  | .thr .bc _ => [{ chans := [0, 1, 2].filter c.has, mask := 2 }]
  | .th _ => [{ chans := [0, 1, 2].filter c.has, mask := 2 }]
  | .freq _ _ => [{ chans := [4, 5, 6].filter c.has, mask := 2 }]
  | _ => c.alts kind

/-- The channels that decide the initiating output of a BF ply, where they count (R191). -/
def FeederCfg.initChans (c : FeederCfg) (k : BfCfg) (active : Bool) (el : Tab ElemSt) : List Nat :=
  if active && k.sealIn then []
  else
    match k.inits.find? (fun j => match Tab.find c.elems j with
      | some g => (Tab.get el {} j).bits &&& g.kind.opMask != 0
      | none => false) with
    | some j => match Tab.find c.elems j with
      | some g =>
        let b := (Tab.get el {} j).bits
        match (c.initAlts g.kind).find? (fun a => b &&& a.mask == a.mask) with
        | some a => a.chans
        | none => ((c.initAlts g.kind).flatMap (fun a => a.chans)).eraseDups
      | none => []
    | none => []

/-! ## Staging (R185 to R187, R191 to R195) -/

/-- The engine may stage plies: ON, no divergence, no contest of its rank (PE_PLYSTAT.ACTIVE). -/
def State.plyActive (s : State) (e : Nat) : Bool :=
  s.getF F.PE_STAT_STATE e == 2 && !s.flag F.PE_PLYSTAT_DIVERGE e &&
    !(match s.pair.contest with | some c => bitOf c.ranks (e / 8) | none => false) && !bitOf s.pair.stopped (e / 8)

/-- Run-ahead depth of a section (SEC_PLYCFG.DEPTH). -/
def State.depth (s : State) (k : Nat) : Nat := s.getF F.SEC_PLYCFG_DEPTH k

/-- A pending switch-over of the section at or before epoch `t`. -/
def State.switchBy (s : State) (k t : Nat) : Bool :=
  s.flag F.SEC_SWSTAT_PENDING k && decide (128 * s.cycleOf k (s.getF F.SEC_SWCYC_CYCLE k) ≤ t)

/-- Plies of a feeder's instance, and of a section element. -/
def State.pliesOf (s : State) (sec : Option Nat) (f i : Nat) : List Ply :=
  (s.plies.filter (fun p => p.2.sec == sec && p.2.feeder == f && p.2.inst == i)).map Prod.snd

/-- The tiles of the section's chain with the output bits that the ply's outputs drive (R192); one whose outputs carry TEST
drives only a tile whose feeder accepts it (R105, R239). -/
def State.driven (s : State) (k : Nat) (test : Bool) (on : SigBit → Bool) : List (Nat × Nat × Nat) :=
  match s.img.chainOf k with
  | none => []
  | some (lane, c) =>
    ((List.range c.tiles.length).map (fun a =>
      (lane, a, (List.range 8).foldl (fun m n =>
        let t := c.tiles.getD a { feeder := 0 }
        m + 2 ^ n * b2n ((!test || s.acceptsTest t.feeder) && (t.outs.getD n {}).srcs.any on)) 0))).filter (fun g => g.2.2 != 0)

/-- Gates in use on a section's tile lane. -/
def State.gatesUsed (s : State) (k : Nat) : Nat :=
  (match s.img.chainOf k with | some (lane, _) => (s.lane lane).gates.length | none => 0)

/-- Dependent channels of a grid or urgent ply with their run-ahead fits. -/
def State.deps (s : State) (k er : Nat) (urgent : Bool) (wait : List Nat) (l : List (Nat × Nat)) : List Dep :=
  l.map (fun p =>
    let model := match (s.img.feeder p.1) with
      | some c => (s.feeder p.1).runModel c p.2 ((s.sec k).nextDue - 1) er
      | none => {}
    { feeder := p.1, ch := p.2, model := model, er := er, wait := if urgent then [] else wait, urgent := urgent })

/-- The converter and input of a channel, if it is local. -/
def State.localOf (s : State) (p : Nat × Nat) : Option (Nat × Nat) :=
  ((s.img.feeder p.1).bind (fun c => c.chan p.2)).bind (fun ch => match ch.src with
    | .conv ain _ => some (ain / 8, ain % 8)
    | .stream _ => none)

/-- Every dependent channel is local and no two share a converter; every feeder permits it (R200). -/
def State.mayUrge (s : State) (l : List (Nat × Nat)) : Bool :=
  let cv := l.map (fun p => (s.localOf p).map Prod.fst)
  cv.all Option.isSome && decide (cv.eraseDups.length = cv.length) &&
    l.all (fun p => ((s.img.feeder p.1).map (fun c => c.urgent)).getD false)

/-! ## The confirm unit (R196, R201) -/

/-- A sample meets a band: `none` where it passes, else the cause. A failing quality counts first. -/
def judge (c : FeederCfg) (n : Nat) (mo : Model) (er a : Nat) (v : Rat) (q : Quality) (ovr : Bool) : Option SqCause :=
  let p := mo.predict er a
  if q.validity ≠ .good ∨ (q.test ∧ !c.acceptTest) ∨ ovr then some .other
  else if absQ (v - p) ≤ c.band n p then none
  else some .band

/-- The dependent channels of a ply after a grid sample of epoch `e` of a channel has passed. -/
def Ply.passGrid (p : Ply) (f n e : Nat) (q : Quality) : Ply :=
  { p with
    deps := p.deps.map (fun d => if d.feeder = f ∧ d.ch = n then { d with wait := d.wait.filter (fun w => w != e) } else d)
    q := p.q.join q }

def Ply.passUrgent (p : Ply) (f n : Nat) (q : Quality) : Ply :=
  { p with
    deps := p.deps.map (fun d => if d.feeder = f ∧ d.ch = n then { d with urgent := false } else d)
    q := p.q.join q }

/-- Every confirming sample has passed (R197). -/
def Ply.complete (p : Ply) : Bool := p.deps.all (fun d => d.wait.isEmpty && !d.urgent)

/-- One grid sample examined for one ply (R196). -/
def State.examineGrid (s : State) (id f n e : Nat) (c : FeederCfg) (v : Rat) (q : Quality) : State :=
  match Tab.find s.plies id with
  | none => s
  | some p =>
    match p.deps.find? (fun d => d.feeder == f && d.ch == n && d.wait.contains e) with
    | none => s
    | some d =>
      match judge c n d.model d.er (512 * e) v q false with
      | some cause => s.squash id cause
      | none =>
        let p := p.passGrid f n e q
        { s with plies := Tab.set s.plies id { p with confirmed := p.complete } }

/-- A grid sample of a committed urgent ply outside its band: AUDIT and the mark; its quality plays no part (R201). -/
def State.auditGrid (s : State) (eng f n e : Nat) (c : FeederCfg) (v : Rat) : State :=
  (s.engine eng).audits.foldl (fun s p =>
    match p.deps.find? (fun d => d.feeder == f && d.ch == n && d.wait.contains e) with
    | none => s
    | some d =>
      if (judge c n d.model d.er (512 * e) v Quality.ok false).isNone then s
      else
        let s := s.incF F.SEC_PLYSTAT_AUDIT (eng / 8)
        match p.sec with
        | some k => s.updSec k (fun x => { x with committed := x.committed.map (fun (a : Nat × Commit) =>
            if a.1 = p.inst ∧ a.2.target = p.target then (a.1, { a.2 with mark := true }) else a) })
        | none => s.updFeeder p.feeder (fun x => x.updElem p.inst (fun el =>
            { el with committed := el.committed.map (fun a => if a.target = p.target then { a with mark := true } else a) }))) s

/-- The grid samples of epoch `e` that a burst brings for feeder `f`, examined by the confirm unit of the rank. -/
def State.examine (s : State) (f src e : Nat) (samples : List (Option (Int × Quality))) : State :=
  match s.img.feeder f with
  | none => s
  | some c =>
    (List.range 8).foldl (fun s n =>
      match c.chan n with
      | none => s
      | some ch =>
        if c.srcOf n ≠ src then s
        else
          let (v, q) := match samples.getD n none with
            | some (v, q) => (ch.primary n v, q)
            | none => (0, Quality.bad)
          let s := (s.plies.map Prod.fst).foldl (fun s id => s.examineGrid id f n e c v q) s
          (List.range 8).foldl (fun s r => s.auditGrid (8 * (f / 64) + r) f n e c v) s) s

/-- An urgent result examined for the plies that wait for it (R196, R198 LATE). -/
def State.examineUrgent (s : State) (conv inp : Nat) (code : Int) (ovr : Bool) (angle : Nat) (q : Quality) : State :=
  match s.img.inputOf (8 * conv + inp) with
  | none => s
  | some (f, n) => match s.img.feeder f with
    | none => s
    | some c =>
      let ppu := match c.chan n with | some ch => (match ch.src with | .conv _ p => p | .stream _ => 0) | none => 0
      let v := s.correct conv inp code * ppu
      let q := Quality.joins [q, Quality.when (bitOf (s.getF F.CV_OWSTAT_FLAG conv) inp) Quality.bad,
        Quality.when (bitOf (s.getF F.CV_CALSTAT_UNCAL conv) inp) Quality.quest]
      (s.plies.map Prod.fst).foldl (fun s id =>
        match Tab.find s.plies id with
        | none => s
        | some p => match p.deps.find? (fun d => d.feeder == f && d.ch == n && d.urgent) with
          | none => s
          | some d =>
            if 512 * p.target < angle then s.squash id .other
            else match judge c n d.model d.er angle v q ovr with
              | some cause => s.squash id cause
              | none =>
                let p := p.passUrgent f n q
                { s with plies := Tab.set s.plies id { p with confirmed := p.complete } }) s

/-- Samples already at the ingress when a ply is staged are examined at staging (R196). -/
def State.examineHeld (s : State) (id : Nat) : State :=
  match Tab.find s.plies id with
  | none => s
  | some p => p.deps.foldl (fun s d => match s.img.feeder d.feeder with
    | none => s
    | some c => d.wait.foldl (fun s e =>
        if ((s.feeder d.feeder).burst (c.srcOf d.ch) e).isSome then
          let g := (s.feeder d.feeder).sampleOf c d.ch e
          s.examineGrid id d.feeder d.ch e c g.v g.q
        else s) s) s

/-- The lowest free own slot of an engine, else the lowest free slot of the shared pool from 16 on, where the engine and the pool
have one (R195). -/
def State.freeSlot (s : State) (e : Nat) : Option Nat :=
  let own := ((s.plies.filter (fun p => p.2.engine == e && !p.2.shared)).map (fun p => p.2.slot))
  let pool := ((s.plies.filter (fun p => p.2.shared)).map (fun p => p.2.slot))
  match (List.range 16).find? (fun n => !own.contains n) with
  | some n => some n
  | none =>
    if s.getF F.PE_PLYSTAT_SHARED e < 64 then ((List.range 1024).find? (fun n => !pool.contains (16 + n))).map (16 + ·) else none

/-- The urgent requests of a staged ply go out; a refused one squashes it (R198 LATE, R200). -/
def State.sendUrgent (s : State) (id : Nat) : State :=
  match Tab.find s.plies id with
  | none => s
  | some p => p.deps.foldl (fun s d =>
      if (Tab.find s.plies id).isNone then s
      else match s.localOf (d.feeder, d.ch) with
        | some (cv, inp) => s.urgent cv inp (.engine p.engine)
        | none => s) s

/-- A decided-trip ply takes its gates and its slot, or is counted as not staged (R193, R195); the gates of a lane that is
not ON are not free (R261); its urgent requests go out, and samples at hand are examined (R192, R200). -/
def State.stage (s : State) (p : Ply) : State :=
  let k := p.engine / 8
  if decide (128 < s.gatesUsed k + p.gates.length) || p.gates.any (fun g => s.getF F.LN_STAT_STATE g.1 != 2) then s.incF F.PE_PLYREF_GATE p.engine
  else
    match Tab.freeKey s.plies 4096, s.freeSlot p.engine with
    | some id, some slot =>
      let s := { s with plies := Tab.set s.plies id { p with shared := decide (16 ≤ slot), slot := slot } }
      let s := p.gates.foldl (fun s g => s.updLane g.1 (fun l => { l with gates := l.gates ++
        [{ ply := id, addr := g.2.1, bits := g.2.2, flags := s.frameFlags g.1 g.2.1, ctag := (Tab.get (s.lane g.1).tiles {} g.2.1).ctag }] })) s
      let s := ((s.incF F.PE_PLYCNT_STAGED p.engine).syncPlies p.engine).syncGates k
      let s := s.brim F.DEV_BRIM0_GATE (s.gatesUsed k)
      let s := s.examineHeld id
      if p.urgent then s.sendUrgent id else s
    | _, _ => s.incF F.PE_PLYREF_POOL p.engine

/-- Target epoch of a kind (R185): 0 urgent, 1 and 2 grid. -/
def State.targetOf (s : State) (k kind er : Nat) : Nat := if kind = 0 then (s.theta k).floor.toNat / 512 + 1 else er + kind

/-- The epochs whose grid samples confirm a ply. -/
def waitOf (kind er : Nat) : List Nat := if kind = 0 then [] else (List.range kind).map (fun i => er + 1 + i)

/-- The instance may hold a ply for epoch `t` (R185, R187, R198, R200, R227). -/
def State.mayStage (s : State) (k : Nat) (sec : Option Nat) (f i kind t : Nat) : Bool :=
  let l := s.pliesOf sec f i
  decide (kind ≤ s.depth k) && decide (l.length < 3) && l.all (fun p => p.target != t) && !s.switchBy k t

/-- What an attempt comes to (R191): `none` where no ply is evaluated, a decided-trip ply, or a discarded one, with whether it is
undecided. -/
abbrev Try := Option (Ply ⊕ Bool)

/-- The quality of the windows of listed channels at epoch `t` (R99, R106); a predicted sample is good (R184). -/
def FeederSt.runQual (x : FeederSt) (c : FeederCfg) (d er t : Nat) (l : List Nat) : Quality :=
  let w := x.runWins c d er t
  Quality.joins (l.map (fun n => winQual (((w.getD n []).take 128).map Prod.fst) c.fillLimit))

/-- One attempt for an instance of a feeder with one alternative; of kind urgent only where R133 and R200 permit it. For a BF the
current check holds at the end over the whole band, whatever the breaker-closed signal says (R191). Its channels are those of the alternative and, for a BF that an
initiation would start or hold, those that decide the initiating output (R191). -/
def State.tryAlt (s : State) (f i : Nat) (c : FeederCfg) (g : ElemCfg) (kind : Nat) (a : Alt) : Try :=
  let k := f / 64
  let x := s.feeder f
  let d := (s.sec k).nextDue - 1
  let add (el : Tab ElemSt) : List Nat := match g.kind with
    | .bf b => c.initChans b (x.elem i).active el
    | _ => []
  let common (l : List Nat) : Nat := s.commonOf d (l.map (fun n => (f, n)))
  let run (er : Nat) (sgn : Rat) (o : Option Nat) : Tab ElemSt := s.runTo f i c sgn o d er (s.targetOf k kind er)
  let chans := (a.chans ++ add (run (common a.chans) 1 a.only)).eraseDups
  let er := common chans
  let t := s.targetOf k kind er
  let urge := g.kind.mayUrge && s.mayUrge (chans.map (fun n => (f, n)))
  if decide (t ≤ d) || !s.mayStage k none f i kind t || (kind == 0 && !urge) then none
  else
    let lo := run er 1 a.only
    let el := Tab.get lo {} i
    let q := el.q.join (x.runQual c d er t (add lo))
    if q.validity ≠ .good ∨ (q.test ∧ !c.acceptTest) then none
    else
      let hi := Tab.get (run er (-1) none) {} i
      let holds := match g.kind with | .bf _ => el.check | _ => true
      if el.bits &&& a.mask ≠ a.mask ∨ !holds ∨ !(add lo).all chans.contains then some (.inr (hi.bits &&& a.mask != 0))
      else
        let ids := ({ c with elems := c.elems.filter (fun (p : Nat × ElemCfg) => (c.runOrder i).contains p.1) } : FeederCfg).readIds
        some (.inl {
          engine := x.engine, feeder := f, inst := i, target := t, urgent := kind == 0, q := el.q
          deps := s.deps k er (kind == 0) (waitOf kind er) (chans.map (fun n => (f, n)))
          commit := { target := t, bits := a.mask, q := el.q, lo := el.ph, hi := hi.ph, active := el.active, bfLo := el.bfT, bfHi := hi.bfT }
          gates := s.driven k el.q.test (fun b => b.id == feederSig f i && bitOf a.mask b.bit)
          watch := ids.eraseDups.map (fun id => (id, s.sig id)) })

/-- The class of a ply from its alternatives in their order: the first that decides trip alone, else undecided where the output
may assert in one of them (R191). -/
def firstTry (l : List Try) : Try :=
  match l.findSome? (fun (t : Try) => match t with | some (.inl p) => some p | _ => none) with
  | some p => some (.inl p)
  | none =>
    let d := l.filterMap (fun (t : Try) => match t with | some (.inr u) => some u | _ => none)
    if d.isEmpty then none else some (.inr (d.any id))

/-- The end of an attempt: a ply is staged, a discarded one is counted on its engine (R191). -/
def State.endTry (s : State) (e : Nat) (t : Try) : State :=
  match t with
  | none => s
  | some (.inl p) => s.stage p
  | some (.inr true) => s.updEngine e (fun g => { g with undecided := g.undecided + 1 })
  | some (.inr false) => s.updEngine e (fun g => { g with noTrip := g.noTrip + 1 })

/-- The attempt of one kind for an instance. -/
def State.tryKind (s : State) (f i : Nat) (c : FeederCfg) (g : ElemCfg) (kind : Nat) : State :=
  s.endTry (s.feeder f).engine (firstTry ((c.alts g.kind).map (fun a => s.tryAlt f i c g kind a)))

/-- The attempts of a round for one instance (R186): urgent, depth 1, depth 2. -/
def State.tryInst (s : State) (f i : Nat) (c : FeederCfg) (g : ElemCfg) : State :=
  let el := (s.feeder f).elem i
  let mask := match g.kind with | .bf _ => 4 | _ => g.kind.opMask
  if (c.alts g.kind).isEmpty || el.bits &&& mask != 0 || el.committed.isSome || s.forcedSig (feederSig f i) || !c.speculation then s
  else
    ((s.tryKind f i c g 0).tryKind f i c g 1).tryKind f i c g 2

/-! ## Section plies (R183) -/

/-- The measurement part of a feeder in epoch `e` of a run, from windows that end at epoch `t`. -/
def FeederSt.runPart (x : FeederSt) (c : FeederCfg) (sgn : Rat) (w : List (List (Smp × Rat))) (t e : Nat) : MeasPart :=
  let v := w.map (fun l => (l.drop (t - e)).take 128)
  let m := x.runMeas c sgn v e
  { samples := (List.range 4).map (fun n => match (v.getD n []).head? with | some p => (p.1.v, p.1.q) | none => (0, Quality.bad))
    full := (List.range 4).map m.y1, half := (List.range 4).map m.h1, sat := x.satBits
    q := (List.range 4).map (fun n => m.qOf [n]), qHalf := (List.range 4).map (fun n => m.qHalfOf [n])
    rSmp := (List.range 4).map (fun n => match (v.getD n []).head? with | some p => sgn * p.2 | none => 0)
    rFull := m.rFull, rHalf := m.rHalf }

/-- The section elements carried to epoch `t` (R184); `arcs` may narrow the check feeders. -/
def State.runSec (s : State) (k : Nat) (c : SectionCfg) (sgn : Rat) (d er t : Nat) : MasterSt × SecCtx :=
  let fs := s.img.feedersOf k
  let wins := fs.map (fun p => (p.1, (s.feeder p.1).runWins p.2 d er t))
  let lights := fs.map (fun p => (p.1, ({ lights := (List.range 16).map (fun n =>
    let g := s.sig (inSig p.1 n); (n, g.bit 0, g.q)) } : ElemPart)))
  let ctx (e : Nat) : SecCtx :=
    { k := k, c := c, m := s.img, reads := s.snapshot (s.img.sectionReads k), same := s.sameVersion k
      meas := fs.map (fun p => (p.1, (s.feeder p.1).runPart p.2 sgn (Tab.get wins [] p.1) t e)), elem := lights
      dt := s.runDt k sgn e, now := s.now }
  ((List.range (t - d)).foldl (fun m n => (ctx (d + 1 + n)).eval m) (s.sec k).mst, ctx t)

/-- Every feeder of a list permits speculation (R187). -/
def State.speculates (s : State) (l : List (Nat × Nat)) : Bool :=
  l.all (fun p => ((s.img.feeder p.1).map (fun c => c.speculation)).getD false)

/-- A ply of a section element that has decided trip: `bits` its outputs, `targets` the feeders whose SECTRIP it sets. -/
def State.secPly (s : State) (k i t kind er : Nat) (l : List (Nat × Nat)) (bits : Nat) (q : Quality) (lo hi : List PhSt)
    (targets : List Nat) (own : List SigBit) (watch : List Nat) : Ply :=
  let on (b : SigBit) : Bool := own.contains b || targets.any (fun f => b.id == feederSig f 73 && b.bit == 0)
  { engine := s.master k, sec := some k, inst := i, target := t, urgent := kind == 0, q := q
    deps := s.deps k er (kind == 0) (waitOf kind er) l
    commit := { target := t, bits := bits, q := q, lo := lo, hi := hi, targets := targets }
    gates := s.driven k q.test on, targets := targets
    watch := watch.eraseDups.map (fun id => (id, s.sig id)) }

/-- The members of either zone as the isolators stand (R171, R183). -/
def State.bdMembers (s : State) (k : Nat) : List (Nat × FeederCfg) :=
  let x : SecCtx := { k := k, c := s.img.sec k, m := s.img, meas := [], elem := [], reads := s.snapshot (s.img.bdReads k)
                      same := [], dt := 0, now := s.now }
  x.feeders.filter (fun g => (x.inMain g.2).1 || (g.2.inCheck && g.2.has3 0))

/-- Each feeder of a list of channels whose known samples carry TEST up to epoch `t` accepts it (R106). -/
def State.testOk (s : State) (l : List (Nat × Nat)) (er t : Nat) : Bool :=
  l.all (fun p => match s.img.feeder p.1 with
    | some c => c.acceptTest || !((s.feeder p.1).runQual c ((s.sec (p.1 / 64)).nextDue - 1) er t [p.2]).test
    | none => true)

/-- The differential may ask for urgent conversions: every phase channel of every member is local (R183). -/
def State.bdUrges (s : State) (k : Nat) : Bool :=
  (s.bdMembers k).all (fun g => [0, 1, 2].all (fun n => (s.localOf (g.1, n)).isSome))

/-- An isolator signal with TEST is accepted by its feeder, a block input with TEST by every member (R106). -/
def State.bdTestOk (s : State) (k : Nat) : Bool :=
  let mem := s.bdMembers k
  mem.all (fun g => match g.2.zone with | .isolator i => !(s.sig i).q.test || s.acceptsTest g.1 | _ => true) &&
    (match (s.img.sec k).bd.block with | some b => !(s.sig b.id).q.test || mem.all (fun g => s.acceptsTest g.1) | none => true)

/-- One attempt for phase `p` of the differential. -/
def State.tryBd (s : State) (k kind p : Nat) : Try :=
  let c := s.img.sec k
  let d := (s.sec k).nextDue - 1
  let mem := (s.bdMembers k).map Prod.fst
  let l := mem.map (fun g => (g, p))
  let er := s.commonOf d l
  let t := s.targetOf k kind er
  let urge := s.bdUrges k && s.mayUrge l
  if l.isEmpty || !s.mayStage k (some k) 0 0 kind t || !s.speculates l || decide (t ≤ d) || (kind == 0 && !urge) then none
  else
    let (m, x) := s.runSec k c 1 d er t
    let q := (m.qMain.getD p {}).join (m.qCheck.getD p {})
    if m.bdBlk.getD p false || decide (q.validity ≠ .good) || !s.testOk l er t || !s.bdTestOk k then none
    else
      let (h, _) := s.runSec k c (-1) d er t
      if !m.bdOp.getD p false then some (.inr (h.bdOp.getD p false))
      else
        let ph (y : MasterSt) : List PhSt := (List.range 3).map y.bdPhase
        some (.inl (s.secPly k 0 t kind er l (2 ^ p) q (ph m) (ph h) (x.main.map Prod.fst)
          [⟨sectionSig k (10 + p), 0⟩, ⟨sectionSig k 13, 0⟩] (s.img.bdReads k)))

/-- One attempt for arc zone `z` with one check feeder. -/
def State.tryArc (s : State) (k kind z : Nat) (a : ArcCfg) (g : Nat) : Try :=
  let c := s.img.sec k
  let d := (s.sec k).nextDue - 1
  let l := [(g, 0), (g, 1), (g, 2)]
  let er := s.commonOf d l
  let t := s.targetOf k kind er
  let trips := s.img.arcTargets k a
  if !s.mayStage k (some k) 0 (1 + z) kind t || !s.speculates l || decide (t ≤ d) || (kind == 0 && !s.mayUrge l) then none
  else
    let c' := { c with arcs := modAt c.arcs z (fun a => { a with checks := some [g], targets := some trips }) }
    let o := (s.runSec k c' 1 d er t).1.arcs.getD z {}
    if o.blocked || !o.light || decide (o.q.validity ≠ .good) || !s.testOk l er t ||
        !a.lights.all (fun w => !(s.sig (inSig w.1 w.2)).q.test || s.acceptsTest w.1) then none
    else
      let h := (s.runSec k c' (-1) d er t).1.arcs.getD z {}
      if !o.op then some (.inr h.op)
      else some (.inl (s.secPly k (1 + z) t kind er l 1 o.q [o.phase] [h.phase] trips [⟨sectionSig k (16 + z), 0⟩]
        (a.lights.map (fun w => inSig w.1 w.2))))

/-- The attempts of a round for the section elements, on the master (R186). -/
def State.trySections (s : State) (k : Nat) : State :=
  let c := s.img.sec k
  let e := s.master k
  let free (s : State) (i : Nat) (ids : List Nat) : Bool := (Tab.find (s.sec k).committed i).isNone && !ids.any s.forcedSig
  let s := if c.bd.enabled && !(s.sec k).mst.bdOp.any id && free s 0 [sectionSig k 10, sectionSig k 11, sectionSig k 12, sectionSig k 13] then
      [0, 1, 2].foldl (fun s kind => s.endTry e (firstTry ([0, 1, 2].map (s.tryBd k kind)))) s
    else s
  (List.zip (List.range c.arcs.length) c.arcs).foldl (fun s z =>
    if ((s.sec k).mst.arcs.getD z.1 {}).op || !free s (1 + z.1) [sectionSig k (16 + z.1)] then s
    else [0, 1, 2].foldl (fun s kind =>
      s.endTry e (firstTry ((s.img.arcChecks k z.2).map (s.tryArc k kind z.1 z.2)))) s) s

/-- The normal evaluations of the engine for the present epoch have completed (R186). -/
def State.idleEngine (s : State) (e : Nat) : Bool :=
  (s.held e).all (fun f => (s.feeder f).evalOpen.isNone) &&
    (s.master (e / 8) != e || (s.sec (e / 8)).evalOpen.isNone)

/-- Feeders of an engine in ascending slot. -/
def State.heldBySlot (s : State) (e : Nat) : List Nat :=
  let l := (s.held e).map (fun f => ((s.feeder f).slot, f))
  (List.range 12).flatMap (fun n => (l.filter (fun p => p.1 == n)).map Prod.snd)

/-- PLY_ROUND (R186). -/
def State.plyRound (s : State) (e : Nat) : State :=
  let k := e / 8
  if !(s.engine e).roundDue || !s.plyActive e || !s.idleEngine e || (s.sec k).nextDue == 0 then s
  else
    let s := s.updEngine e (fun g => { g with roundDue := false })
    let s := if s.master k = e then s.trySections k else s
    (s.heldBySlot e).foldl (fun s f => match s.img.feeder f with
      | some c => c.order.foldl (fun s i => match Tab.find c.elems i with
          | some g => s.tryInst f i c g
          | none => s) s
      | none => s) s

def execPlyRound (e : Nat) (s : State) : Host.Outcome State Fault Refusal := .next (s.plyRound e)

/-! ## Commit (R197, R199) -/

/-- The gates of a committed ply open behind those already open; those of tiles outside the effective range are discarded
(R193, R197, R310). -/
def LaneSt.openGates (l : LaneSt) (id : Nat) (inRange : Nat → Bool) : LaneSt :=
  { l with gates :=
      l.gates.filter (fun g => g.open_) ++
      (l.gates.filter (fun g => !g.open_ && g.ply == id && inRange g.addr)).map (fun g => { g with open_ := true }) ++
      l.gates.filter (fun g => !g.open_ && g.ply != id) }

def State.openGates (s : State) (id : Nat) : State :=
  { s with lanes := s.lanes.map (fun l => (l.1, l.2.openGates id (s.inRange l.1))) }

/-- The outputs and deltas of a feeder's ply commit, with the record (R192). -/
def State.commitFeeder (s : State) (p : Ply) : State :=
  let id := feederSig p.feeder p.inst
  let old := s.sigBelow id
  let e : Entry := Entry.mk' (old.value.toNat ||| p.commit.bits) p.q
  let s := s.putSig id e
  let s := s.updFeeder p.feeder (fun x => x.updElem p.inst (fun el => { el with committed := some { p.commit with q := p.q } }))
  s.event 0x0402 p.feeder p.inst (.at p.target) [e.value.toNat % 256, p.q.code, 1]

/-- The outputs of a section ply commit: BD_OP_x and BD_OP or AF_OPz, the SECTRIP of each target, the records. -/
def State.commitSection (s : State) (k : Nat) (p : Ply) : State :=
  let s := if p.inst = 0 then
      ([0, 1, 2].foldl (fun s x => if bitOf p.commit.bits x then s.putSec k (10 + x) true p.q else s) s).putSec k 13 true p.q
    else s.putSec k (15 + p.inst) true p.q
  let s := s.updSec k (fun x => { x with committed := Tab.set x.committed p.inst { p.commit with q := p.q } })
  let s := s.event 0x0506 k 0xFFFF (.at p.target) [p.inst, if p.inst = 0 then p.commit.bits else 0, 1]
  p.targets.foldl (fun s f => s.putTrip p.target f [(if p.inst = 0 then 0 else 1, true, p.q, 0)]) s

/-- One confirmed ply commits; another ply of the same instance is superseded (R197, R198). -/
def State.commitPly (s : State) (id : Nat) : State :=
  match Tab.find s.plies id with
  | none => s
  | some p =>
    let s := (s.openGates id).dropPly id
    let s := s.incF F.PE_PLYCNT_COMMIT p.engine
    let s := match p.sec with
      | some k => s.commitSection k p
      | none => s.commitFeeder p
    let s := if p.urgent then
        let deps := p.deps.map (fun d => { d with wait := (List.range (p.target - d.er)).map (fun i => d.er + 1 + i) })
        s.updEngine p.engine (fun g => { g with audits := { p with deps := deps } :: g.audits.filter (fun a => decide ((s.sec (p.engine / 8)).nextDue ≤ a.target)) })
      else s
    s.squashAll .super (fun o => o.sec == p.sec && o.feeder == p.feeder && o.inst == p.inst)

/-- The measured time of a grant, which nothing in the model fixes: a free value of at most 800 ns (R18, R202). -/
def State.grantTime (s : State) (k : Nat) : State :=
  let (v, s) := s.fresh 16
  let t := v % 801
  (s.setF F.SEC_COMMITLAT_LASTLAT k t).setF F.SEC_COMMITLAT_MAXLAT k (max t (s.getF F.SEC_COMMITLAT_MAXLAT k))

/-- The confirmed plies in the order of a grant: section plies, then feeder plies, each in ascending engine number and slot
(R197). -/
def State.grantOrder (s : State) : List Nat :=
  let l := s.plies.filter (fun p => p.2.confirmed)
  let bySlot (l : List (Nat × Ply)) : List Nat :=
    (l.foldl (fun (o : List (Nat × Nat)) p =>
      let key := p.2.engine * 2048 + p.2.slot
      o.takeWhile (fun q => decide (q.1 ≤ key)) ++ (key, p.1) :: o.dropWhile (fun q => decide (q.1 ≤ key))) []).map Prod.snd
  bySlot (l.filter (fun p => p.2.sec.isSome)) ++ bySlot (l.filter (fun p => p.2.sec.isNone))

/-- COMMIT_GRANT (R197). -/
def State.grant (s : State) : State :=
  let l := s.grantOrder
  if l.isEmpty then s
  else
    let secs := (l.filterMap (fun id => (Tab.find s.plies id).map (fun p => p.engine / 8))).eraseDups
    let s := l.foldl (fun s id => s.commitPly id) s
    (secs.foldl (fun s k => s.grantTime k) s).published

def execCommitGrant (s : State) : Host.Outcome State Fault Refusal := .next s.grant

/-! ## The rank ingress (R16, R196) -/

/-- Bursts that a rank holds. -/
def State.heldBursts (s : State) (k : Nat) : Nat :=
  (s.feeders.filter (fun p => p.1 / 64 == k)).foldl (fun a p => a + p.2.bursts.length) 0

/-- A burst reaches the ingress: late (R16), dropped on a full ingress (R396), or delivered and examined. -/
def State.burstArrives (s : State) (k f src e : Nat) (samples : List (Option (Int × Quality))) : State :=
  if e < (s.sec k).nextDue ∨ s.arrived k (s.dueAngle k e) then s.incF F.SEC_INGSTAT_LATE k
  else
    let n := s.heldBursts k
    if 2048 ≤ n then s
    else
      let s := (s.bumpF F.SEC_INGSTAT_BURSTS k).brim F.DEV_BRIM0_INGR (n + 1)
      let s := s.updFeeder f (fun x => { x with bursts := x.bursts ++ [(src, e, samples)] })
      let s := s.examine f src e samples
      s.updEngine (s.feeder f).engine (fun g => { g with roundDue := true })

/-- INGRESS_ARRIVAL of the n-th item on its way to the rank ingress of a section. -/
def State.ingress (s : State) (k n : Nat) : State :=
  match (s.sec k).toIngress[n]? with
  | none => s
  | some item =>
    let s := s.updSec k (fun x => { x with toIngress := x.toIngress.eraseIdx n })
    match item with
    | .burst f src e samples => s.burstArrives k f src e samples
    | .urgent conv inp code ovr angle q => s.examineUrgent conv inp code ovr angle q

def execIngressArrival (k n : Nat) (s : State) : Host.Outcome State Fault Refusal := .next (s.ingress k n)

end Sys2Proof.Machine
end

