-- ==== Sys2Proof/Machine/Check.lean ====
section
/-! DEFINITION. The check-value units (R354 to R362). -/

namespace Sys2Proof.Machine

/-- The parameters in force of a unit: its preset, else its registers (R355). -/
def State.ckParam (s : State) (k : Nat) : CrcParam :=
  match s.getF F.CK_CFG_PRESET k with
  | 1 => crc32c
  | 2 => crc32
  | 3 => crc16
  | _ => ⟨s.getF F.CK_CFG_WIDTH k, s.getF F.CK_POLY_POLY k, s.getF F.CK_INIT_INIT k, s.flag F.CK_CFG_REFIN k,
          s.flag F.CK_CFG_REFOUT k, s.getF F.CK_XOROUT_XOROUT k⟩

/-- Bytes of a check value: ceil(W / 8). -/
def CrcParam.bytes (p : CrcParam) : Nat := (p.w + 7) / 8

/-- Capacity of the configuration NVM and of the event NVM in bytes (R334, R367). -/
def State.cfgBytes (s : State) : Nat := match s.dev.cfgSize with | some k => 2 ^ 20 * 2 ^ k | none => 0
def State.evBytes (s : State) : Nat := 2 ^ 20 * 2 ^ s.getF F.EL_CFG_SIZE

/-- Size of a source space (R357). -/
def State.spaceSize (s : State) (sp : Nat) : Nat := if sp = 0 then 0x8000 else if sp = 1 then s.cfgBytes else s.evBytes

/-- `n` bytes of a source space from `a`. -/
def State.spaceRead (s : State) (sp a n : Nat) : List Nat :=
  if sp = 0 then Mem.readN 0 s.ckBuf a n else if sp = 1 then Mem.readN 0xFF s.cfgNvm a n else s.evRead a n

/-- Bytes that a job writes to the check buffer from its present registers (R356). -/
def State.ckOutBytes (s : State) (k : Nat) : Nat :=
  let len := s.getF F.CK_LEN_LEN k
  let n := (s.ckParam k).bytes
  match s.getF F.CK_CFG_MODE k with
  | 0 => 0
  | 1 => len + n
  | _ => len - n

/-- The check-buffer ranges of a job: start and length of what it reads and of what it writes. -/
def State.ckRanges (s : State) (k : Nat) : List (Nat × Nat) :=
  ((if s.getF F.CK_CFG_SSPACE k = 0 then [(s.getF F.CK_SRC_SRC k, s.getF F.CK_LEN_LEN k)] else []) ++
    [(s.getF F.CK_DST_DST k, s.ckOutBytes k)]).filter (fun r => r.2 != 0)

/-- Two ranges share a byte; an empty range shares none. -/
def overlaps (a b : Nat × Nat) : Bool := a.2 != 0 && b.2 != 0 && decide (a.1 < b.1 + b.2) && decide (b.1 < a.1 + a.2)

/-- Bytes that a paused job has consumed, and the stored value's among them: a START with CONT resumes it (R360). -/
def State.ckBehind (s : State) (k : Nat) (cont : Bool) : Nat :=
  if cont && s.getF F.CK_STAT_STATE k == 2 then (s.ck k).done + (s.ck k).stored.length else 0

/-- The result code of a refused START: 3 range, 4 short, 5 overlap (R359). -/
def State.ckRefusal (s : State) (k : Nat) (cont : Bool) : Option Nat :=
  let sp := s.getF F.CK_CFG_SSPACE k
  let src := s.getF F.CK_SRC_SRC k
  let dst := s.getF F.CK_DST_DST k
  let len := s.getF F.CK_LEN_LEN k
  let n := (s.ckParam k).bytes
  let others := (List.range 8).filter (fun j => j != k && s.getF F.CK_STAT_STATE j != 0)
  if s.getF F.CK_CFG_MODE k = 3 ∨ sp = 3 ∨ s.spaceSize sp < src + len ∨ 0x8000 < dst + s.ckOutBytes k then some 3
  else if s.getF F.CK_CFG_MODE k = 2 ∧ s.ckBehind k cont + len ≤ n then some 4
  else if others.any (fun j => (s.ckRanges j).any (fun a => (s.ckRanges k).any (fun b => overlaps a b))) then some 5
  else if sp = 0 ∧ dst ≠ src ∧ overlaps (src, len) (dst, s.ckOutBytes k) then some 5
  else none

/-- A maintenance write to a unit that serves the device is ignored and sets BUSY (R362). -/
def State.ckOwned (s : State) (k : Nat) : Bool := s.flag F.CK_STAT_OWNED k

/-- Data bytes left: all, or in mode 2 all but what is still to read of the stored value. -/
def State.ckData (s : State) (k : Nat) : Nat :=
  if s.getF F.CK_CFG_MODE k = 2 then s.getF F.CK_LEN_LEN k - ((s.ckParam k).bytes - (s.ck k).stored.length) else s.getF F.CK_LEN_LEN k

/-- The next `n` source bytes, and the bytes then in hand: a scan of the event NVM takes each 256-byte page at one moment, so that a
program of the page falls wholly before or after its reading (R358). -/
def State.ckFetch (s : State) (k n : Nat) : List Nat × List Nat :=
  let sp := s.getF F.CK_CFG_SSPACE k
  let src := s.getF F.CK_SRC_SRC k
  let page := (s.ck k).page
  if n ≤ page.length then (page.take n, page.drop n)
  else
    let end_ := src + n
    let more := if sp = 2 then min (s.getF F.CK_LEN_LEN k - n) ((256 - end_ % 256) % 256) else 0
    (page ++ s.spaceRead sp (src + page.length) (n - page.length), s.spaceRead sp end_ more)

/-- `n` bytes consumed: the running value, the copy to the destination, the stored value, the next addresses (R354, R356, R360). -/
def State.ckConsume (s : State) (k n : Nat) : State :=
  let src := s.getF F.CK_SRC_SRC k
  let dst := s.getF F.CK_DST_DST k
  let d := min n (s.ckData k)
  let (bytes, page) := s.ckFetch k n
  let copy := s.getF F.CK_CFG_MODE k != 0
  let s := s.setF F.CK_VALUE_VALUE k (crcRun (s.ckParam k) (s.getF F.CK_VALUE_VALUE k) (bytes.take d))
  let s := if copy then ({ s with ckBuf := Mem.writeN 0 s.ckBuf dst (bytes.take d) }).setF F.CK_DST_DST k (dst + d) else s
  let s := (s.setF F.CK_SRC_SRC k (src + n)).setF F.CK_LEN_LEN k (s.getF F.CK_LEN_LEN k - n)
  { s with cks := Tab.upd s.cks {} k (fun j => { j with
      done := j.done + d, stored := j.stored ++ bytes.drop d, page := page, startAt := s.now }) }

/-- The end of a job: out, the stored value, the lengths and the result (R356). -/
def State.ckFinish (s : State) (k : Nat) : State :=
  let s := s.ckConsume k (s.getF F.CK_LEN_LEN k)
  let p := s.ckParam k
  let out := crcOut p (s.getF F.CK_VALUE_VALUE k)
  let done := (s.ck k).done
  let s := (s.setF F.CK_RESULT_RESULT k out).setF F.CK_STAT_DONE k 1 |>.setF F.CK_STAT_STATE k 0
  match s.getF F.CK_CFG_MODE k with
  | 0 => (s.setF F.CK_OUTLEN_OUTLEN k 0).setF F.CK_STAT_RESULT k 1
  | 1 =>
    let dst := s.getF F.CK_DST_DST k
    let s := { s with ckBuf := Mem.writeN 0 s.ckBuf dst (leBytes p.bytes out) }
    ((s.setF F.CK_DST_DST k (dst + p.bytes)).setF F.CK_OUTLEN_OUTLEN k (done + p.bytes)).setF F.CK_STAT_RESULT k 1
  | _ => (s.setF F.CK_OUTLEN_OUTLEN k done).setF F.CK_STAT_RESULT k (if leNat (s.ck k).stored = out then 1 else 2)

/-- Bytes that a running job has consumed by now since it was last looked at: 4 a core clock from the check buffer; from an NVM a free
value (R357; log entry 1). -/
def State.ckReached (s : State) (k : Nat) : Nat × State :=
  if s.getF F.CK_CFG_SSPACE k = 0 then (4 * (s.now - (s.ck k).startAt), s) else s.fresh 32

/-- A running job brought up to the present byte (R360); from an NVM its last byte is left to its completion. -/
def State.ckShow (s : State) (k : Nat) : State :=
  if s.getF F.CK_STAT_STATE k != 1 then s
  else
    let nvm := s.getF F.CK_CFG_SSPACE k != 0
    let (n, s) := s.ckReached k
    let len := s.getF F.CK_LEN_LEN k
    s.ckConsume k (if nvm then n % max 1 len else min len n)

/-- Every running job brought up to the present byte. -/
def State.ckShowAll (s : State) : State := s.forN 8 (fun s k => s.ckShow k)

/-- START (R359, R360): from INIT, or from CK_VALUE with CONT. -/
def State.ckStart (s : State) (k : Nat) (cont : Bool) : State :=
  if !decide (k < 8) then s
  else if s.ckOwned k then s.setF F.CK_STAT_BUSY k 1
  else if s.getF F.CK_STAT_STATE k = 1 then s
  else
    let s := s.ckShowAll
    match s.ckRefusal k cont with
    | some r => ((s.setF F.CK_STAT_RESULT k r).setF F.CK_STAT_DONE k 1).setF F.CK_STAT_STATE k 0
    | none =>
      let p := s.ckParam k
      let j := if cont && s.getF F.CK_STAT_STATE k == 2 then s.ck k else {}
      let s := s.setF F.CK_VALUE_VALUE k ((if cont then s.getF F.CK_VALUE_VALUE k else p.init) % 2 ^ p.w)
      { s.setF F.CK_STAT_STATE k 1 with cks := Tab.set s.cks k { j with startAt := s.now } }

/-- PAUSE on a running job (R360): it stops at the byte reached, or completes where no byte is left. -/
def State.ckPause (s : State) (k : Nat) : State :=
  if !decide (k < 8) then s
  else if s.ckOwned k then s.setF F.CK_STAT_BUSY k 1
  else if s.getF F.CK_STAT_STATE k != 1 then s
  else
    let (n, s) := s.ckReached k
    if s.getF F.CK_LEN_LEN k ≤ n then s.ckFinish k else (s.ckConsume k n).setF F.CK_STAT_STATE k 2

/-- ABORT on a running or paused job (R360): it stops at the byte reached, or completes where no byte is left. -/
def State.ckAbort (s : State) (k : Nat) : State :=
  if !decide (k < 8) then s
  else if s.ckOwned k then s.setF F.CK_STAT_BUSY k 1
  else if s.getF F.CK_STAT_STATE k = 0 then s
  else
    let stop (s : State) : State := ((s.setF F.CK_STAT_RESULT k 7).setF F.CK_STAT_DONE k 1).setF F.CK_STAT_STATE k 0
    if s.getF F.CK_STAT_STATE k = 2 then stop s
    else
      let (n, s) := s.ckReached k
      if s.getF F.CK_LEN_LEN k ≤ n then s.ckFinish k else stop (s.ckConsume k n)

/-- A write to CK_SRC, CK_DST, CK_LEN or CK_VALUE gives the unit another context than the paused job's (R361). -/
def State.ckRestored (s : State) (k : Nat) : State := { s with cks := Tab.upd s.cks {} k (fun j => { startAt := j.startAt }) }

def execCkStart (k : Nat) (s : State) : Host.Outcome State Fault Refusal := .next (s.ckStart k false)
def execCkStartCont (k : Nat) (s : State) : Host.Outcome State Fault Refusal := .next (s.ckStart k true)
def execCkPause (k : Nat) (s : State) : Host.Outcome State Fault Refusal := .next (s.ckPause k)
def execCkAbort (k : Nat) (s : State) : Host.Outcome State Fault Refusal := .next (s.ckAbort k)

/-- A job in the check buffer takes a core clock for every 4 bytes (R357). -/
def State.ckAwait (s : State) (k : Nat) : State :=
  s.onlyIf (s.getF F.CK_CFG_SSPACE k == 0) (fun s => s.advanceTo ((s.ck k).startAt + (s.getF F.CK_LEN_LEN k + 3) / 4))

/-- A running job processes its last byte, or its NVM reports an error (R356). -/
def execCkJobComplete (k : Nat) (nvmError : Bool) (s : State) : Host.Outcome State Fault Refusal :=
  .next (if s.getF F.CK_STAT_STATE k != 1 then s
    else if nvmError && s.getF F.CK_CFG_SSPACE k != 0 then
      ((s.setF F.CK_STAT_RESULT k 6).setF F.CK_STAT_DONE k 1).setF F.CK_STAT_STATE k 0
    else (s.ckAwait k).ckFinish k)

end Sys2Proof.Machine
end

