-- ==== Sys2Proof/Machine/Ed25519.lean ====
section
/-! DEFINITION. SHA-512 and the check of Ed25519 signatures without pre-hashing, as in RFC 8032 (R371; log entry 165). -/

namespace Sys2Proof.Machine

/-! ## SHA-512 -/

/-- The round constants and the initial hash value. -/
def shaK : List Nat :=
  [0x428A2F98D728AE22, 0x7137449123EF65CD, 0xB5C0FBCFEC4D3B2F, 0xE9B5DBA58189DBBC,
   0x3956C25BF348B538, 0x59F111F1B605D019, 0x923F82A4AF194F9B, 0xAB1C5ED5DA6D8118,
   0xD807AA98A3030242, 0x12835B0145706FBE, 0x243185BE4EE4B28C, 0x550C7DC3D5FFB4E2,
   0x72BE5D74F27B896F, 0x80DEB1FE3B1696B1, 0x9BDC06A725C71235, 0xC19BF174CF692694] ++
  [0xE49B69C19EF14AD2, 0xEFBE4786384F25E3, 0x0FC19DC68B8CD5B5, 0x240CA1CC77AC9C65,
   0x2DE92C6F592B0275, 0x4A7484AA6EA6E483, 0x5CB0A9DCBD41FBD4, 0x76F988DA831153B5,
   0x983E5152EE66DFAB, 0xA831C66D2DB43210, 0xB00327C898FB213F, 0xBF597FC7BEEF0EE4,
   0xC6E00BF33DA88FC2, 0xD5A79147930AA725, 0x06CA6351E003826F, 0x142929670A0E6E70] ++
  [0x27B70A8546D22FFC, 0x2E1B21385C26C926, 0x4D2C6DFC5AC42AED, 0x53380D139D95B3DF,
   0x650A73548BAF63DE, 0x766A0ABB3C77B2A8, 0x81C2C92E47EDAEE6, 0x92722C851482353B,
   0xA2BFE8A14CF10364, 0xA81A664BBC423001, 0xC24B8B70D0F89791, 0xC76C51A30654BE30,
   0xD192E819D6EF5218, 0xD69906245565A910, 0xF40E35855771202A, 0x106AA07032BBD1B8] ++
  [0x19A4C116B8D2D0C8, 0x1E376C085141AB53, 0x2748774CDF8EEB99, 0x34B0BCB5E19B48A8,
   0x391C0CB3C5C95A63, 0x4ED8AA4AE3418ACB, 0x5B9CCA4F7763E373, 0x682E6FF3D6B2B8A3,
   0x748F82EE5DEFB2FC, 0x78A5636F43172F60, 0x84C87814A1F0AB72, 0x8CC702081A6439EC,
   0x90BEFFFA23631E28, 0xA4506CEBDE82BDE9, 0xBEF9A3F7B2C67915, 0xC67178F2E372532B] ++
  [0xCA273ECEEA26619C, 0xD186B8C721C0C207, 0xEADA7DD6CDE0EB1E, 0xF57D4F7FEE6ED178,
   0x06F067AA72176FBA, 0x0A637DC5A2C898A6, 0x113F9804BEF90DAE, 0x1B710B35131C471B,
   0x28DB77F523047D84, 0x32CAAB7B40C72493, 0x3C9EBE0A15C9BEBC, 0x431D67C49C100D4C,
   0x4CC5D4BECB3E42B6, 0x597F299CFC657E2A, 0x5FCB6FAB3AD6FAEC, 0x6C44198C4A475817]

def shaInit : List Nat :=
  [0x6A09E667F3BCC908, 0xBB67AE8584CAA73B, 0x3C6EF372FE94F82B, 0xA54FF53A5F1D36F1,
   0x510E527FADE682D1, 0x9B05688C2B3E6C1F, 0x1F83D9ABFB41BD6B, 0x5BE0CD19137E2179]

def rot64 (x n : Nat) : Nat := (x >>> n) ||| ((x <<< (64 - n)) % 2 ^ 64)

/-- One round: the eight working words, and the next 16 words of the message schedule. -/
def shaRound (x : List Nat × List Nat) (k : Nat) : List Nat × List Nat :=
  match x.1 with
  | [a, b, c, d, e, f, g, h] =>
    let w (i : Nat) : Nat := x.2.getD i 0
    let s0 := rot64 (w 1) 1 ^^^ rot64 (w 1) 8 ^^^ (w 1 >>> 7)
    let s1 := rot64 (w 14) 19 ^^^ rot64 (w 14) 61 ^^^ (w 14 >>> 6)
    let t1 := h + (rot64 e 14 ^^^ rot64 e 18 ^^^ rot64 e 41) + ((e &&& f) ^^^ ((2 ^ 64 - 1 - e) &&& g)) + k + w 0
    let t2 := (rot64 a 28 ^^^ rot64 a 34 ^^^ rot64 a 39) + ((a &&& b) ^^^ (a &&& c) ^^^ (b &&& c))
    ([(t1 + t2) % 2 ^ 64, a, b, c, (d + t1) % 2 ^ 64, e, f, g], x.2.drop 1 ++ [(w 0 + s0 + w 9 + s1) % 2 ^ 64])
  | _ => x

/-- A number of `n` bytes, most significant byte first. -/
def beNum (l : List Nat) : Nat := leNat l.reverse

/-- The hash value after a block of 128 bytes. -/
def shaBlock (h block : List Nat) : List Nat :=
  let w := (List.range 16).map (fun i => beNum ((block.drop (8 * i)).take 8))
  List.zipWith (fun a b => (a + b) % 2 ^ 64) h (shaK.foldl shaRound (h, w)).1

/-- The digest of `l`, a number whose least significant byte is the digest's first, as Ed25519 takes it. -/
def sha512 (l : List Nat) : Nat :=
  let n := l.length
  let m := l ++ [0x80] ++ List.replicate ((239 - n % 128) % 128) 0 ++ (leBytes 16 (8 * n)).reverse
  let h := (List.range (m.length / 128)).foldl (fun h i => shaBlock h ((m.drop (128 * i)).take 128)) shaInit
  leNat (h.flatMap (fun x => (leBytes 8 x).reverse))

/-! ## The curve edwards25519 -/

def edP : Nat := 2 ^ 255 - 19
def edL : Nat := 2 ^ 252 + 27742317777372353535851937790883648493
def edD : Nat := 37095705934669439343138083508754565189542113879843219016388785533085940283555

/-- A point in extended homogeneous coordinates. -/
structure EdPoint where
  x : Nat
  y : Nat
  z : Nat := 1
  t : Nat
deriving DecidableEq, Repr

def edZero : EdPoint := { x := 0, y := 1, t := 0 }
def edBase : EdPoint :=
  { x := 15112221349535400772501151409588531511454012693041857206046113283949847762202
    y := 46316835694926478169428394003475163141307993866256225615783033603165251855960
    t := 46827403850823179245072216630277197565144205554125654976674165829533817101731 }

def EdPoint.add (a b : EdPoint) : EdPoint :=
  let u := (a.y + edP - a.x) * (b.y + edP - b.x) % edP
  let v := (a.y + a.x) * (b.y + b.x) % edP
  let c := 2 * edD * a.t * b.t % edP
  let d := 2 * a.z * b.z % edP
  let e := (v + edP - u) % edP
  let f := (d + edP - c) % edP
  let g := (d + c) % edP
  let h := (v + u) % edP
  { x := e * f % edP, y := g * h % edP, z := f * g % edP, t := e * h % edP }

def EdPoint.neg (a : EdPoint) : EdPoint := { a with x := (edP - a.x) % edP, t := (edP - a.t) % edP }

/-- The bits of a number below 2^256, most significant first. -/
def bits256 (n : Nat) : List Bool := (List.range 256).map (fun i => bitOf n (255 - i))

/-- `n` times a point. -/
def EdPoint.mul (a : EdPoint) (n : Nat) : EdPoint :=
  (bits256 n).foldl (fun r b => let d := r.add r; if b then d.add a else d) edZero

/-- A power in the field. -/
def edPow (x n : Nat) : Nat := (bits256 n).foldl (fun r b => let d := r * r % edP; if b then d * x % edP else d) 1

def EdPoint.isZero (a : EdPoint) : Bool := a.x % edP == 0 && a.y % edP == a.z % edP

/-- The point that 32 bytes encode: y, and the sign of x in the top bit. -/
def edDecode (l : List Nat) : Option EdPoint :=
  let n := leNat l
  let y := n % 2 ^ 255
  let u := (y * y + edP - 1) % edP
  let v := (edD * (y * y) + 1) % edP
  let r := u * edPow v 3 * edPow (u * edPow v 7 % edP) ((edP - 5) / 8) % edP
  let x := if v * (r * r) % edP = u then r else r * edPow 2 ((edP - 1) / 4) % edP
  if edP ≤ y ∨ v * (x * x) % edP ≠ u ∨ (x = 0 ∧ bitOf n 255 = true) then none
  else
    let x := if decide (x % 2 = 1) = bitOf n 255 then x else edP - x
    some { x := x, y := y, t := x * y % edP }

/-- The signature `sig` of 64 bytes over `msg` is valid under the public key of 32 bytes: the group equation of RFC 8032 5.1.7 with its
cofactor of 8 (log entry 165). -/
def edVerify (key msg sig : List Nat) : Bool :=
  let s := leNat ((sig.drop 32).take 32)
  match edDecode (key.take 32), edDecode (sig.take 32) with
  | some a, some r =>
    let k := sha512 (sig.take 32 ++ key.take 32 ++ msg) % edL
    sig.length == 64 && decide (s < edL) && ((((edBase.mul s).add r.neg).add (a.mul k).neg).mul 8).isZero
  | _, _ => false

end Sys2Proof.Machine
end

