-- ==== Sys2Proof/Machine/TileFrame.lean ====
section
/-! DEFINITION. The frames of the tile link, character by character, and the tile configuration block (R234 to R236, R435). -/

namespace Sys2Proof.Machine

/-! ## Frames (R234) -/

/-- The control characters that delimit a frame, and the idle ordered set K28.5 D16.2 (R234; log entry 136). -/
def kSof : Nat := 256 + 0xFB
def kEof : Nat := 256 + 0xFD
def idleSet : TileChars := [256 + 0xBC, 0x50]

/-- `n` bytes of `l`, followed by zeros where it has fewer. -/
def padTo (n : Nat) (l : List Nat) : List Nat := (l ++ List.replicate n 0).take n

/-- The frame of a body: SOF, the bytes, their CRC-16, EOF. -/
def framed (body : List Nat) : TileChars := kSof :: (body ++ (le2 (crcOf crc16 body) ++ [kEof]))

/-- Bytes 1 on of a received frame of `n` characters, without CRC and EOF. -/
def bodyOf (n : Nat) (l : TileChars) : List Nat := (l.drop 1).take (n - 4)

/-- The frame has exactly `n` characters, SOF and EOF at its ends, data characters between, and a correct CRC (R234, R242). -/
def frameOk (n : Nat) (l : TileChars) : Bool :=
  l.length == n && l.getD 0 0 == kSof && l.getD (n - 1) 0 == kEof && ((l.drop 1).take (n - 2)).all (fun c => decide (c < 256)) &&
  leNat [l.getD (n - 3) 0, l.getD (n - 2) 0] == crcOf crc16 (bodyOf n l)

/-! ## Down-frames (R235) -/

/-- Bytes 1 to 28. -/
def downBody (f : DownFrame) : List Nat :=
  [f.type % 256, f.addr % 256, f.hop % 256] ++ le2 f.claim ++ le2 f.seq ++ [f.cmd % 256, f.ncmd % 256] ++ le2 f.ctag ++
    [f.flags % 256] ++ le2 f.feeder ++ [f.item % 256, f.len % 256] ++ padTo 12 f.data

/-- The 32 characters of a down-frame. -/
def downChars (f : DownFrame) : TileChars := framed (downBody f)

/-- The fields of a received down-frame; FEEDER is in bits [10:0] of its bytes. -/
def downRead (l : TileChars) : DownFrame :=
  let b (i : Nat) : Nat := l.getD i 0
  { type := b 1, addr := b 2, hop := b 3, claim := leNat [b 4, b 5], seq := leNat [b 6, b 7], cmd := b 8, ncmd := b 9
    ctag := leNat [b 10, b 11], flags := b 12, feeder := leNat [b 13, b 14] % 2048, item := b 15, len := b 16
    data := (l.drop 17).take 12 }

/-- An enumerate frame as a tile forwards it: HOP is one more, and the CRC changes by what that changes in it, so that a frame with
a bad CRC keeps one (R235; log entry 136). -/
def hopped (l : TileChars) : TileChars :=
  let m := l.set 3 ((l.getD 3 0 + 1) % 256)
  let crc := leNat [l.getD 29 0, l.getD 30 0] ^^^ crcOf crc16 (bodyOf 32 l) ^^^ crcOf crc16 (bodyOf 32 m)
  (m.set 29 (crc % 256)).set 30 (crc / 256 % 256)

/-- An enumerate frame behind `n` tiles that passed it on. -/
def forwarded : Nat → TileChars → TileChars
  | 0, l => l
  | n + 1, l => forwarded n (hopped l)

/-! ## Up-frames (R236) -/

/-- The bytes before the CRC: 12, and 28 for TYPE 0x82. -/
def upBody (u : UpFrame) : List Nat :=
  [u.type % 256, u.addr % 256, u.stat % 256] ++ le2 u.aclaim ++ le2 u.eseq ++ le2 u.inp ++ le2 u.wb ++ [u.rb % 256] ++
    (if u.type = 0x82 then padTo 16 u.data else [])

/-- The 16 characters of an up-frame, 32 for TYPE 0x82. -/
def upChars (u : UpFrame) : TileChars := framed (upBody u)

/-- The up-frame has the length of its type and a correct CRC. -/
def upOk (l : TileChars) : Bool := if l.getD 1 0 = 0x82 then frameOk 32 l else l.getD 1 0 == 0x81 && frameOk 16 l

/-- The fields of a received up-frame. -/
def upRead (l : TileChars) : UpFrame :=
  let b (i : Nat) : Nat := l.getD i 0
  { type := b 1, addr := b 2, stat := b 3, aclaim := leNat [b 4, b 5], eseq := leNat [b 6, b 7], inp := leNat [b 8, b 9]
    wb := leNat [b 10, b 11], rb := b 12, data := if b 1 = 0x82 then (l.drop 13).take 16 else [] }

/-- The data of an enumeration response: serial number, held CTAG, address-agreement bit, firmware revision (R254); the places of
the last three are the model's (log entry 137). -/
def enumData (serial ctag : Nat) (agrees : Bool) (rev : Nat) : List Nat :=
  padTo 16 (le4 serial ++ le2 ctag ++ [b2n agrees] ++ le2 rev)

/-! ## The configuration block (R435) -/

/-- Bytes 0 to 35 of a tile's configuration block. -/
def TileCfg.bytes (t : TileCfg) (a p : Nat) : List Nat :=
  le2 (t.feeder % 2048) ++ [a, p] ++ le4 t.timeout10us ++ [t.safe, t.grpLo + 4 * t.grpHi] ++ le2 t.light ++ le2 t.wb ++
  (List.range 16).map (fun n => if bitOf t.light n then 0 else t.debounce.getD n 20) ++ le4 t.serial ++ [0, 0]

/-- A source word: bit 31, the bit in [21:17], the signal ID in [16:0]. -/
def sourceWord (b : Option SigBit) : Nat :=
  match b with
  | some b => 2 ^ 31 + 2 ^ 17 * (b.bit % 32) + b.id % 2 ^ 17
  | none => 0

/-- The source that a word names. -/
def sourceOf (w : Nat) : Option SigBit := if bitOf w 31 then some { id := w % 2 ^ 17, bit := fieldOf w 17 5 } else none

/-- The 20 bytes of an output: four source words, the minimum on time, zeros. -/
def OutCfg.bytes (o : OutCfg) : List Nat :=
  (List.range 4).flatMap (fun i => le4 (sourceWord (o.srcs[i]?))) ++ le2 o.minOnMs ++ [0, 0]

/-- The settings that 20 bytes give an output. -/
def OutCfg.read (l : List Nat) : OutCfg :=
  { srcs := (List.range 4).filterMap (fun i => sourceOf (leNat ((l.drop (4 * i)).take 4))), minOnMs := leNat ((l.drop 16).take 2) }

/-- The 196 bytes of a tile's block. -/
def TileCfg.block (t : TileCfg) (a p : Nat) : List Nat :=
  t.bytes a p ++ (List.range 8).flatMap (fun n => (t.outs.getD n {}).bytes)

/-- The settings that the 196 bytes of a block give a tile. -/
def TileCfg.read (l : List Nat) : TileCfg :=
  let b (i : Nat) : Nat := l.getD i 0
  { feeder := leNat [b 0, b 1] % 2048, timeout10us := leNat [b 4, b 5, b 6, b 7], safe := b 8, grpLo := fieldOf (b 9) 0 2
    grpHi := fieldOf (b 9) 2 2, light := leNat [b 10, b 11], wb := leNat [b 12, b 13], debounce := (l.drop 14).take 16
    serial := leNat [b 30, b 31, b 32, b 33], outs := (List.range 8).map (fun n => OutCfg.read ((l.drop (36 + 20 * n)).take 20)) }

/-- The CTAG: bits [15:0] of the CRC-32C of bytes 0 to 35 (R255). -/
def TileCfg.ctag (t : TileCfg) (a p : Nat) : Nat := crcOf crc32c (t.bytes a p) % 65536

end Sys2Proof.Machine
end

