-- ==== Sys2Proof/Machine/ImageBytes.lean ====
section
/-! DEFINITION. The bytes of images and change packages: header, directory, blocks, signatures and schedule (R367 to R371, R373, R374, R435). -/

namespace Sys2Proof.Machine

/-- A header (R368). -/
structure ImgHead where
  magic : Nat := 0
  layout : Nat := 0
  nblk : Nat := 0
  length : Nat := 0
  version : Nat := 0
  gen : Nat := 0
  flags : Nat := 0
  key : List Nat := []
  hcrc : Nat := 0
  commit : Nat := 0
deriving DecidableEq, Repr

def imageMagic : Nat := 0xB0D71920
def packageMagic : Nat := 0xB0D71921

/-- A little-endian number in a string of bytes. -/
def numAt (l : List Nat) (a n : Nat) : Nat := leNat ((l.drop a).take n)

/-- The header that stands at the front of a string of bytes. -/
def headRead (l : List Nat) : ImgHead :=
  { magic := numAt l 0 4, layout := numAt l 4 2, nblk := numAt l 6 2, length := numAt l 8 4, version := numAt l 12 4, gen := numAt l 16 4
    flags := numAt l 20 1, key := (l.drop 24).take 32, hcrc := numAt l 56 4, commit := numAt l 60 1 }

/-- Bytes 0 to 55 of a header. -/
def ImgHead.front (h : ImgHead) : List Nat :=
  le4 h.magic ++ le2 h.layout ++ le2 h.nblk ++ le4 h.length ++ le4 h.version ++ le4 h.gen ++ [h.flags % 256, 0, 0, 0] ++
    (h.key ++ List.replicate 32 0).take 32

/-- A directory entry as bytes, and a directory of `n` entries read (R369). -/
def DirEntry.bytes (d : DirEntry) : List Nat := le2 d.type ++ le2 d.index ++ le4 d.offset ++ le4 d.length ++ le4 d.crc
def dirRead (l : List Nat) (n : Nat) : List DirEntry :=
  (List.range n).map (fun i =>
    { type := numAt l (16 * i) 2, index := numAt l (16 * i + 2) 2, offset := numAt l (16 * i + 4) 4
      length := numAt l (16 * i + 8) 4, crc := numAt l (16 * i + 12) 4 })

/-- The image says that it is signed, and that it holds a package key (R368). -/
def ImgHead.signed (h : ImgHead) : Bool := bitOf h.flags 0
def ImgHead.hasKey (h : ImgHead) : Bool := bitOf h.flags 1

/-- An image or package as the device reads it: its header, its directory, and what its sizes, CRCs and signatures give (R370, R371). -/
structure ImgRead where
  head : ImgHead
  dir : List DirEntry
  hcrcOk : Bool
  /-- A fault of size, with the block outside LENGTH or 0 where it concerns no block. -/
  badSize : Option Nat
  /-- The first block whose CRC is wrong. -/
  badBlock : Option Nat
  /-- The first block of microcode or firmware whose Brodurn signature fails. -/
  vendorBad : Option Nat
  /-- The last 64 bytes sign the rest, COMMIT taken as 0xA5. -/
  sigOk : Bool
  /-- The tile configuration blocks: INDEX and bytes (R435). -/
  tileBlocks : List (Nat × List Nat)

/-- The first `n - 64` bytes are signed by the last 64 under the key. -/
def signedBy (key l : List Nat) : Bool := edVerify key (l.take (l.length - 64)) (l.drop (l.length - 64))

/-- A block lies within the `n` bytes of the image, and carries bytes. -/
def DirEntry.within (d : DirEntry) (n : Nat) : Bool := decide (d.offset + d.length ≤ n)

/-- Reads through `rd`, which gives `n` bytes from an offset of the header; `room` is what the string may fill, `rom` the vendor's key and
`key` the key that signs. A header without its magic number has no directory. -/
def imgRead (magic : Nat) (rd : Nat → Nat → List Nat) (room : Nat) (rom : List Nat) (key : ImgHead → List Nat) : ImgRead :=
  let h := headRead (rd 0 64)
  let n := if h.magic = magic then h.nblk else 0
  let d := rd 64 (16 * n)
  let dir := dirRead d n
  let fits := h.magic == magic && decide (h.length ≤ room)
  { head := h, dir := dir
    hcrcOk := h.hcrc == crcOf crc32c (rd 0 56 ++ d)
    badSize := if 1 ≤ h.nblk ∧ h.nblk ≤ 1024 ∧ h.length ≤ room then dir.findIdx? (fun e => !e.within h.length) else some 0
    badBlock := dir.findIdx? (fun e => e.crc != crcOf crc32c (rd e.offset e.length))
    vendorBad := dir.findIdx? (fun e => (e.type == 8 || e.type == 9) && (magic == imageMagic || e.length != 0) &&
      !(e.within room && signedBy rom (rd e.offset e.length)))
    sigOk := fits && signedBy (key h) ((rd 0 h.length).set 60 0xA5)
    tileBlocks := dir.filterMap (fun e => if e.type = 4 && e.within room then some (e.index, rd e.offset e.length) else none) }

/-- A feeder that no section has: a hole in the addresses of a chain, which makes the image invalid. -/
def noTile : TileCfg := { feeder := 2047 }

/-- The tiles of a section's chain, by the address in byte 2 of their blocks (R435). -/
def tilesAt (blocks : List (Nat × List Nat)) (k : Nat) : List TileCfg :=
  let l := (blocks.filter (fun b => b.1 / 64 == k)).map (·.2)
  (List.range (l.foldl (fun n b => max n (b.getD 2 0 + 1)) l.length)).map (fun a =>
    ((l.find? (fun b => b.getD 2 0 == a)).map TileCfg.read).getD noTile)

/-- Settings of blocks under the header, directory and tile configuration blocks that carry them. -/
def Image.under (m : Image) (h : ImgHead) (dir : List DirEntry) (tiles : List (Nat × List Nat)) : Image :=
  { m with version := h.version, signed := h.signed, hasKey := h.hasKey, key := h.key, hcrc := h.hcrc, dir := dir
           chains := m.chains.map (fun p => (p.1, { p.2 with tiles := tilesAt tiles p.2.section_ })) }

/-! ## Banks (R367) -/

/-- First byte of a bank, and its size. -/
def State.bankSize (s : State) : Nat := s.cfgBytes / 2
def State.bankAddr (s : State) (k : Nat) : Nat := k * s.bankSize

/-- `n` bytes of a bank. -/
def State.bankBytes (s : State) (k a n : Nat) : List Nat := Mem.readN 0xFF s.cfgNvm (s.bankAddr k + a) n

/-- A bank is checked against Brodurn's key and the key in its own header (R371). -/
def State.bankRead (s : State) (k : Nat) : ImgRead := imgRead imageMagic (s.bankBytes k) s.bankSize s.dev.romKey ImgHead.key

/-- Bytes of the running image. -/
def State.runBytes (s : State) (a n : Nat) : List Nat := (s.dev.image.drop a).take n

/-- The header and directory of the running image. -/
def State.runHead (s : State) : ImgHead := headRead (s.runBytes 0 64)
def State.runDir (s : State) : List DirEntry := dirRead (s.runBytes 64 (16 * s.runHead.nblk)) s.runHead.nblk

/-! ## Packages (R373, R374) -/

/-- `n` bytes of the package buffer. -/
def State.pkgBytes (s : State) (a n : Nat) : List Nat := Mem.readN 0 s.pkgBuf a n

/-- A package is checked against Brodurn's key and the key of the running image (R373). -/
def State.pkgRead (s : State) : ImgRead := imgRead packageMagic s.pkgBytes (8 * 2 ^ 20) s.dev.romKey (fun _ => s.img.key)

/-- The place behind the last block: the schedule begins there and ends before the signature of 64 bytes. -/
def ImgRead.blocksEnd (r : ImgRead) : Nat := (r.dir.map (fun e => e.offset + e.length)).foldl max (64 + 16 * r.head.nblk)
def ImgRead.scheduleBytes (r : ImgRead) : Nat := r.head.length - 64 - r.blocksEnd

/-- The schedule of a package: section and cycle count of each entry. -/
def State.pkgSchedule (s : State) (r : ImgRead) : List (Nat × Nat) :=
  let l := s.pkgBytes r.blocksEnd r.scheduleBytes
  (List.range (r.scheduleBytes / 8)).map (fun i => (numAt l (8 * i) 1, numAt l (8 * i + 4) 4))

/-- The schedule's bytes are whole entries whose bytes 1 to 3 are 0. -/
def State.scheduleOk (s : State) (r : ImgRead) : Bool :=
  let l := s.pkgBytes r.blocksEnd r.scheduleBytes
  r.scheduleBytes % 8 == 0 && (List.range (r.scheduleBytes / 8)).all (fun i => numAt l (8 * i + 1) 3 == 0)

/-- Two entries name the same block. -/
def DirEntry.same (a b : DirEntry) : Bool := a.type == b.type && a.index == b.index

/-- The blocks of the image that results, in the order of the running directory with added ones behind, each with whether the package
brings it; an entry of LENGTH 0 removes its block (R373). -/
def mergedBlocks (run pkg : List DirEntry) : List (Bool × DirEntry) :=
  run.filterMap (fun d => match pkg.find? d.same with
    | some e => if e.length = 0 then none else some (true, e)
    | none => some (false, d)) ++
  (pkg.filter (fun e => !run.any e.same && e.length != 0)).map (fun e => (true, e))

/-- The blocks laid out one behind the other from `a` on. -/
def laidOut (a : Nat) : List (Bool × DirEntry) → List DirEntry
  | [] => []
  | (_, d) :: l => { d with offset := a } :: laidOut (a + d.length) l

/-- The header and directory of the image that results: GEN one higher, COMMIT erased, and the running image's key; the device cannot sign
it (R374; log entry 141). -/
def State.mergedHead (s : State) (version : Nat) (blocks : List (Bool × DirEntry)) : ImgHead × List DirEntry :=
  let run := s.runHead
  let dir := laidOut (64 + 16 * blocks.length) blocks
  let h : ImgHead := { magic := imageMagic, layout := 1, nblk := blocks.length, length := 64 + 16 * blocks.length + (dir.map (·.length)).sum
                       version := version, gen := s.dev.gen + 1, flags := if run.hasKey then 2 else 0, key := run.key, commit := 0xFF }
  ({ h with hcrc := crcOf crc32c (h.front ++ dir.flatMap DirEntry.bytes) }, dir)

/-- The blocks of the image that results from the package in the buffer, and the bytes of one. -/
def State.newBlocks (s : State) : List (Bool × DirEntry) := mergedBlocks s.runDir s.pkgRead.dir
def State.newBlock (s : State) (b : Bool × DirEntry) : List Nat :=
  if b.1 then s.pkgBytes b.2.offset b.2.length else s.runBytes b.2.offset b.2.length

/-- The header and directory of the image that results. -/
def State.mergedImage (s : State) : ImgHead × List DirEntry := s.mergedHead s.pkgRead.head.version s.newBlocks

/-- The bytes of the image that results. -/
def State.mergedBytes (s : State) : List Nat :=
  let (h, dir) := s.mergedImage
  h.front ++ le4 h.hcrc ++ [0xFF, 0, 0, 0] ++ dir.flatMap DirEntry.bytes ++ s.newBlocks.flatMap s.newBlock

/-- The tile configuration blocks of the image that results. -/
def State.newTiles (s : State) : List (Nat × List Nat) :=
  s.newBlocks.filterMap (fun b => if b.2.type = 4 then some (b.2.index, s.newBlock b) else none)

/-- The image that results fits its bank, with 1 to 1,024 blocks (R367, R368, R370). -/
def State.mergedFits (s : State) : Bool :=
  let h := s.mergedImage.1
  decide (1 ≤ h.nblk) && decide (h.nblk ≤ 1024) && decide (h.length ≤ s.bankSize)

/-- The bank into which packages are written: the one that did not load (R374, R378). -/
def State.spareBank (s : State) : Nat := 1 - s.getF F.DEV_IMGSTAT_BANK

/-- The image that results stands in the spare bank, COMMIT erased; where writing or reading back failed, a byte of it is a free value at
a free place (R374; log entry 141). -/
def State.storeBank (s : State) (ok : Bool) : State :=
  let l := s.mergedBytes
  let a := s.bankAddr s.spareBank
  let m := Mem.writeN 0xFF (Mem.erase s.cfgNvm a s.bankSize) a l
  if ok then { s with cfgNvm := m }
  else
    let (place, s) := s.fresh 32
    let (b, s) := s.fresh 8
    { s with cfgNvm := Mem.writeN 0xFF m (a + place % l.length) [b] }

/-- COMMIT of the spare bank is programmed, and the running image is the one of bytes `l` that was stored there (R378). -/
def State.commitSpare (s : State) (l : List Nat) : State :=
  ({ s with cfgNvm := Mem.programN s.cfgNvm (s.bankAddr s.spareBank + 60) [0xA5] }).updDev (fun d =>
    { d with image := l, gen := s.dev.gen + 1 })

end Sys2Proof.Machine
end

