-- ==== Sys2Proof/Machine/PeerLink.lean ====
section
/-! DEFINITION. The Jorhel peer variant: blocks, scrambler, frames, and the records and feed frames that they carry (R267 to R269,
R312, R314). -/

namespace Sys2Proof.Machine

/-! ## Blocks (R267) -/

/-- Sync headers of data and control blocks. -/
def hdrData : Nat := 1
def hdrControl : Nat := 2

/-- Block types, byte 0 of a control block. -/
def typeIdle : Nat := 0x2D
def typeStart : Nat := 0x4B
def typeEnd : Nat := 0xD2

/-- Number of DATA blocks of a frame, and bytes 1 to 7 of its START. -/
def peerLen (f : PeerFrame) : Nat := f.payload.length / 8
def startBytes (f : PeerFrame) : List Nat := [f.chan % 256, peerLen f % 256] ++ le2 f.seq ++ [0, 0, 0]

/-- A block before scrambling: its sync header and its 8 bytes. -/
abbrev PlainBlock := Nat × List Nat

/-- The payload in blocks of eight bytes. -/
def dataBlocks : Nat → List Nat → List PlainBlock
  | 0, _ => []
  | n + 1, l => (hdrData, l.take 8) :: dataBlocks n (l.drop 8)

/-- A frame: START, LEN DATA blocks, END with the CRC-32C over START bytes 1 to 7 and the payload. -/
def peerBlocks (f : PeerFrame) : List PlainBlock :=
  (hdrControl, typeStart :: startBytes f) :: (dataBlocks (peerLen f) f.payload ++
    [(hdrControl, typeEnd :: (le4 (crcOf crc32c (startBytes f ++ f.payload)) ++ [0, 0, 0]))])

/-! ## The scrambler x^58 + x^39 + 1 (R267) -/

/-- Bits 39 and 58 back of the last 58 scrambled bits, the latest in bit 0. -/
def tapsOf (st : Nat) : Nat := (st / 2 ^ 38 + st / 2 ^ 57) % 2

/-- `n` bits scrambled, the lowest first: the state after them and the bits. -/
def scramble : Nat → Nat → Nat → Nat × Nat
  | 0, st, _ => (st, 0)
  | n + 1, st, w =>
    let o := (w + tapsOf st) % 2
    let (st', r) := scramble n ((2 * st + o) % 2 ^ 58) (w / 2)
    (st', o + 2 * r)

/-- `n` received bits descrambled. -/
def descramble : Nat → Nat → Nat → Nat × Nat
  | 0, st, _ => (st, 0)
  | n + 1, st, w =>
    let o := (w + tapsOf st) % 2
    let (st', r) := descramble n ((2 * st + w % 2) % 2 ^ 58) (w / 2)
    (st', o + 2 * r)

/-- Blocks as sent from a scrambler state; the sync header is not scrambled. -/
def scrambleAll : Nat → List PlainBlock → List PeerBlock
  | _, [] => []
  | st, b :: r => let (st', w) := scramble 64 st (leNat b.2); (b.1, w) :: scrambleAll st' r

/-- Received blocks descrambled. -/
def descrambleAll : Nat → List PeerBlock → List PlainBlock
  | _, [] => []
  | st, b :: r => let (st', w) := descramble 64 st b.2; (b.1, leBytes 8 w) :: descrambleAll st' r

/-! ## Reception (R268) -/

/-- What a block does to the receiver: frames handed up, discards and invalid blocks counted. -/
structure PeerGot where
  asm : Option (List Nat × List Nat) := none
  frames : List PeerFrame := []
  disc : Nat := 0
  inval : Nat := 0
deriving DecidableEq, Repr

/-- A block outside a frame. -/
def PeerGot.outside (g : PeerGot) (b : PlainBlock) : PeerGot :=
  if b.1 = hdrData then { g with inval := g.inval + 1 }
  else if b.1 ≠ hdrControl then g
  else if b.2.getD 0 0 = typeStart then { g with asm := some (b.2.drop 1, []) }
  else if b.2.getD 0 0 = typeIdle ∨ b.2.getD 0 0 = typeEnd then g
  else { g with inval := g.inval + 1 }

/-- The END of an assembled frame: discarded with a bad CRC-32C or a channel that is not used, else handed up. -/
def PeerGot.close (g : PeerGot) (start payload endb : List Nat) : PeerGot :=
  if leNat ((endb.drop 1).take 4) = crcOf crc32c (start ++ payload) ∧ start.getD 0 0 < 2 then
    { g with asm := none
             frames := g.frames ++ [{ chan := start.getD 0 0, seq := leNat [start.getD 2 0, start.getD 3 0], payload := payload }] }
  else { g with asm := none, disc := g.disc + 1 }

/-- A block of the received stream. A block that breaks the frame being assembled discards it, and a control block is then taken as one
outside a frame (log entry 139). -/
def PeerGot.step (g : PeerGot) (b : PlainBlock) : PeerGot :=
  match g.asm with
  | none => g.outside b
  | some (start, payload) =>
    let full := decide (8 * start.getD 1 0 ≤ payload.length)
    if b.1 = hdrData ∧ full = false then { g with asm := some (start, payload ++ b.2) }
    else if b.1 = hdrControl ∧ b.2.getD 0 0 = typeEnd ∧ full = true then g.close start payload b.2
    else
      let h := { g with asm := none, disc := g.disc + 1 }
      if b.1 = hdrControl then h.outside b else h

def PeerGot.run (g : PeerGot) (l : List PlainBlock) : PeerGot := l.foldl PeerGot.step g

/-! ## Idle blocks and inverted bits (R267, R278) -/

/-- The block that is sent between frames. -/
def idleBlock : PlainBlock := (hdrControl, typeIdle :: List.replicate 7 0)

/-- The scrambler behind `n` idle blocks. -/
def idleRun : Nat → Nat → Nat
  | 0, st => st
  | n + 1, st => idleRun n (scramble 64 st (leNat idleBlock.2)).1

/-- The scrambler behind blocks. -/
def scrAfter (st : Nat) (l : List PlainBlock) : Nat := l.foldl (fun st b => (scramble 64 st (leNat b.2)).1) st

/-- Bits inverted on the line where `f` holds of their number, the two of the sync header first, then the payload, the lowest first. -/
def invertBlocks (f : Nat → Bool) : Nat → List PeerBlock → List PeerBlock
  | _, [] => []
  | i, b :: l =>
    let flip (n at_ w : Nat) : Nat := (List.range n).foldl (fun w j => if f (at_ + j) then w ^^^ 2 ^ j else w) w
    (flip 2 i b.1, flip 64 (i + 2) b.2) :: invertBlocks f (i + 66) l

/-! ## Transmission (R269) -/

/-- Core clocks that the blocks of a frame take: 6.4 ns a block (R258). -/
def peerClk (f : PeerFrame) : Nat := ((peerLen f + 2) * 64 * 12 + 99) / 100

/-- The bits of a frame that begins at the present instant, under rate injection (R278). -/
def State.underInj (s : State) (lane : Nat) (l : List PeerBlock) : List PeerBlock :=
  match (s.lane lane).injAt with
  | some t0 =>
    let per := 2 ^ s.getF F.LN_INJ_RATE lane
    let before := lineBits 2 (s.now - t0)
    invertBlocks (fun i => (before + i + 1) % per == 0) 0 l
  | none => l

/-- The next frame of a peer lane, channel 0 before channel 1, scrambled behind the idle blocks sent since the frame before it
(R267, R269). -/
def State.nextPeer (s : State) (lane : Nat) : State :=
  let l := s.lane lane
  let send (f : PeerFrame) (s : State) : State :=
    let s := s.advanceTo l.txFree
    let st := idleRun ((s.now - l.scrAt) * 100 / 768) l.scr
    let out := s.underInj lane (scrambleAll st (peerBlocks f))
    s.updLane lane (fun l => { l with peerOut := out, peerAt := s.now, txFree := s.now + peerClk f
                                      scr := scrAfter st (peerBlocks f), scrAt := s.now + peerClk f })
  match l.peerQ0, l.peerQ1 with
  | f :: q, _ => send f (s.updLane lane (fun l => { l with peerQ0 := q }))
  | [], f :: q => send f (s.updLane lane (fun l => { l with peerQ1 := q }))
  | [], [] => s

/-! ## Records of channel 0 (R314) -/

/-- The 32 bytes of a record. -/
def peerRecBytes (r : PeerRec) : List Nat :=
  [r.type, r.section_, b2n r.sideB + 2 * b2n r.active + 4 * b2n r.forcing + 8 * b2n r.failed + 16 * b2n r.demoted + 32 * b2n r.contest, 0] ++
    le4 r.epoch ++ le4 r.stamp ++ le4 r.data ++ le4 r.cver ++ le2 r.pairId ++ le2 r.claim ++ le2 r.g ++ [0, 0, 0, 0, 0, 0]

/-- The record that a frame of channel 0 carries. -/
def peerRecRead (f : PeerFrame) : PeerRec :=
  let b (i : Nat) : Nat := f.payload.getD i 0
  let n (i k : Nat) : Nat := leNat ((f.payload.drop i).take k)
  { type := b 0, seq := f.seq, section_ := b 1, sideB := bitOf (b 2) 0, active := bitOf (b 2) 1, forcing := bitOf (b 2) 2
    failed := bitOf (b 2) 3, demoted := bitOf (b 2) 4, contest := bitOf (b 2) 5, epoch := n 4 4, stamp := n 8 4, data := n 12 4
    cver := n 16 4, pairId := n 20 2, claim := n 22 2, g := n 24 2 }

/-! ## Feed frames of channel 1 (R312) -/

/-- The 8 header bytes and 8 bytes for each tile in address order. -/
def feedBytes (k epoch : Nat) (tiles : List FeedTile) : List Nat :=
  [0x10, k, tiles.length, 0] ++ le4 epoch ++
    tiles.flatMap (fun t => le2 t.inp ++ le2 t.wb ++ [t.rb % 256, t.stat % 256, t.q % 256, 0])

/-- One tile entry. -/
def feedTileRead (l : List Nat) : FeedTile :=
  { inp := leNat (l.take 2), wb := leNat ((l.drop 2).take 2), rb := l.getD 4 0, stat := l.getD 5 0, q := l.getD 6 0 }

/-- Section, epoch and tiles of a feed frame. -/
def feedRead (f : PeerFrame) : Option (Nat × Nat × List FeedTile) :=
  let p := f.payload
  if f.chan = 1 ∧ p.getD 0 0 = 0x10 ∧ p.length = 8 + 8 * p.getD 2 0 then
    some (p.getD 1 0, leNat ((p.drop 4).take 4), (List.range (p.getD 2 0)).map (fun i => feedTileRead ((p.drop (8 + 8 * i)).take 8)))
  else none

end Sys2Proof.Machine
end

