-- ==== Sys2Proof/Machine/Tiles.lean ====
section
/-! DEFINITION. The Gauntlet GT-16 tile: frames, claims, safe state, outputs and inputs (R230 to R236, R242 to R248, R251,
R252, R254, R255, R435). -/

namespace Sys2Proof.Machine

/-! ## The tile's configuration (R435) -/

def TileSt.byte (x : TileSt) (i : Nat) : Nat := x.conf.getD i 0
def TileSt.feederIx (x : TileSt) : Nat := leNat [x.byte 0, x.byte 1] % 2048
/-- Refresh period P, and the 4 × P of R243, in core clocks. -/
def TileSt.fourP (x : TileSt) : Nat := 4 * x.byte 3 * usClk
def TileSt.timeout (x : TileSt) : Nat := 10 * leNat [x.byte 4, x.byte 5, x.byte 6, x.byte 7] * usClk
def TileSt.groups (x : TileSt) : List Nat := groupMasks (fieldOf (x.byte 9) 0 2) (fieldOf (x.byte 9) 2 2)
def TileSt.groupOf (x : TileSt) (n : Nat) : Nat := (x.groups.find? (fun m => bitOf m n)).getD (2 ^ n)
def TileSt.isLight (x : TileSt) (n : Nat) : Bool := bitOf (leNat [x.byte 10, x.byte 11]) n
def TileSt.hasWb (x : TileSt) (n : Nat) : Bool := bitOf (leNat [x.byte 12, x.byte 13]) n
/-- Debounce time of an input in core clocks. -/
def TileSt.debounce (x : TileSt) (n : Nat) : Nat := x.byte (14 + n) * 100 * usClk

/-- The safe pattern: all 0 while the tile is unconfigured (R245). -/
def TileSt.safePat (x : TileSt) : Nat := if x.configured then x.byte 8 else 0

/-! ## Ports and claims (R242, R243) -/

def TileSt.port (x : TileSt) (east : Bool) : PortSt := if east then x.east else x.west
def TileSt.updPort (x : TileSt) (east : Bool) (f : PortSt → PortSt) : TileSt :=
  if east then { x with east := f x.east } else { x with west := f x.west }

/-- A port whose latest valid frame is older than 4 × P counts as claim 0. -/
def PortSt.age (p : PortSt) (now lim : Nat) : PortSt := if p.at_ + lim < now then { p with claim := 0 } else p

/-- The accepted claimant from the two records (R243). -/
def TileSt.arbitrate (x : TileSt) : TileSt :=
  let w := x.west.claim
  let e := x.east.claim
  if w = 0 ∧ e = 0 then { x with accepted := none, tie := false }
  else if e < w then { x with accepted := some false, tie := false }
  else if w < e then { x with accepted := some true, tie := false }
  else { x with accepted := some (x.accepted.getD false), tie := true }

/-- An output held off for overcurrent is released when its command has been 0 for 1 ms (R248). -/
def TileSt.clearFaults (x : TileSt) (now : Nat) : TileSt :=
  let keep := (List.range 8).foldl (fun a n =>
    a + 2 ^ n * b2n (bitOf x.outFault n && (bitOf x.cmd n || decide (now < x.zeroAt.getD n 0 + msClk)))) 0
  { x with outFault := keep }

/-- What the passage of time has done to the tile by `now`: records aged out (R243), the safe-state timeout (R245),
overcurrent releases (R248). -/
def TileSt.catchUp (x : TileSt) (now : Nat) : TileSt :=
  let y := ({ x with west := x.west.age now x.fourP, east := x.east.age now x.fourP }).arbitrate.clearFaults now
  if y.lastAcc + y.timeout ≤ now then { y with safe := true, firstAcc := if y.safe then y.firstAcc else none } else y

/-- The fields of a correct frame of types 0x01 to 0x03 pass the checks of R242 on its port. -/
def TileSt.valid (x : TileSt) (east : Bool) (f : DownFrame) : Bool :=
  x.configured && x.addr == some f.addr && f.ncmd == 255 - f.cmd && f.ctag == x.ctag && f.feeder == x.feederIx &&
  match (x.port east).seqRec with
  | none => true
  | some r => let d := (f.seq + 65536 - r % 65536) % 65536
              decide (1 ≤ d) && decide (d ≤ 32767)

/-! ## Outputs (R245 to R248) -/

/-- Groups to whose outputs a command gives different states, as output bits (R246). -/
def mixedGroups (groups : List Nat) (cmd : Nat) : Nat :=
  (groups.filter (fun m => (cmd &&& m) != 0 && (cmd &&& m) != m)).foldl (· + ·) 0

/-- What the logic side has the outputs drive (R245, R246). -/
def TileSt.want (x : TileSt) : Nat :=
  if x.safe || !x.configured then x.safePat else (x.cmd &&& (255 - x.grpBad)) ||| (x.safePat &&& x.grpBad)

/-- What the outputs drive: the field side follows its last valid word, or its copy of the safe pattern where words fail (R247); an
output off for overcurrent stays off (R248). -/
def TileSt.drive (x : TileSt) : Nat :=
  if !x.powered then 0 else (if x.fieldSafe then x.fpat else x.fcmd) &&& (255 - x.outFault)

/-- The command of an accepted frame, with the times at which commands fell. -/
def TileSt.setCmd (x : TileSt) (cmd now : Nat) : TileSt :=
  { x with
    cmd := cmd % 256
    zeroAt := (List.range 8).map (fun n =>
      if bitOf x.cmd n && !bitOf cmd n then now else x.zeroAt.getD n 0) }

/-- An accepted frame: the timeout restarts, the second within 4 × P ends the safe state (R245), groups (R246). -/
def TileSt.accept (x : TileSt) (f : DownFrame) (now : Nat) : TileSt :=
  let x := if x.safe then
      match x.firstAcc with
      | some t => if now ≤ t + x.fourP then { x with safe := false, firstAcc := none } else { x with firstAcc := some now }
      | none => { x with firstAcc := some now }
    else x
  let bad := mixedGroups x.groups f.cmd
  let x := { (x.setCmd f.cmd now) with lastAcc := now, grpBad := bad }
  if bad = 0 then x else (x.updPort false (fun p => { p with grpmm := true })).updPort true (fun p => { p with grpmm := true })

/-! ## Up-frames (R236, R244) -/

/-- STAT for a port (R236). -/
def TileSt.stat (x : TileSt) (east : Bool) : Nat :=
  b2n (x.safe || !x.configured || x.grpBad != 0 || x.fieldSafe) + 2 * b2n (x.port east).grpmm + 4 * b2n x.fsup +
  8 * b2n x.xerr + 16 * b2n (!x.configured) + 32 * b2n (x.outFault != 0) + 64 * b2n x.tie + 128 * b2n (x.port east).ferr

/-- IN for a port: a light input is 1 where a sample since the last up-frame to the port was (R252). -/
def TileSt.inFor (x : TileSt) (east : Bool) : Nat :=
  (List.range 16).foldl (fun a n =>
    a + 2 ^ n * b2n (if x.isLight n then bitOf (x.port east).lightSeen n else bitOf x.inp n)) 0

/-- WB: every input while FSUP, XERR or UNCFG is set (R251). -/
def TileSt.wbOut (x : TileSt) : Nat := if x.fsup || x.xerr || !x.configured then 0xFFFF else x.wbc

/-- The up-frame of a type that answers the frame with sequence number `seq` on the port on which it arrived (R236, R244). -/
def TileSt.answer (x : TileSt) (type : Nat) (east : Bool) (seq : Nat) (data : List Nat) : TileSt :=
  let u : UpFrame := { type := type, addr := x.addr.getD 0xFF
                       stat := x.stat east
                       aclaim := match x.accepted with | some e => (x.port e).claim | none => 0
                       eseq := seq, inp := x.inFor east, wb := x.wbOut, rb := x.rb, data := data }
  ({ x with sent := some (east, u) }).updPort east (fun p => { p with grpmm := false, ferr := false, lightSeen := 0 })

/-- Every character goes out of the other port, a frame's before its CRC is checked (R231). -/
def TileSt.forward (x : TileSt) (east : Bool) (l : TileChars) : TileSt := { x with fwd := some (!east, l) }

/-- A frame addressed to the tile is discarded (R242, FERR). -/
def TileSt.discard (x : TileSt) (east : Bool) : TileSt := x.updPort east (fun p => { p with ferr := true })

/-- A frame of one of the types 0x01 to 0x03 at a tile (R231, R242 to R246). A tile that is being configured only forwards it. -/
def TileSt.take (x : TileSt) (type : Nat) (east : Bool) (l : TileChars) (now : Nat) : TileSt :=
  let x := (x.catchUp now).forward east l
  let f := downRead l
  if x.items ≠ 0 then x
  else if frameOk 32 l && f.type == type && x.valid east f then
    let x := (x.updPort east (fun p => { p with claim := f.claim, seqRec := some f.seq, at_ := now })).arbitrate
    if x.accepted = some east then (x.accept f now).answer 0x81 east f.seq [] else x
  else if x.addr = some f.addr then x.discard east
  else x

/-! ## Enumeration and configuration (R254, R255, R435) -/

/-- The address that the enumerate frame gives the position. -/
def enumAddr (east : Bool) (hop n : Nat) : Nat := if east then n - 1 - hop else hop

/-- An enumerate frame: an unconfigured tile takes its address; the answer holds serial number, held CTAG, agreement bit
and firmware revision (R254). -/
def TileSt.enumerate (x : TileSt) (east : Bool) (l : TileChars) (now : Nat) : TileSt :=
  let x := (x.catchUp now).forward east (hopped l)
  let f := downRead l
  if frameOk 32 l && f.type == 5 then
    let a := enumAddr east f.hop f.item
    let x := if x.configured then x else { x with addr := some a }
    x.answer 0x82 east f.seq (enumData x.serial x.ctag (x.addr == some a) Config.tileFirmwareRev)
  else x

/-- Bytes of an item, 12 for items 0 to 2, the CTAG for item 3 (R435), as written where its configuration is not complete. -/
def TileSt.item (x : TileSt) (i : Nat) : List Nat :=
  if i < 3 then ((if bitOf x.items i then x.stage else x.conf).drop (12 * i)).take 12
  else if i = 3 then le2 (if bitOf x.items 3 then x.stageTag else x.ctag) else []

/-- An item written: the tile goes on with the configuration that it holds (R435). -/
def TileSt.putItem (x : TileSt) (i len : Nat) (data : List Nat) : TileSt :=
  if i < 3 ∧ len = 12 then
    { x with stage := (List.range 36).map (fun j =>
               if 12 * i ≤ j ∧ j < 12 * i + 12 then data.getD (j - 12 * i) 0 else x.stage.getD j 0)
             items := setBit x.items i true }
  else if i = 3 ∧ len = 2 then { x with stageTag := leNat [data.getD 0 0, data.getD 1 0], items := setBit x.items 3 true }
  else x

/-- Once all four items are written the tile holds them as its configuration and CTAG and is configured, and no port has a SEQ record
(R242, R435). -/
def TileSt.settle (x : TileSt) : TileSt :=
  if x.items % 16 = 15 then
    { x with conf := x.stage, ctag := x.stageTag, items := 0, addr := some (x.stage.getD 2 0), configured := true
             west := { x.west with seqRec := none }, east := { x.east with seqRec := none } }
  else x

/-- A configuration write frame addressed to the tile clears the SEQ record of its port (R242), and is answered (R244). -/
def TileSt.confWrite (x : TileSt) (east : Bool) (l : TileChars) (now : Nat) : TileSt :=
  let x := (x.catchUp now).forward east l
  let f := downRead l
  if x.addr ≠ some f.addr then x
  else if frameOk 32 l && f.type == 6 then
    (((x.updPort east (fun p => { p with seqRec := none })).putItem f.item f.len f.data).settle).answer 0x82 east f.seq (padTo 16 [])
  else x.discard east

/-- A configuration read frame is answered with the bytes of its item (R435). -/
def TileSt.confRead (x : TileSt) (east : Bool) (l : TileChars) (now : Nat) : TileSt :=
  let x := (x.catchUp now).forward east l
  let f := downRead l
  if x.addr ≠ some f.addr then x
  else if frameOk 32 l && f.type == 7 then x.answer 0x82 east f.seq (padTo 16 (x.item f.item))
  else x.discard east

/-! ## Inputs (R251, R252) -/

/-- The class of an input current in µA: 0, 1 or 2 for a wire break; between the bands the class before is kept. -/
def classOf (wb : Bool) (uA before : Nat) : Nat :=
  if uA < 400 then (if wb then 2 else 0)
  else if 600 ≤ uA ∧ uA ≤ 1800 then 0
  else if 2600 ≤ uA then 1
  else before

/-- The class that input `n` reports. -/
def TileSt.reported (x : TileSt) (n : Nat) : Nat := if bitOf x.wbc n then 2 else b2n (bitOf x.inp n)

/-- The class of input `n` reported from now on. -/
def TileSt.report (x : TileSt) (n c : Nat) : TileSt :=
  { x with inp := setBit x.inp n (c == 1), wbc := setBit x.wbc n (c == 2)
           cand := (List.range 16).map (fun m => if m = n then none else x.cand.getD m none) }

/-- One sample of one input. -/
def TileSt.sample (x : TileSt) (n uA now : Nat) : TileSt :=
  let before := match x.cand.getD n none with | some (c, _) => c | none => x.reported n
  let c := classOf (x.hasWb n) uA before
  if x.isLight n then
    let x := x.report n c
    if c = 1 then
      (x.updPort false (fun p => { p with lightSeen := setBit p.lightSeen n true })).updPort true
        (fun p => { p with lightSeen := setBit p.lightSeen n true })
    else x
  else if c = x.reported n then { x with cand := (List.range 16).map (fun m => if m = n then none else x.cand.getD m none) }
  else
    let since := match x.cand.getD n none with | some (c', t) => if c' = c then t else now | none => now
    if since + x.debounce n ≤ now then x.report n c
    else { x with cand := (List.range 16).map (fun m => if m = n then some (c, since) else x.cand.getD m none) }

/-- The field side receives a valid word: outputs and safe pattern. The logic of a tile that is being configured sends none (R231,
R247; log entry 138). -/
def TileSt.toField (x : TileSt) (now : Nat) : TileSt :=
  if x.items ≠ 0 then x else { x with fcmd := x.want, fpat := x.safePat, fieldAt := now, fieldSafe := false }

/-- The logic side receives a valid word: inputs sampled, output voltages read back (R247, R248, R252). -/
def TileSt.toLogic (x : TileSt) (w : FieldWord) (now : Nat) : TileSt :=
  (List.range 16).foldl (fun x n => x.sample n (w.currents.getD n 0) now) { x with xerr := false, logicAt := now, rb := w.volts % 256 }

/-- The words over the isolation crossing at one instant: whether the field side receives a valid one, and the one that the logic side
receives (R247). -/
def TileSt.word (x : TileSt) (field : Bool) (logic : Option FieldWord) (now : Nat) : TileSt :=
  let x := x.catchUp now
  let x := match logic with | some w => x.toLogic w now | none => x
  if field then x.toField now else x

/-! ## Commands -/

/-- The tile at `pos` is powered, and so are the tiles between it and the end from which the frame comes (R231). -/
def State.tileReached (s : State) (lane pos : Nat) (east : Bool) : Bool :=
  let n := ((s.chainCfg lane).getD {}).tiles.length
  (List.range (max n (pos + 1))).all (fun p =>
    (if east then decide (p < pos) else decide (pos < p)) || (s.tile lane p).powered)

/-- A frame reaches a tile. -/
def State.atTile (s : State) (lane pos : Nat) (east : Bool) (f : TileSt → TileSt) : State :=
  if s.tileReached lane pos east then s.updTile lane pos f else s

/-- REFRESH_FRAME (R242 to R246): a refresh frame arrives at a tile. -/
def execRefreshFrame (lane pos : Nat) (east : Bool) (f : TileChars) (s : State) : Host.Outcome State Fault Refusal :=
  .next (s.atTile lane pos east (fun x => x.take 1 east f s.now))

/-- CHANGE_FRAME (R240, R242 to R246). -/
def execChangeFrame (lane pos : Nat) (east : Bool) (f : TileChars) (s : State) : Host.Outcome State Fault Refusal :=
  .next (s.atTile lane pos east (fun x => x.take 2 east f s.now))

/-- TRIP_FRAME (R193, R242 to R246). -/
def execTripFrame (lane pos : Nat) (east : Bool) (f : TileChars) (s : State) : Host.Outcome State Fault Refusal :=
  .next (s.atTile lane pos east (fun x => x.take 3 east f s.now))

/-- ENUMERATE_FRAME (R254): an enumerate frame arrives that `passed` tiles have passed on. -/
def execEnumerateFrame (lane pos : Nat) (east : Bool) (passed : Nat) (f : TileChars) (s : State) : Host.Outcome State Fault Refusal :=
  .next (s.atTile lane pos east (fun x => x.enumerate east (forwarded passed f) s.now))

/-- CONFIGURATION_WRITE_FRAME (R242, R255, R435). -/
def execConfigurationWriteFrame (lane pos : Nat) (east : Bool) (f : TileChars) (s : State) :
    Host.Outcome State Fault Refusal :=
  .next (s.atTile lane pos east (fun x => x.confWrite east f s.now))

/-- CONFIGURATION_READ_FRAME (R255, R435). -/
def execConfigurationReadFrame (lane pos : Nat) (east : Bool) (f : TileChars) (s : State) :
    Host.Outcome State Fault Refusal :=
  .next (s.atTile lane pos east (fun x => x.confRead east f s.now))

/-- CLAIM_AGE_OUT (R243): the latest valid frame of a port becomes older than 4 × P. -/
def execClaimAgeOut (lane pos : Nat) (east : Bool) (s : State) : Host.Outcome State Fault Refusal :=
  .next (
    let x := s.tile lane pos
    if !x.powered || (x.port east).claim = 0 then s
    else
      let s := s.advanceTo ((x.port east).at_ + x.fourP + 1)
      s.updTile lane pos (fun x => x.catchUp s.now))

/-- SAFE_STATE_TIMEOUT (R245): no accepted frame for the timeout. -/
def execSafeStateTimeout (lane pos : Nat) (s : State) : Host.Outcome State Fault Refusal :=
  .next (
    let x := s.tile lane pos
    if !x.powered || !x.configured || x.safe then s
    else
      let s := s.advanceTo (x.lastAcc + x.timeout)
      s.updTile lane pos (fun x => x.catchUp s.now))

/-- CROSSING_WORD (R247, R248, R251, R252): the words of one microsecond over the crossing. -/
def execCrossingWord (lane pos : Nat) (toField : Bool) (toLogic : Option FieldWord) (s : State) : Host.Outcome State Fault Refusal :=
  .next (if (s.tile lane pos).powered then s.updTile lane pos (fun x => x.word toField toLogic s.now) else s)

/-- CROSSING_LOSS (R247): a side has received no valid word for 4 µs. -/
def execCrossingLoss (lane pos : Nat) (logicSide : Bool) (s : State) : Host.Outcome State Fault Refusal :=
  .next (
    let x := s.tile lane pos
    if !x.powered then s
    else
      let s := s.advanceTo ((if logicSide then x.logicAt else x.fieldAt) + 4 * usClk)
      s.updTile lane pos (fun x =>
        let x := x.catchUp s.now
        if logicSide then { x with xerr := true } else { x with fieldSafe := true }))

/-- OUTPUT_OVERCURRENT (R248): an output has carried more than 0.75 A for 50 µs; its group switches off. -/
def execOutputOvercurrent (lane pos out : Nat) (s : State) : Host.Outcome State Fault Refusal :=
  .next (s.updTile lane pos (fun x =>
    let y := x.catchUp s.now
    if x.powered && decide (out < 8) && bitOf y.drive out then { y with outFault := y.outFault ||| y.groupOf out } else x))

/-- INPUT_DEBOUNCE (R252): the new class of a plain input has held for its debounce time. -/
def execInputDebounce (lane pos inp : Nat) (s : State) : Host.Outcome State Fault Refusal :=
  .next (
    let x := s.tile lane pos
    match x.cand.getD inp none with
    | some (c, t) =>
      if x.powered && !x.isLight inp then
        let s := s.advanceTo (t + x.debounce inp)
        s.updTile lane pos (fun x => (x.catchUp s.now).report inp c)
      else s
    | none => s)

/-- TILE_POWER_UP (R254): unconfigured, no address, all outputs 0, forwarding. -/
def execTilePowerUp (lane pos serial : Nat) (s : State) : Host.Outcome State Fault Refusal :=
  .next (if (s.tile lane pos).powered then s
    else s.updTile lane pos (fun _ => { powered := true, serial := serial, fieldAt := s.now, logicAt := s.now }))

/-- TILE_POWER_LOSS (R231): the tile forwards nothing, and its configuration is gone. -/
def execTilePowerLoss (lane pos : Nat) (s : State) : Host.Outcome State Fault Refusal :=
  .next (s.updTile lane pos (fun x => { serial := x.serial }))

/-- FIELD_SUPPLY_CHANGE (R236, R251): the field supply crosses 18 V. -/
def execFieldSupplyChange (lane pos : Nat) (low : Bool) (s : State) : Host.Outcome State Fault Refusal :=
  .next (if (s.tile lane pos).powered then s.updTile lane pos (fun x => { (x.catchUp s.now) with fsup := low }) else s)

end Sys2Proof.Machine
end

