-- ==== Sys2Proof/Machine/TileLane.lean ====
section
/-! DEFINITION. The device's end of a tile link: refresh, frame order, up-frames, readback, lost tiles, enumeration and
configuration (R237 to R241, R249, R253 to R257, R306, R435). -/

namespace Sys2Proof.Machine

def LaneSt.tile (l : LaneSt) (a : Nat) : DevTile := Tab.get l.tiles {} a
def LaneSt.updTile (l : LaneSt) (a : Nat) (f : DevTile → DevTile) : LaneSt := { l with tiles := Tab.upd l.tiles {} a f }

/-- The device's view of the tile at an address. -/
def State.devTile (s : State) (lane a : Nat) : DevTile := (s.lane lane).tile a
def State.updDevTile (s : State) (lane a : Nat) (f : DevTile → DevTile) : State := s.updLane lane (fun l => l.updTile a f)

def State.tileLane (s : State) (lane : Nat) : Bool := s.getF F.LN_CFG_MODE lane == 1
def State.laneOn (s : State) (lane : Nat) : Bool := s.getF F.LN_STAT_STATE lane == 2

/-- The section of a lane's chain. -/
def State.chainSec (s : State) (lane : Nat) : Nat := ((s.chainCfg lane).getD {}).section_

/-- Number of tiles of a chain. -/
def State.chainN (s : State) (lane : Nat) : Nat := ((s.chainCfg lane).getD {}).tiles.length

/-- The feeder of the tile at an address. -/
def State.tileFeeder (s : State) (lane a : Nat) : Nat := ((s.tileCfg lane a).getD { feeder := 0 }).feeder

/-- The claim in every tile frame that leaves: 0 while the DEMOTED latch is set (R306, R321). -/
def State.claimSent (s : State) : Nat := if s.flag F.PR_STAT_DEMOTED then 0 else s.getF F.PR_CLAIM_CLAIM

/-- The CTAG that the image gives the tile at an address. -/
def State.imgCtag (s : State) (lane a : Nat) : Nat :=
  match s.tileCfg lane a with
  | some t => t.ctag a ((s.chainCfg lane).getD {}).period
  | none => 0

/-- The bytes that a configuration frame of an item carries. -/
def State.itemBytes (s : State) (lane a i : Nat) : List Nat :=
  match s.tileCfg lane a with
  | some t => if i < 3 then ((t.bytes a ((s.chainCfg lane).getD {}).period).drop (12 * i)).take 12 else le2 (s.imgCtag lane a)
  | none => []

/-- FOUND and SAFE of LN_TCSTAT follow the tiles of the chain. -/
def State.syncTiles (s : State) (lane : Nat) : State :=
  let ts := (List.range (s.chainN lane)).map (fun a => s.devTile lane a)
  (s.setF F.LN_TCSTAT_FOUND lane (ts.filter (fun d => d.answers)).length).setF F.LN_TCSTAT_SAFE lane
    (b2n (ts.any (fun d => match d.up with | some u => bitOf u.stat 0 | none => false)))

/-! ## Refresh (R237, R256) -/

/-- The tile at an address has left four refresh frames unanswered and is not yet lost. -/
def DevTile.losing (d : DevTile) : Bool := decide (4 ≤ d.missRun) && !d.lost

/-- The RB signal of a tile's feeder (R207, R249). -/
def State.putRb (s : State) (lane a rb : Nat) (q : Quality) : State :=
  s.putSig (feederSig (s.tileFeeder lane a) 72) (Entry.mk' rb q)

/-- RB of a tile that does not answer: its last value, invalid (R249). -/
def State.dropRb (s : State) (lane a : Nat) : State :=
  s.putRb lane a (s.sigBelow (feederSig (s.tileFeeder lane a) 72)).value.toNat Quality.bad

/-- The tile answers this side: its lane is ON, it is in the service range, it has answered and is not lost (R249, R256). -/
def State.tileAnswers (s : State) (lane a : Nat) : Bool :=
  let d := s.devTile lane a
  s.laneOn lane && s.inRange lane a && d.answers && !d.lost

/-- RB is invalid of every tile that does not answer; on the standby of a pair RB comes with the feed (R249, R312). -/
def State.syncRb (s : State) (lane : Nat) : State :=
  if s.flag F.PR_CFG_EN && !s.isActive then s
  else (List.range (s.chainN lane)).foldl (fun s a => if s.tileAnswers lane a then s else s.dropRb lane a) s

/-- A tile is lost (R256): LOST, the record, RB invalid. -/
def State.loseTile (s : State) (lane a : Nat) : State :=
  let s := s.updDevTile lane a (fun d => { d with lost := true, answers := false, rbSince := none, rbSaid := false })
  let s := (s.setF F.LN_TCSTAT_LOST lane 1).event 0x0803 lane a
  ((s.dropRb lane a).syncTiles lane).published

/-- The tiles of a lane whose loss is due. -/
def State.loseTiles (s : State) (lane : Nat) : State :=
  (List.range (s.chainN lane)).foldl (fun s a =>
    if (s.devTile lane a).losing && s.inRange lane a then s.loseTile lane a else s) s

/-- What one period leaves of a tile: an unanswered refresh frame counts; outside the range nothing does (R256). -/
def DevTile.endPeriod (d : DevTile) (inRange : Bool) : DevTile :=
  if !inRange then { d with waiting := none, missRun := 0 }
  else if d.waiting.isSome then { d with waiting := none, missRun := d.missRun + 1 }
  else d

/-- The unanswered refresh frames of the period that ends, with LN_TCCNT.MISS. -/
def State.endPeriod (s : State) (lane : Nat) : State :=
  let missed := (List.range (s.chainN lane)).filter (fun a => (s.devTile lane a).waiting.isSome && s.inRange lane a)
  let s := s.incF F.LN_TCCNT_MISS lane missed.length
  (List.range (s.chainN lane)).foldl (fun s a => s.updDevTile lane a (fun d => d.endPeriod (s.inRange lane a))) s

/-- The runs of periods of R309 and R311. -/
def LaneSt.endPeriod (l : LaneSt) : LaneSt :=
  { l with
    seenRun := if l.seen then l.seenRun + 1 else 0
    highRun := if l.high then l.highRun + 1 else 0
    seen := false
    high := false }

/-- Refresh runs on a lane: a tile lane that is ON, once protection is active (R237, R365, R366). -/
def State.refreshes (s : State) (lane : Nat) : Bool := s.tileLane lane && s.laneOn lane && s.getF F.DEV_STAT_STATE == 3

/-- PSEEN: a partner frame within 4 × P on at least one chain (R307). -/
def State.pseen (s : State) : Bool :=
  s.img.chains.any (fun c => match (s.lane c.1).partnerAt with
    | some t => decide (s.now ≤ t + 4 * s.periodClk c.1)
    | none => false)

/-- PR_PCLAIM.PSEEN as of now. -/
def State.syncPseen (s : State) : State := s.setF F.PR_PCLAIM_PSEEN 0 (b2n s.pseen)

/-- REFRESH_PERIOD (R237): frames of the old period that have not started are dropped and counted; a refresh frame is
queued to each tile of the effective range in ascending order. -/
def State.refreshPeriod (s : State) (lane : Nat) : State :=
  if !s.refreshes lane then s
  else
    let s := s.advanceTo (s.lane lane).periodEnd
    let s := (s.incF F.LN_TCCNT_DROP lane ((s.lane lane).refreshQ.filter (fun a => s.inRange lane a)).length).loseTiles lane
    let s := s.endPeriod lane
    let p := s.periodClk lane * (if s.isActive then 1 else 2)
    let q := (List.range (s.chainN lane)).filter (fun a => s.inRange lane a)
    let s := s.updLane lane (fun l => { l.endPeriod with refreshQ := q, periodEnd := s.now + p })
    let s := (s.brim F.DEV_BRIM0_REFR (min 64 ((s.lane lane).changeQ.length + q.length))).setF F.LN_TCSTAT_RUN lane 1
    ((s.syncRb lane).syncPseen).published

def execRefreshPeriod (lane : Nat) (s : State) : Host.Outcome State Fault Refusal := .next (s.refreshPeriod lane)

/-- TILE_LOST (R256): four consecutive periods unanswered. -/
def execTileLost (lane pos : Nat) (s : State) : Host.Outcome State Fault Refusal :=
  .next (if (s.devTile lane pos).losing && s.inRange lane pos && decide (pos < s.chainN lane) then s.loseTile lane pos else s)

/-! ## Readback (R249) -/

/-- The expected state of the outputs from the latest valid up-frame and the command last sent. -/
def DevTile.expected (d : DevTile) (t : TileCfg) (u : UpFrame) : Nat :=
  let mixed := mixedGroups t.groups d.cmd
  if bitOf u.stat 4 then 0
  else (List.range 8).foldl (fun a n =>
    let v := if bitOf u.stat 0 && (bitOf mixed n || mixed == 0) then bitOf t.safe n
      else if bitOf u.stat 5 && bitOf d.cmd n && !bitOf u.rb n then false
      else bitOf d.cmd n
    a + 2 ^ n * b2n v) 0

/-- Since when RB has differed from the expected state. -/
def DevTile.track (d : DevTile) (t : TileCfg) (now : Nat) : DevTile :=
  match d.up with
  | some u =>
    if d.lost || u.rb % 256 = d.expected t u then { d with rbSince := none, rbSaid := false }
    else { d with rbSince := some (d.rbSince.getD now) }
  | none => d

def State.trackTile (s : State) (lane a : Nat) : State :=
  match s.tileCfg lane a with
  | some t => s.updDevTile lane a (fun d => d.track t s.now)
  | none => s

/-- A difference that has stood for 1 ms: RBMM and the record, once for each difference (R249). -/
def State.reportRb (s : State) (lane a : Nat) : State :=
  let d := s.devTile lane a
  match d.rbSince, d.up, s.tileCfg lane a with
  | some t0, some u, some t =>
    if d.rbSaid || decide (s.now < t0 + msClk) then s
    else
      let s := (s.updDevTile lane a (fun d => { d with rbSaid := true })).setF F.LN_TCSTAT_RBMM lane 1
      s.event 0x0801 t.feeder a .none [d.expected t u, u.rb % 256]
  | _, _, _ => s

/-- READBACK_MISMATCH (R249): RB has differed for 1 ms. -/
def execReadbackMismatch (lane pos : Nat) (s : State) : Host.Outcome State Fault Refusal :=
  .next (match (s.devTile lane pos).rbSince with
    | some t0 => if (s.devTile lane pos).rbSaid then s else (s.advanceTo (t0 + msClk)).reportRb lane pos
    | none => s)

/-! ## Frames that leave (R235, R238 to R241) -/

/-- Core clocks that a down-frame takes on the line: 102.4 ns (R234). -/
def tileClk : Nat := 123

/-- A frame of type 0x01 to 0x03 leaves: SEQ, claim and command are formed (R193, R239, R241), a forced output in its forced
state in place of the ply's bit (R226), and the command is written into OUT0 to OUT7 of the feeder. FLAGS and CTAG of a gate frame
are those fixed at staging. -/
def State.sendCmd (s : State) (lane type a extra : Nat) (fixed : Option (Nat × Nat)) : State :=
  let d := s.devTile lane a
  let (flags, ctag) := fixed.getD (s.frameFlags lane a, d.ctag)
  let cmd := s.tileCmd lane a ||| (extra &&& (255 - s.forcedOuts lane a))
  let f : DownFrame :=
    { type := type, addr := a, claim := s.claimSent, seq := (d.seq + 1) % 65536, cmd := cmd, ncmd := 255 - cmd, ctag := ctag
      flags := flags, feeder := s.tileFeeder lane a }
  let s := s.updLane lane (fun l => ({ l with tx := some f, txFree := s.now + tileClk }).updTile a (fun d =>
    { d with seq := f.seq, cmd := cmd, waiting := if type = 1 then some f.seq else d.waiting }))
  let s := (List.range 8).foldl (fun s n =>
    s.putSig (feederSig (s.tileFeeder lane a) (64 + n)) (Entry.mk' (b2n (bitOf cmd n)) Quality.ok)) s
  (s.trackTile lane a).published

/-- The content of an enumeration or configuration frame: type, address or N, item. SEQ, CMD and, of an enumerate frame, the tile's
fields are 0 (R235; log entry 136). -/
def State.confContent (s : State) (lane : Nat) (x : Nat × Nat × Nat) : DownFrame :=
  let (type, a, item) := x
  if type = 5 then { type := 5, addr := 0xFF, claim := s.claimSent, flags := s.frameFlags lane 0xFF, item := s.chainN lane }
  else
    let data := if type = 6 then s.itemBytes lane a item else []
    { type := type, addr := a, claim := s.claimSent, ctag := (s.devTile lane a).ctag, flags := s.frameFlags lane a
      feeder := s.tileFeeder lane a, item := item, len := data.length, data := data }

/-- An enumeration or configuration frame leaves; after an enumerate frame every tile of the chain is to answer. -/
def State.sendConf (s : State) (lane : Nat) (x : Nat × Nat × Nat) : State :=
  let f := s.confContent lane x
  let s := s.updLane lane (fun l => { l with tx := some f, txFree := s.now + tileClk })
  if x.1 = 5 then s.forN (s.chainN lane) (fun s a => s.updDevTile lane a (fun d => { d with enumWait := true })) else s

/-- The queues without frames for tiles outside the effective range (R310). -/
def State.trimRange (s : State) (lane : Nat) : State :=
  s.updLane lane (fun l => { l with
    gates := l.gates.filter (fun g => !g.open_ || s.inRange lane g.addr)
    changeQ := l.changeQ.filter (fun a => s.inRange lane a)
    refreshQ := l.refreshQ.filter (fun a => s.inRange lane a) })

/-- The next frame of a tile lane, in the order of R238; before protection is active no tile receives a command (R366). -/
def State.nextFrame (s : State) (lane : Nat) : State :=
  let s := (s.trimRange lane).advanceTo (s.lane lane).txFree
  let l := s.lane lane
  let live := s.getF F.DEV_STAT_STATE == 3
  match (if live then l.gates.find? (fun g => g.open_) else none), (if live then l.changeQ else []),
    (if live then l.refreshQ else []), l.confQ with
  | some g, _, _, _ =>
    let s := s.updLane lane (fun l => { l with gates := l.gates.erase g })
    (s.syncGates (s.chainSec lane)).sendCmd lane 3 g.addr g.bits (some (g.flags, g.ctag))
  | none, a :: q, _, _ => (s.updLane lane (fun l => { l with changeQ := q })).sendCmd lane 2 a 0 none
  | none, [], a :: q, _ => (s.updLane lane (fun l => { l with refreshQ := q })).sendCmd lane 1 a 0 none
  | none, [], [], x :: q => (s.updLane lane (fun l => { l with confQ := q })).sendConf lane x
  | none, [], [], [] => s

/-- LANE_FRAME_START (R238, R269): the lane is at a frame boundary and starts the next queued frame. -/
def execLaneFrameStart (lane : Nat) (s : State) : Host.Outcome State Fault Refusal :=
  .next (
    if !s.laneOn lane then s
    else if s.tileLane lane then s.nextFrame lane
    else s.nextPeer lane)

/-- MINIMUM_ON_TIME_EXPIRY (R239): the minimum on time of an output ends; a command without a source falls. -/
def execMinimumOnTimeExpiry (lane pos out : Nat) (s : State) : Host.Outcome State Fault Refusal :=
  .next (match (s.devTile lane pos).rose.getD out none, s.tileCfg lane pos with
    | some (c, _), some t =>
      let s := s.advanceTo (c + (t.outs.getD out {}).minOnMs * msClk)
      let rise := s.riseOf t (s.devTile lane pos) out
      s.updDevTile lane pos (fun d => { d with rose := modAt d.rose out (fun _ => rise) })
    | _, _ => s)

/-! ## Enumeration and configuration (R254, R255) -/

/-- The frame that the configuration step of a tile needs next. -/
def DevTile.confFrame (d : DevTile) (a : Nat) : List (Nat × Nat × Nat) :=
  if d.step < 4 then [(6, a, d.step)] else if d.step < 8 then [(7, a, d.step - 4)] else []

/-- The lane goes on with the tile that it configures, or with the next one in ascending order; when none is left the
chain is enumerated and configured. -/
def State.confNext (s : State) (lane : Nat) : State :=
  let l := s.lane lane
  let n := s.chainN lane
  let todo := (List.range n).find? (fun a => decide ((l.tile a).step < 8) && (l.tile a).answers && !(l.tile a).enumWait)
  let done := (List.range n).all (fun a => decide (8 ≤ (l.tile a).step))
  match todo with
  | some a => s.updLane lane (fun l => { l with confAt := some a, confQ := l.confQ ++ (l.tile a).confFrame a })
  | none => s.updLane lane (fun l => { l with confAt := none, enumerated := l.enumerated || done })

/-- Configuration of a tile from its first item on (R255). -/
def State.reconfigure (s : State) (lane a : Nat) : State :=
  let s := s.updDevTile lane a (fun d => { d with step := 0, configured := false })
  if (s.lane lane).confAt.isSome then s else s.confNext lane

/-- Enumeration of a chain begins (R254). -/
def State.startEnum (s : State) (lane : Nat) : State :=
  if !s.tileLane lane || !s.laneOn lane then s
  else s.updLane lane (fun l => { l with
    enumerated := false, confAt := none, confQ := [(5, 0xFF, 0)]
    tiles := (List.range (s.chainN lane)).foldl (fun t a => Tab.upd t {} a (fun d => { d with step := 0 })) l.tiles })

/-- ENUM (R254): LN_TCCTRL.ENUM. -/
def execEnum (lane : Nat) (s : State) : Host.Outcome State Fault Refusal := .next (s.startEnum lane)

/-- CONF (R255): LN_TCCTRL.CONF configures the selected tile again. -/
def State.confCmd (s : State) (lane : Nat) : State :=
  let a := s.getF F.LN_TCSEL_ADDR lane
  if s.tileLane lane && s.laneOn lane && decide (a < s.chainN lane) then
    (s.updDevTile lane a (fun d => { d with answers := true })).reconfigure lane a
  else s

def execConf (lane : Nat) (s : State) : Host.Outcome State Fault Refusal := .next (s.confCmd lane)

/-- An enumeration fault: the tile stays unconfigured (R254). Causes: 0 no response, 1 address, 2 serial. -/
def State.enumErr (s : State) (lane a cause serial : Nat) : State :=
  let s := s.updDevTile lane a (fun d => { d with step := 9, configured := false, enumWait := false, answers := d.answers && cause != 0 })
  ((s.setF F.LN_TCSTAT_ENUMERR lane 1).event 0x0802 lane a .none (cause :: le4 serial)).syncRb lane

/-- The response of a tile to the enumerate frame (R254): a tile that is configured as the image says is left alone (R257). -/
def State.enumResp (s : State) (lane a : Nat) (t : TileCfg) (u : UpFrame) : State :=
  let serial := leNat (u.data.take 4)
  let tag := leNat ((u.data.drop 4).take 2)
  let right := !bitOf u.stat 4 && tag == s.imgCtag lane a
  let s := s.updDevTile lane a (fun d => { d with serial := serial, enumWait := false, step := if right then 8 else 0, configured := right })
  let s := s.onlyIf (!right) (fun s => s.setF F.LN_TCSTAT_CTAGMM lane 1)
  if u.data.getD 6 0 % 2 = 0 then s.enumErr lane a 1 serial
  else if t.serial != 0 && serial != t.serial then s.enumErr lane a 2 serial
  else s

/-- The response of a tile to the configuration frame of its present step: a write goes on to the next item, a matching
read-back too; the last one makes the device's frames carry the new CTAG (R255, R376). The up-frames from before the last write do
not count any more (R253). -/
def State.itemResp (s : State) (lane a : Nat) (data : List Nat) : State :=
  let d := s.devTile lane a
  if d.step < 4 then s.updDevTile lane a (fun d => { d with step := d.step + 1, hist := if d.step = 3 then (d.hist.take 1).map (fun h => (h.1, h.2.1, h.2.1, h.2.2.2)) else d.hist })
  else if d.step < 8 then
    if padTo 16 data != padTo 16 (s.itemBytes lane a (d.step - 4)) then s.updDevTile lane a (fun d => { d with step := 0 })
    else if d.step = 7 then
      let tag := s.imgCtag lane a
      s.updDevTile lane a (fun d => { d with step := 8, configured := true, ctag := tag })
    else s.updDevTile lane a (fun d => { d with step := d.step + 1 })
  else s

/-! ## Up-frames (R236, R249, R253, R255, R256) -/

/-- Tag, latest IN, OR of IN, WB and clock of an up-frame joined to those before it (R253); the answer to the refresh frame that
waits ends its run of unanswered ones, and any answer in the service range ends the loss (R256). -/
def DevTile.addUp (d : DevTile) (u : UpFrame) (tag now : Nat) (inRange : Bool) : DevTile :=
  let rest := d.hist.take 63
  let hist := match rest with
    | (t, _, any, _, _) :: r => if t = tag then (tag, u.inp, any ||| u.inp, u.wb, now) :: r else (tag, u.inp, u.inp, u.wb, now) :: rest
    | [] => [(tag, u.inp, u.inp, u.wb, now)]
  let hit := d.waiting == some u.eseq
  { d with up := some u, upAt := now, upEpoch := tag, hist := hist, waiting := if hit then none else d.waiting
           missRun := if hit then 0 else d.missRun, lost := d.lost && !inRange, answers := true }

/-- What every valid up-frame of the tile at an address brings: its fields, the end of a loss, GRPMM, OUTFLT, readback. -/
def State.upSeen (s : State) (lane a : Nat) (u : UpFrame) : State :=
  let k := s.chainSec lane
  let tag := if (s.sec k).running then (s.theta k / 512).floor.toNat else 0
  let in_ := s.inRange lane a
  let was := s.devTile lane a
  let s := s.updDevTile lane a (fun d => d.addUp u tag s.now in_)
  let s := s.onlyIf (was.lost && in_) (fun s => s.event 0x0804 lane a)
  let s := s.onlyIf (bitOf u.stat 1) (fun s => s.setF F.LN_TCSTAT_GRPMM lane 1)
  let s := s.onlyIf (bitOf u.stat 5) (fun s => s.setF F.LN_TCSTAT_OUTFLT lane 1)
  let s := (s.trackTile lane a).reportRb lane a
  s.onlyIf (s.tileAnswers lane a) (fun s => s.putRb lane a u.rb Quality.ok)

/-- A valid status up-frame: one that reports UNCFG has its tile configured again (R255). -/
def State.statusUp (s : State) (lane a : Nat) (u : UpFrame) : State :=
  let step := (s.devTile lane a).step
  let s := s.upSeen lane a u
  let s := s.onlyIf (bitOf u.stat 4 && step != 9) (fun s =>
    let s := s.setF F.LN_TCSTAT_CTAGMM lane 1
    if step = 8 then s.reconfigure lane a else s)
  (s.syncTiles lane).published

/-- STATUS_UP_FRAME (R236): an up-frame arrives; one with a bad CRC is counted. -/
def execStatusUpFrame (lane _pos : Nat) (l : TileChars) (s : State) : Host.Outcome State Fault Refusal :=
  .next (
    let u := upRead l
    if !s.tileLane lane || !s.flag F.LN_STAT_UP lane then s
    else if !upOk l then s.incF F.LN_TCCNT_DCRC lane
    else if u.type = 0x81 ∧ u.addr < s.chainN lane then s.statusUp lane u.addr u
    else s)

/-- No response came: of the tile at a position to the enumerate frame, an enumeration fault; to a configuration frame, which is sent
again (R254; log entry 137). -/
def State.noResp (s : State) (lane a : Nat) : State :=
  if (s.devTile lane a).enumWait then s.enumErr lane a 0 0 else s

/-- A response of TYPE 0x82, to the enumerate frame or to the configuration frame of the tile's step. -/
def State.confResp (s : State) (lane a : Nat) (t : TileCfg) (u : UpFrame) : State :=
  let wait := (s.devTile lane a).enumWait
  let s := s.upSeen lane a u
  if wait then s.enumResp lane a t u else if (s.lane lane).confAt = some a then s.itemResp lane a u.data else s

/-- CONFIGURATION_RESPONSE (R236, R254, R255): a response of a tile arrives, or none comes (`none`); one with a bad CRC is counted, and
the response is missing then. -/
def execConfigurationResponse (lane pos : Nat) (r : Option TileChars) (s : State) : Host.Outcome State Fault Refusal :=
  .next (match s.tileCfg lane pos with
    | none => s
    | some t =>
      if !s.tileLane lane || !(s.flag F.LN_STAT_UP lane || r.isNone) then s
      else
        let s := match r with
          | none => s.noResp lane pos
          | some l =>
            if !upOk l then s.incF F.LN_TCCNT_DCRC lane
            else if (upRead l).type = 0x82 then s.confResp lane pos t (upRead l)
            else s
        let s := (s.syncTiles lane).published
        if (s.lane lane).confAt.all (fun a => a == pos) then s.confNext lane else s)

end Sys2Proof.Machine
end

