-- ==== Sys2Proof/Machine/Lanes.lean ====
section
/-! DEFINITION. The lanes: service states, receiver, link state, equaliser, patterns and error injection (R258 to R278,
R363, R364). -/

namespace Sys2Proof.Machine

def State.laneMode (s : State) (n : Nat) : Nat := s.getF F.LN_CFG_MODE n
def State.laneState (s : State) (n : Nat) : Nat := s.getF F.LN_STAT_STATE n

/-- The receiver is powered: the lane is used, and not OFF or its checker is on (R258, R260). -/
def State.receives (s : State) (n : Nat) : Bool :=
  s.laneMode n != 0 && (s.laneState n != 0 || s.flag F.LN_PRBSCTRL_CEN n)

/-- The transmitter is sending: the lane is used, and not OFF or its generator is on (R258, R260, R278). -/
def State.transmits (s : State) (n : Nat) : Bool :=
  s.laneMode n != 0 && (s.laneState n != 0 || s.flag F.LN_PRBSCTRL_GEN n)

/-! ## Counters that the line drives (R277, R278) -/

/-- LN_PRBSBITS brought up to now while the checker is locked, in 2^16 bits. -/
def State.syncPrbs (s : State) (n : Nat) : State :=
  if s.flag F.LN_PRBSSTAT_LOCKED n then
    let u := lineBits (s.laneMode n) (s.now - (s.lane n).prbsAt) / 65536
    (s.incF F.LN_PRBSBITS_BITS n (u - (s.lane n).prbsN)).updLane n (fun l => { l with prbsN := u })
  else s

/-- The bits of the peer frame in progress inverted where `f` holds of the bits that have gone by since the present instant
(R278; log entry 164). -/
def State.invertLine (s : State) (n : Nat) (f : Nat → Bool) : State :=
  s.updLane n (fun l =>
    let sent := lineBits (s.laneMode n) (s.now - l.peerAt)
    { l with peerOut := invertBlocks (fun i => decide (sent ≤ i) && f (i - sent)) 0 l.peerOut })

/-- A single or burst injection that waits runs once the transmitter sends; rate injection starts or stops with it. -/
def State.runInj (s : State) (n : Nat) : State :=
  if !s.transmits n then s.updLane n (fun l => { l with injAt := none })
  else
    let k := s.getF F.LN_INJ_KIND n
    let len := if k = 1 then 1 else s.getF F.LN_INJ_LEN n
    if k = 1 ∨ k = 2 then
      ((s.invertLine n (fun i => decide (i < len))).incF F.LN_INJCNT_INJECTED n len).setF F.LN_INJ_KIND n 0
    else if k = 3 then
      if (s.lane n).injAt.isSome then s
      else
        let per := 2 ^ s.getF F.LN_INJ_RATE n
        (s.invertLine n (fun i => (i + 1) % per == 0)).updLane n (fun l => { l with injAt := some s.now, injN := 0 })
    else s.updLane n (fun l => { l with injAt := none })

/-- LN_INJCNT brought up to now under rate injection: one bit in every 2^RATE, the last of them. -/
def State.syncInj (s : State) (n : Nat) : State :=
  match (s.lane n).injAt with
  | some t0 =>
    let u := lineBits (s.laneMode n) (s.now - t0) / 2 ^ s.getF F.LN_INJ_RATE n
    (s.incF F.LN_INJCNT_INJECTED n (u - (s.lane n).injN)).updLane n (fun l => { l with injN := u })
  | none => s

/-! ## Link state (R262, R263, R265) -/

/-- The receiver realigns: the tests of R263 begin again, and a frame being assembled is discarded (R268). -/
def State.realign (s : State) (n : Nat) : State :=
  let s := if (s.lane n).peerAsm.isSome then s.incF F.LN_FRMCNT_RXDISC n else s
  s.updLane n (fun l => { l with run := 0, win := [], rd := none, downAt := s.now, peerAsm := none })

/-- The link goes down: the record, and the loss where the lane is ON and it counts. -/
def State.dropLink (s : State) (n : Nat) (counts : Bool) : State :=
  if !s.flag F.LN_STAT_UP n then s
  else
    let s := (s.setF F.LN_STAT_UP n 0).realign n
    let s := if counts && s.laneOn n then (s.incF F.LN_LINKCNT_DOWNS n).setF F.LN_STAT_DOWNEVT n 1 else s
    s.event 0x0901 n 0xFFFF .none [0]

/-- LOCK clears, and with it the link (R262). -/
def State.dropLock (s : State) (n : Nat) : State := (s.setF F.LN_STAT_LOCK n 0).dropLink n true

/-- The link-up test runs: 256 adaptation updates, one every µs, have run since LOCK last set (R263, R271). -/
def State.linkTests (s : State) (n : Nat) : Bool := decide ((s.lane n).lockAt + 256 * usClk ≤ s.now)

/-- One block: the run of valid ones while the link-up test runs, and the window of the loss test. -/
def LaneSt.block (l : LaneSt) (ok tests : Bool) : LaneSt :=
  { l with run := if ok && tests then l.run + 1 else 0, win := (ok :: l.win).take 64 }

/-- Sixteen invalid blocks within the last 64 (R263). -/
def LaneSt.lossy (l : LaneSt) : Bool := decide (16 ≤ countIf l.win (fun ok => !ok))

/-- A block received while LOCK is set: an invalid one is counted, and the 16th within 64 takes the link down; no test of the link-up
runs while the checker is on (R263, R265, R276). -/
def State.takeBlock (s : State) (n : Nat) (ok : Bool) : State :=
  let s := s.updLane n (fun l => l.block ok (s.linkTests n && !s.flag F.LN_PRBSCTRL_CEN n))
  let s := if ok then s else s.incF F.LN_LINKCNT_INVAL n
  if (s.lane n).lossy then s.dropLink n true else s

/-- The receiver is powered down where nothing uses it (R260). -/
def State.restReceiver (s : State) (n : Nat) : State :=
  if s.receives n then s else ((s.dropLock n).setF F.LN_STAT_SIGDET n 0)

/-! ## Service states (R260, R261, R364) -/

/-- Every queued frame that has not started is discarded and counted (R261). -/
def State.discardFrames (s : State) (n : Nat) : State :=
  let l := s.lane n
  let c := l.gates.length + l.changeQ.length + l.refreshQ.length + l.confQ.length + l.ethQ.length + l.peerQ0.length + l.peerQ1.length
  let s := (s.incF F.LN_FRMCNT_TXDISC n c).updLane n (fun l =>
    { l with gates := [], changeQ := [], refreshQ := [], confQ := [], confAt := none, ethQ := [], peerQ0 := [], peerQ1 := []
             resv := false })
  if s.tileLane n then ((s.setF F.LN_TCSTAT_RUN n 0).syncGates (s.chainSec n)).syncRb n else s

/-- STOPPING: the frame in progress is completed, and 64 idle blocks follow from `stopAt` on. -/
def State.enterStopping (s : State) (n : Nat) : State :=
  ((s.setF F.LN_STAT_STATE n 3).discardFrames n).updLane n (fun l => { l with stopAt := max s.now l.txFree })

/-- ON; a stop held since STARTING takes effect on the same core clock (R364). A PTP port begins to listen (log entry 170). -/
def State.enterOn (s : State) (n : Nat) : State :=
  let s := s.setF F.LN_STAT_STATE n 2
  if (s.lane n).pendOff then (s.updLane n (fun l => { l with pendOff := false })).enterStopping n
  else s.updLane n (fun l => { l with
    periodEnd := s.now, ptp := { l.ptp with listening := l.ptp.master.isNone, announceAt := s.now, nextAt := s.now } })

/-- STARTING: the generator goes off first (R276), then idles are sent and the receiver starts. The scrambler of a peer lane starts from
bits that no rule gives, a free value (R267; log entry 139). -/
def State.enterStarting (s : State) (n : Nat) : State :=
  let (scr, s) := if s.laneMode n = 2 then s.fresh 58 else (0, s)
  (((s.setF F.LN_PRBSCTRL_GEN n 0).setF F.LN_STAT_STATE n 1).updLane n
    (fun l => { l with startAt := s.now, pendOff := false, scr := scr, scrAt := s.now })).runInj n

/-- LN_CTRL.START (R363, R364). -/
def State.startLane (s : State) (n : Nat) : State :=
  if s.laneMode n = 0 then s
  else match s.laneState n with
    | 0 => s.enterStarting n
    | 1 => s.updLane n (fun l => { l with pendOff := false })
    | 2 => s
    | _ => s.setF F.LN_STAT_PENDING n 1

/-- LN_CTRL.STOP (R363, R364). -/
def State.stopLane (s : State) (n : Nat) : State :=
  match s.laneState n with
  | 0 => s
  | 1 => s.updLane n (fun l => { l with pendOff := true })
  | 2 => s.enterStopping n
  | _ => s.setF F.LN_STAT_PENDING n 0

/-- LN_START (R260, R364). -/
def execLnStart (n : Nat) (s : State) : Host.Outcome State Fault Refusal := .next (s.startLane n)

/-- LN_STOP (R261, R364). -/
def execLnStop (n : Nat) (s : State) : Host.Outcome State Fault Refusal := .next (s.stopLane n)

/-- LANE_START_TIMEOUT (R260): no link-up within 1 s of the start. -/
def execLaneStartTimeout (n : Nat) (s : State) : Host.Outcome State Fault Refusal :=
  .next (if s.laneState n = 1 ∧ ¬ s.flag F.LN_STAT_UP n then
      ((s.advanceTo ((s.lane n).startAt + 1000 * msClk)).event 0x0901 n 0xFFFF .none [0]).enterOn n
    else s)

/-- LANE_STOP_COMPLETE (R260, R364): the 64 idle blocks have been sent. -/
def execLaneStopComplete (n : Nat) (s : State) : Host.Outcome State Fault Refusal :=
  .next (if s.laneState n = 3 then
      let s := s.advanceTo ((s.lane n).stopAt + blocks64 (s.laneMode n))
      let s := (((s.syncInj n).setF F.LN_STAT_STATE n 0).restReceiver n).runInj n
      if s.flag F.LN_STAT_PENDING n then (s.setF F.LN_STAT_PENDING n 0).enterStarting n else s
    else s)

/-! ## Receiver events -/

/-- SIGNAL_DETECT_CHANGE (R262). -/
def execSignalDetectChange (n : Nat) (on : Bool) (s : State) : Host.Outcome State Fault Refusal :=
  .next (if !s.receives n then s
    else if on then s.setF F.LN_STAT_SIGDET n 1
    else (s.setF F.LN_STAT_SIGDET n 0).dropLock n)

/-- CDR_LOCK (R262): lock on a frequency within ±200 ppm, in 0.1 ppm; while locked, the offset measured by now. -/
def execCdrLock (n : Nat) (ppm : Int) (s : State) : Host.Outcome State Fault Refusal :=
  .next (if s.receives n && s.flag F.LN_STAT_SIGDET n && decide (-2000 ≤ ppm) && decide (ppm ≤ 2000) then
      let t := s.setF F.LN_CDR_PPM n (unsext 16 ppm)
      if s.flag F.LN_STAT_LOCK n then t
      else (t.setF F.LN_STAT_LOCK n 1).updLane n (fun l => { l with lockAt := s.now, run := 0, win := [], rd := none })
    else s)

/-- CDR_UNLOCK (R262, R263). -/
def execCdrUnlock (n : Nat) (s : State) : Host.Outcome State Fault Refusal :=
  .next (if s.flag F.LN_STAT_LOCK n then s.dropLock n else s)

/-- The end of a retrain: its record with the duration in µs (R274). -/
def State.endRetrain (s : State) (n : Nat) : State :=
  if s.flag F.LN_STAT_RETRAINING n then
    (s.setF F.LN_STAT_RETRAINING n 0).event 0x0903 n 0xFFFF .none (le4 ((s.now - (s.lane n).retrainAt) / usClk))
  else s

/-- The link comes up: the record, the end of a retrain. The first link-up turns a starting lane ON; the first of a tile lane begins the
enumeration of its chain (R254, R260, R265, R366). -/
def State.raiseLink (s : State) (n : Nat) : State :=
  let s := ((s.setF F.LN_STAT_UP n 1).event 0x0901 n 0xFFFF .none [1]).endRetrain n
  let s := if s.laneState n = 1 then s.enterOn n else s
  if (s.lane n).everUp || (s.tileLane n && !s.laneOn n) then s
  else (s.updLane n (fun l => { l with everUp := true })).startEnum n

/-- The link-up test may run from this clock on: 256 updates after LOCK set, and after the latest loss (R263). -/
def State.testFrom (s : State) (n : Nat) : Nat := max ((s.lane n).lockAt + 256 * usClk) (s.lane n).downAt

/-- The `i`th block of those that arrive: the 64th consecutive valid one takes the link up, not before 64 have come since the test
began (R263). -/
def State.lineBlock (s : State) (n i : Nat) (ok : Bool) : State :=
  let start := s.testFrom n
  let s := s.takeBlock n ok
  if !s.flag F.LN_STAT_UP n && s.laneState n != 0 && decide (64 ≤ (s.lane n).run) then
    ((s.updLane n (fun l => { l with win := [] })).advanceTo (start + blocksClk (s.laneMode n) (max 64 i))).raiseLink n
  else s

/-- The validity of blocks that arrive, and the running disparity behind them (R263). -/
def State.blockOks (s : State) (n : Nat) (blocks : List Nat) : List Bool × Option Bool :=
  Sys2Proof.Machine.blockOks (s.laneMode n) (s.lane n).rd blocks

/-- Blocks received in order, each valid or not; without LOCK the receiver delivers none (R265). -/
def State.takeOks (s : State) (n : Nat) (oks : List Bool) : State :=
  if s.flag F.LN_STAT_LOCK n then
    (List.zip (List.range oks.length) oks).foldl (fun s p => s.lineBlock n (p.1 + 1) p.2) s
  else s

def State.takeBlocks (s : State) (n : Nat) (blocks : List Nat) : State :=
  let (oks, rd) := s.blockOks n blocks
  (s.updLane n (fun l => { l with rd := rd })).takeOks n oks

/-- LINK_UP (R263): blocks arrive on a lane; the tests of a link that is down begin 256 updates after LOCK set. -/
def State.linkUp (s : State) (n : Nat) (blocks : List Nat) : State :=
  if s.laneState n = 0 ∨ ¬ s.flag F.LN_STAT_LOCK n then s
  else
    let s := if s.flag F.LN_STAT_UP n || s.flag F.LN_PRBSCTRL_CEN n then s else s.advanceTo (s.testFrom n)
    s.takeBlocks n blocks

def execLinkUp (x : LineBlocks) (s : State) : Host.Outcome State Fault Refusal := .next (s.linkUp x.lane x.blocks)

/-- LINK_DOWN (R263, R265, R266): blocks of which some are invalid arrive, and in 10GBASE-R the hi_ber indication, which is a loss. -/
def State.linkDown (s : State) (n : Nat) (blocks : List Nat) (hiBer : Bool) : State :=
  let s := s.takeBlocks n blocks
  if hiBer && s.laneMode n == 4 then s.dropLink n true else s

def execLinkDown (x : LineBlocks) (s : State) : Host.Outcome State Fault Refusal := .next (s.linkDown x.lane x.blocks x.hiBer)

/-! ## Equaliser (R270 to R274) -/

def State.eqMin (s : State) (n p : Nat) : Int :=
  if p = 0 then s.getF F.LN_CTLE_MIN n else sext 8 (s.getF F.LN_DFE_MIN n (p - 1))
def State.eqMax (s : State) (n p : Nat) : Int :=
  if p = 0 then s.getF F.LN_CTLE_MAX n else sext 8 (s.getF F.LN_DFE_MAX n (p - 1))
def State.eqForced (s : State) (n p : Nat) : Int :=
  if p = 0 then s.getF F.LN_CTLE_FVAL n else sext 8 (s.getF F.LN_DFE_FVAL n (p - 1))
def State.setEq (s : State) (n p : Nat) (v : Int) : State :=
  if p = 0 then s.setF F.LN_CTLE_VALUE n (unsext 8 v) else s.setF F.LN_DFE_VALUE n (unsext 8 v) (p - 1)

/-- One parameter of one update towards `d`: value, clamp, and the sticky bit of an adapted parameter (R271, R272). -/
def State.eqParam (s : State) (n p : Nat) (d : Int) (sticky : Bool) : State :=
  let lo := s.eqMin n p
  let hi := s.eqMax n p
  let at_ := decide (d < lo) || decide (hi < d)
  let s := (s.setEq n p (clampInt lo hi d)).setBitF F.LN_EQSTAT_ATBOUND n p at_
  if at_ && sticky then s.raiseBit F.LN_EQSTAT_BOUNDEVT n p else s

/-- ADAPTATION_UPDATE (R271, R272): the desired values come from the line's error, with the error metric. -/
def execAdaptationUpdate (n : Nat) (desired : List Int) (eye mse : Nat) (s : State) : Host.Outcome State Fault Refusal :=
  .next (if !s.receives n then s
    else
      let force := s.getF F.LN_EQCTRL_FORCE n
      let s := (List.range 6).foldl (fun s p =>
        if bitOf force p then s.eqParam n p (s.eqForced n p) false else s.eqParam n p (desired.getD p 0) true) s
      (s.setF F.LN_EQMET_EYE n eye).setF F.LN_EQMET_MSE n mse)

/-- CTLE_DFE_WRITE (R273): a write of LN_CTLE or LN_DFEp; bounds with MIN above MAX are left out. -/
def State.eqWrite (s : State) (n p : Nat) (w : Nat) : State :=
  let (fv, mx, mn, j) := if p = 0 then (F.LN_CTLE_FVAL, F.LN_CTLE_MAX, F.LN_CTLE_MIN, 0)
    else (F.LN_DFE_FVAL, F.LN_DFE_MAX, F.LN_DFE_MIN, p - 1)
  let t := (((s.writeRw fv n w j).writeRw mx n w j).writeRw mn n w j)
  if t.eqMax n p < t.eqMin n p then s.writeRw fv n w j else t

def execCtleDfeWrite (n p : Nat) (w : Word) (s : State) : Host.Outcome State Fault Refusal :=
  .next (if p < 6 then s.eqWrite n p w.toNat else s)

/-- RETRAIN (R274): the receiver alone is reset. -/
def State.retrain (s : State) (n : Nat) : State :=
  if s.laneState n = 1 ∨ s.laneState n = 2 then
    let s := (s.dropLink n false).setF F.LN_STAT_LOCK n 0
    let s := (s.setF F.LN_STAT_RETRAINING n 1).updLane n (fun l => { l with retrainAt := s.now })
    let force := s.getF F.LN_EQCTRL_FORCE n
    let start := (s.img.lane n).eqStart
    let s := (List.range 6).foldl (fun s p =>
      if bitOf force p then s else s.setEq n p (clampInt (s.eqMin n p) (s.eqMax n p) (start.getD p 0))) s
    s.event 0x0902 n
  else s

def execRetrain (n : Nat) (s : State) : Host.Outcome State Fault Refusal := .next (s.retrain n)

/-! ## Patterns and injection (R276 to R278) -/

/-- The generator is turned on: its pattern begins at a place that no rule gives, with a register that is a free value but not 0. -/
def State.seedGen (s : State) (n : Nat) (on : Bool) : State :=
  if on && !s.flag F.LN_PRBSCTRL_GEN n then
    let (x, s) := s.fresh 31
    s.updLane n (fun l => { l with gen := x + 1, genAt := s.now })
  else s

/-- The next `k` bits of the generator of a lane (R276). -/
def State.genBits (s : State) (n k : Nat) : List Bool :=
  (prbsBits (s.getF F.LN_PRBSCTRL_GPOLY n) (s.lane n).gen (lineBits (s.laneMode n) (s.now - (s.lane n).genAt) + k)).drop
    (lineBits (s.laneMode n) (s.now - (s.lane n).genAt))

/-- PRBSCTRL_WRITE (R276, R277). -/
def State.prbsWrite (s : State) (n w : Nat) : State :=
  let s := (s.syncPrbs n).syncInj n
  let oldPoly := s.getF F.LN_PRBSCTRL_CPOLY n
  let s := if bitOf w 0 && s.laneState n != 0 then s.setF F.LN_STAT_REFUSED n 1
    else (s.seedGen n (bitOf w 0)).setF F.LN_PRBSCTRL_GEN n (w % 2)
  let s := ((s.writeRw F.LN_PRBSCTRL_GPOLY n w).writeRw F.LN_PRBSCTRL_CPOLY n w).writeRw F.LN_PRBSCTRL_CEN n w
  let s := if s.flag F.LN_PRBSCTRL_CEN n then s.dropLink n true else s
  let s := if s.flag F.LN_PRBSCTRL_CEN n && s.getF F.LN_PRBSCTRL_CPOLY n == oldPoly then s
    else (s.setF F.LN_PRBSSTAT_LOCKED n 0).updLane n (fun l => { l with chk := {} })
  (s.restReceiver n).runInj n

def execPrbsctrlWrite (n : Nat) (w : Word) (s : State) : Host.Outcome State Fault Refusal := .next (s.prbsWrite n w.toNat)

/-- A bit reaches the checker: it seeds itself and locks on 64 consecutive matches; while it is locked it counts mismatches, and 32 errors
within 64 bits end the lock (R277). -/
def State.checkBit (s : State) (n : Nat) (b : Bool) : State :=
  if !s.receives n || !s.flag F.LN_PRBSCTRL_CEN n then s
  else
    let locked := s.flag F.LN_PRBSSTAT_LOCKED n
    let c := (s.lane n).chk.bit (s.getF F.LN_PRBSCTRL_CPOLY n) locked b
    let s := s.updLane n (fun l => { l with chk := c })
    if locked then
      let s := if c.win.headD true then s else s.incF F.LN_PRBSERR_ERRORS n
      if 32 ≤ countIf c.win (fun ok => !ok) then
        (((s.syncPrbs n).setF F.LN_PRBSSTAT_LOCKED n 0).setF F.LN_PRBSSTAT_LOSTEVT n 1).updLane n (fun l => { l with chk := {} })
      else s
    else if 64 ≤ c.run then
      (s.setF F.LN_PRBSSTAT_LOCKED n 1).updLane n (fun l => { l with prbsAt := s.now, prbsN := 0, chk := { c with win := [] } })
    else s

/-- Bits reach the checker in order. -/
def State.checkBits (s : State) (n : Nat) (bits : List Bool) : State := bits.foldl (fun s b => s.checkBit n b) s

/-- CHECKER_LOCK (R277): bits among which the checker finds its pattern. -/
def execCheckerLock (x : LineBits) (s : State) : Host.Outcome State Fault Refusal := .next (s.checkBits x.lane x.bits)

/-- CHECKER_LOSS (R277): bits among which errors end the lock. -/
def execCheckerLoss (n : Nat) (bits : List Bool) (s : State) : Host.Outcome State Fault Refusal := .next (s.checkBits n bits)

/-- INJ_WRITE (R278): single injections merge, a waiting one is replaced, one that has begun goes on. -/
def State.injWrite (s : State) (n w : Nat) : State :=
  (((((s.syncInj n).updLane n (fun l => { l with injAt := none })).writeRw F.LN_INJ_KIND n w).writeRw F.LN_INJ_LEN n w).writeRw
    F.LN_INJ_RATE n w).runInj n

def execInjWrite (n : Nat) (w : Word) (s : State) : Host.Outcome State Fault Refusal := .next (s.injWrite n w.toNat)

end Sys2Proof.Machine
end

