-- ==== Sys2Proof/Machine/Pair.lean ====
section
/-! DEFINITION. The hot-standby pair: roles and claims, digests, contests, demotion, takeover and castling (R302 to R325). -/

namespace Sys2Proof.Machine

/-! ## Reading the pair's state -/

def State.paired (s : State) : Bool := s.flag F.PR_CFG_EN
def State.sideB (s : State) : Bool := s.flag F.PR_CFG_SIDE
def State.refSec (s : State) : Nat := s.getF F.PR_CFG_REFSEC
def State.gen (s : State) : Nat := s.getF F.PR_CLAIM_G

/-- A standby may become active (R305). -/
def State.mayLead (s : State) : Bool :=
  !s.flag F.PR_STAT_FAILED && !s.flag F.PR_STAT_DEMOTED && !s.flag F.PR_STAT_DEMHELD

/-- The epoch of the reference section that was sampled last. -/
def State.refEpoch (s : State) : Nat := (s.sec s.refSec).nextSample - 1

/-- The number nearest to `cur` whose low 32 bits are those of `m`. -/
def nearest32 (cur : Nat) (m : Int) : Nat :=
  let d := ((m - (cur : Int)) % 2 ^ 32).toNat
  if d < 2 ^ 31 then cur + d else cur + d - 2 ^ 32

/-- Own epoch that a partner's epoch number stands for: Δ below it, counted near the present epoch (R315). -/
def State.ownEpoch (s : State) (k ep : Nat) : Option Nat :=
  if bitOf (s.getF F.PR_ALIGN_ALIGNED) k then
    (Tab.find s.pair.delta k).map (fun d => nearest32 (s.sec k).nextSample ((ep : Int) - d))
  else none

/-- G after a takeover, and after a castling (R306). -/
def nextGen (g : Nat) : Nat := if 32767 ≤ g then 1 else g + 1
def castleGen (g : Nat) : Nat := if 32512 ≤ g then 1 else g + 1

/-! ## Claim, PAIR_OK and ranges (R303, R306, R310) -/

/-- The old active side of a castling that sets G to 1 has lowered its claim (R325). -/
def State.lowered (s : State) : Bool :=
  decide (32512 ≤ s.gen) && (match s.pair.castling with | some c => c.switched && !c.taker | none => false)

/-- The claim register and GHIGH follow the side's state (R306, R323, R325). -/
def State.syncClaim (s : State) : State :=
  let c := if s.flag F.PR_STAT_FAILED || s.flag F.PR_STAT_DEMOTED then 0
    else if s.isActive && !s.lowered then 0x8000 + s.gen else s.gen
  (s.setF F.PR_CLAIM_CLAIM 0 c).setF F.PR_STAT_GHIGH 0 (b2n (decide (32512 ≤ s.gen)))

/-- PAIR_OK is released while protection is active and the side is neither FAILED nor DEMOTED; the line's level (R303). -/
def State.syncPairOk (s : State) : State :=
  let rel := s.getF F.DEV_STAT_STATE == 3 && !s.flag F.PR_STAT_FAILED && !s.flag F.PR_STAT_DEMOTED
  (s.setF F.PR_STAT_PAIROKREL 0 (b2n rel)).setF F.PR_STAT_PAIROKIN 0 (b2n (rel && s.pins.pairOkIn))

/-- Ring-break service ends on every chain where the side is no eligible standby (R311). -/
def State.syncRing (s : State) : State :=
  let keep := !s.isActive && s.mayLead
  let s := if keep then s else { s with lanes := s.lanes.map (fun l => (l.1, { l.2 with ringSvc := false, seenRun := 0 })) }
  s.setF F.PR_STAT_RINGSVC 0 (b2n (s.lanes.any (fun l => l.2.ringSvc)))

/-- The service range that a role brings: 0 to N − 1 for the active side; empty for the standby, unless it has been
written (R257, R310). -/
def State.roleRange (s : State) (lane : Nat) (active : Bool) : State :=
  if active then
    ((s.setF F.LN_TCSVC_FIRST lane 0).setF F.LN_TCSVC_LAST lane (s.chainN lane - 1)).updLane lane (fun l => { l with svcWritten := false })
  else if (s.lane lane).svcWritten then s
  else (s.setF F.LN_TCSVC_FIRST lane 1).setF F.LN_TCSVC_LAST lane 0

def State.roleRanges (s : State) (active : Bool) : State :=
  s.img.chains.foldl (fun s c => s.roleRange c.1 active) s

/-- What follows every change of the side's state. -/
def State.syncRole (s : State) : State := s.syncClaim.syncPairOk.syncRing

/-- The side takes a role with generation `g`; cause of record 0x0B01: 0 start, 1 yield, 2 contest, 3 partner loss,
4 castling. -/
def State.takeRole (s : State) (active : Bool) (g cause : Nat) : State :=
  let s := ((s.setF F.PR_STAT_ACTIVE 0 (b2n active)).setF F.PR_CLAIM_G 0 g).setF F.PR_STAT_ROLEEVT 0 1
  let s := (s.roleRanges active).syncRole
  (s.event 0x0B01 0xFFFF 0xFFFF .none ([b2n active, cause] ++ le2 g)).published

/-- A takeover counted (R319, R323). -/
def State.countTakeover (s : State) : State := (s.setF F.PR_STAT_TAKEEVT 0 1).incF F.PR_CNT_TAKEOVERS

/-! ## Records (R314) -/

/-- The directory entry counts in the CVER of section `k` (R369). -/
def Image.dirOf (m : Image) (k : Nat) (d : DirEntry) : Bool :=
  ((d.type == 2 || d.type == 10 || d.type == 11) && d.index == k) ||
  ((d.type == 3 || d.type == 4) && d.index / 64 == k) ||
  (d.type == 5 && (match m.conv d.index with
    | some c => c.section_ == k && !(m.assignedOf d.index).isEmpty
    | none => false))

/-- CVER of a section: over the CRCs of its blocks in directory order (R369). -/
def Image.cver (m : Image) (k : Nat) : Nat := crcOf crc32c ((m.dir.filter (m.dirOf k)).flatMap (fun d => le4 d.crc))

/-- The record that this side sends about a section (R314). -/
def State.peerRecOf (s : State) (type k epoch data : Nat) : PeerRec :=
  let stamp := match (s.sec k).epochRec epoch with | some r => r.stamp | none => (s.sec k).stamp
  { type := type, seq := s.pair.seq, section_ := k, sideB := s.sideB, active := s.isActive, forcing := s.forcing
    failed := s.flag F.PR_STAT_FAILED, demoted := s.flag F.PR_STAT_DEMOTED
    contest := s.pair.contest.isSome
    epoch := epoch % 2 ^ 32, stamp := stamp, data := data, cver := s.img.cver k, pairId := s.getF F.PR_CFG_PAIRID
    claim := s.claimSent, g := s.gen }

/-- A frame queued on both peer lanes, as `add` queues it. -/
def State.queuePeer (s : State) (add : LaneSt → LaneSt) : State :=
  s.img.pair.lanes.foldl (fun s n => if s.laneOn n && s.laneMode n == 2 then s.updLane n add else s) s

/-- A record queued on both peer lanes with the same SEQ (R314). -/
def State.sendRec (s : State) (type k epoch data : Nat) : State :=
  let r := s.peerRecOf type k epoch data
  let f : PeerFrame := { chan := 0, seq := r.seq, payload := peerRecBytes r }
  let s := s.updPair (fun p => { p with seq := (p.seq + 1) % 65536, sent := (r :: p.sent).take 64 })
  s.queuePeer (fun l => { l with peerQ0 := l.peerQ0 ++ [f] })

/-! ## Takeover after a loss of the partner (R323) -/

/-- A contest closes at epoch `e` of its section. -/
def State.closeContest (s : State) : State :=
  match s.pair.contest with
  | none => s
  | some c => (s.updPair (fun p => { p with
      contest := none
      closedAt := Tab.set p.closedAt c.sec (c.c + 4)
      mmRun := Tab.del p.mmRun c.sec })).setF F.PR_STAT_CONTEST 0 0

/-- The partner is lost: PAIR_OK reads low while this side releases it, and no record comes or the latest shows the loss of its
standing (R323). -/
def State.partnerLost (s : State) : Bool :=
  s.flag F.PR_STAT_PAIROKREL && !s.pins.pairOkIn &&
  (s.flag F.PR_STAT_NOPEER || (match s.pair.lastRec with | some r => r.failed || r.demoted | none => false))

/-- The conditions of R323. -/
def State.mayTakeOver (s : State) : Bool :=
  s.paired && s.getF F.DEV_STAT_STATE == 3 && s.pair.listenAt.isNone && !s.isActive && s.mayLead && s.partnerLost

/-- TAKEOVER (R323); a loss during an open contest closes it on either side. -/
def State.checkTakeover (s : State) : State :=
  if s.mayTakeOver then s.closeContest.countTakeover.takeRole true (nextGen s.gen) 3
  else s.onlyIf (s.paired && s.partnerLost) State.closeContest

/-- NOPEER: no channel 0 record in the last two epochs of the reference section. -/
def State.checkPeer (s : State) : State :=
  if !s.paired then s
  else (s.setF F.PR_STAT_NOPEER 0 (b2n (decide (s.pair.recEpoch + 2 < (s.sec s.refSec).nextSample)))).checkTakeover

/-- PAIR_OK_LOW (R323): PAIR_OK has read low for 10 µs while released. -/
def execPairOkLow (s : State) : Host.Outcome State Fault Refusal :=
  .next (if s.paired then ((s.updPins (fun p => { p with pairOkIn := false })).syncPairOk).checkTakeover else s)

/-! ## Contest (R318, R319) -/

/-- The sections whose latest comparison found a mismatch no longer ago than an epoch of section `k` (R318; log entry 140). -/
def State.mismatched (s : State) (k : Nat) : Nat :=
  maskOf ((List.range 24).filter (fun j => bitOf (s.getF F.PR_MMSEC_MM) j &&
    (match Tab.find s.pair.mmAt j with
     | some t => decide (((s.now : Rat) - t) ≤ s.epochDur k ((s.sec k).nextSample - 1) * 1200000000)
     | none => false)))

/-- CONTEST_OPEN at epoch `e` of section `k`: the ranks of the sections that mismatched stop staging; that of `k` is one of them where
this side `found` its mismatch, and where none is known (log entry 140). -/
def State.openContest (s : State) (k e : Nat) (found : Bool) : State :=
  let near := if found then (match Tab.find s.pair.closedAt k with | some c => decide (e < c + 128) | none => false)
    else s.pair.closedAt.any (fun p => decide ((s.sec p.1).nextSample ≤ p.2 + 128))
  if s.pair.contest.isSome || near then s
  else
    let ranks := if found || s.mismatched k = 0 then setBit (s.mismatched k) k true else s.mismatched k
    let before := match s.pair.castling with | some c => decide (s.refEpoch < c.x) && !c.switched | none => false
    let s := s.updPair (fun p => { p with
      contest := some { sec := k, c := e, ranks := ranks, upto := (s.sec k).nextDeadline }, castling := if before then none else p.castling })
    let s := s.onlyIf before (fun s => s.setF F.PR_STAT_CASTLING 0 0)
    let s := (s.setF F.PR_STAT_CONTEST 0 1).setF F.PR_STAT_CONTESTEVT 0 1
    ((s.incF F.PR_CONTEST_COUNT).setF F.PR_CONTEST_RES 0 0).setF F.PR_CONTEST_PRES 0 0

/-- SELF_TEST_COMPLETE (R318): this side fails if an affected rank is among those that failed, and the result goes to the partner. -/
def execSelfTestComplete (failed : Nat) (s : State) : Host.Outcome State Fault Refusal :=
  .next (match s.pair.contest with
    | none => s
    | some c =>
      let res := if failed &&& c.ranks = 0 then 1 else 2
      let s := s.updPair (fun p => { p with contest := some { c with failed := failed &&& c.ranks } })
      (s.setF F.PR_CONTEST_RES 0 res).sendRec 3 c.sec c.c res)

/-- The ranks of `m` that are not in `r`. -/
def ranksBut (m r : Nat) : Nat := m - (m &&& r)

/-- Ranks whose staging does not resume at the close of a contest: those that did not pass it, and those stopped before that it did not
test (R319). -/
def stoppedAfter (stopped res : Nat) (c : Contest) : Nat :=
  ranksBut stopped c.ranks ||| (if res = 0 then c.ranks else c.failed)

/-- The side becomes FAILED: claim 0, role standby, effective range empty, PAIR_OK low (R305, R319). -/
def State.fail_ (s : State) : State :=
  let s := s.setF F.PR_STAT_FAILED 0 1
  if s.isActive then s.takeRole false s.gen 2 else s.syncRole

/-- The outcome for this side, which its firmware carries out (R319). -/
def State.contestActs (s : State) (own peer : Bool) (k c : Nat) : State :=
  if s.pair.stalled then s
  else if s.isActive then (if !own && peer then s.fail_ else s)
  else if own && !peer then
    (s.countTakeover.takeRole true (nextGen s.gen) 2).updPair (fun p => { p with took := some (k, c), tookSeen := 0 })
  else if !own && peer then s.fail_
  else s

/-- CONTEST_OUTCOME (R319): at the deadline of C + 4; a missing result counts as fail. -/
def State.contestOutcome (s : State) : State :=
  match s.pair.contest with
  | none => s
  | some c =>
    let s := s.advanceTo (s.angleClk c.sec (s.deadlineAngle c.sec (c.c + 4)))
    let res := s.getF F.PR_CONTEST_RES
    let pres := s.getF F.PR_CONTEST_PRES
    let s := s.contestActs (res == 1) (pres == 1) c.sec c.c
    let s := s.onlyIf (!s.pair.stalled) (fun s =>
      s.event 0x0B02 0xFFFF 0xFFFF .none ([if res = 1 then 1 else 2, if pres = 1 then 1 else 2] ++ leBytes 3 c.ranks))
    let s := s.updPair (fun p => { p with stopped := stoppedAfter p.stopped res c })
    s.closeContest

def execContestOutcome (s : State) : Host.Outcome State Fault Refusal := .next s.contestOutcome

/-! ## Digests (R315 to R317) -/

/-- The OR of an output over the instances of a feeder. -/
def State.anyOut (s : State) (f : Nat) (c : FeederCfg) (m : ElemKind → Nat) : Bool :=
  c.elems.any (fun p => (s.instSig f p.1).value.toNat &&& m p.2.kind != 0)

/-- The two digest bytes of a feeder (R316). -/
def State.digestBytes (s : State) (f : Nat) (c : FeederCfg) : List Nat :=
  let cmd := match s.tileOf f with
    | none => 0
    | some (lane, a) =>
      match s.tileCfg lane a with
      | none => 0
      | some t => (List.range 8).foldl (fun m n =>
          m + 2 ^ n * b2n ((t.outs.getD n {}).srcs.all (fun b => decide (b.id < 123648)) && s.outCmd t (s.devTile lane a) n)) 0
  [cmd, b2n ((s.sig (feederSig f 73)).bit 0) + 2 * b2n (s.anyOut f c ElemKind.opOut)]

def State.digestOf (s : State) (k e : Nat) : Nat :=
  crcOf crc32c (((s.imgAt k e).feedersOf k).flatMap (fun p => s.digestBytes p.1 p.2))

/-- A mismatch of section `k` joins a contest that opened since the contest's section had its latest deadline (R318; log entry 140). -/
def State.joinContest (s : State) (k : Nat) : State :=
  match s.pair.contest with
  | some c => s.onlyIf (decide ((s.sec c.sec).nextDeadline ≤ c.upto)) (fun s => s.updPair (fun p =>
      { p with contest := some { c with ranks := setBit c.ranks k true } }))
  | none => s

/-- One comparison of epoch `e` of section `k` (R317): a mismatch counts, and the second in a row opens a contest. -/
def State.compared (s : State) (k e : Nat) (same : Bool) : State :=
  let s := s.setBitF F.PR_MMSEC_MM 0 k (!same)
  if same then s.updPair (fun p => { p with mmRun := Tab.del p.mmRun k })
  else
    let n := Tab.get s.pair.mmRun 0 k + 1
    let s := (s.setF F.PR_STAT_MMEVT 0 1).incF F.PR_CNT_MISMATCH
    let s := s.updPair (fun p => { p with mmRun := Tab.set p.mmRun k n, mmAt := Tab.set p.mmAt k s.now, mmEpoch := some s.refEpoch })
    let s := s.joinContest k
    if 2 ≤ n then s.openContest k e true else s

/-- The digests of own epoch `e` are compared once both are there by the deadline of E + 4 and nothing excludes it (R317). -/
def State.compare (s : State) (k e : Nat) : State :=
  match s.ownEpoch k 0, ((Tab.get s.pair.own [] k).find? (fun p => p.1 == e)) with
  | some _, some (_, own) =>
    match (Tab.get s.pair.peer [] k).find? (fun r => s.ownEpoch k r.epoch == some e) with
    | some r =>
      if r.cver != s.img.cver k || r.forcing || r.failed || r.demoted || s.forcing || s.flag F.PR_STAT_FAILED ||
          s.flag F.PR_STAT_DEMOTED || decide (e + 4 < (s.sec k).nextDeadline) then s
      else s.compared k e (r.data == own)
    | none => s
  | _, _ => s

/-- DIGEST_FORMATION (R316): the digest of epoch `e`, kept, sent and compared. -/
def State.formDigest (s : State) (k e : Nat) : State :=
  if !s.paired then s
  else
    let d := s.digestOf k e
    let s := s.updPair (fun p => { p with own := Tab.set p.own k (((e, d) :: Tab.get p.own [] k).take 16) })
    (s.sendRec 1 k e d).compare k e

/-- Nanoseconds between two stamps, the shorter way round. -/
def stampGap (a b : Nat) : Nat := min ((a + 2 ^ 32 - b % 2 ^ 32) % 2 ^ 32) ((b + 2 ^ 32 - a % 2 ^ 32) % 2 ^ 32)

/-- A gap in ns lies within `n` ticks of the section. -/
def State.withinTicks (s : State) (k gap n : Nat) : Bool :=
  decide ((gap : Rat) * 65536 * (s.sec k).rate ≤ (n : Rat) * 1000000000)

/-- Alignment of a section by a partner record (R315); an own epoch that is no longer kept lies further away than any bound. -/
def State.align (s : State) (r : PeerRec) : State :=
  let k := r.section_
  if !s.flag F.TB_STAT_LOCK (s.img.sec k).stampTb then s
  else match s.ownEpoch k r.epoch with
    | some eo =>
      match (s.sec k).epochRec eo with
      | some x => if s.withinTicks k (stampGap x.stamp r.stamp) 128 then s
          else (s.setBitF F.PR_ALIGN_ALIGNED 0 k false).updPair (fun p => { p with delta := Tab.del p.delta k })
      | none => (s.setBitF F.PR_ALIGN_ALIGNED 0 k false).updPair (fun p => { p with delta := Tab.del p.delta k })
    | none =>
      let best := (s.sec k).epochs.foldl (fun (b : Option EpochRec) x => match b with
        | none => some x
        | some y => if stampGap x.stamp r.stamp < stampGap y.stamp r.stamp then some x else some y) none
      match best with
      | some x =>
        if s.withinTicks k (stampGap x.stamp r.stamp) 64 then
          (s.setBitF F.PR_ALIGN_ALIGNED 0 k true).updPair (fun p => { p with delta := Tab.set p.delta k ((r.epoch : Int) - x.epoch) })
        else s
      | none => s

/-- A partner whose CLAIM is not 0 has taken a role and releases PAIR_OK (R303, R306; log entry 74). -/
def State.partnerStands (s : State) (claim : Nat) : State :=
  if claim = 0 then s else (s.updPins (fun p => { p with pairOkIn := true })).syncPairOk

/-- The pair keeps one G: a side that is not active takes that of a partner that is, once it has a role (R306; log entry 77). -/
def State.adoptGen (s : State) (r : PeerRec) : State :=
  if r.active && !s.isActive && s.pair.listenAt.isNone && s.getF F.DEV_STAT_STATE == 3 then (s.setF F.PR_CLAIM_G 0 r.g).syncClaim else s

/-- A record of peer channel 0 arrives: the first valid copy is used (R268, R314); what every record brings: the partner's
G and role, PAIR_OK, alignment, an open contest, the loss of its standing (R303, R306, R308, R315, R318, R323). -/
def State.takeRec (s : State) (r : PeerRec) : Option State :=
  if !s.paired || !s.img.pair.lanes.any (fun n => s.flag F.LN_STAT_UP n) then none
  else if r.pairId ≠ s.getF F.PR_CFG_PAIRID then none
  else if s.pair.seqs.contains r.seq then none
  else
    let s := s.updPair (fun p => { p with
      lastRec := some r
      seqs := (r.seq :: p.seqs).take 64
      recEpoch := (s.sec s.refSec).nextSample
      sawActive := if r.active then some r.g else p.sawActive })
    let s := ((s.setF F.PR_STAT_NOPEER 0 0).setF F.PR_PCLAIM_PG 0 r.g).adoptGen r
    let s := s.partnerStands r.claim
    let s := s.align r
    let s := s.onlyIf r.contest (fun s =>
      s.openContest r.section_ ((s.ownEpoch r.section_ r.epoch).getD ((s.sec r.section_).nextSample - 1)) false)
    some s.checkTakeover

/-- A record that is not used: a foreign one is counted (R314). -/
def State.dropRec (s : State) (r : PeerRec) : State :=
  if s.paired && s.img.pair.lanes.any (fun n => s.flag F.LN_STAT_UP n) && decide (r.pairId ≠ s.getF F.PR_CFG_PAIRID) then
    s.incF F.PR_CNT_MISMATCH
  else s

/-- A record taken, then `f`. -/
def State.onRec (s : State) (r : PeerRec) (f : PeerRec → State → State) : State :=
  match s.takeRec r with
  | some t => f r t
  | none => s.dropRec r

/-- A block on a peer lane: the tests of the link see its sync header, and while the link is up the receiver assembles frames (R263,
R268). -/
def State.peerBlock (s : State) (n : Nat) (b : PlainBlock) : List PeerFrame × State :=
  let s := s.takeOks n [b.1 == hdrData || b.1 == hdrControl]
  if !s.flag F.LN_STAT_UP n then ([], s)
  else
    let g := ({ asm := (s.lane n).peerAsm } : PeerGot).step b
    (g.frames, ((s.incF F.LN_FRMCNT_RXDISC n g.disc).incF F.LN_LINKCNT_INVAL n g.inval).updLane n (fun l => { l with peerAsm := g.asm }))

/-- Blocks arrive on a peer lane (R260, R263, R268): the frames handed up. -/
def State.peerArrives (s : State) (x : PeerRx) : List PeerFrame × State :=
  if !s.receives x.lane || s.laneMode x.lane != 2 then ([], s)
  else (descrambleAll x.before x.blocks).foldl (fun (o : List PeerFrame × State) b =>
    let (l, s) := o.2.peerBlock x.lane b
    (o.1 ++ l, s)) ([], s)

/-- Blocks arrive, and each record of a type that they carry on channel 0 is taken (R314). -/
def State.onRecs (s : State) (x : PeerRx) (type : Nat) (f : PeerRec → State → State) : State :=
  let (l, s) := s.peerArrives x
  (l.filter (fun g => g.chan == 0 && g.payload.length == 32 && g.payload.getD 0 0 == type)).foldl
    (fun s g => s.onRec (peerRecRead g) f) s

/-- A partner's digest is kept and compared (R315, R317). -/
def State.peerDigest (r : PeerRec) (s : State) : State :=
  let s := s.updPair (fun p => { p with peer := Tab.set p.peer r.section_ ((r :: Tab.get p.peer [] r.section_).take 16) })
  match s.ownEpoch r.section_ r.epoch with
  | some e => s.compare r.section_ e
  | none => s

/-- DIGEST (R315, R317). -/
def execDigest (x : PeerRx) (s : State) : Host.Outcome State Fault Refusal := .next (s.onRecs x 1 State.peerDigest)

/-- A partner's contest result (R318, R319). -/
def State.peerResult (r : PeerRec) (s : State) : State :=
  if s.pair.contest.isSome then s.setF F.PR_CONTEST_PRES 0 (r.data % 256 % 3) else s

/-- CONTEST_RESULT (R318, R319). -/
def execContestResult (x : PeerRx) (s : State) : Host.Outcome State Fault Refusal := .next (s.onRecs x 3 State.peerResult)

/-! ## Partner claims on the chains (R307 to R309, R311) -/

/-- A correct down-frame of the partner side (R235, R307). -/
def State.fromPartner (s : State) (l : TileChars) : Bool :=
  let f := downRead l
  frameOk 32 l && [1, 2, 3, 5, 6, 7].contains f.type && bitOf f.flags 0 != s.sideB

/-- The claim of a valid frame of the partner that reaches the lane (R307). -/
def State.partnerFrame (s : State) (lane claim : Nat) : State :=
  let top := decide (0x8000 ≤ claim)
  let own := s.claimSent
  let high := top && s.pair.castling.isNone && (decide (own < claim) || (own == claim && s.sideB))
  let s := s.updLane lane (fun l => { l with partnerAt := some s.now, partnerClaim := claim, seen := true, high := l.high || high })
  let s := (s.setF F.PR_PCLAIM_PCLAIM 0 claim).syncPseen
  let s := s.partnerStands claim
  s.updPair (fun p => { p with
    sawActive := if top then some (claim % 2 ^ 15) else p.sawActive
    tookSeen := if p.took.isSome && claim != 0 then claim else p.tookSeen })

/-- PARTNER_DOWN_FRAME (R307): a frame reaches the lane from the far side. -/
def execPartnerDownFrame (lane : Nat) (l : TileChars) (s : State) : Host.Outcome State Fault Refusal :=
  .next (if !s.paired || !s.tileLane lane || !s.flag F.LN_STAT_UP lane || !s.fromPartner l then s
    else s.partnerFrame lane (downRead l).claim)

/-- ROLE_YIELD (R309): four refresh periods with a partner claim at or above the own on a chain. -/
def execRoleYield (lane : Nat) (s : State) : Host.Outcome State Fault Refusal :=
  .next (if s.paired && s.isActive && decide (4 ≤ (s.lane lane).highRun) then
      (s.updLane lane (fun l => { l with highRun := 0 })).takeRole false s.gen 1
    else s)

/-- RING_BREAK_SERVICE (R311): PSEEN has been clear on a chain for 4 × P while the standby is eligible. -/
def execRingBreakService (lane : Nat) (s : State) : Host.Outcome State Fault Refusal :=
  .next (if s.paired && !s.isActive && s.mayLead && s.pair.listenAt.isNone && s.getF F.DEV_STAT_STATE == 3 &&
        (Tab.find s.img.chains lane).isSome && !(s.lane lane).ringSvc then
      let s := match (s.lane lane).partnerAt with
        | some t => s.advanceTo (t + 8 * s.periodClk lane + 1)
        | none => s
      ((s.updLane lane (fun l => { l with ringSvc := true, seenRun := 0 })).syncPseen).syncRing
    else s)

/-- RING_SERVICE_END (R311): partner frames in eight consecutive periods. -/
def execRingServiceEnd (lane : Nat) (s : State) : Host.Outcome State Fault Refusal :=
  .next (if (s.lane lane).ringSvc && decide (8 ≤ (s.lane lane).seenRun) then
      (s.updLane lane (fun l => { l with ringSvc := false })).syncRing
    else s)

/-- ROLE_LISTEN_EXPIRY (R308): 10 ms after protection became active, and for side B 100 ms more. A side that is not eligible stays standby
(R305, R321). -/
def execRoleListenExpiry (s : State) : Host.Outcome State Fault Refusal :=
  .next (match s.pair.listenAt with
    | none => s
    | some t =>
      let s := s.advanceTo (t + (if s.pair.longListen then 110 else 10) * msClk)
      let stop (s : State) : State := s.updPair (fun p => { p with listenAt := none, longListen := false })
      match s.pair.sawActive with
      | some g => (stop s).takeRole false g 0
      | none =>
        if s.sideB && !s.pair.longListen then s.updPair (fun p => { p with longListen := true })
        else (stop s).takeRole s.mayLead 1 0)

/-! ## Standby data feed (R312) -/

/-- The quality that a feed frame gives. -/
def feedQual (q : Nat) : Quality := if q = 0 then Quality.ok else if q = 1 then Quality.quest else Quality.bad

/-- One tile of a feed frame. -/
def State.feedTile (s : State) (f : Nat) (t : FeedTile) : State :=
  let s := (List.range 16).foldl (fun s n =>
    s.putSig (inSig f n) (if bitOf t.wb n || t.q == 2 then Entry.mk' 0 Quality.bad
      else Entry.mk' (b2n (bitOf t.inp n)) (feedQual t.q))) s
  s.putSig (feederSig f 72) (Entry.mk' t.rb (if t.q = 0 then Quality.ok else Quality.bad))

/-- A feed frame of section `k` (R312). -/
def State.takeFeed (s : State) (k epoch : Nat) (tiles : List FeedTile) : State :=
  match s.img.chainOf k, s.ownEpoch k epoch with
  | some (lane, c), some e =>
    if !s.paired || s.isActive then s
    else
      let s := (List.zip (List.range c.tiles.length) tiles).foldl (fun s p => s.feedTile (s.tileFeeder lane p.1) p.2) s
      (s.updPair (fun p => { p with feed := Tab.set p.feed k (e, s.now) })).published
  | _, _ => s

/-- STANDBY_DATA_FEED (R268, R312). -/
def execStandbyDataFeed (lane before : Nat) (blocks : List PeerBlock) (s : State) : Host.Outcome State Fault Refusal :=
  .next (let (l, s) := s.peerArrives { lane := lane, before := before, blocks := blocks }
    (l.filterMap feedRead).foldl (fun s g => s.takeFeed g.1 g.2.1 g.2.2) s)

/-- STANDBY_FEED_MISSING (R312): at the due angle of an epoch without its feed frame the inputs keep their states with
questionable, and are invalid once no frame has come for a tile's safe-state timeout. -/
def execStandbyFeedMissing (k : Nat) (s : State) : Host.Outcome State Fault Refusal :=
  .next (match s.img.chainOf k with
    | none => s
    | some (_, c) =>
      let e := (s.sec k).nextDue - 1
      let got := match Tab.find s.pair.feed k with | some (x, _) => decide (e ≤ x) | none => false
      if !s.paired || s.isActive || got || (s.sec k).nextDue == 0 then s
      else
        (c.tiles.foldl (fun s t =>
          let stale := match Tab.find s.pair.feed k with
            | some (_, at_) => decide (at_ + t.timeout10us * 10 * usClk < s.now)
            | none => true
          let s := (List.range 16).foldl (fun s n =>
            let x := s.sigBelow (inSig t.feeder n)
            s.putSig (inSig t.feeder n) (if stale then Entry.mk' 0 Quality.bad
              else { x with q := x.q.join Quality.quest, forced := false })) s
          let rb := s.sigBelow (feederSig t.feeder 72)
          s.putSig (feederSig t.feeder 72) { rb with q := rb.q.join (if stale then Quality.bad else Quality.quest), forced := false }) s).published)

/-- The entry of a tile in the feed frame of epoch `e`: IN for the epoch, and WB, RB and STAT of the latest up-frame; the quality is that
of the row of R253 that decides but for WB, which goes beside it (R312). -/
def State.feedEntry (s : State) (k e lane a : Nat) (c : TileCfg) : FeedTile :=
  let d := s.devTile lane a
  let t := match (s.sec k).epochRec (e + 1) with
    | some r => r.at_
    | none => s.now
  let u := d.up.getD {}
  { inp := (List.range 16).foldl (fun m n => m + 2 ^ n * b2n ((d.inputAt c (s.periodClk lane) e t n).1)) 0
    wb := u.wb, rb := u.rb, stat := u.stat
    q := d.tileQual c (s.periodClk lane) e t }

/-- STANDBY_FEED_SEND (R312): at the deadline of epoch `e` the active side queues a feed frame for a section with a chain. -/
def State.sendFeed (s : State) (k e : Nat) : State :=
  match s.img.chainOf k with
  | some (lane, c) =>
    if s.paired && s.isActive then
      let tiles := (List.range c.tiles.length).map (fun a => s.feedEntry k e lane a (c.tiles.getD a { feeder := 0 }))
      let f : PeerFrame := { chan := 1, seq := s.pair.feedSeq, payload := feedBytes k (e % 2 ^ 32) tiles }
      (s.updPair (fun p => { p with feedSeq := (p.feedSeq + 1) % 65536 })).queuePeer (fun l => { l with peerQ1 := l.peerQ1 ++ [f] })
    else s
  | none => s

/-! ## Demotion (R320 to R322) -/

/-- DEMOTE_CHECK (R320): at the deadline of C + 8 the side that took over looks for non-zero partner claims. -/
def execDemoteCheck (s : State) : Host.Outcome State Fault Refusal :=
  .next (match s.pair.took with
    | none => s
    | some (k, c) =>
      let s := s.advanceTo (s.angleClk k (s.deadlineAngle k (c + 8)))
      let seen := s.pair.tookSeen
      let s := s.updPair (fun p => { p with took := none })
      if seen = 0 then s
      else
        let s := (s.updPair (fun p => { p with pulseAt := some s.now })).updPins (fun p => { p with demoteOutLow := true })
        (s.setF F.PR_STAT_DEMOUTEVT 0 1).event 0x0B03 0xFFFF 0xFFFF .none (le2 seen))

/-- DEMOTE_PULSE_END (R320): after 10 µs. -/
def execDemotePulseEnd (s : State) : Host.Outcome State Fault Refusal :=
  .next (match s.pair.pulseAt with
    | some t => ((s.advanceTo (t + 10 * usClk)).updPair (fun p => { p with pulseAt := none })).updPins
        (fun p => { p with demoteOutLow := false })
    | none => s)

/-- DEMOTE_IN_FALL (R302, R305, R321): the DEMOTED latch sets; the firmware makes the side standby. -/
def execDemoteInFall (s : State) : Host.Outcome State Fault Refusal :=
  .next (if !s.pins.demoteIn || !s.paired then s
    else
      let was := s.isActive
      let s := (s.updPins (fun p => { p with demoteIn := false })).updPair (fun p => { p with demLowAt := some s.now })
      let s := (s.setF F.PR_STAT_DEMINEVT 0 1).setF F.PR_STAT_DEMOTED 0 1
      let s := if was then ((s.setF F.PR_STAT_ACTIVE 0 0).setF F.PR_STAT_ROLEEVT 0 1).roleRanges false else s
      s.syncRole.published)

/-- DEMOTE_IN_RISE (R302, R322). -/
def execDemoteInRise (s : State) : Host.Outcome State Fault Refusal :=
  .next ((s.updPins (fun p => { p with demoteIn := true })).updPair (fun p => { p with demLowAt := none }))

/-- DEMOTE_HELD (R322): low for more than 1 s. -/
def execDemoteHeld (s : State) : Host.Outcome State Fault Refusal :=
  .next (match s.pair.demLowAt with
    | some t =>
      if s.flag F.PR_STAT_DEMHELD then s
      else ((s.advanceTo (t + 1000 * msClk + 1)).setF F.PR_STAT_DEMHELD 0 1).syncRing.event 0x0B04
    | none => s)

/-- PR_CTRL.CLRFAIL (R305). -/
def State.clrFail (s : State) : State := (s.setF F.PR_STAT_FAILED 0 0).syncRole

/-- PR_CTRL.CLRDEMOTE, while DEMOTE_IN# is high (R321, R322). -/
def State.clrDemote (s : State) : State :=
  if s.pins.demoteIn then ((s.setF F.PR_STAT_DEMOTED 0 0).setF F.PR_STAT_DEMHELD 0 0).syncRole else s

def execClrfail (s : State) : Host.Outcome State Fault Refusal := .next s.clrFail
def execClrdemote (s : State) : Host.Outcome State Fault Refusal := .next s.clrDemote

/-! ## Castling (R324, R325) -/

/-- A castling refused (R324). -/
def State.refuseCastle (s : State) (reason : Nat) : State :=
  (s.setF F.PR_STAT_CASTREF 0 1).setF F.PR_CASTLE_REASON 0 reason

/-- The causes that either side checks, by number: contest open, a section of the image not aligned, a mismatch within 128 epochs, a
castling pending. -/
def State.castleCause (s : State) : Nat :=
  if s.pair.contest.isSome then 2
  else if s.img.secs.any (fun p => !bitOf (s.getF F.PR_ALIGN_ALIGNED) p.1) then 3
  else if (match s.pair.mmEpoch with | some e => decide (s.refEpoch ≤ e + 128) | none => false) then 4
  else if s.pair.castling.isSome then 6
  else 0

/-- PR_CTRL.CASTLE (R324): the request goes out with X, the first epoch of the cycle after next. -/
def State.castle (s : State) : State :=
  if !s.paired then s
  else if !s.isActive then s.refuseCastle 7
  else if (match s.pair.lastRec with | some r => r.failed || r.demoted | none => false) then s.refuseCastle 1
  else if s.castleCause ≠ 0 then s.refuseCastle s.castleCause
  else
    let x := ((s.theta s.refSec / 65536).floor.toNat + 2) * 128
    let s := s.updPair (fun p => { p with castling := some { x := x, newG := castleGen s.gen, at_ := s.refEpoch } })
    s.sendRec 4 s.refSec s.refEpoch (x % 2 ^ 32)

def execCastle (s : State) : Host.Outcome State Fault Refusal := .next s.castle

/-- The standby checks a castling request and answers (R324). -/
def State.castleAsked (r : PeerRec) (s : State) : State :=
  let k := s.refSec
  let reason := if s.isActive || !s.mayLead then 1 else s.castleCause
  match reason, s.ownEpoch k r.data with
  | 0, some x =>
    let s := s.updPair (fun p => { p with castling := some { x := x, newG := castleGen r.g, accepted := true, at_ := s.refEpoch, taker := true } })
    (s.setF F.PR_STAT_CASTLING 0 1).sendRec 5 k s.refEpoch 0
  | n, _ => s.sendRec 5 k s.refEpoch (if n = 0 then 3 else n)

/-- CASTLING_REQUEST (R324). -/
def execCastlingRequest (x : PeerRx) (s : State) : Host.Outcome State Fault Refusal := .next (s.onRecs x 4 State.castleAsked)

/-- The requester takes the standby's answer (R324). -/
def State.castleAnswered (r : PeerRec) (s : State) : State :=
  match s.pair.castling with
  | some c =>
    if c.taker || c.accepted then s
    else if r.data % 256 = 0 then
      (s.updPair (fun p => { p with castling := some { c with accepted := true } })).setF F.PR_STAT_CASTLING 0 1
    else (s.updPair (fun p => { p with castling := none })).refuseCastle (r.data % 256)
  | none => s

/-- CASTLING_ANSWER (R324). -/
def execCastlingAnswer (x : PeerRx) (s : State) : Host.Outcome State Fault Refusal := .next (s.onRecs x 5 State.castleAnswered)

/-- CASTLING_ANSWER_TIMEOUT (R324): no answer within 64 epochs. -/
def execCastlingAnswerTimeout (s : State) : Host.Outcome State Fault Refusal :=
  .next (match s.pair.castling with
    | some c =>
      if c.accepted then s
      else
        let s := s.advanceTo (s.angleClk s.refSec (512 * (c.at_ + 64)))
        (s.updPair (fun p => { p with castling := none })).refuseCastle 5
    | none => s)

/-- CASTLING_SWITCH (R325, step 1): at the deadline of X the standby takes the active role; the old active side with
G ≥ 32,512 lowers its claim to its old G. -/
def execCastlingSwitch (s : State) : Host.Outcome State Fault Refusal :=
  .next (match s.pair.castling with
    | some c =>
      if !c.accepted || c.switched then s
      else
        let s := s.advanceTo (s.angleClk s.refSec (s.deadlineAngle s.refSec c.x))
        let s := s.updPair (fun p => { p with castling := some { c with switched := true } })
        if c.taker then
          if s.isActive || !s.mayLead then s else (s.takeRole true c.newG 4).setF F.PR_STAT_CASTEVT 0 1
        else s.syncClaim
    | none => s)

/-- CASTLING_END (R325, step 3): at the deadline of X + 4 the old active side becomes standby with the new G. -/
def execCastlingEnd (s : State) : Host.Outcome State Fault Refusal :=
  .next (match s.pair.castling with
    | some c =>
      if !c.switched then s
      else
        let s := s.advanceTo (s.angleClk s.refSec (s.deadlineAngle s.refSec (c.x + 4)))
        let s := (s.updPair (fun p => { p with castling := none })).setF F.PR_STAT_CASTLING 0 0
        let s := if !c.taker && s.isActive then s.takeRole false c.newG 4 else s
        let s := (s.setF F.PR_STAT_CASTEVT 0 1).incF F.PR_CNT_CASTLES
        s.event 0x0B05 0xFFFF 0xFFFF .none (le4 c.x)
    | none => s)

end Sys2Proof.Machine
end

