-- ==== Sys2Proof/Machine/Partners.lean ====
section
/-! DEFINITION. Partners: admission, caps, violations and the partner table (R384 to R391). -/

namespace Sys2Proof.Machine

/-! ## Caps (R388, R389) -/

/-- Default frame and byte caps of a kind, and of an SV subscription by its stream. -/
def defaultCaps (kind : Nat) (s : SvSub) : Rat × Rat :=
  match kind with
  | 0 => let f : Rat := 5 / 4 * (s.rate : Rat) / (max s.noAsdu 1 : Nat)
         (f, f * 1024)
  | 1 => (500, 761000)
  | 2 => (32, 8192)
  | 3 => (16, 2048)
  | _ => (200, 300000)

/-- The frame and byte caps of a kind under the caps that its subscription or rule sets. -/
def capsOf (kind : Nat) (caps : Caps) (sub : SvSub) : Rat × Rat :=
  let d := defaultCaps kind sub
  let f : Rat := match caps.frames with | some x => (x : Rat) | none => d.1
  (f, match caps.bytes with
    | some x => (x : Rat)
    | none => if kind = 0 then f * 1024 else d.2)

/-- A new entry with its caps; both buckets are full. -/
def newPartner (kind lane key : Nat) (pinned : Bool) (caps : Caps) (sub : SvSub) (now : Nat) : Partner :=
  let (f, b) := capsOf kind caps sub
  { kind := kind, pinned := pinned, lane := lane, key := key, capFrames := f, capBytes := b
    capOut := caps.outstanding.getD 4, ftok := maxQ 4 (f / 10), btok := maxQ 6088 (b / 10), tokAt := now, lastAt := now }

/-- The buckets refilled to `now`. -/
def Partner.refill (p : Partner) (now : Nat) : Partner :=
  let dt : Rat := ((now : Rat) - p.tokAt) / 1200000000
  { p with
    ftok := minQ (maxQ 4 (p.capFrames / 10)) (p.ftok + p.capFrames * dt)
    btok := minQ (maxQ 6088 (p.capBytes / 10)) (p.btok + p.capBytes * dt)
    tokAt := now }

/-! ## The table (R386) -/

def State.partner (s : State) (n : Nat) : Partner := Tab.get s.partners {} n
def State.updPartner (s : State) (n : Nat) (f : Partner → Partner) : State :=
  { s with partners := Tab.upd s.partners {} n f }

/-- PT_STAT.USED follows the table. -/
def State.syncUsed (s : State) : State := s.setF F.PT_STAT_USED 0 s.partners.length

/-- The entry of an identity. -/
def State.findPartner (s : State) (kind lane key : Nat) : Option Nat :=
  (s.partners.find? (fun p => p.2.kind == kind && p.2.lane == lane && p.2.key == key)).map Prod.fst

/-- The pinned entries that the image asks for: kind, lane, key, caps, stream, and the identity words. -/
def Image.pinned (m : Image) : List (Nat × Nat × Nat × Caps × SvSub × Nat × Nat) :=
  m.svSubs.map (fun p => (0, p.2.lane, p.1, p.2.caps, p.2, p.2.appid, p.2.srcMac.getD 0 % 2 ^ 32)) ++
  m.goSubs.map (fun p => (1, p.2.lane, p.1, p.2.caps, ({} : SvSub), p.2.appid, p.2.srcMac.getD 0 % 2 ^ 32)) ++
  (m.lanes.filter (fun p => p.2.mode.eth && p.2.ptpTb.isSome)).map (fun p => (3, p.1, p.1, ({} : Caps), ({} : SvSub), 0, 0))

/-- Every pinned entry that is still missing is created where an entry is free (R386). -/
def State.createPinned (s : State) : State :=
  (s.img.pinned.foldl (fun s x =>
    let (kind, lane, key, caps, sub, id0, id1) := x
    if (s.findPartner kind lane key).isSome then s
    else match Tab.freeKey s.partners 4096 with
      | some n => { s with partners := Tab.set s.partners n { newPartner kind lane key true caps sub s.now with id0 := id0, id1 := id1 } }
      | none => s) s).syncUsed

/-- An entry is freed; pinned entries that wait for one come first (R386). -/
def State.freePartner (s : State) (n : Nat) : State := ({ s with partners := Tab.del s.partners n }).createPinned

/-! ## Answers to frames that break the rules (R391) -/

def mac6 (m : Nat) : List Nat := beBytes 6 m

/-- A frame that is not admitted. -/
def State.unadmitted (s : State) (lane kind mac : Nat) : State :=
  (((s.incF F.PT_UNADM_UNADM).setF F.PT_STAT_UNADMEVT 0 1).setF F.PT_STAT_VIOLEVT 0 1).event 0x0E01 0xFFFF lane .none
    (kind :: mac6 mac)

/-- A frame that finds the table full (R386). -/
def State.tableFull (s : State) (lane kind mac : Nat) : State :=
  ((s.incF F.PT_UNADM_UNADM).setF F.PT_STAT_FULL 0 1).event 0x0E04 0xFFFF lane .none (kind :: mac6 mac)

/-- A protocol violation of an admitted partner; `row` is its row of the table of R391. -/
def State.violation (s : State) (n lane row : Nat) : State :=
  let k := (s.partner n).kind
  ((s.updPartner n (fun p => { p with viol := min (p.viol + 1) 65535 })).setF F.PT_STAT_VIOLEVT 0 1).event 0x0E03 n lane .none
    [k, row]

/-- The caps of an entry (R389): a frame of `len` bytes takes its tokens, or is discarded and counted. -/
def State.takeCaps (s : State) (n lane len : Nat) : Bool × State :=
  let p := (s.partner n).refill s.now
  if p.ftok < 1 ∨ p.btok < len then
    let s := s.updPartner n (fun _ => { p with capDrop := min (p.capDrop + 1) 65535, lastAt := s.now })
    (false, (s.setF F.PT_STAT_CAPEVT 0 1).event 0x0E02 n lane .none [if p.ftok < 1 then 0 else 1])
  else (true, s.updPartner n (fun _ => { p with ftok := p.ftok - 1, btok := p.btok - len, lastAt := s.now }))

/-! ## Judging a frame (R390) -/

/-- The lane delivers frames (R260, R276). -/
def State.ethRx (s : State) (lane : Nat) : Bool := (s.img.lane lane).mode.eth && s.flag F.LN_STAT_UP lane

/-- The PCS captures the counters of the four time bases at the timestamp point of a received frame (R280; log entry 171). -/
def State.captureRx (s : State) (lane : Nat) : State :=
  if s.ethRx lane then s.updLane lane (fun l => { l with rxStamps := (List.range 4).map s.tbNs }) else s

/-- Step 1: the length (R266); a frame outside it is discarded and counted. -/
def frameLenOk (len : Nat) : Bool := decide (64 ≤ len) && decide (len ≤ 1522)

/-- Step 3 for a pinned kind: the subscription has its entry, and the sender is the one that it names (R385, R386). -/
def State.admitsPinned (s : State) (lane kind key : Nat) (src : Option Nat) (snd : Sender) : Bool :=
  (s.findPartner kind lane key).isSome && (src.isNone || src == some snd.mac)

/-- Steps 1, 3 and 4 for a pinned kind: the entry of the subscription, its source MAC and its caps. -/
def State.judgePinned (s : State) (lane kind key : Nat) (src : Option Nat) (snd : Sender) : Option Nat × State :=
  match s.findPartner kind lane key with
  | none => (none, s.unadmitted lane kind snd.mac)
  | some n =>
    if src.isSome && src != some snd.mac then (none, s.unadmitted lane kind snd.mac)
    else
      let s := if kind = 3 then s else s.updPartner n (fun p => { p with id1 := snd.mac % 2 ^ 32 })
      match s.takeCaps n lane snd.len with
      | (true, s) => (some n, s)
      | (false, s) => (none, s)

/-- The rule matches an identity: clockIdentity of a PTP clock, IPv4 address of a management client (R387). -/
def AllowRule.matches (r : AllowRule) (mgmt : Bool) (lane id : Nat) : Bool :=
  r.mgmt == mgmt && (match r.lanes with | some l => l.contains lane | none => true) &&
  (match r.key with
   | none => true
   | some k => if mgmt then id / 2 ^ (32 - r.prefixLen) == k / 2 ^ (32 - r.prefixLen) else id == k)

/-- The first rule that matches, with its index. -/
def Image.ruleFor (m : Image) (mgmt : Bool) (lane id : Nat) : Option (Nat × AllowRule) :=
  ((List.range m.rules.length).zip m.rules).find? (fun p => p.2.matches mgmt lane id)

/-- Admission by rule (R387): an image that turns PTP on without a PTP rule admits every clock. -/
def Image.admits (m : Image) (mgmt : Bool) (lane id : Nat) : Option (Nat × AllowRule) :=
  match m.ruleFor mgmt lane id with
  | some r => some r
  | none => if !mgmt && m.rules.all (fun r => r.mgmt) then some (0x1FF, { mgmt := false }) else none

/-- A dynamic entry as the rule that matches the present frame has it: rule, privileges and caps (R387, R388). -/
def Partner.under (p : Partner) (ix : Nat) (r : AllowRule) : Partner :=
  let (f, b) := capsOf p.kind r.caps {}
  { p with rule := ix, priv := if p.kind = 4 then r.priv else 0, capFrames := f, capBytes := b, capOut := r.caps.outstanding.getD 4 }

/-- Steps 3 and 4 for a dynamic kind: the first admitted frame of an identity creates its entry (R386), and each later one is judged
under the first rule that matches it (R387). -/
def State.judgeDynamic (s : State) (lane kind id key id0 id1 : Nat) (snd : Sender) : Option Nat × State :=
  match s.img.admits (kind == 4) lane id with
  | none => (none, s.unadmitted lane kind snd.mac)
  | some (ix, r) =>
    let found := match s.findPartner kind lane key with
      | some n => some (n, s.updPartner n (fun p => p.under ix r))
      | none => (Tab.freeKey s.partners 4096).map (fun n =>
          (n, ({ s with partners := Tab.set s.partners n { (newPartner kind lane key false r.caps {} s.now).under ix r with
              id0 := id0, id1 := id1 } } : State).syncUsed))
    match found with
    | none => (none, s.tableFull lane kind snd.mac)
    | some (n, s) => match s.takeCaps n lane snd.len with
      | (true, s) => (some n, s)
      | (false, s) => (none, s)

/-- REQIDs of the outstanding requests of an entry: those whose responses have not left (R395). -/
def State.outstanding (s : State) (n : Nat) : List Nat :=
  (s.lane (s.partner n).lane).ethQ.filterMap (fun f => f.mgmt.bind (fun r => if r.1 = n then some r.2 else none))

/-! ## Commands -/

/-- DYNAMIC_ENTRY_EXPIRY (R386): 60 s without an admitted frame, and no request outstanding. -/
def execDynamicEntryExpiry (n : Nat) (s : State) : Host.Outcome State Fault Refusal :=
  .next (match Tab.find s.partners n with
    | some p => if p.pinned || !(s.outstanding n).isEmpty then s else (s.advanceTo (p.lastAt + 60000 * msClk)).freePartner n
    | none => s)

/-- FRAME_OF_NO_KIND (R266, R268, R390): a frame that a lane check discards, or one that no kind takes. -/
def execFrameOfNoKind (lane : Nat) (laneFault : Bool) (len : Nat) (s : State) : Host.Outcome State Fault Refusal :=
  .next (
    if s.ethRx lane then
      let s := s.captureRx lane
      if laneFault || !frameLenOk len then s.incF F.LN_FRMCNT_RXDISC lane else s.incF F.PT_UNADM_OTHER
    else if s.laneMode lane = 2 ∧ s.flag F.LN_STAT_UP lane then
      if laneFault then s.incF F.LN_FRMCNT_RXDISC lane else s.incF F.LN_LINKCNT_INVAL lane
    else s)

end Sys2Proof.Machine
end

