-- ==== Sys2Proof/Machine/EventLog.lean ====
section
/-! DEFINITION. The event NVM, the writing of records, freeze, erase and the RTC (R334 to R353). -/

namespace Sys2Proof.Machine

/-- Record 0x0004 with the events not logged, put before the queued records (R345, R350). -/
def State.recNotLogged (s : State) : EvRec :=
  let l := s.log
  s.mkRec 4 0xFFFF 0xFFFF 0xFFFFFFFF (le4 (l.lostFreeze + l.lostHold) ++ le4 l.lostQueue ++ le2 l.firstCode ++ le2 l.lastCode)

def LogSt.clearLost (l : LogSt) : LogSt := { l with lostFreeze := 0, lostQueue := 0, lostHold := 0, firstCode := 0, lastCode := 0 }

/-- The slot after a committed one: the next place, or the first of the next sector that is erased. -/
def State.nextSlot (s : State) : State :=
  if s.log.slot % 64 = 63 then
    match s.nextSector (s.log.slot / 64) with
    | some y => s.updLog (fun l => { l with slot := 64 * y + 1, ahead := l.ahead - 1 })
    | none => s
  else s.updLog (fun l => { l with slot := l.slot + 1 })

/-- A committed record: EL_HEAD, EL_FIRST, the reader's index, its run's slot and REPEAT, the next slot (R344, R348). -/
def State.committed (s : State) (r : EvRec) (slot seq : Nat) : State :=
  let s := s.setF F.EL_HEAD_HEAD 0 seq
  let s := if s.getF F.EL_FIRST_FIRST = 0 then s.setF F.EL_FIRST_FIRST 0 seq else s
  let s := s.updLog (fun l => { l with index := (slot, seq) :: l.index, writing := none })
  let s := if r.repeat_ = 0 then s else s.evProgram (64 * slot + 60) (leBytes 3 (0xFFFFFF - r.repeat_))
  let s := match Tab.find s.log.flood r.code with
    | some x => if x.open_ ∧ r.run ≠ 0 ∧ x.run = r.run then
        s.updLog (fun l => { l with flood := Tab.set l.flood r.code { x with slot := some slot } }) else s
    | none => s
  if r.code = 7 then
    (s.setF F.EL_STAT_FULL 0 1).incF F.EL_FULLCNT_COUNT 0 s.log.queue.length |>.updLog (fun l => { l with queue := [] })
  else
    let s := s.nextSlot
    let s := if s.log.lostQueue ≠ 0 ∧ ¬ s.flag F.EL_STAT_FROZEN ∧ ¬ s.flag F.EL_STAT_HOLD ∧ s.log.queue.length < 1024 then
        s.updLog (fun l => { l.clearLost with queue := l.queue ++ [s.recNotLogged] }) else s
    s.syncCap

/-- A failed read-back: the slot voided, the sector retired, the record rewritten in the next sector, record 0x0009
(R353). -/
def State.retireSector (s : State) (r : EvRec) (slot seq : Nat) : State :=
  let sector := slot / 64
  let s := (s.evProgram (64 * slot + 63) [0]).evProgram (4096 * sector + 12) [0]
  let s := (s.incF F.EL_WEAR_VERIFY).setF F.EL_STAT_RETEVT 0 1
  let s := s.updLog (fun l => { l with retired := l.retired ++ [sector] })
  let s := s.event 9 0xFFFF 0xFFFF .none (le4 sector ++ le4 s.log.retired.length)
  match s.nextSector sector with
  | some y =>
    let s := s.updLog (fun l => { l with slot := 64 * y + 1, ahead := l.ahead - 1 })
    if s.waitsErase then (s.updLog (fun l => { l with writing := none, queue := r :: l.queue })).syncCap
    else ((s.updLog (fun l => { l with writing := some (r, 64 * y + 1, 0) })).openSector seq).syncCap
  | none => ((s.setF F.EL_STAT_FULL 0 1).incF F.EL_FULLCNT_COUNT 0 (1 + s.log.queue.length)).updLog
      (fun l => { l with writing := none, queue := [] }) |>.syncCap

/-- A program of `us` microseconds is timed; the wear warning at 1,000 slow ones (R353). -/
def State.timeProgram (s : State) (us : Nat) : State :=
  if us ≤ s.img.slowUs then s
  else
    let s := (s.incF F.EL_WEAR_SLOW).updLog (fun l => { l with slowTotal := l.slowTotal + 1 })
    if s.log.slowTotal = 1000 then (s.setF F.EL_STAT_WEAR 0 1).event 8 0xFFFF 0xFFFF .none (le4 1000) else s

/-- The page programs since the latest stage are timed: this stage's and those of headers, REPEAT fields, voids, the calibration and
save areas and the NVM registers (R353; log entry 173). -/
def State.timePrograms (s : State) (us : List Nat) : State :=
  let n := s.log.programs
  (us.take n).foldl (fun s t => s.timeProgram t) (s.updLog (fun l => { l with programs := 0 }))

/-- A stage of the record being written ends (R344). -/
def State.stageDone (s : State) (ok : Bool) (us : List Nat) : State :=
  match s.log.writing with
  | none => s
  | some (r, slot, stage) =>
    let seq := s.getF F.EL_HEAD_HEAD + 1
    let body := recBytes r seq (s.getF F.EL_PWRCNT_PCC)
    let s := match stage with
      | 0 => s.evProgram (64 * slot) body
      | 1 => s.evProgram (64 * slot + 56) (le4 (crcOf crc32c body))
      | _ => s.evProgram (64 * slot + 63) [0xA5]
    let s := s.timePrograms us
    if !ok then s.retireSector r slot seq
    else if stage < 2 then s.updLog (fun l => { l with writing := some (r, slot, stage + 1) })
    else (s.committed r slot seq).startWrite

/-- LOG_STAGE_COMPLETE: `readBackOk` and `us` are what the NVM does: the times in µs of its page programs since the latest stage. -/
def execLogStageComplete (ok : Bool) (us : List Nat) (s : State) : Host.Outcome State Fault Refusal := .next (s.stageDone ok us)

/-- The sector that a background erase takes next: the one that the next record waits for, or the one behind those erased
ahead (R352). -/
def State.eraseTarget (s : State) : Option Nat :=
  if s.waitsErase then some (s.log.slot / 64)
  else (List.range (s.log.ahead + 1)).foldl (fun o _ => o.bind s.nextSector) (some (s.log.slot / 64))

/-- A background erase ends: the sector is erased and its erase count written (R352). -/
def State.sectorErased (s : State) : State :=
  if !s.flag F.EL_STAT_READY then s else
    match s.eraseTarget with
    | none => s
    | some y =>
      let old := leNat (s.evRead (4096 * y + 4) 4)
      let n := if old = 0xFFFFFFFF then 1 else old + 1
      let waited := s.waitsErase
      let s := (s.evErase y).evProgram (4096 * y + 4) (le4 n)
      if waited then s.startWrite else s.updLog (fun l => { l with ahead := l.ahead + 1 })

def execSectorEraseComplete (s : State) : Host.Outcome State Fault Refusal := .next s.sectorErased

/-- Log writes are stopped by the warning or a freeze (R345, R350). -/
def State.logHeld (s : State) : Bool := s.flag F.EL_STAT_HOLD || s.flag F.EL_STAT_FROZEN

/-- The repeat window of a code passes with no occurrence (R348); while log writes are stopped the run's REPEAT waits. -/
def execRepeatWindowExpiry (code : Nat) (s : State) : Host.Outcome State Fault Refusal :=
  .next (match s.floodMode code, Tab.find s.log.flood code with
    | .rep w, some x =>
      if x.open_ then
        let s := s.advanceTo (x.lastAt + w * msClk)
        if s.logHeld then s else s.closeRun code
      else s
    | _, _ => s)

/-- The runs whose window passed while log writes were stopped close (R345, R348, R350). -/
def State.closeLapsed (s : State) : State :=
  s.log.flood.foldl (fun s p => match s.floodMode p.1 with
    | .rep w => if p.2.open_ && decide (p.2.lastAt + w * msClk < s.now) && !s.logHeld then s.closeRun p.1 else s
    | _ => s) s

/-- In normal service the operating time passes a multiple of 60,000 ms (R343). -/
def State.correlate (s : State) : State :=
  if !s.flag F.EL_STAT_READY then s else
    let n := s.opTime / 60000
    let n := if n ≤ s.log.corr then n + 1 else n
    let due := s.dev.startAt + (n * 60000 - s.log.opBase) * msClk
    let s := (s.advanceTo due).updLog (fun l => { l with corr := n })
    if s.calendar then s
    else
      let t := s.extNs 0
      (s.event 6 0xFFFF 0xFFFF .none (leBytes 6 (t / 1000000000) ++ le4 (t % 1000000000) ++ [s.getF F.TB_STAT_LOCK 0] ++
        leBytes 6 s.rtcMs ++ [b2n s.log.rtcValid]))

def execCorrelationRecord (s : State) : Host.Outcome State Fault Refusal := .next s.correlate

/-- FREEZE (R350): the record in progress completes, no other starts; a freeze while frozen does not extend it. -/
def State.freeze (s : State) : State :=
  if s.flag F.EL_STAT_FROZEN then s else (s.setF F.EL_STAT_FROZEN 0 1).updLog (fun l => { l with frozenAt := s.now })

def execFreeze (s : State) : Host.Outcome State Fault Refusal := .next s.freeze

/-- THAW, or the 10 s after the freeze: record 0x0004, then the queued records (R350); after a warning the record waits for its
end, which writes the counts of both (R345). -/
def State.thaw (s : State) : State :=
  if !s.flag F.EL_STAT_FROZEN then s
  else
    let s := s.setF F.EL_STAT_FROZEN 0 0
    let r := s.recNotLogged
    if s.flag F.EL_STAT_FULL || s.flag F.EL_STAT_HOLD || !s.log.present then s
    else (s.updLog (fun l => { l.clearLost with queue := r :: l.queue })).closeLapsed.startWrite

def execThaw (s : State) : Host.Outcome State Fault Refusal := .next s.thaw

def execFreezeExpiry (s : State) : Host.Outcome State Fault Refusal :=
  .next (if s.flag F.EL_STAT_FROZEN then (s.advanceTo (s.log.frozenAt + 10000 * msClk)).thaw else s)

/-- ERASEARM arms an erase for 1 s (R351). -/
def execErasearm (s : State) : Host.Outcome State Fault Refusal := .next (s.updLog (fun l => { l with armedAt := some s.now }))

/-- The log erased: the generation rises, the log restarts at sector 16, record 0x0005 (R351, R352). -/
def State.eraseLog (s : State) : State :=
  let first := s.getF F.EL_HEAD_HEAD + 1
  let sector := if s.log.retired.contains 16 then (s.nextSector 16).getD 16 else 16
  let back := match s.log.writing with | some (r, _) => [r] | none => []
  let old := leNat (s.evRead (4096 * sector + 4) 4)
  let s := (s.evErase sector).evProgram (4096 * sector + 4) (le4 (if old = 0xFFFFFFFF then 1 else old + 1))
  let s := (((s.setF F.EL_STAT_FULL 0 0).setF F.EL_STAT_WEAR 0 0).setF F.EL_FULLCNT_COUNT 0 0).setF F.EL_FIRST_FIRST 0 first
  let r := s.mkRec 5 0xFFFF 0xFFFF 0xFFFFFFFF (le4 first)
  let flood := s.log.flood.map (fun p => (p.1, { p.2 with slot := none }))
  let s := s.updLog (fun l => { l with gen := l.gen + 1, slot := 64 * sector + 1, ahead := 0, index := [], writing := none })
  let s := s.updLog (fun l => { l with queue := r :: back ++ l.queue, slowTotal := 0, armedAt := none, flood := flood })
  s.syncCap.startWrite

/-- ERASE acts while armed (R351). -/
def State.eraseCmd (s : State) : State :=
  match s.log.armedAt with
  | some t => if s.now ≤ t + 1000 * msClk ∧ s.flag F.EL_STAT_READY then s.eraseLog else s.updLog (fun l => { l with armedAt := none })
  | none => s

def execErase (s : State) : Host.Outcome State Fault Refusal := .next s.eraseCmd

/-- The arming lapses after 1 s. -/
def execEraseArmExpiry (s : State) : Host.Outcome State Fault Refusal :=
  .next (match s.log.armedAt with
    | some t => (s.advanceTo (t + 1000 * msClk)).updLog (fun l => { l with armedAt := none })
    | none => s)

/-! ## Clocks of the log -/

/-- A read of EL_RTCL latches the high bits into EL_RTCH (R342). -/
def execRtclRead (s : State) : Host.Outcome State Fault Refusal := .next (s.setF F.EL_RTCH_RTCH 0 (s.rtcMs / 2 ^ 32))

/-- A write of EL_RTCL is held (R342). -/
def execRtclWrite (w : Word) (s : State) : Host.Outcome State Fault Refusal :=
  .next (s.updLog (fun l => { l with rtcHeld := w.toNat }))

/-- The RTC set to a time from a source, with record 0x000A (R342). -/
def State.setRtc (s : State) (ms source : Nat) : State :=
  let old := s.rtcMs
  let was := s.log.rtcValid
  let s := (s.updLog (fun l => { l with rtc := ms % 2 ^ 48, rtcAt := s.now, rtcValid := true, vbatLost := false })).setF
    F.EL_STAT_RTCVALID 0 1
  (s.event 0xA 0xFFFF 0xFFFF .none (leBytes 6 old ++ [b2n was, source]))

/-- A write of EL_RTCH sets the RTC (R342). -/
def execRtchWrite (w : Word) (s : State) : Host.Outcome State Fault Refusal :=
  .next (s.setRtc (w.toNat % 2 ^ 16 * 2 ^ 32 + s.log.rtcHeld) 0)

/-- A read of EL_OPTL latches EL_OPTH (R4). -/
def execOptlRead (s : State) : Host.Outcome State Fault Refusal := .next (s.setF F.EL_OPTH_OPTH 0 (s.opTime / 2 ^ 32))

/-! ## Reading records -/

/-- The commit byte of a slot (R338). -/
def State.commitByte (s : State) (slot : Nat) : Nat := leNat (s.evRead (64 * slot + 63) 1)

/-- The slot of a committed record of the present generation; one voided or erased since is not delivered (R347, R349). -/
def State.slotOf (s : State) (seq : Nat) : Option Nat :=
  ((s.log.index.find? (fun p => p.2 == seq)).map Prod.fst).filter (fun slot => s.commitByte slot == 0xA5)

/-- A committed record whose CRC does not match (R347). -/
def State.suspect (s : State) (slot : Nat) : Bool :=
  let b := s.slotBytes slot
  crcOf crc32c (b.take 56) != leNat ((b.drop 56).take 4)

/-- EL_RDSTAT.STATE of a sequence number: absent, committed, suspect. -/
def State.readState (s : State) (seq : Nat) : Nat :=
  match s.slotOf seq with
  | some slot => if s.suspect slot then 2 else 1
  | none => 0

/-- The reading of a record: a suspect one is recorded the first time, for up to 64 records, then counted (R347). -/
def State.noteRead (s : State) (seq : Nat) : State :=
  if s.readState seq = 2 ∧ ¬ s.log.suspects.contains seq then
    let s := s.setF F.EL_STAT_SUSPEVT 0 1
    let s := if s.log.suspects.length < 64 then (s.event 3 0xFFFF 0xFFFF .none (le4 seq))
      else s.incF F.EL_RDSTAT_SUSPCNT
    s.updLog (fun l => { l with suspects := l.suspects ++ [seq] })
  else s

end Sys2Proof.Machine
end

