-- ==== Sys2Proof/Machine/Operands.lean ====
section
/-! DEFINITION. The operands of logic instructions (R211 to R215): bits and values of signals and local variables. -/

namespace Sys2Proof.Machine

/-- The first signal of core `k` and the bound of its 1,024 signals (R206). -/
def coreBase (k : Nat) : Nat := 126976 + 1024 * k

/-- The initial value of a variable: the image's, else 0, good (R222). -/
def CoreCfg.initVar (c : CoreCfg) (v : Nat) : Entry := Tab.get c.initVars (Entry.mk' 0 Quality.ok) v

/-- The initial value of a logic signal, by its number within the core. -/
def CoreCfg.initSig (c : CoreCfg) (v : Nat) : Entry := Tab.get c.initSigs (Entry.mk' 0 Quality.ok) v

/-- The CRC-32C of a core's program block, as the directory has it (R224, R369). -/
def Image.progCrc (m : Image) (k : Nat) : Nat := ((m.dir.find? (fun d => d.type == 7 && d.index == k)).map (fun d => d.crc)).getD 0

def State.coreCfg (s : State) (k : Nat) : CoreCfg := Tab.get s.img.cores {} k

/-- A local variable: as written since the restart, else its initial value. -/
def State.coreVar (s : State) (k v : Nat) : Entry := Tab.get (s.core k).vars ((s.coreCfg k).initVar v) v

/-- The entry that the operand addresses: a variable; a signal as forced, as written in this scan, or as it stands
(R211, R226). -/
def State.opEntry (s : State) (k : Nat) (x : SOp) : Entry :=
  if x.sp then s.coreVar k x.addr
  else if s.forcedSig x.addr then s.sig x.addr
  else Tab.get (s.core k).writes (s.sig x.addr) x.addr

/-- The entry that a write of one bit rewrites: what this core last left there, beneath a force (R214, R226). -/
def State.opBelow (s : State) (k : Nat) (x : SOp) : Entry :=
  if x.sp then s.coreVar k x.addr else Tab.get (s.core k).writes (s.sigBelow x.addr) x.addr

/-- The operand bit, inverted where N is 1 (R214). -/
def State.opBit (s : State) (k : Nat) (x : SOp) : Bool := Bool.xor ((s.opEntry k x).bit x.bit) x.n

/-- The quality of the operand bit: the entry's for bits 0 to 23, good for bits 24 to 31 (R215). -/
def State.opQual (s : State) (k : Nat) (x : SOp) : Quality :=
  if x.bit < 24 then (s.opEntry k x).q else Quality.ok

/-- VALUE as a two's complement number of 24 bits (R205). -/
def Entry.int (e : Entry) : Int := sext 24 e.value.toNat

/-- A write of an operand: into the variables, or into the writes of the scan for a signal of the core itself; a write
of any other signal has no effect (R210). -/
def State.opWrite (s : State) (k : Nat) (x : SOp) (e : Entry) : State :=
  if x.sp then s.updCore k (fun c => { c with vars := Tab.set c.vars x.addr { e with forced := false } })
  else if coreBase k ≤ x.addr ∧ x.addr < coreBase (k + 1) then
    s.updCore k (fun c => { c with writes := Tab.set c.writes x.addr { e with forced := false } })
  else s

/-- The operand with one VALUE bit written and the quality stored; a bit from 24 to 31 may be read only (R213, R219). -/
def State.opPut (s : State) (k : Nat) (x : SOp) (b : Bool) (q : Quality) : State :=
  if 24 ≤ x.bit then s
  else s.opWrite k x ⟨q, false, BitVec.ofNat 24 (setBit (s.opBelow k x).value.toNat x.bit b)⟩

/-- An integer saturated at 32 bits, and at 24 bits (R214). -/
def sat32 (x : Int) : Int := clampInt (-2147483648) 2147483647 x
def sat24 (x : Int) : Int := clampInt (-8388608) 8388607 x

end Sys2Proof.Machine
end

