-- ==== Sys2Proof/Machine/Logic.lean ====
section
/-! DEFINITION. The instructions of the scheme logic cores and their scans (R205 to R224). -/

namespace Sys2Proof.Machine

/-- The core executes instructions: it is STARTING, ON or STOPPING (R220, R363). -/
def State.scanning (s : State) (k : Nat) : Bool := decide (k < 4) && s.getF F.LC_STAT_STATE k != 0

/-- One instruction of a core that scans: its effect, then the next instruction. -/
def State.instr (s : State) (k : Nat) (f : State → State) : State :=
  if s.scanning k then (f s).updCore k (fun c => { c with pc := c.pc + 1 }) else s

/-- B and its quality written. -/
def State.setB (s : State) (k : Nat) (b : Bool) (q : Quality) : State := s.updCore k (fun c => { c with b := b, bq := q })

/-- A and its quality written. -/
def State.setA (s : State) (k : Nat) (a : Int) (q : Quality) : State := s.updCore k (fun c => { c with a := a, aq := q })

/-- B combined with the operand bit by `f` (R214, R215). -/
def State.boolOp (s : State) (k : Nat) (x : SOp) (f : Bool → Bool → Bool) : State :=
  s.setB k (f (s.core k).b (s.opBit k x)) ((s.core k).bq.join (s.opQual k x))

/-- A combined with the operand's VALUE by `f`, saturated at 32 bits (R214, R215). -/
def State.numOp (s : State) (k : Nat) (x : SOp) (f : Int → Int → Int) : State :=
  s.setA k (sat32 (f (s.core k).a (s.opEntry k x).int)) ((s.core k).aq.join (s.opEntry k x).q)

/-- B popped against the stack by `f`; an empty stack pops 0 with invalid quality and sets STK (R218). -/
def State.popOp (s : State) (k : Nat) (f : Bool → Bool → Bool) : State :=
  let c := s.core k
  match c.stack with
  | (b, q) :: r => s.updCore k (fun c => { c with stack := r, b := f b c.b, bq := q.join c.bq })
  | [] => (s.updCore k (fun c => { c with b := f false c.b, bq := Quality.bad.join c.bq })).setF F.LC_STAT_STK k 1

/-- The program counter moved by a forward jump (R213). -/
def State.jumpTo (s : State) (k off : Nat) : State :=
  if s.scanning k then s.updCore k (fun c => { c with pc := c.pc + off }) else s

/-! ## Timers and counters -/

/-- What a timer does at one execution: input, Δ, preset give the new timer and B (R216). -/
inductive TimerKind where
  | ton | tof | tp
deriving DecidableEq, Repr

def TimerSt.exec (x : TimerSt) (kind : TimerKind) (inp : Bool) (d preset : Int) : TimerSt × Bool :=
  let rises := inp && !x.inp
  match kind with
  | .ton =>
    let e := if inp && !rises then min (x.e + d) preset else 0
    ({ x with e := e, inp := inp }, inp && decide (preset ≤ e))
  | .tof =>
    let e := if inp then 0 else min (x.e + d) preset
    ({ x with e := e, inp := inp }, inp || decide (e < preset))
  | .tp =>
    let e := if x.running then x.e + d else if rises then 0 else x.e
    let run := (x.running || rises) && decide (e < preset)
    ({ x with e := e, inp := inp, running := run }, run)

/-- The whole ticks of the angle of the core's angle section, 0 while its grid is not running (R216). -/
def State.coreAngle (s : State) (k : Nat) : Int :=
  let a := (s.coreCfg k).asec
  if (s.sec a).running then (s.theta a).floor else 0

/-- Δ since the timer's previous execution: whole µs on the device oscillator, or ticks of the angle section (R216). -/
def State.timerDelta (s : State) (k : Nat) (x : TimerSt) (ticks : Bool) : Int :=
  if x.fresh then 0
  else if ticks then (if (s.sec (s.coreCfg k).asec).running then s.coreAngle k - x.angle else 0)
  else ((s.now / usClk : Nat) : Int) - (x.at_ / usClk : Nat)

/-- A timer instruction (R214 to R216). -/
def State.timerOp (s : State) (k t : Nat) (kind : TimerKind) (ticks : Bool) : State :=
  let c := s.core k
  let x := Tab.get c.timers {} t
  let (y, b) := x.exec kind c.b (s.timerDelta k x ticks) (max c.a 0)
  (s.updCore k (fun c => { c with timers := Tab.set c.timers t { y with at_ := s.now, angle := s.coreAngle k, fresh := false } })).setB
    k b (c.bq.join c.aq)

/-- A counter instruction: the count moves on a rise of B, B is the comparison with A (R217). -/
def State.counterOp (s : State) (k i : Nat) (up : Bool) : State :=
  let c := s.core k
  let x := Tab.get c.ctrs {} i
  let n := if c.b && !x.inp then (if up then min (x.n + 1) 2147483647 else max (x.n - 1) 0) else x.n
  (s.updCore k (fun c => { c with ctrs := Tab.set c.ctrs i { n := n, inp := c.b } })).setB k
    (if up then decide (c.a ≤ n) else decide (n ≤ c.a)) (c.bq.join c.aq)

/-! ## Scans and restarts -/

/-- A scan starts: empty stack, B = 0 and A = 0, both good (R218). -/
def CoreSt.newScan (c : CoreSt) (now : Nat) : CoreSt :=
  { c with pc := 0, b := false, bq := Quality.ok, a := 0, aq := Quality.ok, stack := [], writes := [], scanAt := now,
           overrun := false }

/-- Validity invalid added. -/
def Entry.invalidate (e : Entry) : Entry := { e with q := { e.q with validity := .invalid } }

/-- The listed signals of a core. -/
def State.coreSigIds (s : State) (k : Nat) : List Nat :=
  ((Tab.keys s.sigs ++ Tab.keys s.hidden).filter (fun id => decide (coreBase k ≤ id) && decide (id < coreBase (k + 1)))).eraseDups

/-- A core's signals keep their values with invalid (R223). -/
def State.invalidateCore (s : State) (k : Nat) : State :=
  (s.coreSigIds k).foldl (fun s id => s.putSig id (s.sigBelow id).invalidate) s

/-- The core's memory at a restart: variables, counters, timers, stack (R223). -/
def CoreSt.restart (c : CoreSt) (g : CoreCfg) (warm : Bool) (now : Nat) : CoreSt :=
  ({ c with vars := if warm then c.vars.filter (fun (p : Nat × Entry) => decide (p.1 < g.nv)) else []
            ctrs := if warm then (c.ctrs.filter (fun (p : Nat × CtrSt) => decide (p.1 < g.nc))).map (fun (p : Nat × CtrSt) => (p.1, { p.2 with inp := false })) else []
            timers := [], lastInTime := true, pend := 0, pendOn := false }).newScan now

/-- A restart of a core: STARTING with the memory of R223; its signals carry invalid until the first scan ends. -/
def State.restartCore (s : State) (k : Nat) (warm : Bool) : State :=
  let under := if warm then (s.coreSigIds k).map (fun id => (id, s.sigBelow id))
    else (List.range 1024).map (fun i => (coreBase k + i, (s.coreCfg k).initSig i))
  let s := under.foldl (fun s p => s.putSig p.1 p.2.invalidate) s
  ((s.updCore k (fun c => { c.restart (s.coreCfg k) warm s.now with under := under })).setF F.LC_STAT_STATE k 1).setF
    F.LC_STAT_CONSEC k 0

/-- The core has a program (R219). -/
def State.hasProgram (s : State) (k : Nat) : Bool := decide (k < 4) && (Tab.find s.img.cores k).isSome

/-- LC_CTRL.CMD = 1 or 2 (R223, R364); in ON it acts when the current scan has published. -/
def State.coreRestartCmd (s : State) (k : Nat) (warm : Bool) : State :=
  if !s.hasProgram k then s else
    match s.getF F.LC_STAT_STATE k with
    | 0 => s.restartCore k warm
    | 1 => s.updCore k (fun c => { c with pendOff := false })
    | 2 => s.updCore k (fun c => { c with pend := if warm then 1 else 2 })
    | _ => s.updCore k (fun c => { c with pendOn := true, pend := if warm then 1 else 2 })

/-- LC_CTRL.CMD = 3 (R223, R364). -/
def State.coreStopCmd (s : State) (k : Nat) : State :=
  if !decide (k < 4) then s else
    match s.getF F.LC_STAT_STATE k with
    | 0 => s
    | 1 => s.updCore k (fun c => { c with pendOff := true })
    | 2 => (s.updCore k (fun c => { c with pend := 0, pendOn := false })).setF F.LC_STAT_STATE k 3
    | _ => s.updCore k (fun c => { c with pendOn := false })

/-- The scan passes its deadline: OVR, the count, and its writes will carry questionable (R221). -/
def State.overrunCore (s : State) (k : Nat) : State :=
  if (s.core k).overrun then s
  else ((s.setF F.LC_STAT_OVR k 1).incF F.LC_OVRCNT_OVR k).updCore k (fun c => { c with overrun := true })

/-- The scan's writes enter the signal table together, with questionable after an overrun (R211, R221). -/
def State.publishScan (s : State) (k : Nat) : State :=
  let add := Quality.when (s.core k).overrun Quality.quest
  (s.core k).writes.foldl (fun s p => s.putSig p.1 { p.2 with q := p.2.q.join add }) s

/-- The end of the first scan after a restart: the signals that it did not write lose the invalid of R223. -/
def State.firstScanDone (s : State) (k : Nat) : State :=
  ((s.core k).under.foldl (fun s p =>
    if (Tab.find (s.core k).writes p.1).isSome then s else s.putSig p.1 p.2) s).updCore k (fun c => { c with under := [] })

/-- The retained words as they stand at the end of a scan (R224). -/
def CoreSt.keep (c : CoreSt) (g : CoreCfg) : CoreSt :=
  { c with keptVars := (List.range g.nv).map (fun v => (v, Tab.get c.vars (g.initVar v) v))
           keptCtrs := (List.range g.nc).map (fun v => (v, (Tab.get c.ctrs {} v).n)) }

/-- Scan counters and the overrun record, written at the end of the first overrun scan after one in time (R221). -/
def State.scanCounters (s : State) (k : Nat) : State :=
  let c := s.core k
  let us := (s.now - c.scanAt) / usClk
  let s := ((s.setF F.LC_SCAN_LAST k (min us 0xFFFF)).setF F.LC_SCAN_MAX k (max (min us 0xFFFF) (s.getF F.LC_SCAN_MAX k))).bumpF
    F.LC_SCANCNT_SCANS k
  let s := if c.overrun then s.incF F.LC_STAT_CONSEC k else s.setF F.LC_STAT_CONSEC k 0
  let s := if c.overrun && c.lastInTime then s.event 0x0702 k 0xFFFF .none (le4 us) else s
  s.updCore k (fun c => { c with lastInTime := !c.overrun })

/-- The state after a scan's publication: STARTING ends, a waiting restart or stop acts, else the next scan starts
(R220, R223, R364). -/
def State.afterScan (s : State) (k : Nat) : State :=
  let c := s.core k
  match s.getF F.LC_STAT_STATE k with
  | 1 =>
    let s := s.updCore k (fun c => { c.newScan s.now with pendOff := false })
    s.setF F.LC_STAT_STATE k (if c.pendOff then 3 else 2)
  | 2 => if c.pend = 1 then s.restartCore k true else if c.pend = 2 then s.restartCore k false
         else s.updCore k (fun c => c.newScan s.now)
  | 3 => if c.pendOn then s.restartCore k (c.pend == 1)
         else ((s.invalidateCore k).updCore k (fun c => { c.newScan s.now with pend := 0 })).setF F.LC_STAT_STATE k 0
  | _ => s

/-- END: the scan's writes are published, its counters taken, and the core goes on (R211, R220). -/
def State.endScan (s : State) (k : Nat) : State :=
  let c := s.core k
  let s := if !c.overrun && decide ((s.coreCfg k).deadline * 10 * usClk < s.now - c.scanAt) then s.overrunCore k else s
  let s := s.publishScan k
  let s := if s.getF F.LC_STAT_STATE k = 1 then s.firstScanDone k else s
  let s := s.updCore k (fun c => c.keep (s.coreCfg k))
  (((s.scanCounters k).afterScan k)).published

/-! ## The instructions (R214) -/

def execNop (k : Nat) (s : State) : Host.Outcome State Fault Refusal := .next (s.instr k id)

/-- B := x. -/
def execLd (k : Nat) (x : SOp) (s : State) : Host.Outcome State Fault Refusal :=
  .next (s.instr k (fun s => s.setB k (s.opBit k x) (s.opQual k x)))

/-- B := B and x. -/
def execAnd (k : Nat) (x : SOp) (s : State) : Host.Outcome State Fault Refusal := .next (s.instr k (fun s => s.boolOp k x (· && ·)))

/-- B := B or x. -/
def execOr (k : Nat) (x : SOp) (s : State) : Host.Outcome State Fault Refusal := .next (s.instr k (fun s => s.boolOp k x (· || ·)))

/-- B := B xor x. -/
def execXor (k : Nat) (x : SOp) (s : State) : Host.Outcome State Fault Refusal := .next (s.instr k (fun s => s.boolOp k x Bool.xor))

/-- B := not B. -/
def execNot (k : Nat) (s : State) : Host.Outcome State Fault Refusal :=
  .next (s.instr k (fun s => s.setB k (!(s.core k).b) (s.core k).bq))

/-- B pushed; a full stack ignores it and sets STK (R218). -/
def execPush (k : Nat) (s : State) : Host.Outcome State Fault Refusal :=
  .next (s.instr k (fun s =>
    if 8 ≤ (s.core k).stack.length then s.setF F.LC_STAT_STK k 1
    else s.updCore k (fun c => { c with stack := (c.b, c.bq) :: c.stack })))

/-- B := pop and B. -/
def execAndp (k : Nat) (s : State) : Host.Outcome State Fault Refusal := .next (s.instr k (fun s => s.popOp k (· && ·)))

/-- B := pop or B. -/
def execOrp (k : Nat) (s : State) : Host.Outcome State Fault Refusal := .next (s.instr k (fun s => s.popOp k (· || ·)))

/-- mem := B, or not B with N = 1. -/
def execSt (k : Nat) (x : SOp) (s : State) : Host.Outcome State Fault Refusal :=
  .next (s.instr k (fun s => s.opPut k x (Bool.xor (s.core k).b x.n) (s.core k).bq))

/-- If B, mem := 1. -/
def execSet (k : Nat) (x : SOp) (s : State) : Host.Outcome State Fault Refusal :=
  .next (s.instr k (fun s => if (s.core k).b then s.opPut k x true (s.core k).bq else s))

/-- If B, mem := 0. -/
def execRst (k : Nat) (x : SOp) (s : State) : Host.Outcome State Fault Refusal :=
  .next (s.instr k (fun s => if (s.core k).b then s.opPut k x false (s.core k).bq else s))

/-- b := B; B := b and not mem; mem := b. -/
def execRe (k : Nat) (x : SOp) (s : State) : Host.Outcome State Fault Refusal :=
  .next (s.instr k (fun s =>
    let b := (s.core k).b
    let m := (s.opEntry k x).bit x.bit
    (s.opPut k x b (s.core k).bq).setB k (b && !m) (s.core k).bq))

/-- b := B; B := mem and not b; mem := b. -/
def execFe (k : Nat) (x : SOp) (s : State) : Host.Outcome State Fault Refusal :=
  .next (s.instr k (fun s =>
    let b := (s.core k).b
    let m := (s.opEntry k x).bit x.bit
    (s.opPut k x b (s.core k).bq).setB k (m && !b) (s.core k).bq))

/-- On-delay in µs. -/
def execTon (k t : Nat) (s : State) : Host.Outcome State Fault Refusal := .next (s.instr k (fun s => s.timerOp k t .ton false))

/-- Off-delay in µs. -/
def execTof (k t : Nat) (s : State) : Host.Outcome State Fault Refusal := .next (s.instr k (fun s => s.timerOp k t .tof false))

/-- Pulse in µs. -/
def execTp (k t : Nat) (s : State) : Host.Outcome State Fault Refusal := .next (s.instr k (fun s => s.timerOp k t .tp false))

/-- On-delay in ticks. -/
def execTona (k t : Nat) (s : State) : Host.Outcome State Fault Refusal := .next (s.instr k (fun s => s.timerOp k t .ton true))

/-- Off-delay in ticks. -/
def execTofa (k t : Nat) (s : State) : Host.Outcome State Fault Refusal := .next (s.instr k (fun s => s.timerOp k t .tof true))

/-- Count up. -/
def execCtu (k c : Nat) (s : State) : Host.Outcome State Fault Refusal := .next (s.instr k (fun s => s.counterOp k c true))

/-- Count down. -/
def execCtd (k c : Nat) (s : State) : Host.Outcome State Fault Refusal := .next (s.instr k (fun s => s.counterOp k c false))

/-- If B, count := A. -/
def execCrst (k c : Nat) (s : State) : Host.Outcome State Fault Refusal :=
  .next (s.instr k (fun s =>
    if (s.core k).b then s.updCore k (fun x => { x with ctrs := Tab.upd x.ctrs {} c (fun y => { y with n := x.a }) }) else s))

/-- A := elapsed time of the timer, or the count of the counter with N = 1, with good quality (log entry 20). -/
def execLde (k : Nat) (n : Bool) (t : Nat) (s : State) : Host.Outcome State Fault Refusal :=
  .next (s.instr k (fun s =>
    s.setA k (if n then (Tab.get (s.core k).ctrs {} t).n else sat32 (Tab.get (s.core k).timers {} t).e) Quality.ok))

/-- A := VALUE of x. -/
def execLda (k : Nat) (x : SOp) (s : State) : Host.Outcome State Fault Refusal :=
  .next (s.instr k (fun s => s.setA k (s.opEntry k x).int (s.opEntry k x).q))

/-- A := immediate, or immediate × 1,000 with N = 1; saturated, with good quality (log entry 20). -/
def execLdk (k : Nat) (n : Bool) (imm : Int) (s : State) : Host.Outcome State Fault Refusal :=
  .next (s.instr k (fun s => s.setA k (sat32 (if n then imm * 1000 else imm)) Quality.ok))

/-- VALUE of x := A, saturated to 24 bits, with the quality of A. -/
def execSta (k : Nat) (x : SOp) (s : State) : Host.Outcome State Fault Refusal :=
  .next (s.instr k (fun s =>
    s.opWrite k x ⟨(s.core k).aq, false, BitVec.ofNat 24 (unsext 24 (sat24 (s.core k).a))⟩))

/-- A := A + VALUE of x. -/
def execAdd (k : Nat) (x : SOp) (s : State) : Host.Outcome State Fault Refusal := .next (s.instr k (fun s => s.numOp k x (· + ·)))

/-- A := A − VALUE of x. -/
def execSub (k : Nat) (x : SOp) (s : State) : Host.Outcome State Fault Refusal := .next (s.instr k (fun s => s.numOp k x (· - ·)))

/-- The comparison that CC names: EQ, NE, LT, LE, GT, GE (R214). -/
def compareCc (cc : Nat) (a v : Int) : Bool :=
  match cc with
  | 0 => decide (a = v)
  | 1 => decide (a ≠ v)
  | 2 => decide (a < v)
  | 3 => decide (a ≤ v)
  | 4 => decide (a > v)
  | _ => decide (a ≥ v)

/-- B := A op VALUE of x. -/
def execCmp (k : Nat) (x : SOp) (s : State) : Host.Outcome State Fault Refusal :=
  .next (s.instr k (fun s =>
    s.setB k (compareCc x.cc (s.core k).a (s.opEntry k x).int) ((s.core k).aq.join (s.opEntry k x).q)))

/-- Next instruction := this + offset. -/
def execJmp (k off : Nat) (s : State) : Host.Outcome State Fault Refusal := .next (s.jumpTo k off)

/-- Jump as JMP if B = 1, or with N = 1 if B = 0. -/
def execJc (k : Nat) (n : Bool) (off : Nat) (s : State) : Host.Outcome State Fault Refusal :=
  .next (if Bool.xor (s.core k).b n then s.jumpTo k off else s.instr k id)

/-- END of a scan (R211, R220). -/
def execEnd (k : Nat) (s : State) : Host.Outcome State Fault Refusal :=
  .next (if s.scanning k then s.endScan k else s)

/-- A scan passes its deadline (R221): the instant is the start of the scan plus the deadline. -/
def execScanOverrun (k : Nat) (s : State) : Host.Outcome State Fault Refusal :=
  .next (if s.scanning k && !(s.core k).overrun then
      (s.advanceTo ((s.core k).scanAt + (s.coreCfg k).deadline * 10 * usClk)).overrunCore k else s)

/-- LC_CTRL.CMD = 1. -/
def execWarmRestart (k : Nat) (s : State) : Host.Outcome State Fault Refusal := .next (s.coreRestartCmd k true)

/-- LC_CTRL.CMD = 2. -/
def execColdRestart (k : Nat) (s : State) : Host.Outcome State Fault Refusal := .next (s.coreRestartCmd k false)

/-- LC_CTRL.CMD = 3. -/
def execLcStop (k : Nat) (s : State) : Host.Outcome State Fault Refusal := .next (s.coreStopCmd k)

end Sys2Proof.Machine
end

