-- ==== Sys2Proof/Machine/Power.lean ====
section
/-! DEFINITION. Reset and power balls, the event NVM at start and the save set (R335 to R337, R341, R345, R346, R365, R420,
R421). -/

namespace Sys2Proof.Machine

/-! ## The save area (R337) -/

/-- First byte of a save slot (R335). -/
def saveAddr (slot : Nat) : Nat := 4096 * (9 + 2 * slot)

/-- The bytes that the CRC of a set covers. -/
def State.saveBody (s : State) (slot : Nat) : List Nat :=
  s.evRead (saveAddr slot) 24 ++ s.evRead (saveAddr slot + 64) 7232

/-- A set is valid by its commit byte and CRC. -/
def State.saveValid (s : State) (slot : Nat) : Bool :=
  s.evRead (saveAddr slot + 63) 1 == [0xA5] &&
    leNat (s.evRead (saveAddr slot + 24) 4) == crcOf crc32c (s.saveBody slot)

def State.savePcc (s : State) (slot : Nat) : Nat := leNat (s.evRead (saveAddr slot) 4)
def State.saveOp (s : State) (slot : Nat) : Nat := leNat (s.evRead (saveAddr slot + 4) 6)

/-- The slot of the valid set with the highest power-cycle count. -/
def State.newestSet (s : State) : Option Nat :=
  match s.saveValid 0, s.saveValid 1 with
  | true, true => some (if s.savePcc 0 < s.savePcc 1 then 1 else 0)
  | true, false => some 0
  | false, true => some 1
  | false, false => none

/-- The slot that is erased for the next set: the one that does not hold the newest. -/
def State.spareSlot (s : State) : Nat := match s.log.newest with | some 0 => 1 | _ => 0

/-- θ of a feeder's TH instance, if it has one. -/
def State.thetaOf (s : State) (f : Nat) : Option Rat :=
  (s.img.feeder f).bind (fun c => (c.elems.find? (fun p => match p.2.kind with | .th _ => true | _ => false)).map
    (fun p => ((s.feeder f).elem p.1).theta))

/-- The retained words of a core as they stood at the end of its last completed scan (R224): variables, then counters. -/
def State.retained (s : State) (k : Nat) : Nat × Nat × Nat × List Nat :=
  if !s.hasProgram k then (0, 0, 0, [])
  else
    let g := s.coreCfg k
    let c := s.core k
    (s.img.progCrc k, g.nv, g.nc,
      (List.range g.nv).map (fun v => (Tab.get c.keptVars (g.initVar v) v).word) ++
        (List.range g.nc).map (fun i => unsext 32 (Tab.get c.keptCtrs 0 i)))

/-- What the warning takes (R150, R224, R345). -/
def State.takeSave (s : State) : SaveSet :=
  { pcc := s.getF F.EL_PWRCNT_PCC, op := s.opTime, rtc := s.rtcMs, rtcValid := s.log.rtcValid
    thetas := s.feeders.filterMap (fun p => (s.thetaOf p.1).map (fun t => (p.1, thetaSig t)))
    cores := (List.range 4).map s.retained
    runs := (s.log.flood.map (fun p => if p.2.open_ then p.2.count else 0)).sum }

/-- Bytes of a set from 64 on. -/
def SaveSet.body (x : SaveSet) : List Nat :=
  (List.range 1536).flatMap (fun f => le2 (Tab.get x.thetas 0xFFFF f)) ++
    x.cores.flatMap (fun c => le4 c.1 ++ le2 c.2.1 ++ le2 c.2.2.1 ++ List.replicate 8 0 ++
      ((c.2.2.2 ++ List.replicate 256 0).take 256).flatMap le4)

/-- Bytes 0 to 23 of a set, with the events not logged. -/
def SaveSet.head (x : SaveSet) (lost : Nat) : List Nat :=
  le4 x.pcc ++ leBytes 6 x.op ++ leBytes 6 x.rtc ++ [b2n x.rtcValid, 0, 0, 0] ++ le4 lost

/-- SAVE_SET_COMPLETE: the set stands in its slot, its commit byte last. -/
def State.saveDone (s : State) : State :=
  match s.log.saving, s.log.saveSet with
  | true, some x =>
    let a := saveAddr s.spareSlot
    let head := x.head (s.log.lostHold + x.runs)
    let body := x.body
    let s := ((s.evProgram a head).evProgram (a + 24) (le4 (crcOf crc32c (head ++ body)))).evProgram (a + 64) body
    (s.evProgram (a + 63) [0xA5]).updLog (fun l =>
      { l with newest := some s.spareSlot, saving := false, saveErased := false, saveSet := none })
  | _, _ => s

def execSaveSetComplete (s : State) : Host.Outcome State Fault Refusal := .next s.saveDone

/-- SAVE_SLOT_ERASE_COMPLETE: the two sectors of the slot without the newest set are erased (R337). -/
def execSaveSlotEraseComplete (s : State) : Host.Outcome State Fault Refusal :=
  .next (if s.flag F.EL_STAT_READY && !s.log.saveErased && !s.log.saving then
      ((s.evErase (9 + 2 * s.spareSlot)).evErase (10 + 2 * s.spareSlot)).updLog (fun l => { l with saveErased := true })
    else s)

/-! ## The warning (R345, R421) -/

/-- HOLDUP_WARN# asserts: no new log write starts, the save set is taken and its writing begins where a slot is erased. -/
def State.warn (s : State) : State :=
  if !s.pins.porn || s.flag F.EL_STAT_HOLD then s
  else
    let x := s.takeSave
    let s := s.setF F.EL_STAT_HOLD 0 1
    (s.updLog (fun l => { l with saving := l.saveErased, saveSet := some x })).published

/-- HOLDUP_WARN_ASSERT: the ball goes low; asserted before, it asserts no second time. -/
def execHoldupWarnAssert (s : State) : Host.Outcome State Fault Refusal :=
  .next (if s.pins.holdup then s else (s.updPins (fun p => { p with holdup := true })).warn)

/-- PWRGOOD falls: with PORn high and HOLDUP_WARN# not asserted it acts as a warning at that instant (R421). -/
def execPwrgoodFall (s : State) : Host.Outcome State Fault Refusal :=
  let t := s.updPins (fun p => { p with pwrgood := false })
  .next (if s.pins.holdup || !s.pins.pwrgood then t else t.warn)

/-- The warning clears with the supplies in range, PWRGOOD being high again: record 0x0004, the log resumes, the other slot is erased
(R345; log entry 174). -/
def State.warnClear (s : State) : State :=
  if !s.pins.porn || !s.flag F.EL_STAT_HOLD then s.updPins (fun p => { p with holdup := false })
  else
    let s := s.saveDone
    let s := (s.updPins (fun p => { p with holdup := false, pwrgood := true })).setF F.EL_STAT_HOLD 0 0
    let s := if s.flag F.EL_STAT_READY && !s.flag F.EL_STAT_FULL then
        s.updLog (fun l => { l.clearLost with queue := s.recNotLogged :: l.queue, saveSet := none, saveErased := false })
      else s
    s.closeLapsed.startWrite.published

def execHoldupWarnClear (s : State) : Host.Outcome State Fault Refusal := .next s.warnClear

/-- VBAT_LOSS: VBAT falls below 1.8 V while VDD_IO is absent (R342, R424). -/
def execVbatLoss (s : State) : Host.Outcome State Fault Refusal :=
  .next (if s.pins.porn || s.pins.pwrgood then s
    else s.updLog (fun l => { l with vbatLost := true, rtcValid := false }))

/-! ## The log at start (R335, R341, R346, R352) -/

/-- The NVM formatted: sectors 0 to 16 erased, the identity written, and the erase count of sector 16 straight after its erase
(R335, R352). -/
def State.formatNvm (s : State) (size : Nat) : State :=
  let old := leNat (s.evRead (4096 * 16 + 4) 4)
  let n := if old = 0xFFFFFFFF then 1 else old + 1
  (({ s with evNvm := Mem.erase s.evNvm 0 (4096 * 17) }).updLog (fun l => { l with
    identity := some (Config.nvmLayout, size, 0), programs := l.programs + 1 })).evProgram (4096 * 16 + 4) (le4 n)

/-- Sector 0 holds a valid identity of this capacity: one was written and no later program has changed a byte of it (R335). -/
def State.identityOk (s : State) (size : Nat) : Bool :=
  match s.log.identity with
  | some (_, n, _) => n == size &&
      (s.evNvm.filter (fun c => decide (c.1 < 4096))).all (fun c => c.2 &&& s.identityAt c.1 == s.identityAt c.1)
  | none => false

/-- The log sectors in which a byte is programmed, ascending. -/
def State.logSectors (s : State) : List Nat :=
  ((s.evNvm.map (fun c => c.1 / 4096)).eraseDups).filter (fun y => decide (16 ≤ y) && decide (y < s.evSectors))

/-- The header of a sector: valid by its CRC; generation and first SEQ. -/
def State.headerOk (s : State) (y : Nat) : Bool :=
  leNat (s.evRead (4096 * y + 56) 4) == crcOf crc32c (s.evRead (4096 * y) 12)
def State.headerGen (s : State) (y : Nat) : Nat := leNat (s.evRead (4096 * y) 4)
def State.headerSeq (s : State) (y : Nat) : Nat := leNat (s.evRead (4096 * y + 8) 4)

/-- Whether any byte of a slot is programmed. -/
def State.slotUsed (s : State) (slot : Nat) : Bool :=
  s.evNvm.any (fun c => decide (64 * slot ≤ c.1) && decide (c.1 < 64 * slot + 64))

/-- The committed slots of a sector with their SEQ by position, newest first (R346). -/
def State.indexOf (s : State) (y : Nat) : List (Nat × Nat) :=
  ((List.range 63).foldl (fun (a : Nat × List (Nat × Nat)) i =>
    let slot := 64 * y + 1 + i
    if s.commitByte slot = 0xA5 then (a.1 + 1, (slot, a.1) :: a.2) else a) (s.headerSeq y, [])).2

/-- The torn slots of a sector: a byte programmed and no commit value (R346). -/
def State.tornIn (s : State) (y : Nat) : List Nat :=
  ((List.range 63).map (fun i => 64 * y + 1 + i)).filter (fun t =>
    s.slotUsed t && s.commitByte t != 0xA5 && s.commitByte t != 0)

/-- The place behind the last slot of a sector in which a byte is programmed. -/
def State.placeAfter (s : State) (y : Nat) : Nat :=
  ((List.range 63).map (fun i => 1 + i)).foldl (fun p i => if s.slotUsed (64 * y + i) then i + 1 else p) 1

/-- Erased sectors behind `x`, counted to at most `n`. -/
def State.freeAhead (s : State) (x : Nat) : Nat → Nat
  | 0 => 0
  | n + 1 => match s.nextSector x with
    | some y => if s.sectorFree y then 1 + s.freeAhead y n else 0
    | none => 0

/-- The head of the log located from the sector headers; torn slots of the head sector void (R346, R352). `fresh` after a
format, whose log starts in a generation of its own. -/
def State.locateLog (s : State) (fresh : Bool) : State × List Nat :=
  let used := s.logSectors
  let retired := used.filter (fun y => s.evRead (4096 * y + 12) 1 == [0])
  let valid := used.filter s.headerOk
  let gen := (valid.map s.headerGen).foldl max 0
  let cur := if fresh then [] else valid.filter (fun y => s.headerGen y == gen)
  let s := s.updLog (fun l => { l with retired := retired, gen := if fresh || valid.isEmpty then gen + 1 else gen })
  match cur.foldl (fun (o : Option Nat) y => match o with
      | some h => if s.headerSeq h ≤ s.headerSeq y then some y else o
      | none => some y) none with
  | none =>
    let first := (s.nextSector 15).getD 16
    (s.updLog (fun l => { l with slot := 64 * first + 1, ahead := s.freeAhead first 4, index := [] }), [])
  | some h =>
    let torn := s.tornIn h
    let index := (cur.filter (fun y => y != h)).foldl (fun l y => s.indexOf y ++ l) []
    let index := s.indexOf h ++ index
    let head := s.headerSeq h + (s.indexOf h).length - 1
    let place := s.placeAfter h
    let s := torn.foldl (fun s t => s.evProgram (64 * t + 63) [0]) s
    let s := s.setF F.EL_STAT_TORNEVT 0 (b2n (!torn.isEmpty))
    let s := (s.setF F.EL_HEAD_HEAD 0 head).setF F.EL_FIRST_FIRST 0 ((cur.map s.headerSeq).foldl min (s.headerSeq h))
    let s := s.updLog (fun l => { l with index := index })
    if place ≤ 63 && !retired.contains h then (s.updLog (fun l => { l with slot := 64 * h + place, ahead := s.freeAhead h 4 }), torn)
    else match s.nextSector h with
      | some y => (s.updLog (fun l => { l with slot := 64 * y + 1, ahead := s.freeAhead y 4 }), torn)
      | none => ((s.setF F.EL_STAT_FULL 0 1).updLog (fun l => { l with slot := 64 * h + 63 }), torn)

/-- Operating time and PCC of the last committed record: TIME counts while its stamp is an operating one (R341). -/
def State.lastRecord (s : State) : Nat × Nat :=
  let b := s.log.index.head?.map (fun p => s.slotBytes p.1)
  let pcc := (b.map (fun b => leNat ((b.drop 14).take 4))).getD 0
  let op := (s.log.index.findSome? (fun p =>
    let b := s.slotBytes p.1
    if (b.getD 6 0) % 2 = 0 then some (leNat ((b.drop 8).take 6)) else none)).getD 0
  (op, pcc)

/-- The pairs of calibration sectors whose spare has still to be erased (R336). -/
def State.calSpares (s : State) : List Nat :=
  (List.range 4).filter (fun q =>
    let spare := match s.calCurrent q with | some c => 2 * (1 + 2 * q) + 1 - c | none => 1 + 2 * q
    s.evNvm.any (fun c => decide (4096 * spare ≤ c.1) && decide (c.1 < 4096 * spare + 4096)))

/-- The event log at start (step 2 of R365): identity, head, operating time, power-cycle count, start record. -/
def State.bootLog (s : State) (size cause : Nat) : State :=
  let s := (s.setF F.EL_CFG_SIZE 0 size).updLog (fun l => { l with present := true })
  let fmt := !s.identityOk size
  let s := if fmt then (s.formatNvm size).setF F.EL_STAT_FMT 0 1 else s
  let (s, torn) := s.locateLog fmt
  let newest := s.newestSet
  let (op, pcc) := s.lastRecord
  let op := if fmt then 0 else max op ((newest.map s.saveOp).getD 0)
  let pcc := if fmt then 1 else 1 + max pcc ((newest.map s.savePcc).getD 0)
  let lost := match newest with | some n => leNat (s.evRead (saveAddr n + 20) 4) | none => 0
  let s := s.updLog (fun l => { l with
    opBase := op, corr := op / 60000, newest := newest, rtcAtStart := l.rtcValid, calErasing := s.calSpares, startWait := true })
  let s := (((s.setF F.EL_PWRCNT_PCC 0 pcc).setF F.EL_STAT_READY 0 1).setF F.EL_STAT_RTCVALID 0 (b2n s.log.rtcValid)).syncCap
  let s := torn.foldl (fun s t => s.event 2 0xFFFF 0xFFFF .none (le4 t)) s
  let (code, s') := s.fresh 8
  let s := if fmt then s'.event (11 + code % 245) else s
  s.event 1 0xFFFF 0xFFFF .none (leBytes 6 s.rtcMs ++ [b2n s.log.rtcValid, cause] ++ le4 0 ++ le4 lost)

/-! ## PORn (R365, R420) -/

/-- The device starts: boot ROM, time bases at 0, reset cause, event log. -/
def State.boot (s : State) (cause : Nat) (evSize cfgSize : Option Nat) : State :=
  let s := s.updPins (fun p => { p with porn := true, pwrgood := true, crstN := true, erstN := true })
  let s := (s.setF F.DEV_STAT_RSTCAUSE 0 cause).updDev (fun d => { d with startAt := s.now, countAt := s.now, cfgSize := cfgSize })
  let s := { s with tbs := (List.range 4).map (fun k => (k, ({ t0 := s.now } : TbSt))) }
  match evSize with
  | some n => s.bootLog (min n 8) cause
  | none => s

/-- PORN_RELEASE: `powerOn` says that PWRGOOD was low while PORn was low; the sizes are what SFDP discovery finds, `none`
where it fails (R431). -/
def execPornRelease (powerOn : Bool) (evSize cfgSize : Option Nat) (s : State) : Host.Outcome State Fault Refusal :=
  .next (if s.pins.porn then s else s.boot (b2n (!powerOn && s.pins.pwrgood)) evSize cfgSize)

/-- What a reset of the device leaves: the tiles, both NVMs, the RTC and the levels that others drive. -/
def State.resetDevice (s : State) : State :=
  { State.reset with
    pending := s.pending
    now := s.now
    free := s.free
    tiles := s.tiles
    cfgNvm := s.cfgNvm
    evNvm := s.evNvm
    dev := { romKey := s.dev.romKey }
    pins := { demoteIn := s.pins.demoteIn, pairOkIn := s.pins.pairOkIn, holdup := s.pins.holdup, pwrgood := s.pins.pwrgood }
    log := { identity := s.log.identity, rtc := s.log.rtc, rtcAt := s.log.rtcAt, rtcValid := s.log.rtcValid
             vbatLost := s.log.vbatLost } }

/-- PORN_ASSERT: a low pulse of 10 µs or longer (R420). -/
def execPornAssert (pwrgoodLow : Bool) (s : State) : Host.Outcome State Fault Refusal :=
  .next (s.resetDevice.updPins (fun p => { p with pwrgood := p.pwrgood && !pwrgoodLow }))

/-- JTAG_RESET: a start with reset cause 2 (R365). -/
def execJtagReset (s : State) : Host.Outcome State Fault Refusal :=
  .next (if !s.pins.porn then s
    else s.resetDevice.boot 2 (if s.log.present then some (s.getF F.EL_CFG_SIZE) else none) s.dev.cfgSize)

end Sys2Proof.Machine
end

