-- ==== Sys2Proof/Machine/Recorder.lean ====
section
/-! DEFINITION. The disturbance recorder (R326 to R333). -/

namespace Sys2Proof.Machine

/-! ## Sizes (R329, R330) -/

/-- The channels of a section's feeders that come from converters, and from streams of a rate. -/
def Image.localChans (m : Image) (k : Nat) : Nat :=
  ((m.feedersOf k).map (fun p => (p.2.chans.filter (fun o => match o with
    | some c => (match c.src with | .conv _ _ => true | .stream _ => false)
    | none => false)).length)).sum

def Image.streamChans (m : Image) (k rate : Nat) : Nat :=
  ((m.feedersOf k).map (fun p => (p.2.chans.filter (fun o => match o with
    | some c => (match c.src with
      | .conv _ _ => false
      | .stream j => (match Tab.find m.svSubs j with | some g => g.rate == rate | none => false))
    | none => false)).length)).sum

/-- The groups of a section's records with their analog channels in order (R330): local inputs, the channels of the streams of
each rate in use as 8 f + channel, and the frequency. A group without channels is left out. -/
def Image.recParts (m : Image) (k : Nat) : List (Nat × List Nat) :=
  let chans : List (Nat × Nat × ChanSrc) := (m.feedersOf k).flatMap (fun p => (List.range 8).filterMap (fun ch =>
    (p.2.chan ch).map (fun c => (p.1, ch, c.src))))
  let loc := (chans.filterMap (fun c => match c.2.2 with | .conv a _ => some a | .stream _ => none)).mergeSort (· ≤ ·)
  let str (rate : Nat) : List Nat := chans.filterMap (fun c => match c.2.2 with
    | .conv _ _ => none
    | .stream j => if (match Tab.find m.svSubs j with | some g => g.rate == rate | none => false) then some (8 * c.1 + c.2.1) else none)
  ([(0, loc), (2 + 4800, str 4800), (2 + 14400, str 14400)].filter (fun (p : Nat × List Nat) => !p.2.isEmpty)) ++ [(1, [0])]

/-- The sources of a section (R82). -/
def Image.secSources (m : Image) (k : Nat) : List (Bool × Nat) := ((m.feedersOf k).flatMap (fun p => p.2.sources)).eraseDups

/-- The digital channels: those listed, by default the bit of every trigger entry (R326). -/
def RecCfg.digitals (c : RecCfg) : List SigBit := if c.digital.isEmpty then c.triggers.map Prod.fst else c.digital

/-- Bytes of a row with `n` analog channels, 0 for a group without channels. -/
def rowBytes (n : Nat) : Nat := if n = 0 then 0 else 8 + 4 * n

/-- The file sets of a record, one per group that it contains (R331). -/
def DrRec.groups (r : DrRec) : Nat := r.parts.length

/-- Bytes of a row of group E with `d` digital channels. -/
def eRowBytes (d : Nat) : Nat := 8 + 4 + 2 * ((d + 15) / 16)

/-- Bytes of a row of group E of a section. -/
def Image.epochRowBytes (m : Image) (k : Nat) : Nat := eRowBytes ((m.sec k).recorder.digitals.length + 3 * (m.secSources k).length)

/-- Digital channels of a record. -/
def DrRec.bits (r : DrRec) : Nat := r.digitals.length + 3 * r.sources.length

/-- Bytes of a row of one of a record's groups. -/
def DrRec.rowBytesOf (r : DrRec) (p : Nat × List Nat) : Nat := if p.1 = 1 then eRowBytes r.bits else rowBytes p.2.length

/-- The numbers of the rows of a group that lie in the record, in order: every row from the first to the last. -/
def DrRec.rowsOf (r : DrRec) (grp : Nat) : List Nat :=
  let l := (r.rows.filter (fun c => c.grp == grp)).map (fun c => c.row)
  match l.min?, l.max? with
  | some a, some b => (List.range (b + 1 - a)).map (fun i => a + i)
  | _, _ => []

/-- Bytes per second at which rows grow at `hz`. -/
def Image.rowRate (m : Image) (k : Nat) (hz : Rat) : Rat :=
  512 * hz * rowBytes (m.localChans k) + ((4800 * rowBytes (m.streamChans k 4800) + 14400 * rowBytes (m.streamChans k 14400) : Nat) : Rat) +
    128 * hz * m.epochRowBytes k

/-- Blocks of 1 MiB that a time fills at the reservation rate. -/
def Image.blocksFor (m : Image) (k : Nat) (secs : Rat) : Nat := (m.rowRate k 72 * secs / 1048576).ceil.toNat

/-- Blocks of a section's pre-trigger ring: n + 1. -/
def Image.ringOf (m : Image) (k : Nat) : Nat :=
  if (m.sec k).recorder.enabled then m.blocksFor k (m.sec k).recorder.pre + 1 else 0

/-- The counts of blocks and records in the DR registers. -/
def State.addFree (s : State) (d : Int) : State := s.setF F.DR_BLOCKS_FREE 0 ((s.getF F.DR_BLOCKS_FREE : Int) + d).toNat
def State.syncRecs (s : State) : State :=
  let opens := (s.recs.filter (fun r => r.2.open_)).length
  let closed := (s.recs.filter (fun r => !r.2.open_ && !r.2.acked)).length
  ((s.setF F.DR_RECS_OPEN 0 opens).setF F.DR_RECS_CLOSED 0 closed).setF F.DR_BLOCKS_RING 0 ((s.secs.map (fun p => p.2.ringBlocks)).sum)

/-- The ring of a section takes its size, from the free pool (R329). -/
def State.setRing (s : State) (k : Nat) : State :=
  let n := s.img.ringOf k
  let old := (s.sec k).ringBlocks
  if s.flag F.DR_STAT_READY then
    ((s.addFree ((old : Int) - n)).updSec k (fun x => { x with ringBlocks := n })).syncRecs
  else s

/-- Core clocks of a time. -/
def clksOf (t : Rat) : Nat := (t * 1200000000).floor.toNat

/-! ## Opening and closing -/

/-- The settings that apply at a deadline: those of the open record, else the image's (R326). -/
def State.recCfg (s : State) (k : Nat) : RecCfg :=
  match (s.sec k).recOpen.bind (Tab.find s.recs) with
  | some r => r.cfg
  | none => (s.img.sec k).recorder

/-- DR_SECs of a section. -/
def State.showRec (s : State) (k : Nat) : State :=
  match (s.sec k).recOpen with
  | some id => ((s.setF F.DR_SEC_OPEN k 1).setF F.DR_SEC_CONT k
      (b2n ((Tab.find s.recs id).bind (fun r => r.link)).isSome)).setF F.DR_SEC_ID k id
  | none => ((s.setF F.DR_SEC_OPEN k 0).setF F.DR_SEC_CONT k 0).setF F.DR_SEC_ID k 0

/-- What a record notes of the trigger whose instant is the sample instant `x` (R331). -/
def State.noteOf (s : State) (k : Nat) (x : EpochRec) (fired : List SigBit) (manual_ : Bool) : DrNote :=
  let tb := (s.img.sec k).stampTb
  let ago := (s.now - x.at_) / msClk
  { pcc := s.getF F.EL_PWRCNT_PCC, opAt := s.opTime - ago, fired := fired.take 64, manual_ := manual_
    version := s.getF F.SEC_CFGVER_VERSION k, freq := s.getF F.SEC_FREQ_FREQ k
    chans := (s.img.convs.filter (fun p => p.2.section_ == k)).flatMap (fun p => (s.img.assignedOf p.1).map (fun i =>
      (8 * p.1 + i, skew8 (s.corr p.1 i) ((s.slotOfInput p.1 i).getD 0), s.flag F.CV_STAT_RATIO p.1)))
    ext := if s.flag F.TB_STAT_LOCK tb && s.flag F.TB_STAT_BASE tb then some (s.extOf tb x.stamp) else none
    rtc := s.rtcMs - ago }

/-- The triggers that fire while a record is open are added, up to 64 (R331). -/
def DrNote.more (n : DrNote) (fired : List SigBit) (manual_ : Bool) : DrNote :=
  { n with fired := (n.fired ++ fired.filter (fun b => !n.fired.contains b)).take 64, manual_ := n.manual_ || manual_ }

/-- RECORD_OPEN: the reservation is met, or the trigger is refused (R329). -/
def State.openRec (s : State) (k start trig epoch want : Nat) (link : Option Nat) (note : DrNote) : State :=
  let c := (s.img.sec k).recorder
  let ring := s.img.ringOf k
  let body := s.img.blocksFor k (c.maxLen - c.pre)
  let free := s.getF F.DR_BLOCKS_FREE
  if free < body + ring then
    ((s.incF F.DR_REFCNT_REFUSED).setF F.DR_STAT_NOSPACE 0 1).event 0x0C02 k 0xFFFF (.sec k) (le4 (body + ring) ++ le4 free)
  else
    let id := s.getF F.DR_LASTID_ID + 1
    let limit := start + clksOf c.maxLen
    let r : DrRec := { sec := k, start := start, trig := trig, epoch := epoch, stop := min want limit, want := want, limit := limit, cfg := c
                       link := link, blocks := (s.sec k).ringBlocks + body, parts := s.img.recParts k, digitals := c.digitals
                       sources := s.img.secSources k, note := note }
    let s := (s.addFree (-((body + ring : Nat) : Int))).setF F.DR_LASTID_ID 0 id
    let s := { s with recs := Tab.set s.recs id r }
    ((s.updSec k (fun x => { x with recOpen := some id, ringBlocks := ring })).syncRecs).showRec k

/-- Bytes of the rows that a record holds. -/
def DrRec.recBytes (r : DrRec) : Nat := (r.parts.map (fun p => (r.rowsOf p.1).length * r.rowBytesOf p)).sum

/-- Blocks that contain rows: the rows may begin at any place of their first block (a free value, log entry 1). -/
def State.keptBlocks (s : State) (r : DrRec) : Nat × State :=
  let (off, s) := s.fresh 20
  (if r.recBytes = 0 then 0 else min r.blocks ((off + r.recBytes + 1048575) / 1048576), s)

/-- RECORD_CLOSE (R328, R329, R332): unused blocks return, the event is recorded with the epoch of the trigger instant, and a
continuation may open, which starts at the close. A damaged store ends the record at once (R333). -/
def State.closeRec (s : State) (id : Nat) (damaged : Bool) : State :=
  match Tab.find s.recs id with
  | none => s
  | some r =>
    if !r.open_ then s
    else
      let stop := if damaged then min r.stop s.now else r.stop
      let rows := (s.sec r.sec).rows.filter (fun c => decide (r.start ≤ c.at_) && decide (c.at_ < stop))
      let (kept, s) := s.keptBlocks { r with rows := rows }
      let r' := { r with open_ := false, damaged := r.damaged || damaged, stop := stop, blocks := kept, rows := rows }
      let s := ({ s with recs := Tab.set s.recs id r' }).addFree ((r.blocks : Int) - kept)
      let s := ((s.updSec r.sec (fun x => { x with recOpen := none })).syncRecs).showRec r.sec
      let s := s.event 0x0C01 r.sec 0xFFFF (.at r.epoch) (le4 id ++ le4 ((stop - r.start) / msClk) ++
        [b2n r.link.isSome + 2 * b2n r'.damaged])
      if r.stop < r.want && !damaged then s.openRec r.sec s.now r.trig r.epoch r.want (some id) r.note else s

/-- DRAMFAIL: open records close as damaged (R333). -/
def State.dramFail (s : State) (cause : Nat) : State :=
  let s := ((s.setF F.DR_STAT_DRAMFAIL 0 1).event 0x0C03 0xFFFF 0xFFFF .none [cause])
  (s.recs.filter (fun r => r.2.open_)).foldl (fun s r => s.closeRec r.1 true) s

/-- Errors that the store's ECC finds while words are read (R333); `rec` is the record whose rows they belong to. -/
def State.dramWords (s : State) (x : EccIn) (rec : Option Nat) : State :=
  let s := (s.incF F.DR_ECC_CORR 0 x.corr).incF F.DR_ECC_UNCORR 0 x.bad.length
  let s := if x.bad.isEmpty && !x.dir then s else s.setF F.DR_STAT_UNCEVT 0 1
  let mark (f : DrRec → DrRec) (s : State) : State := match rec with
    | some id => { s with recs := s.recs.map (fun (p : Nat × DrRec) => if p.1 = id then (id, f p.2) else p) }
    | none => s
  let s := if x.bad.isEmpty then s else mark (fun r => { r with damaged := true, lost := x.bad ++ r.lost }) s
  if x.dir then (mark (fun r => { r with dirLost := true }) s).dramFail 1 else s

/-! ## Triggers (R327) -/

/-- The outputs of an instance by which it operates, and whether it has a START. -/
def ElemKind.opBits : ElemKind → List Nat
  | .thr _ _ => [1]
  | .volt _ _ => [1]
  | .freq _ _ => [1]
  | .th _ => [2]
  | .bf _ => [2]
  | _ => []
def ElemKind.startBits : ElemKind → List Nat
  | .thr _ _ => [0]
  | .volt _ _ => [0]
  | .freq _ _ => [0]
  | .th _ => [0]
  | .bf _ => [0]
  | _ => []

/-- One bit of each instance of a section's feeders. -/
def Image.instBits (m : Image) (k : Nat) (f : ElemKind → List Nat) : List SigBit :=
  (m.feedersOf k).flatMap (fun p => p.2.elems.flatMap (fun (e : Nat × ElemCfg) => (f (e.2 : ElemCfg).kind).map (fun b => (⟨feederSig p.1 e.1, b⟩ : SigBit))))

/-- The trigger signals of a section under recorder settings, with the edge that fires. -/
def Image.triggerSigs (m : Image) (k : Nat) (c : RecCfg) : List (SigBit × Edge) :=
  c.triggers ++
    (if c.onOp then
      ((m.instBits k ElemKind.opBits ++ (m.feedersOf k).map (fun (p : Nat × FeederCfg) => (⟨feederSig p.1 73, 0⟩ : SigBit)) ++ [(⟨sectionSig k 13, 0⟩ : SigBit)] ++
        (List.range (m.sec k).arcs.length).map (fun z => (⟨sectionSig k (16 + z), 0⟩ : SigBit))).map (fun b => (b, Edge.rising)))
    else []) ++
    (if c.onStart then (m.instBits k ElemKind.startBits).map (fun b => (b, Edge.rising)) else [])

/-- An edge of a signal against its value at the previous deadline; none where it was not looked at then. -/
def edgeFires (e : Edge) (old : Option Bool) (new : Bool) : Bool :=
  match old with
  | none => false
  | some o => match e with
    | .rising => !o && new
    | .falling => o && !new
    | .both => o != new

/-- A trigger signal's bit as it stands, whatever its quality. -/
def State.trigBit (s : State) (b : SigBit) : Bool := bitOf (s.sig b.id).value.toNat b.bit

/-- A trigger at the deadline: it opens a record, or moves the end of the open one (R328, R333). -/
def State.trigger (s : State) (k : Nat) (x : EpochRec) (fired : List SigBit) (manual_ : Bool) : State :=
  let c := s.recCfg k
  let instant := x.at_
  let want := instant + clksOf c.post
  if s.flag F.DR_STAT_DRAMFAIL then s.incF F.DR_REFCNT_IGNORED
  else match (s.sec k).recOpen with
    | none => s.openRec k (instant - clksOf c.pre) instant x.epoch want none (s.noteOf k x fired manual_)
    | some id => { s with recs := Tab.upd s.recs { sec := k } id (fun r => { r with
        want := want, stop := min want r.limit, note := r.note.more fired manual_ }) }

/-- A value of a group's row that no source delivered, for a source was absent or its chain stopped: 0xFFFF_FFFF (R330). -/
def State.fillCell (s : State) (k grp row at_ chan : Nat) : State :=
  if (s.sec k).rows.any (fun (c : DrCell) => c.grp == grp && c.row == row && c.chan == chan) then s
  else s.noteRow k grp row at_ chan 0xFFFFFFFF

/-- The rows whose instants lie in the epoch that ends at the sample instant `x`, the one before being `p`: those of the local tap
samples, and of the sample counts of each stream rate (R330), each complete with the values that did not come. -/
def State.fillRows (s : State) (k : Nat) (p x : EpochRec) : State :=
  let tb := (s.img.sec k).stampTb
  (s.img.recParts k).foldl (fun s g =>
    if g.1 = 1 then s
    else
      let rows : List (Nat × Nat) :=
        if g.1 = 0 then (List.range 4).map (fun i =>
          let m := 4 * x.epoch + i - 3
          (m, (s.sec k).clockOf ((128 * m : Nat) : Rat)))
        else
          let r := g.1 - 2
          let a := s.extOf tb p.stamp * r / 1000000000 + 1
          let b := s.extOf tb x.stamp * r / 1000000000
          (List.range (b + 1 - a)).map (fun i => (a + i, x.at_ - (s.extOf tb x.stamp - (a + i) * 1000000000 / r) * 6 / 5))
      rows.foldl (fun s y => g.2.foldl (fun s ch => s.fillCell k g.1 y.1 y.2 ch) s) s) s

/-- The row of group E of an epoch: frequency, digital channels, and three bits for each source; beside them the epoch's stamp, to
which the timestamps of rows are interpolated (R38, R330, R331). -/
def State.epochRow (s : State) (k : Nat) (x : EpochRec) : State :=
  let m := s.img
  let at_ := x.at_
  let dig := (s.recCfg k).digitals.map s.trigBit
  let srcs := (m.secSources k).flatMap (fun src =>
    let q := Quality.joins ((m.feedersOf k).flatMap (fun p => (List.range 8).filterMap (fun ch =>
      match p.2.chan ch with
      | some c =>
        if (match c.src with | .conv a _ => src == (false, a / 8) | .stream j => src == (true, j)) then
          some ((((s.feeder p.1).wins.getD ch []).headD {}).q)
        else none
      | none => none)))
    [decide (q.validity = .questionable), q.test, q.subst])
  let bits := dig ++ srcs
  let word := (List.zip (List.range bits.length) bits).foldl (fun a p => a + 2 ^ p.1 * b2n p.2) 0
  let s := match (s.sec k).epochRec (x.epoch - 1) with
    | some p => if x.epoch = 0 then s else s.fillRows k p x
    | none => s
  let s := ((s.noteRow k 1 x.epoch at_ 0 (binary32 ((x.freq : Rat) / 10000))).noteRow k 1 x.epoch at_ 1 word).noteRow k 1 x.epoch at_ 2 x.stamp
  (s.brim F.DEV_BRIM2_ROW (((s.sec k).rowFill + 1023) / 1024)).updSec k (fun y => { y with rowFill := 0 })

/-- The signals whose values the recorder notes at a deadline: those of the open record's settings, of the running image, and of a
pending package, under whose settings the next deadline may judge an edge (R326, R327). -/
def State.watchedSigs (s : State) (k : Nat) : List SigBit :=
  let of (m : Image) (c : RecCfg) : List SigBit := (m.triggerSigs k c).map Prod.fst
  of s.img (s.recCfg k) ++ of s.img (s.img.sec k).recorder ++
    (match s.change with | some c => of c.image (c.image.sec k).recorder | none => [])

/-- TRIGGER_CHECK, then RECORD_CLOSE, at the deadline of epoch `e`; rows too old for the ring go (R327, R328). A section whose
recorder is disabled fires no trigger: a manual one lapses, and the values for the next deadline are noted. -/
def State.recorderDeadline (s : State) (k e : Nat) : State :=
  let c := s.recCfg k
  match (s.sec k).epochRec e with
  | none => s
  | some x =>
    let now := (s.watchedSigs k).map (fun b => (b, s.trigBit b))
    let noted (s : State) : State := s.updSec k (fun y => { y with manTrig := false, trigPrev := now })
    if !c.enabled then noted s
    else
      let s := s.epochRow k x
      let sigs := s.img.triggerSigs k c
      let prev := (s.sec k).trigPrev
      let fired := (sigs.filter (fun g => edgeFires g.2 ((prev.find? (fun p => p.1 == g.1)).map Prod.snd) (s.trigBit g.1))).map Prod.fst
      let man := (s.sec k).manTrig
      let s := noted s
      let s := if !fired.isEmpty || man then s.trigger k x fired.eraseDups man else s
      let s := match (s.sec k).recOpen.bind (fun id => (Tab.find s.recs id).map (fun r => (id, r))) with
        | some (id, r) =>
          let next := (((s.sec k).epochRec (e + 1)).map (fun (y : EpochRec) => y.at_)).getD s.now
          if r.stop ≤ next then s.closeRec id false else s
        | none => s
      let keep := match (s.sec k).recOpen.bind (Tab.find s.recs) with
        | some r => min r.start (x.at_ - clksOf c.pre)
        | none => x.at_ - clksOf c.pre
      s.updSec k (fun y => { y with rows := y.rows.filter (fun (z : DrCell) => decide (keep ≤ z.at_)) })

/-- MANTRIG (R327): a trigger at the next deadline of the section. -/
def State.manTrigger (s : State) (k : Nat) : State :=
  if decide (k < 24) && (s.sec k).running then s.updSec k (fun x => { x with manTrig := true }) else s

def execMantrig (k : Nat) (s : State) : Host.Outcome State Fault Refusal := .next (s.manTrigger k)

/-! ## Acknowledgment (R332) -/

/-- The blocks of a closed record return to the pool; an open record or none is refused. -/
def State.ackRec (s : State) (id : Nat) : State :=
  match Tab.find s.recs id with
  | some r =>
    if r.open_ || r.acked then s
    else (({ s with recs := Tab.set s.recs id { r with acked := true, rows := [], blocks := 0 } }).addFree (r.blocks : Int)).syncRecs
  | none => s

/-- DR_ACK (R332): a write of a record identifier. -/
def execDrAck (id : Nat) (s : State) : Host.Outcome State Fault Refusal := .next (s.ackRec id)

end Sys2Proof.Machine
end

