-- ==== Sys2Proof/Machine/Rules.lean ====
section
/-! DEFINITION. The rules that make a configuration image invalid (R370 and the rules it gathers). A rule is a block of
R369, as type and index, with whether the image keeps it. -/

namespace Sys2Proof.Machine

/-- A rule's verdict on a block. -/
abbrev Verdict := Nat × Nat × Bool

/-- No two entries are equal. -/
def distinct (l : List Nat) : Bool := decide (l.eraseDups.length = l.length)


/-! ## Feeders and converters -/

/-- At most 8 feeders on an engine and 64 on a section (R9). -/
def Image.placement (m : Image) : List Verdict :=
  m.feeders.map (fun p =>
    let k := p.1 / 64
    (3, p.1, decide (k < 24) && decide (p.2.slot < 96) &&
      decide (countIf (m.feedersOf k) (fun g => engineOf k g.2.slot == engineOf k p.2.slot) ≤ 8) &&
      decide (countIf (m.feedersOf k) (fun g => g.2.slot == p.2.slot) = 1)))

/-- Enabled entries 0 and 2 name a feeder of the own section, entry 1 one outside it (R27). -/
def Image.refsOk (m : Image) : List Verdict :=
  m.secs.map (fun p =>
    (2, p.1, (List.range 3).all (fun n =>
      match p.2.refs[n]? with
      | some r => !r.en || (match r.src with | some f => (f / 64 == p.1) == (n != 1) | none => true)
      | none => true)))

/-- The slot table of a converter: distinct inputs, each assigned input in one enabled entry, unassigned ones in none
(R40); the default table enables position i for an assigned input i. -/
def ConvCfg.table (c : ConvCfg) (assigned : List Nat) : List (Option Nat) :=
  if c.slots.isEmpty then (List.range 8).map (fun i => if assigned.contains i then some i else none) else c.slots

def Image.slotsOk (m : Image) : List Verdict :=
  m.convs.map (fun p =>
    let l := (p.2.table (m.assignedOf p.1)).filterMap id
    (5, p.1, distinct l && l.all (fun i => (m.assignedOf p.1).contains i) && (m.assignedOf p.1).all (fun i => l.contains i)))

/-- A section to which a converter is assigned has D of at least 12 epochs (R69). A D outside 4 to 32 epochs (R15) is loaded as it is
(DESIGN CHOICE, log entry 142). -/
def Image.delaysOk (m : Image) : List Verdict :=
  m.secs.map (fun p => (2, p.1, m.convs.all (fun c => c.2.section_ != p.1) || decide (12 ≤ p.2.delay)))

/-- A feeder has at most two sources, all of its section (R82). -/
def Image.sourcesOk (m : Image) : List Verdict :=
  m.feeders.map (fun p =>
    (3, p.1, decide (p.2.sources.length ≤ 2) && p.2.sources.all (fun src =>
      if src.1 then (match Tab.find m.svSubs src.2 with | some g => g.section_ == p.1 / 64 | none => false)
      else (match m.conv src.2 with | some c => c.section_ == p.1 / 64 | none => false))))

/-! ## Elements -/

/-- Instances of each type that a feeder may have (R107, R134). -/
def classLimits : List Nat := [8, 8, 2, 2, 1, 2, 2, 1, 4, 4, 2, 4, 4, 2, 1, 1, 1]

def FeederCfg.countsOk (c : FeederCfg) : Bool :=
  decide (c.elems.length ≤ 48) && c.elems.all (fun p => decide (p.1 < 48)) &&
    (List.range 17).all (fun t => decide (countIf c.elems (fun p => p.2.kind.class_ == t) ≤ classLimits.getD t 0))

/-- Any of three channels from `o`. -/
def FeederCfg.any3 (c : FeederCfg) (o : Nat) : Bool := c.has o || c.has (o + 1) || c.has (o + 2)

/-- The quantities that an instance reads are configured (R91, R125, R156). -/
def FeederCfg.reads (c : FeederCfg) (k : ElemKind) : Bool :=
  match k with
  | .thr .oc _ => c.any3 0
  | .thr .ef t => if t.usesIn c then c.has 3 else c.has3 0
  | .thr .sef _ => c.has 3
  | .thr _ _ => c.has3 0
  | .dir _ => c.has3 0 && c.has3 4
  | .dirn d => (d.chansI c).all c.has && (d.chansV c).all c.has
  | .inr _ => c.any3 0
  | .volt t v => (match v.qtyOf t c with
    | .phase => c.any3 4
    | .phasePhase => c.has3 4
    | .sequence => c.has3 4
    | .resMeasured => c.has 7
    | .resCalculated => c.has3 4)
  | .freq _ g => c.has3 4 || (c.fallback && c.has3 0 && decide (g.vblock ≤ 0))
  | .th g => c.any3 0 && (decide (g.k2 ≤ 0) || c.has3 0)
  | .bf b => (c.any3 0 || b.cbMode) && (b.resChans c).all c.has
  | .fl _ => c.has3 0 && c.has3 4

/-- Points of a user curve: 2 to 16, M strictly ascending, T not increasing (R118). -/
def pointsOk (l : List (Rat × Rat)) : Bool :=
  decide (2 ≤ l.length) && decide (l.length ≤ 16) &&
    (List.zip l l.tail).all (fun p => decide (p.1.1 < p.2.1) && decide (p.2.2 ≤ p.1.2))

/-- Initiators: at most 8, none with a higher number than the instance (R136). -/
def initsOk (i : Nat) (l : List Nat) : Bool := decide (l.length ≤ 8) && l.all (fun j => decide (j ≤ i))

/-- A directional or projected instance names a linked instance of the kind that it reads: an OC a DIR, the others a DIRN, an
NPS one with negative-sequence polarisation (R126, R128). -/
def FeederCfg.linkOk (c : FeederCfg) (t : ThrKind) (g : ThrCfg) : Bool :=
  (decide (g.direction = .non) && !g.projected) || (match (g.dirLink.bind (Tab.find c.elems)).map (fun e => e.kind) with
    | some (ElemKind.dir _) => decide (t = .oc)
    | some (ElemKind.dirn d) => decide (t ≠ .oc) && (decide (t ≠ .nps) || d.negSeq)
    | _ => false)

/-- The initiators of a fault locator: 1 to 8 OC, EF or SEF instances (R156). -/
def FeederCfg.flInitsOk (c : FeederCfg) (l : List Nat) : Bool :=
  !l.isEmpty && l.all (fun j => match (Tab.find c.elems j).map (fun e => e.kind.class_) with
    | some n => decide (n < 3)
    | none => false)

/-- The rules of one instance's own settings (R113, R114, R118, R126 to R130, R136, R148, R151, R156). -/
def FeederCfg.instOk (c : FeederCfg) (i : Nat) (k : ElemKind) : Bool :=
  match k with
  | .thr t g => (match g.curve with | .user l => pointsOk l | _ => true) && g.fits t && c.linkOk t g
  | .volt t g => !g.rmsMode || (g.qtyOf t c).three
  | .th g => decide (g.release < g.alarm)
  | .bf g => initsOk i g.inits && decide (g.t1 ≤ g.t2) && (!g.cbMode || g.cbSig.isSome)
  | .fl g => initsOk i g.inits && c.flInitsOk g.inits && decide (0 < g.x1) && decide (0 < g.length)
  | _ => true

/-- In, Vn and the primary value of each local channel are set (R85); their ranges and steps are not checked (log entry 142). -/
def FeederCfg.setOk (c : FeederCfg) : Bool :=
  decide (0 < c.inA) && decide (0 < c.vnV) && c.chans.all (fun o => match o with
    | some h => (match h.src with | .conv _ ppu => decide (0 < ppu) | .stream _ => true)
    | none => true)

def Image.elemsOk (m : Image) : List Verdict :=
  m.feeders.map (fun p =>
    (3, p.1, p.2.setOk && p.2.countsOk && p.2.elems.all (fun e => p.2.reads e.2.kind && p.2.instOk e.1 e.2.kind)))

/-! ## Sections -/

/-- A feeder has IA, IB and IC. -/
def Image.currents (m : Image) (f : Nat) : Bool := match m.feeder f with | some c => c.has3 0 | none => false

/-- An input of a feeder's tile is of type light (R178, R233). -/
def Image.lightInput (m : Image) (l : Nat × Nat) : Bool :=
  m.chains.any (fun c => c.2.tiles.any (fun t => t.feeder == l.1 && bitOf t.light l.2))

/-- Zones, check lists and groups name feeders that have what they read, Ibase and the light inputs are set where they must be,
and light inputs are of type light (R169, R171, R178, R233). -/
def Image.sectionsOk (m : Image) : List Verdict :=
  m.secs.map (fun p =>
    (2, p.1,
      p.2.zsi.all (fun g => g.all (fun s => match m.feeder s.1 with
        | some c => (match Tab.find c.elems s.2 with
          | some e => e.kind.class_ == 0 || e.kind.class_ == 1 || e.kind.class_ == 3
          | none => false)
        | none => false)) &&
      p.2.arcs.all (fun a => (m.arcChecks p.1 a).all m.currents && !a.lights.isEmpty && a.lights.all m.lightInput) &&
      (!p.2.bd.enabled || decide (0 < p.2.ibase)) &&
      (m.feedersOf p.1).all (fun f => f.2.has3 0 || (decide (f.2.zone = .no) && !f.2.inCheck))))

/-- The recorder's maximum length covers pre and post times (R326). -/
def Image.recordersOk (m : Image) : List Verdict :=
  m.secs.map (fun p => (11, p.1, decide (p.2.recorder.pre + p.2.recorder.post ≤ p.2.recorder.maxLen)))

/-! ## Logic programs (R210, R213, R219) -/

/-- Opcodes by operand form: 0 none, 1 S, 2 T, 3 J, 4 I. -/
def opForm (op : Nat) : Nat :=
  if [0, 5, 6, 7, 8, 31].contains op then 0
  else if decide (14 ≤ op) && decide (op ≤ 22) then 2
  else if op = 29 ∨ op = 30 then 3
  else if op = 24 then 4
  else 1

/-- Opcodes that may carry N = 1 (R214). -/
def opMayN (op : Nat) : Bool := [1, 2, 3, 4, 9, 22, 24, 30].contains op

/-- Opcodes that write a bit, the numeric group, and every write. -/
def opBitWrite (op : Nat) : Bool := decide (9 ≤ op) && decide (op ≤ 13)
def opNumeric (op : Nat) : Bool := op == 23 || (decide (25 ≤ op) && decide (op ≤ 28))
def opWrites (op : Nat) : Bool := opBitWrite op || op == 25

/-- The rules of one instruction word at place `pc` of a program of `len` words on core `k`. -/
def wordOk (k len pc w : Nat) : Bool :=
  let op := fieldOf w 27 5
  let n := fieldOf w 26 1
  let sp := fieldOf w 22 1
  let addr := fieldOf w 5 17
  let bit := fieldOf w 0 5
  (n == 0 || opMayN op) &&
  (match opForm op with
    | 0 => fieldOf w 0 26 == 0
    | 1 => (if op = 28 then decide (fieldOf w 23 3 ≤ 5) else fieldOf w 23 3 == 0) &&
        (sp == 0 || decide (addr < 4096)) && (sp == 1 || !(op == 12 || op == 13)) && (bit == 0 || !opNumeric op) &&
        (!opBitWrite op || decide (bit < 24)) &&
        (!opWrites op || sp == 1 || (decide (coreBase k ≤ addr) && decide (addr < coreBase (k + 1))))
    | 2 => fieldOf w 10 16 == 0
    | 3 => fieldOf w 16 10 == 0 && decide (1 ≤ fieldOf w 0 16) && decide (pc + fieldOf w 0 16 < len)
    | _ => true)

/-- Timer opcodes with their instance. -/
def timersOf (l : List Nat) : List (Nat × Nat) :=
  (l.filter (fun w => decide (14 ≤ fieldOf w 27 5) && decide (fieldOf w 27 5 ≤ 18))).map (fun w => (fieldOf w 0 10, fieldOf w 27 5))

def programOk (k : Nat) (l : List Nat) : Bool :=
  let t := timersOf l
  ((List.range l.length).zip l).all (fun p => wordOk k l.length p.1 p.2) && fieldOf (l.getLastD 0) 27 5 == 31 &&
    t.all (fun a => t.all (fun b => a.1 != b.1 || a.2 == b.2))

def Image.programsOk (m : Image) : List Verdict := m.cores.map (fun p => (7, p.1, programOk p.1 p.2.program))

/-! ## Chains, lanes, streams -/

/-- Outputs of one group agree in safe pattern, sources and minimum on time (R233). -/
def TileCfg.groupsOk (t : TileCfg) : Bool :=
  t.groups.all (fun g =>
    let l := (List.range 8).filter (bitOf g)
    match l with
    | [] => true
    | a :: r => r.all (fun b => bitOf t.safe a == bitOf t.safe b && decide (t.outs.getD a {} = t.outs.getD b {})))

/-- Tiles of the whole image that a feeder has. -/
def Image.tilesOf (m : Image) (f : Nat) : Nat := (m.chains.map (fun c => countIf c.2.tiles (fun t => t.feeder == f))).sum

/-- At most one chain a section, of 1 to 64 tiles of that section's feeders, refresh load, safe-state timeouts, groups, one tile a
feeder, a lane in tile link mode (R13, R230, R232, R233, R259). -/
def Image.chainsOk (m : Image) : List Verdict :=
  m.chains.flatMap (fun c =>
    (6, c.1, decide (1 ≤ c.2.tiles.length) && decide (c.2.tiles.length ≤ 64) &&
      countIf m.chains (fun d => d.2.section_ == c.2.section_) == 1 &&
      decide (c.2.tiles.length * 1024 ≤ 7500 * c.2.period) && decide ((m.lane c.1).mode = .tile)) ::
    c.2.tiles.map (fun t => (4, t.feeder, t.feeder / 64 == c.2.section_ && decide (5 * c.2.period ≤ 10 * t.timeout10us) && t.groupsOk &&
      m.tilesOf t.feeder == 1)))

/-- Bounds and start values of the equaliser (R259). -/
def LaneCfg.eqOk (c : LaneCfg) : Bool :=
  (List.range 6).all (fun i => decide (c.eqMin.getD i 0 ≤ c.eqStart.getD i 0) && decide (c.eqStart.getD i 0 ≤ c.eqMax.getD i 0))

/-- Ports of sampled values, and every port that the image names, those of the allow list and of port pairs among them. -/
def Image.svPorts (m : Image) : List Nat := m.svSubs.map (fun p => p.2.lane) ++ m.svPubs.flatMap (fun p => p.2.lanes)
def Image.ports (m : Image) : List Nat :=
  m.svPorts ++ m.goPubs.flatMap (fun p => p.2.lanes) ++ m.goSubs.map (fun p => p.2.lane) ++ m.rules.flatMap (fun r => r.lanes.getD []) ++
    m.lanes.filterMap (fun p => p.2.pairLane)

/-- An individual MAC address that is set (R279). -/
def macOk (a : Nat) : Bool := decide (a ≠ 0) && !bitOf a 40

/-- The settings of an Ethernet port: an address, a role, and a port pair of two ports of one time base (R279, R301; log entry 91). A lane
in another mode is not named for a station-bus port (R259); process bus is the default of a role. -/
def Image.portOk (m : Image) (n : Nat) (c : LaneCfg) : Bool :=
  if !c.mode.eth then !c.sb else (macOk c.mac && (c.pb || c.sb) && match c.pairLane with
    | none => true
    | some o => (m.lane o).pairLane == some n && c.ptpTb.isSome && (m.lane o).ptpTb == c.ptpTb)

/-- A management rule names the port (R387). -/
def Image.mgmtNames (m : Image) (n : Nat) (c : LaneCfg) : Bool :=
  c.mode.eth && c.sb && m.rules.any (fun r => r.mgmt && (match r.lanes with | some l => l.contains n | none => true))

/-- Lanes named for ports are in an Ethernet mode, those of sampled values with the process-bus role, peer lanes in peer link mode, two of
them where the pair is enabled with its identifier; a port that a management rule names has an address (R259, R279, R304, R392; log entry
91). -/
def Image.lanesOk (m : Image) : List Verdict :=
  m.lanes.map (fun p => (6, p.1, p.2.eqOk && m.portOk p.1 p.2 && (!m.mgmtNames p.1 p.2 || decide (p.2.ipv4 ≠ 0)))) ++ m.ports.map (fun n => (6, n, (m.lane n).mode.eth)) ++
    m.svPorts.map (fun n => (6, n, (m.lane n).pb)) ++ m.pair.lanes.map (fun n => (6, n, decide ((m.lane n).mode = .peer))) ++
    [(1, 0, !m.pair.en || (m.pair.lanes.length == 2 && m.pair.lanes.dedup.length == 2 && decide (m.pair.pairId ≠ 0)))]

/-- Stream units: 1 at 4,800 S/s, 3 at 14,400 S/s (R282). -/
def SvSub.units (c : SvSub) : Nat := if c.rate = 14400 then 3 else 1

/-- A stream of a rate with its noASDU, and of an APPID, that the device supports (R281; log entry 91). -/
def SvSub.supported (c : SvSub) : Bool :=
  ((c.rate == 4800 && decide (1 ≤ c.noAsdu) && decide (c.noAsdu ≤ 2)) || (c.rate == 14400 && decide (1 ≤ c.noAsdu) && decide (c.noAsdu ≤ 6))) &&
  decide (0x4000 ≤ c.appid) && decide (c.appid ≤ 0x7FFF)

/-- A publication: one of its feeder, whose channels are all local, on one or two ports (R284; log entry 91). -/
def Image.pubOk (m : Image) (p : SvPub) : Bool :=
  countIf m.svPubs (fun q => q.2.feeder == p.feeder) == 1 && decide (1 ≤ p.lanes.length) && decide (p.lanes.length ≤ 2) &&
  match m.feeder p.feeder with
  | some c => c.sources.all (fun x => !x.1)
  | none => false

/-- Each entry serves channels of one kind, the currents IA to IN channels of currents, the voltages those of voltages (R282). -/
def SvSub.kindsOk (c : SvSub) : Bool :=
  (List.range c.map.length).all (fun j => (c.map.getD j []).all (fun x => decide (x.2 / 4 = j / 4) && (c.map.getD j []).all (fun y => y.2 == x.2)))

/-- Time base of a stream (R77), units, one entry a channel of its section and kind, no stream twice (R282). -/
def Image.streamsOk (m : Image) : List Verdict :=
  let entries := m.svSubs.flatMap (fun p => p.2.map.flatten)
  m.svSubs.map (fun p =>
    (10, p.2.section_, p.2.supported && p.2.kindsOk && p.2.map.flatten.all (fun e => e.1 / 64 == p.2.section_) && p.2.tb == (m.sec p.2.section_).stampTb &&
      decide ((m.svSubs.map (fun q => q.2.units)).sum ≤ 1504) &&
      decide (((m.svSubs.filter (fun q => q.2.lane == p.2.lane)).map (fun q => q.2.units)).sum ≤ 512) &&
      p.2.map.flatten.all (fun e => countIf entries (fun x => x == e) == 1) &&
      countIf m.svSubs (fun q => q.2.lane == p.2.lane && q.2.dst == p.2.dst && q.2.appid == p.2.appid && q.2.svid == p.2.svid) == 1))

/-- A rule of the allow list: Ethernet lanes of its kind's role, and for management a prefix of at most 32 bits (R279, R387). -/
def Image.allowOk (m : Image) (r : AllowRule) : Bool :=
  (match r.lanes with
    | some l => l.all (fun n => (m.lane n).mode.eth && (if r.mgmt then (m.lane n).sb else (m.lane n).ptpTb.isSome))
    | none => true) &&
  (!r.mgmt || (r.key.isSome && decide (r.prefixLen ≤ 32)))

/-- The limits of GOOSE (R285), of SV publications (R284) and of the allow list (R387). -/
def Image.tableOk (m : Image) : List Verdict :=
  [(1, 0, decide (m.goPubs.length ≤ 256) &&
    m.goPubs.all (fun p => decide (p.2.members.length ≤ 128) && decide (1 ≤ p.2.lanes.length) && decide (p.2.lanes.length ≤ 2)) &&
    m.svPubs.all (fun p => m.pubOk p.2) &&
    m.goSubs.all (fun p => p.2.map.all (fun x => decide (124928 ≤ x.2) && decide (x.2 < 126976))) &&
    decide (m.goSubs.length ≤ 512) && decide ((m.goSubs.map (fun p => p.2.map.length)).sum ≤ 2048) &&
    decide (m.svPubs.length ≤ 32) && decide (m.rules.length ≤ 256) && m.rules.all m.allowOk)]

/-! ## The whole -/

/-- Exactly one block of types 1, 8 and 9, and one section table for each section (R370). -/
def Image.blocksOk (m : Image) : List Verdict :=
  [1, 8, 9].map (fun t => (t, 0, countIf m.dir (fun d => d.type == t) == 1)) ++
    (List.range 24).map (fun k => (2, k, countIf m.dir (fun d => d.type == 2 && d.index == k) == 1 && (Tab.find m.secs k).isSome))

/-- Every rule, in the order in which the model looks; that VERSION is not 0 (R368) concerns no block. -/
def Image.verdicts (m : Image) : List Verdict :=
  (0, 0, m.version != 0) :: m.blocksOk ++ m.placement ++ m.refsOk ++ m.slotsOk ++ m.delaysOk ++ m.sourcesOk ++ m.elemsOk ++ m.sectionsOk ++
    m.recordersOk ++ m.programsOk ++ m.chainsOk ++ m.lanesOk ++ m.streamsOk ++ m.tableOk

/-- The directory index of a block, 0 where the directory has none. -/
def Image.dirIndex (m : Image) (type index : Nat) : Nat :=
  (m.dir.findIdx? (fun d => d.type == type && d.index == index)).getD 0

/-- The directory index of the first block that breaks a rule. -/
def Image.ruleFault (m : Image) : Option Nat :=
  (m.verdicts.find? (fun v => !v.2.2)).map (fun v => m.dirIndex v.1 v.2.1)

end Sys2Proof.Machine
end

