-- ==== Sys2Proof/Machine/TimeBase.lean ====
section
/-! DEFINITION. The Thanov time bases (R292 to R298). -/

namespace Sys2Proof.Machine

/-- The source of a time base (R293): 0 none, 1 PTP, 2 PPS. -/
def State.tbSrc (s : State) (k : Nat) : Nat := s.getF F.TB_CFG_SRC k

/-- The counter value of the next whole second of extended time (R297). -/
def State.nextSecond (s : State) (k : Nat) : Nat := (s.tbNs k + (1000000000 - s.extNs k % 1000000000)) % 2 ^ 32

/-- The firmware sets TB_PPSAT to the next whole second of a time base that it disciplines (R297, R298). -/
def State.aimPps (s : State) (k : Nat) : State :=
  if s.tbSrc k = 0 then s else s.setF F.TB_PPSAT_AT k (s.nextSecond k)

/-- The counter continues from the present instant at a new rate (R292). -/
def State.setTbRate (s : State) (k r : Nat) : State :=
  let acc := s.tbAcc k s.now
  (s.updTb k (fun x => { x with acc := acc, t0 := s.now })).setF F.TB_RATE_RATE k r

/-- A step of the counter on one core clock (R294). -/
def State.stepTb (s : State) (k : Nat) (d : Int) : State :=
  (s.updTb k (fun x => { x with step := x.step + s.stepBy k d, okRun := 0, badRun := 0 })).setF F.TB_STAT_STEPPED k 1

/-- LOCK changes, and with it its device signal (R209, R295). -/
def State.setLock (s : State) (k : Nat) (v : Bool) : State :=
  if s.flag F.TB_STAT_LOCK k = v then s
  else
    let s := (s.setF F.TB_STAT_LOCK k (b2n v)).setF F.TB_STAT_LOCKEVT k 1
    (if v then s else (s.updTb k (fun x => { x with unlockedAt := s.now })).setF F.TB_STAT_HOLDOVER k 0).published

/-- First core clock at which the step may be applied: 10 ms after the later of enabling and the last clearing of LOCK. -/
def TbSt.stepFrom (x : TbSt) : Nat := max x.enabledAt x.unlockedAt + 10 * msClk

/-- An update with the offset measured against the source (R294, R295): before the step nothing is corrected; the step is
the first correction; afterwards the firmware corrects RATE, to a value that the manual does not give. -/
def State.tbUpdate (s : State) (k : Nat) (offset : Int) : State :=
  if !s.flag F.TB_STAT_EN k then s
  else
    let s := ((s.setF F.TB_OFFSET_OFFSET k (unsext 32 offset)).setF F.TB_STAT_HOLDOVER k 0).updTb k
      (fun x => { x with lastUpd := some s.now })
    if !s.flag F.TB_STAT_STEPPED k then
      if (s.tb k).stepFrom ≤ s.now then (s.stepTb k offset).aimPps k else s
    else
      let (r, s) := s.fresh 32
      let s := s.setTbRate k r
      let ok := decide (offset.natAbs ≤ 100 * s.getF F.TB_CFG_LOCKTH k)
      let s := s.updTb k (fun x => { x with okRun := if ok then x.okRun + 1 else 0, badRun := if ok then 0 else x.badRun + 1 })
      let x := s.tb k
      if 2 ≤ x.badRun then s.setLock k false else if 8 ≤ x.okRun then s.setLock k true else s

/-- TIME_BASE_STEP (R294): the first correction after enabling, with the offset of the latest update. -/
def execTimeBaseStep (k : Nat) (s : State) : Host.Outcome State Fault Refusal :=
  .next (if s.flag F.TB_STAT_EN k && !s.flag F.TB_STAT_STEPPED k && (s.tb k).lastUpd.isSome then
      ((s.advanceTo (s.tb k).stepFrom).stepTb k (sext 32 (s.getF F.TB_OFFSET_OFFSET k))).aimPps k
    else s)

/-- Discipline enabled (R294). -/
def State.enableTb (s : State) (k : Nat) : State :=
  if s.flag F.TB_STAT_EN k then s
  else (((s.setF F.TB_STAT_EN k 1).setF F.TB_STAT_STEPPED k 0).updTb k
    (fun x => { x with enabledAt := s.now, lastUpd := none, okRun := 0, badRun := 0 })).aimPps k

/-- Discipline disabled: LOCK clears, RATE holds (R294). -/
def State.disableTb (s : State) (k : Nat) : State := (s.setF F.TB_STAT_EN k 0).setLock k false

/-- ENABLE (R294). -/
def execEnable (k : Nat) (s : State) : Host.Outcome State Fault Refusal := .next (s.enableTb k)

/-- DISABLE (R294). -/
def execDisable (k : Nat) (s : State) : Host.Outcome State Fault Refusal := .next (s.disableTb k)

/-- A maintenance write of TB_STEP (R294, R298). -/
def State.writeStep (s : State) (k w : Nat) : State :=
  if s.tbSrc k ≠ 0 then s.setF F.TB_STAT_WREF k 1
  else if s.flag F.TB_STAT_STEPPED k then s.setF F.TB_STAT_STEPREF k 1
  else s.stepTb k (sext 32 w)

/-- A maintenance write of TB_RATE (R298). -/
def State.writeRate (s : State) (k w : Nat) : State :=
  if s.tbSrc k ≠ 0 then s.setF F.TB_STAT_WREF k 1 else s.setTbRate k w

/-- A maintenance write of TB_PPSAT (R298). -/
def State.writePpsat (s : State) (k w : Nat) : State :=
  if s.tbSrc k ≠ 0 then s.setF F.TB_STAT_WREF k 1 else s.setF F.TB_PPSAT_AT k w

/-- TB_STEP_WRITE (R294, R298). -/
def execTbStepWrite (k : Nat) (w : Word) (s : State) : Host.Outcome State Fault Refusal := .next (s.writeStep k w.toNat)

/-- TB_RATE_WRITE (R298). -/
def execTbRateWrite (k : Nat) (w : Word) (s : State) : Host.Outcome State Fault Refusal := .next (s.writeRate k w.toNat)

/-- TB_PPSAT_WRITE (R297, R298). -/
def execTbPpsatWrite (k : Nat) (w : Word) (s : State) : Host.Outcome State Fault Refusal := .next (s.writePpsat k w.toNat)

/-- HOLDOVER_EXPIRY (R295): no update for the holdover time. -/
def execHoldoverExpiry (k : Nat) (s : State) : Host.Outcome State Fault Refusal :=
  .next (match s.flag F.TB_STAT_LOCK k, (s.tb k).lastUpd with
    | true, some t => (s.advanceTo (t + s.getF F.TB_CFG_HOLD k * 1000 * msClk)).setLock k false
    | _, _ => s)

/-- HOLDOVER_FLAG (R295): 2 s since the last update. -/
def execHoldoverFlag (k : Nat) (s : State) : Host.Outcome State Fault Refusal :=
  .next (match s.flag F.TB_STAT_LOCK k, (s.tb k).lastUpd with
    | true, some t => (s.advanceTo (t + 2000 * msClk)).setF F.TB_STAT_HOLDOVER k 1
    | _, _ => s)

/-! ## PPS (R297) -/

/-- PPS_INPUT_EDGE (R294, R297): the selected edge captures the counter, and is an update where the PPS input is the source. -/
def execPpsInputEdge (k : Nat) (rising : Bool) (offset : Int) (s : State) : Host.Outcome State Fault Refusal :=
  .next (if rising = s.flag F.TB_CFG_PPSPOL k then s
    else
      let s := (s.setF F.TB_PPSCAP_CAP k (s.tbNs k)).setF F.TB_STAT_PPSEVT k 1
      if s.tbSrc k = 2 then s.tbUpdate k offset else s)

/-- The core clock at which the counter reaches `t`, if that lies less than 2^31 ns ahead. -/
def State.tbDue (s : State) (k t : Nat) : Option Nat :=
  let ahead : Nat := (t + 2 ^ 32 - s.tbNs k) % 2 ^ 32
  if 2 ^ 31 ≤ ahead then none
  else
    let rate : Int := 2 ^ 40 + sext 32 (s.getF F.TB_RATE_RATE k)
    let acc : Nat := s.tbAcc k s.now
    let goal : Nat := 6 * 2 ^ 40 * (acc / (6 * 2 ^ 40) + ahead)
    let left : Int := ((goal - acc : Nat) : Int)
    some (s.now + ((left + 5 * rate - 1) / (5 * rate)).toNat)

/-- PPS_OUTPUT_RISE (R297): the counter reaches TB_PPSAT. The firmware sets the next second where the source is not none. -/
def execPpsOutputRise (k : Nat) (s : State) : Host.Outcome State Fault Refusal :=
  .next (match s.tbDue k (s.getF F.TB_PPSAT_AT k) with
    | none => s
    | some t =>
      let s := s.advanceTo t
      let out := s.getF F.TB_CFG_PPSOUT k
      let s := if out = 1 ∨ (out = 2 ∧ s.flag F.TB_STAT_LOCK k) then
          (s.updTb k (fun x => { x with ppsHigh := some s.now })).updPins (fun p => { p with ppsOut := setBit p.ppsOut k true })
        else s
      s.aimPps k)

/-- PPS_OUTPUT_FALL (R297): after 100 ms. -/
def execPpsOutputFall (k : Nat) (s : State) : Host.Outcome State Fault Refusal :=
  .next (match (s.tb k).ppsHigh with
    | some t => ((s.advanceTo (t + 100 * msClk)).updTb k (fun x => { x with ppsHigh := none })).updPins
        (fun p => { p with ppsOut := setBit p.ppsOut k false })
    | none => s)

/-! ## Base pairs (R296) -/

/-- BASE_PAIR_WRITE (R296, R342): while locked, the PTP time at a counter value whose bits [29:0] are those of the
nanoseconds. The first one of TB0 after a start sets an invalid RTC. -/
def execBasePairWrite (k secs ns : Nat) (s : State) : Host.Outcome State Fault Refusal :=
  .next (if !s.flag F.TB_STAT_LOCK k then s
    else
      let c := s.tbNs k
      let base := (c + 2 ^ 32 - (c + 2 ^ 32 - ns % 2 ^ 30) % 2 ^ 30) % 2 ^ 32
      let s := s.updTb k (fun x => { x with baseC := base, baseS := secs, baseNs := ns })
      let s := ((s.setF F.TB_STAT_BASE k 1).setF F.TB_BASENS_BASENS k base).aimPps k
      if k = 0 ∧ ¬ s.log.rtcFromTb then
        let s := s.updLog (fun l => { l with rtcFromTb := true })
        if s.log.rtcValid then s else s.setRtc (s.extNs 0 / 1000000) 1
      else s)

/-- BASENS_READ (R296): a read latches the seconds and the high nanosecond bits of the same pair. -/
def State.latchBase (s : State) (k : Nat) : State :=
  let x := s.tb k
  ((s.setF F.TB_BASESECL_SECL k x.baseS).setF F.TB_BASESECH_SECH k (x.baseS / 2 ^ 32)).setF F.TB_BASESECH_NSHI k (x.baseNs / 2 ^ 30)

def execBasensRead (k : Nat) (s : State) : Host.Outcome State Fault Refusal := .next (s.latchBase k)

end Sys2Proof.Machine
end

