-- ==== Sys2Proof/Machine/Start.lean ====
section
/-! DEFINITION. From the image check to active protection, and NO_IMAGE (R365 to R372). -/

namespace Sys2Proof.Machine

/-! ## The check of a bank (R370, R371) -/

/-- A bank as the device checks it. -/
structure Bank where
  view : BankView
  bytes : ImgRead

/-- An NVM that fails its discovery counts as an NVM error (R431). -/
def State.readBank (s : State) (k : Nat) (v : BankView) : Bank :=
  { view := { v with nvmError := v.nvmError || s.dev.cfgSize.isNone }, bytes := s.bankRead k }

/-- The image that the bank holds. -/
def Bank.image (b : Bank) : Image := b.view.image.under b.bytes.head b.bytes.dir b.bytes.tileBlocks
def Bank.gen (b : Bank) : Nat := b.bytes.head.gen

/-- The first fault of a bank with its block, in the order of R370. -/
def Bank.fault (b : Bank) : Option (Nat × Nat) :=
  if b.view.nvmError then some (9, 0)
  else if b.bytes.head.magic != imageMagic then some (1, 0)
  else if !b.bytes.hcrcOk then some (2, 0)
  else if b.bytes.head.layout != 1 then some (3, 0)
  else match b.bytes.badSize, b.bytes.badBlock, b.bytes.vendorBad with
    | some i, _, _ => some (8, i)
    | none, some i, _ => some (4, i)
    | none, none, some i => some (5, i)
    | none, none, none =>
      if b.bytes.head.signed && !b.bytes.sigOk then some (6, 0)
      else match b.image.ruleFault with
        | some i => some (7, i)
        | none => if b.bytes.head.commit != 0xA5 then some (10, 0) else none

def Bank.valid (b : Bank) : Bool := b.fault.isNone

/-- The bank has a GEN: no NVM error, MAGIC, HCRC and LAYOUT correct. -/
def Bank.hasGen (b : Bank) : Bool :=
  !b.view.nvmError && b.bytes.head.magic == imageMagic && b.bytes.hcrcOk && b.bytes.head.layout == 1

/-- The bank that loads: the valid one with the higher GEN, bank 0 on a tie. -/
def bankLoaded (b0 b1 : Bank) : Option Nat :=
  match b0.valid, b1.valid with
  | true, true => some (if b0.gen < b1.gen then 1 else 0)
  | true, false => some 0
  | false, true => some 1
  | false, false => none

/-- Register fields of one instance set together. -/
def State.setFs (s : State) (i : Nat) (l : List (Fld × Nat)) : State := l.foldl (fun s p => s.setF p.1 i p.2) s

/-! ## What an image places in registers and tables -/

/-- The reference list in SEC_REF_CFGn (R26). -/
def State.loadRefs (s : State) (k : Nat) (c : SectionCfg) : State :=
  let s := [0, 1, 2].foldl (fun s n =>
    let r := c.refs.getD n {}
    let src := match r.src with | some f => f | none => if n = 0 then 64 * k else 0
    ((s.setF F.SEC_REF_CFG_EN k (b2n r.en) n).setF F.SEC_REF_CFG_SRC k src n).setF F.SEC_REF_CFG_OFFSET k (unsext 16 r.off) n) s
  ((s.setF F.SEC_REF_CFG_EN k (b2n c.ref3) 3).setF F.SEC_REF_CFG_SRC k c.ref3Tb 3).setF F.SEC_REF_CFG_OFFSET k (unsext 16 c.ref3Off) 3

/-- The section registers that show the image; a setting outside the ranges of R15 or R26 is loaded as it is (log entry 142). -/
def State.loadSection (s : State) (m : Image) (k : Nat) : State :=
  let c := m.sec k
  (s.loadRefs k c).setFs k [(F.SEC_ANGLE_CFG_VMIN, c.vmin.floor.toNat), (F.SEC_ANGLE_CFG_Q, c.q),
    (F.SEC_ANGLE_CFG_TBSEL, c.stampTb), (F.SEC_ANGLE_CFG_NOM, b2n c.nom60), (F.SEC_PLYCFG_DEPTH, c.depth),
    (F.SEC_INGCFG_DELAY, c.delay), (F.SEC_INGCFG_FEEDERS, (m.feedersOf k).length)]

/-- A feeder as the image places it, in the rank slot of its settings (R9). -/
def FeederCfg.place (c : FeederCfg) (k : Nat) : FeederSt :=
  { engine := engineOf k c.slot, slot := c.slot % 12, elems := c.elems.map (fun p => (p.1, p.2.fresh)) }

/-- The 64 coefficients of a converter block (R65, R66). -/
def ConvCfg.fir (c : ConvCfg) : List Int :=
  if c.coefs.isEmpty then defaultCoefs else c.coefs

/-- The settings of a chain and of its converter's slot table (R40, R65, R68): CHk of a disabled entry keeps the value that it had (log
entry 158), and a setting outside its range is loaded as it is (log entry 142). -/
def State.loadChain (s : State) (m : Image) (n : Nat) (c : ConvCfg) : State :=
  let tbl := c.table (m.assignedOf n)
  let s := (List.range 8).foldl (fun s k => match tbl.getD k none with
    | some i => (s.setF (slotEnF k) n 1).setF (slotChF k) n i
    | none => s.setF (slotEnF k) n 0) s
  let s := (List.range 8).foldl (fun s i => s.setF F.FC_DELAY_CORR n (unsext 13 (c.corr.getD i 0)) i) s
  s.updChain n (fun x => { x with coefs := c.fir })

def RefSource.code : RefSource → Nat
  | .internal => 0
  | .external => 1
  | .supply => 2

/-- The settings of a converter: use, open-wire test, section (R40, R54). An interval or threshold outside the range or step of R54 is
loaded as it is (DESIGN CHOICE, log entry 142). -/
def State.loadConv (s : State) (m : Image) (n : Nat) (c : ConvCfg) : State :=
  let l := m.assignedOf n
  (s.setFs n [(F.CV_CFG_INUSE, maskOf l), (F.CV_CFG_OWEN, c.owEn.getD (maskOf l)), (F.CV_CFG_SECTION, c.section_),
    (F.CV_OWCFG_THRESH, c.owThresh), (F.CV_OWCFG_INTERVAL, c.owInterval)]).loadChain m n c

/-- CV_REF.SRC of every converter of a group (R12, R51). -/
def State.showRef (s : State) (g : Nat) : State :=
  let code := (s.groupSource g).code
  s.forGroup g (fun s n => s.setF F.CV_REF_SRC n code)

/-- The stored coefficients of the inputs `l` of a converter, or uncalibrated (R63). -/
def State.loadCal (s : State) (n : Nat) (l : List Nat) : State :=
  l.foldl (fun s i =>
    let (off, gain) := (s.calLoad (8 * n + i)).getD (0, 2 ^ 30)
    ((s.setF F.CV_OFF_OFF n (unsext 32 off) i).setF F.CV_GAIN_GAIN n gain i).setBitF F.CV_CALSTAT_UNCAL n i
      (s.calLoad (8 * n + i)).isNone) s

/-- A used converter powers up with its group, its first conversion to carry SEQ 0 (R44, R365 step 4). -/
def State.powerConv (s : State) (n : Nat) : State :=
  let s := (s.setF F.CV_STAT_PD n 0).setF F.CV_QSTAT_LASTSEQ n 0
  let s := s.updConv n (fun x => { slotTick := x.slotTick, ow := List.replicate 8 { nextAt := s.now } })
  if (s.ref (n / 8)).powered then s
  else ((s.updRef (n / 8) (fun r => { r with powered := true })).settleRef (n / 8)).measureRef (n / 8)

/-- The converters that the image uses. -/
def Image.usedConvs (m : Image) : List (Nat × ConvCfg) := m.convs.filter (fun p => !(m.assignedOf p.1).isEmpty)

def LaneMode.code : LaneMode → Nat
  | .unused => 0
  | .tile => 1
  | .peer => 2
  | .eth1g => 3
  | .eth10g => 4

/-- Transmit settings of a lane (R259). -/
def State.loadTx (s : State) (n : Nat) (c : LaneCfg) : State :=
  s.setFs n [(F.LN_TXEQ_SWING, c.swing), (F.LN_TXEQ_PRE, c.pre), (F.LN_TXEQ_POST, c.post)]

/-- Ethernet port settings of a lane (R279, R300, R301). -/
def State.loadPort (s : State) (n : Nat) (c : LaneCfg) : State :=
  s.setFs n [(F.LN_ETHCFG_PB, b2n c.pb), (F.LN_ETHCFG_SB, b2n c.sb), (F.LN_ETHCFG_PTPEN, b2n c.ptpTb.isSome),
    (F.LN_ETHCFG_PTPTB, c.ptpTb.getD 0), (F.LN_ETHCFG_TCEN, b2n c.pairLane.isSome), (F.LN_ETHCFG_PAIRLANE, c.pairLane.getD 0),
    (F.LN_LATCOMP_TXLAT, c.txLat), (F.LN_LATCOMP_RXLAT, c.rxLat)]

/-- Start values and bounds of the equaliser (R259). -/
def State.loadEq (s : State) (n : Nat) (c : LaneCfg) : State :=
  let at_ (l : List Int) (p : Nat) : Nat := unsext 8 (l.getD p 0)
  let s := s.setFs n [(F.LN_CTLE_VALUE, at_ c.eqStart 0), (F.LN_CTLE_MIN, at_ c.eqMin 0), (F.LN_CTLE_MAX, at_ c.eqMax 0)]
  (List.range 5).foldl (fun s p => ((s.setF F.LN_DFE_VALUE n (at_ c.eqStart (p + 1)) p).setF F.LN_DFE_MIN n
    (at_ c.eqMin (p + 1)) p).setF F.LN_DFE_MAX n (at_ c.eqMax (p + 1)) p) s

/-- The chain settings of a tile lane (R232). -/
def State.loadTc (s : State) (n : Nat) (c : ChainCfg) : State :=
  s.setFs n [(F.LN_TCCFG_PERIOD, c.period), (F.LN_TCCFG_SECTION, c.section_), (F.LN_TCCFG_RING, b2n c.ring),
    (F.LN_TCCFG_TILES, c.tiles.length)]

/-- The tag with which frames to each tile of a lane are sent (R255). -/
def State.loadTags (s : State) (n : Nat) : State :=
  (List.range (s.chainN n)).foldl (fun s a => s.updDevTile n a (fun d => { d with ctag := s.imgCtag n a })) s

/-- A lane of the image. -/
def State.loadLane (s : State) (m : Image) (n : Nat) : State :=
  let c := m.lane n
  let s := (((s.setF F.LN_CFG_MODE n c.mode.code).loadTx n c).loadPort n c).loadEq n c
  match Tab.find m.chains n with
  | some ch => (s.loadTc n ch).loadTags n
  | none => s

/-- Settings of a time base (R293). -/
def State.loadTb (s : State) (m : Image) (k : Nat) : State :=
  let c := m.tb k
  s.setFs k [(F.TB_CFG_SRC, m.tbSrc k), (F.TB_CFG_DOMAIN, m.tbDomain k), (F.TB_CFG_LOCKTH, c.lockTh), (F.TB_CFG_HOLD, c.hold),
    (F.TB_CFG_PPSPOL, b2n c.ppsFall), (F.TB_CFG_PPSOUT, c.ppsOut)]

/-- Settings of a logic core (R222). -/
def State.loadCore (s : State) (k : Nat) (c : CoreCfg) : State :=
  s.setFs k [(F.LC_CFG_DEADLINE, c.deadline), (F.LC_CFG_ASEC, c.asec), (F.LC_CFG_WARM, b2n c.warm), (F.LC_RET_NV, c.nv),
    (F.LC_RET_NC, c.nc), (F.LC_PROG_LEN, c.program.length)]

/-- Feeders and engines (R9, R165, R363): every engine is ON, each section's first master is the image's. -/
def State.loadEngines (s : State) (m : Image) : State :=
  let s := { s with feeders := m.feeders.map (fun (p : Nat × FeederCfg) => (p.1, p.2.place (p.1 / 64))) }
  let s := m.feeders.foldl (fun s p => s.putFstat p.1 p.2) s
  let s := s.forN 24 (fun s k => s.setF F.SEC_MASTER_CUR k (m.sec k).master)
  s.forN 192 (fun s e => ((s.setFs e [(F.PE_STAT_STATE, 2), (F.PE_UCVER_VERSION, m.ucVersion),
    (F.PE_STAT_MASTER, b2n (s.master (e / 8) == e))]).syncEngine e))

/-- Every table of the image (step 3 of R365). -/
def State.loadImage (s : State) (m : Image) : State :=
  let s := { s with cfg := some m }
  let s := s.forN 24 (fun s k => (s.loadSection m k).setF F.SEC_CFGVER_VERSION k m.version)
  let s := s.loadEngines m
  let s := m.usedConvs.foldl (fun s p => (s.loadConv m p.1 p.2).loadCal p.1 (m.assignedOf p.1)) s
  let s := s.forN 4 (fun s g => s.showRef g)
  let s := s.forN 32 (fun s n => s.loadLane m n)
  let s := s.forN 4 (fun s k => s.loadTb m k)
  let s := m.cores.foldl (fun s p => s.loadCore p.1 p.2) s
  let s := s.setFs 0 [(F.PR_CFG_PAIRID, m.pair.pairId), (F.PR_CFG_REFSEC, m.pair.refSec), (F.PR_CFG_SIDE, b2n m.pair.sideB),
    (F.PR_CFG_EN, b2n m.pair.en), (F.DEV_IMGVER_VERSION, m.version), (F.DEV_REV_FW, m.fwRev)]
  (s.forN 24 (fun s k => s.setRing k)).createPinned.roleRanges false

/-! ## The save set at start (R150) -/

/-- The row of R150 that applies: 0 with the cooling since the saving, 1 as saved, 2 θinit. -/
def State.thermalRow (s : State) : Nat :=
  match s.log.newest with
  | some n =>
    if s.savePcc n + 1 != s.getF F.EL_PWRCNT_PCC then 2
    else if s.evRead (saveAddr n + 16) 1 == [1] && s.log.rtcAtStart && s.log.rtcValid then 0 else 1
  | none => 2

/-- The set of the last power-down, if one is valid (R150, R224). -/
def State.lastSet (s : State) : Option Nat := if s.thermalRow = 2 then none else s.log.newest

/-- θ at start from the saved value, by the row. -/
def State.thetaAtStart (s : State) (n row : Nat) (c : ThCfg) (saved : Nat) : Rat :=
  let off := s.rtcMs - leNat (s.evRead (saveAddr n + 10) 6)
  let t := (saved : Rat) / 1000
  if row = 0 then rnd (t * expQ (0 - ((off : Rat) / 1000) / (c.kc * c.tau * 60))) else t

/-- THERMAL_RESTORE: each TH instance takes its θ, and the record names the row (R150). -/
def State.restoreThermal (s : State) : State :=
  let row := s.thermalRow
  let ths := s.img.feeders.flatMap (fun p => p.2.elems.filterMap (fun e => match e.2.kind with
    | .th c => some (p.1, e.1, c) | _ => none))
  let s := match s.lastSet with
    | some n => ths.foldl (fun (s : State) (x : Nat × Nat × ThCfg) =>
        let saved := leNat (s.evRead (saveAddr n + 64 + 2 * x.1) 2)
        if saved = 0xFFFF then s
        else
          let th := s.thetaAtStart n row x.2.2 saved
          s.updFeeder x.1 (fun y => y.updElem x.2.1 (fun el => { el with theta := th }))) s
    | none => s
  s.event 0x0401 0xFFFF 0xFFFF .none ([row] ++ le2 ths.length)

/-! ## IMAGE_CHECK_COMPLETE -/

/-- Records of the banks that are not valid, as R370 and R378 ask for them. -/
def State.bankRecord (s : State) (n : Nat) (f : Nat × Nat) : State :=
  s.event 0x0D02 0xFFFF 0xFFFF .none ([n, f.1] ++ le2 f.2)

/-- A bank that did not load: FALLBACK or UNFIN where its GEN is the higher one. -/
def State.otherBank (s : State) (n : Nat) (b loaded : Bank) : State :=
  match b.fault with
  | none => s
  | some f =>
    if !b.hasGen || decide (b.gen ≤ loaded.gen) then s
    else if f.1 = 10 then (s.setF F.DEV_IMGSTAT_UNFIN 0 1).event 0x0D03 0xFFFF 0xFFFF .none [n]
    else (s.setF F.DEV_IMGSTAT_FALLBACK 0 1).bankRecord n f

/-- The start record's image CRC is known and its writing may begin (step 2 of R365). -/
def State.fillStart (s : State) (hcrc : Nat) : State :=
  (s.updLog (fun l => { l with startWait := false, queue := l.queue.map (fun (r : EvRec) =>
    if l.startWait && r.code == 1 then { r with data := r.data.take 8 ++ le4 hcrc ++ r.data.drop 12 } else r) })).startWrite

/-- The DRAM is trained in parallel (R333, R365). -/
def State.trainDram (s : State) (ok : Bool) : State :=
  if s.flag F.DR_STAT_READY || s.flag F.DR_STAT_DRAMFAIL then s
  else if ok then (s.setF F.DR_STAT_READY 0 1).setF F.DR_BLOCKS_FREE 0 8176
  else s.dramFail 0

/-- Step 4 of R365: converters and groups powered, lanes, chains and discipline started. -/
def State.powerUp (s : State) : State :=
  let m := s.img
  let s := m.usedConvs.foldl (fun s p => (s.powerConv p.1).chainStart p.1) s
  let s := s.forN 32 (fun s n => s.startLane n)
  let s := s.forN 4 (fun s k => if m.tbSrc k = 0 then s else s.enableTb k)
  (s.updPins (fun p => { p with lanesIdle := false })).updDev (fun d => { d with poweredAt := s.now })

/-- The image of bank `n` loads. -/
def State.loadBank (s : State) (n : Nat) (b : Bank) : State :=
  let m := b.image
  let s := s.setFs 0 [(F.DEV_IMGSTAT_OK, 1), (F.DEV_IMGSTAT_SIGNED, b2n m.signed), (F.DEV_IMGSTAT_KEY, b2n m.hasKey),
    (F.DEV_IMGSTAT_BANK, n), (F.DEV_STAT_STATE, 2)]
  let s := s.updDev (fun d => { d with gen := b.gen, image := s.bankBytes n 0 b.bytes.head.length })
  ((s.loadImage m).restoreThermal).powerUp

/-- Both banks have been checked and the DRAM training has ended (R365, R370, R372). -/
def State.imageChecked (s : State) (b0 b1 : Bank) (dramOk : Bool) : State :=
  if !s.pins.porn || s.getF F.DEV_STAT_STATE != 1 then s
  else
    let last := match b1.fault with | some f => f | none => b0.fault.getD (0, 0)
    let s := s.setFs 0 [(F.DEV_IMGSTAT_CAUSE, last.1), (F.DEV_IMGSTAT_BLOCK, last.2)]
    let s := s.trainDram dramOk
    match bankLoaded b0 b1 with
    | none =>
      let s := ((s.setF F.DEV_STAT_STATE 0 4).bankRecord 0 (b0.fault.getD (0, 0))).bankRecord 1 (b1.fault.getD (0, 0))
      s.fillStart 0
    | some 0 => ((s.otherBank 1 b1 b0).fillStart b0.image.hcrc).loadBank 0 b0
    | some _ => ((s.otherBank 0 b0 b1).fillStart b1.image.hcrc).loadBank 1 b1

def execImageCheckComplete (b0 b1 : BankView) (dramOk : Bool) (s : State) : Host.Outcome State Fault Refusal :=
  .next (s.imageChecked (s.readBank 0 b0) (s.readBank 1 b1) dramOk)

/-! ## GRID_START (step 4 of R365) -/

/-- Every used reference group has settled. -/
def State.refsReady (s : State) : Bool := s.img.usedConvs.all (fun p => s.flag F.CV_STAT_REFRDY p.1)

/-- The grids of all 24 sections start on one core clock. -/
def State.startGrids (s : State) : State :=
  if s.getF F.DEV_STAT_STATE != 2 || (s.sec 0).running then s
  else
    let s := if s.refsReady then s else s.advanceTo (s.dev.poweredAt + 5 * msClk)
    s.forN 24 (fun s k =>
      let nom := (s.img.sec k).nomFreq
      (s.updSec k (fun x => x.start s.now nom)).setRate k ((nom : Rat) / 10000))

def execGridStart (s : State) : Host.Outcome State Fault Refusal := .next s.startGrids

/-! ## PROTECTION_ACTIVE (R366) -/

/-- The conditions of R366. -/
def State.mayProtect (s : State) : Bool :=
  (List.range 24).all (fun k => (s.sec k).running) &&
  (List.range 32).all (fun n => s.laneMode n == 0 || s.laneState n == 2) &&
  s.img.chains.all (fun p => !(s.lane p.1).everUp || (s.lane p.1).enumerated)

/-- The program CRC that the set holds for a core, and its retained words. -/
def State.setCrc (s : State) (n k : Nat) : Nat := leNat (s.evRead (saveAddr n + 3136 + 1040 * k) 4)
def State.setWord (s : State) (n k i : Nat) : Nat := leNat (s.evRead (saveAddr n + 3152 + 1040 * k + 4 * i) 4)

/-- The start of a core at power-up: warm with the words of a valid set of the last power-down, else cold (R224). -/
def State.startCore (s : State) (k : Nat) : State :=
  let g := s.coreCfg k
  if !s.hasProgram k then s
  else
    let s := s.restartCore k false
    let s := match s.lastSet with
      | some n =>
        if !g.warm then s
        else if s.setCrc n k != s.img.progCrc k then (s.setF F.LC_STAT_FALLBACK k 1).event 0x0703 k 0xFFFF .none [1]
        else
          let words (i : Nat) := s.setWord n k i
          (s.setF F.LC_STAT_RESTORED k 1).updCore k (fun c => { c with
            restored := true
            vars := (List.range g.nv).map (fun v => (v, Entry.ofWord (words v)))
            ctrs := (List.range g.nc).map (fun i => (i, ({ n := sext 32 (words (g.nv + i)) } : CtrSt))) })
      | none => if g.warm then (s.setF F.LC_STAT_FALLBACK k 1).event 0x0703 k 0xFFFF .none [0] else s
    s.updCore k (fun c => c.keep g)

/-- Protection becomes active: STATE, ACTT, the record, the cores, and the role of a device that is not part of a pair
(R308, R365). -/
def State.protect (s : State) : State :=
  if s.getF F.DEV_STAT_STATE != 2 || !s.mayProtect then s
  else
    let actt := min 4095 ((s.now - s.dev.countAt) / msClk)
    let s := ((s.setF F.DEV_STAT_STATE 0 3).setF F.DEV_STAT_ACTT 0 actt).event 0x0D01 0xFFFF 0xFFFF .none (le2 actt)
    let s := s.forN 4 (fun s k => s.startCore k)
    let s := if s.paired then (s.updPair (fun p => { p with listenAt := some s.now, sawActive := none })).syncRole
      else (((s.setF F.PR_STAT_ACTIVE 0 1).setF F.PR_CLAIM_G 0 1).roleRanges true).syncRole
    ({ s with lanes := s.lanes.map (fun (l : Nat × LaneSt) => (l.1, { l.2 with periodEnd := s.now })) } : State).published

def execProtectionActive (s : State) : Host.Outcome State Fault Refusal := .next s.protect

/-! ## RELOAD (R372) -/

/-- A write of DEV_CTRL.RELOAD: in NO_IMAGE the steps from the image check on are repeated. -/
def State.reload (s : State) : State :=
  if s.getF F.DEV_STAT_STATE != 4 then s
  else (s.setF F.DEV_STAT_STATE 0 1).updDev (fun d => { d with countAt := s.now })

def execReload (s : State) : Host.Outcome State Fault Refusal := .next s.reload

end Sys2Proof.Machine
end

