-- ==== Sys2Proof/Machine/Engines.lean ====
section
/-! DEFINITION. Evacuation and return of engines, feeder migration and microcode rollout (R380 to R383). -/

namespace Sys2Proof.Machine

def State.engState (s : State) (e : Nat) : Nat := s.getF F.PE_STAT_STATE e

/-- The engine may receive a migrating feeder: ON, not the master, neither DIVERGE nor DLMISS (R380). -/
def State.mayReceive (s : State) (e : Nat) : Bool :=
  s.engState e == 2 && s.master (e / 8) != e && !s.flag F.PE_PLYSTAT_DIVERGE e && !s.flag F.PE_PLYSTAT_DLMISS e

/-- The other engines of a rank. -/
def rankOf (e : Nat) : List Nat := ((List.range 8).map (fun r => 8 * (e / 8) + r)).filter (fun x => x != e)

/-- The conditions of R380. An evacuated master needs an engine to follow it. -/
def State.mayEvacuate (s : State) (e : Nat) : Bool :=
  let room := ((rankOf e).filter s.mayReceive).map (fun x => 12 - (s.held x).length)
  decide ((s.held e).length ≤ room.sum) &&
    (rankOf e).all (fun x => s.engState x != 1 && s.engState x != 3) &&
    !(match s.pair.contest with | some c => bitOf c.ranks (e / 8) | none => false) &&
    (s.master (e / 8) != e || (s.nextEligible (e / 8) (e % 8)).isSome)

/-- The engine enters STOPPING: its plies are squashed, and a master's rotation comes first (R167, R198, R380). -/
def State.beginEvac (s : State) (e : Nat) : State :=
  let k := e / 8
  let s := (s.setF F.PE_STAT_STATE e 3).squashAll .other (fun p => p.engine == e)
  let s := s.updEngine e (fun g => { g with roundDue := false })
  if s.master k = e then
    let h := s.cycleAfterNext k
    let r := (s.nextEligible k (e % 8)).getD (e % 8)
    (s.updEngine e (fun g => { g with evacFrom := some h })).updSec k
      (fun x => { x with rotEvac := some { h := h, req := r, cause := 1 } })
  else s.updEngine e (fun g => { g with evacFrom := some (s.sec k).nextDue })

/-- The engine starts: the known-answer self-test runs (R382). -/
def State.beginReturn (s : State) (e : Nat) : State :=
  (s.setF F.PE_STAT_STATE e 1).updEngine e (fun g => { g with testing := true, returnFrom := none })

/-- STOPPING ends: OFF, and STARTING on the same core clock where a return waits (R364). -/
def State.engineOff (s : State) (e : Nat) : State :=
  let s := (s.setF F.PE_STAT_STATE e 0).updEngine e (fun g => { g with evacFrom := none })
  if s.flag F.PE_STAT_PENDON e then (s.setF F.PE_STAT_PENDON e 0).beginReturn e else s

/-- An engine that is no longer master and holds no feeder enters OFF (R381). -/
def State.evacDone (s : State) (e : Nat) : State :=
  if s.engState e = 3 ∧ (s.held e).isEmpty ∧ s.master (e / 8) ≠ e then s.engineOff e else s

/-- PE_CTRL.EVAC (R364, R380). -/
def State.evac (s : State) (e : Nat) : State :=
  if !decide (e < 192) then s else
  match s.engState e with
  | 1 => if s.mayEvacuate e then s.setF F.PE_STAT_PENDOFF e 1 else s.setF F.PE_STAT_EVREF e 1
  | 2 => if s.mayEvacuate e then (s.beginEvac e).evacDone e else s.setF F.PE_STAT_EVREF e 1
  | 3 => s.setF F.PE_STAT_PENDON e 0
  | _ => s

def execEvac (e : Nat) (s : State) : Host.Outcome State Fault Refusal := .next (s.evac e)

/-- PE_CTRL.RETURN (R364, R382); in NO_IMAGE and before an image loads the engines stay OFF (R372). -/
def State.return_ (s : State) (e : Nat) : State :=
  if !decide (e < 192) || s.cfg.isNone then s else
  match s.engState e with
  | 0 => s.beginReturn e
  | 1 => s.setF F.PE_STAT_PENDOFF e 0
  | 3 => s.setF F.PE_STAT_PENDON e 1
  | _ => s

def execReturn (e : Nat) (s : State) : Host.Outcome State Fault Refusal := .next (s.return_ e)

/-! ## Rollout (R383) -/

/-- DEV_STAT.UCMIX follows the versions. -/
def State.syncUcmix (s : State) : State :=
  let v := s.getF F.PE_UCVER_VERSION 0
  s.setF F.DEV_STAT_UCMIX 0 (b2n ((List.range 192).any (fun e => s.getF F.PE_UCVER_VERSION e != v)))

/-- The rollout of a rank goes on with its lowest engine that still has the old microcode, once no engine of the rank is
on its way. -/
def State.rolloutNext (s : State) (k : Nat) : State :=
  let rank := (List.range 8).map (fun r => 8 * k + r)
  if rank.any (fun e => s.engState e == 1 || s.engState e == 3) then s
  else match rank.find? (fun e => (s.engine e).rollout) with
    | some e => if s.engState e = 2 ∧ s.mayEvacuate e then (s.beginEvac e).evacDone e else s
    | none => s

/-- The rollout of every rank has ended; the package then waits for its commit (R378). -/
def State.rolloutDone (s : State) : State :=
  if s.flag F.DEV_CHGSTAT_ROLL && (List.range 192).all (fun e => !(s.engine e).rollout && s.engState e != 1 && s.engState e != 3) then
    { (s.setF F.DEV_CHGSTAT_ROLL 0 0) with change := s.change.map (fun (c : Change) => { c with rolling := false }) }
  else s

/-- A package ends with a result: RESULT, DONE, record 0x0D05 (R374, R375). -/
def State.endPackage (s : State) (result version : Nat) : State :=
  let s := s.setFs 0 [(F.DEV_CHGSTAT_RESULT, result), (F.DEV_CHGSTAT_DONE, 1), (F.DEV_CHGSTAT_PEND, 0), (F.DEV_CHGSTAT_ROLL, 0),
    (F.DEV_CHGSTAT_LEFT, 0)]
  ({ s with change := none } : State).event 0x0D05 0xFFFF 0xFFFF .none (result :: le4 version)

/-- A failed self-test ends the rollout on every rank, and the package with ROLLOUT; engines on their way out return. -/
def State.failRollout (s : State) : State :=
  match s.change with
  | some c =>
    if !c.rolling then s
    else
      let s := s.forN 192 (fun s e =>
        if (s.engine e).rollout then
          let s := s.updEngine e (fun g => { g with rollout := false })
          if s.engState e = 3 then s.setF F.PE_STAT_PENDON e 1 else s
        else s)
      s.endPackage 12 c.version
  | none => s

/-- MICROCODE_LOAD_COMPLETE: the engine that the rollout has brought OFF holds the new microcode and returns. -/
def State.loadMicrocode (s : State) (e : Nat) : State :=
  if s.engState e = 0 ∧ (s.engine e).rollout then
    let s := (s.setF F.PE_UCVER_VERSION e s.img.ucVersion).updEngine e (fun g => { g with rollout := false })
    (s.beginReturn e).syncUcmix
  else s

def execMicrocodeLoadComplete (e : Nat) (s : State) : Host.Outcome State Fault Refusal := .next (s.loadMicrocode e)

/-! ## Return (R382) -/

/-- Home feeders of an engine that other engines hold, in ascending position. -/
def State.homeAway (s : State) (e : Nat) : List Nat :=
  (s.img.feeders.filter (fun p => engineOf (p.1 / 64) p.2.slot == e && (s.feeder p.1).engine != e)).map Prod.fst

/-- STARTING ends: ON, and STOPPING on the same core clock where an accepted EVAC waits (R364, R380). -/
def State.engineOn (s : State) (e : Nat) : State :=
  let s := (s.setF F.PE_STAT_STATE e 2).updEngine e (fun g => { g with returnFrom := none })
  let s := if s.flag F.PE_STAT_PENDOFF e then
      ((s.setF F.PE_STAT_PENDOFF e 0).beginEvac e).evacDone e
    else s
  (s.rolloutNext (e / 8)).rolloutDone

/-- ENGINE_SELF_TEST_COMPLETE. -/
def State.selfTested (s : State) (e : Nat) (pass : Bool) : State :=
  if !(s.engine e).testing || s.engState e != 1 then s
  else
    let s := s.updEngine e (fun g => { g with testing := false })
    if pass then
      let s := s.updEngine e (fun g => { g with returnFrom := some (s.sec (e / 8)).nextDue })
      if (s.homeAway e).isEmpty then s.engineOn e else s
    else
      let s := s.setFs e [(F.PE_STAT_STATE, 0), (F.PE_STAT_KATFAIL, 1), (F.PE_STAT_PENDOFF, 0)]
      (s.event 0x0603 e 0xFFFF (.sec (e / 8))).failRollout

def execEngineSelfTestComplete (e : Nat) (pass : Bool) (s : State) : Host.Outcome State Fault Refusal := .next (s.selfTested e pass)

/-! ## Migration (R381) -/

/-- The slot that a feeder takes on an engine: that of its settings on its home engine, the lowest free one elsewhere. -/
def State.slotOn (s : State) (f e : Nat) : Nat :=
  let used := (s.held e).map (fun g => (s.feeder g).slot)
  let home := ((s.img.feeder f).map (fun c => (engineOf (f / 64) c.slot == e, c.slot % 12))).getD (false, 0)
  if home.1 && !used.contains home.2 then home.2 else ((List.range 12).find? (fun n => !used.contains n)).getD 0

/-- A feeder moves: its plies are squashed, its state goes with it. -/
def State.moveFeeder (s : State) (f e : Nat) : State :=
  let old := (s.feeder f).engine
  let s := s.squashAll .other (fun p => p.sec.isNone && p.feeder == f)
  let n := s.slotOn f e
  let s := s.updFeeder f (fun x => { x with engine := e, slot := n })
  (((s.syncEngine old).syncEngine e).syncConsec old).syncConsec e

/-- The engine that takes a migrating feeder: the one with the fewest feeders, the lowest number on a tie. -/
def State.receiver (s : State) (e : Nat) : Option Nat :=
  let l := ((rankOf e).filter (fun x => s.mayReceive x && decide ((s.held x).length < 12))).map (fun x => (x, (s.held x).length))
  (l.foldl (fun (o : Option (Nat × Nat)) x => match o with
    | some b => if x.2 < b.2 then some x else o
    | none => some x) none).map Prod.fst

/-- The epoch is one at which the section switches over. -/
def State.switchEpoch (s : State) (k m : Nat) : Bool :=
  (s.flag F.SEC_SWSTAT_PENDING k || (s.sec k).cfgFrom == m) && m % 128 == 0 && m / 128 % 2 ^ 32 == s.getF F.SEC_SWCYC_CYCLE k

/-- One engine at epoch `m`: its next feeder leaves, or its next home feeder returns. -/
def State.migrate (s : State) (m e : Nat) : State :=
  match (s.engine e).evacFrom, (s.engine e).returnFrom with
  | some t, _ =>
    if m < t ∨ s.master (e / 8) = e then s
    else match s.heldBySlot e, s.receiver e with
      | f :: _, some x => ((s.moveFeeder f x).updEngine e (fun g => { g with evacFrom := some (m + 1) })).evacDone e
      | [], _ => s.evacDone e
      | _, none => s
  | none, some t =>
    if m < t then s
    else match s.homeAway e with
      | f :: _ =>
        let s := (s.moveFeeder f e).updEngine e (fun g => { g with returnFrom := some (m + 1) })
        if (s.homeAway e).isEmpty then s.engineOn e else s
      | [] => s.engineOn e
  | none, none => s

/-- FEEDER_MIGRATION: in the window of the epoch that has become due, one feeder of each engine of the rank on its way
moves. -/
def State.migration (s : State) (k : Nat) : State :=
  if !decide (k < 24) || (s.sec k).nextDue == 0 then s
  else
    let m := (s.sec k).nextDue - 1
    if s.switchEpoch k m then s
    else ((List.range 8).foldl (fun s r => s.migrate m (8 * k + r)) s).rolloutNext k

def execFeederMigration (k : Nat) (s : State) : Host.Outcome State Fault Refusal := .next (s.migration k)

end Sys2Proof.Machine
end

