-- ==== Sys2Proof/Machine/Change.lean ====
section
/-! DEFINITION. Change packages, switch-overs and mixed versions (R36, R373 to R379, R386). -/

namespace Sys2Proof.Machine

/-! ## Which section a block belongs to (R369, R373) -/

/-- The settings of `old` with every part of section `k` taken from `new`. -/
def Image.withSection (old new : Image) (k : Nat) : Image :=
  let part {α : Type} (mine : Nat × α → Bool) (mineNew : Nat × α → Bool) (a b : Tab α) : Tab α :=
    (b.filter mineNew).foldl (fun t p => Tab.set t p.1 p.2) (a.filter (fun p => !mine p))
  let conv (m : Image) (p : Nat × ConvCfg) : Bool := p.2.section_ == k && !(m.assignedOf p.1).isEmpty
  { old with
    dir := old.dir.filter (fun d => !old.dirOf k d) ++ new.dir.filter (fun d => new.dirOf k d)
    secs := match Tab.find new.secs k with | some c => Tab.set old.secs k c | none => old.secs
    feeders := part (fun p => p.1 / 64 == k) (fun p => p.1 / 64 == k) old.feeders new.feeders
    convs := part (conv old) (conv new) old.convs new.convs
    chains := old.chains.map (fun p => if p.2.section_ = k then
        (p.1, { p.2 with tiles := ((Tab.find new.chains p.1).getD p.2).tiles }) else p)
    svSubs := part (fun p => p.2.section_ == k) (fun p => p.2.section_ == k) old.svSubs new.svSubs
    svPubs := part (fun p => p.2.feeder / 64 == k) (fun p => p.2.feeder / 64 == k) old.svPubs new.svPubs }

/-- The settings of `old` with what switches over at the anchor taken from `new` (R373). -/
def Image.withAnchor (old new : Image) : Image :=
  let unused (m : Image) (p : Nat × ConvCfg) : Bool := (m.assignedOf p.1).isEmpty
  let anchor (d : DirEntry) : Bool := d.type == 1 || d.type == 6 || d.type == 7 || d.type == 8 || d.type == 9
  { old with
    dir := old.dir.filter (fun d => !anchor d) ++ new.dir.filter anchor
    convs := (new.convs.filter (unused new)).foldl (fun t p => if (Tab.find t p.1).isSome then t else Tab.set t p.1 p.2)
      (old.convs.filter (fun p => !unused old p))
    chains := old.chains.map (fun p => match Tab.find new.chains p.1 with
      | some c => (p.1, { p.2 with period := c.period, ring := c.ring })
      | none => p)
    lanes := new.lanes, cores := new.cores, tbs := new.tbs, goPubs := new.goPubs, goSubs := new.goSubs, rules := new.rules
    flood := new.flood, slowUs := new.slowUs, ucVersion := new.ucVersion, fwRev := new.fwRev }

/-! ## The check of a package (R373, R374, R377) -/

/-- A package as the device checks it: what its checks find, its bytes, its schedule, and the image that results. -/
structure Package where
  view : PackageView
  bytes : ImgRead
  schedule : List (Nat × Nat)
  scheduleOk : Bool
  image : Image

def State.readPackage (s : State) (v : PackageView) : Package :=
  let r := s.pkgRead
  let m := s.mergedImage
  { view := v, bytes := r, schedule := s.pkgSchedule r, scheduleOk := s.scheduleOk r, image := v.image.under m.1 m.2 s.newTiles }

def Package.version (p : Package) : Nat := p.bytes.head.version

/-- The package carries microcode: a block of type 8. -/
def Package.microcode (p : Package) : Bool := p.bytes.dir.any (fun d => d.type == 8)

/-- The package is signed with the running image's key, and the blocks of microcode and firmware that it brings with Brodurn's (R373). -/
def Package.sigOk (p : Package) : Bool := p.bytes.head.signed && p.bytes.sigOk && p.bytes.vendorBad.isNone

/-- MAGIC, LAYOUT, HCRC and block CRCs are right (R374). -/
def Package.formatOk (p : Package) : Bool :=
  p.bytes.head.magic == packageMagic && p.bytes.head.layout == 1 && p.bytes.hcrcOk && p.bytes.badBlock.isNone

/-- The sections that a package touches: those whose CVER would change, and the anchor. -/
def State.touched (s : State) (p : Package) : List Nat :=
  (List.range 24).filter (fun k => p.image.cver k != s.img.cver k || (p.schedule.head?.map Prod.fst) == some k)

/-- The package changes an item that changes only at a start (R377). -/
def Image.startOnly (old new : Image) : Bool :=
  (List.range 24).any (fun k => (old.sec k).delay != (new.sec k).delay || (old.sec k).nom60 != (new.sec k).nom60) ||
  (List.range 32).any (fun n => match old.conv n, new.conv n with
    | some a, some b => a.section_ != b.section_
    | _, _ => false) ||
  (List.range 32).any (fun n => decide ((old.lane n).mode ≠ .unused) && decide ((old.lane n).mode ≠ (new.lane n).mode)) ||
  old.chains.map (fun c => (c.1, c.2.section_)) != new.chains.map (fun c => (c.1, c.2.section_)) ||
  decide (old.pair ≠ new.pair) ||
  new.goPubs.any (fun p => match Tab.find old.goPubs p.1 with | some q => q.both != p.2.both | none => false) ||
  new.svPubs.any (fun p => match Tab.find old.svPubs p.1 with | some q => q.both != p.2.both | none => false)

/-- The switch-over lies at least 16 cycles ahead of the section's angle. -/
def State.farAhead (s : State) (x : Nat × Nat) : Bool :=
  decide (s.theta x.1 + 16 * 65536 ≤ ((65536 * s.cycleOf x.1 x.2 : Nat) : Rat))

/-- A touched section stands on the base version; the anchor's is DEV_IMGVER. -/
def State.onBase (s : State) (p : Package) (k : Nat) : Bool :=
  if (p.schedule.head?.map Prod.fst) = some k then s.getF F.DEV_IMGVER_VERSION == p.bytes.head.gen
  else s.getF F.SEC_CFGVER_VERSION k == p.bytes.head.gen

/-- The result code of R374: the first check that fails, or 1. Sizes of the package that R368 does not allow count as INVALID, bytes of
the schedule that are no entries as SCHEDULE (log entry 166). -/
def State.packageResult (s : State) (p : Package) : Nat :=
  let t := s.touched p
  if s.change.isSome then 2
  else if !s.img.hasKey then 3
  else if !p.sigOk then 4
  else if !p.formatOk then 5
  else if !t.all (s.onBase p) then 6
  else if p.bytes.badSize.isSome || !s.mergedFits || p.image.ruleFault.isSome then 7
  else if s.img.startOnly p.image then 8
  else if !(p.scheduleOk && t.all (fun k => p.schedule.any (fun x => x.1 == k)) && p.schedule.all (fun x => t.contains x.1)) then 9
  else if !p.view.storeOk then 10
  else if !p.schedule.all s.farAhead then 9
  else 1

/-- The package is accepted: its switch-overs are pending (R374, R375). -/
def State.acceptPackage (s : State) (p : Package) : State :=
  let s := p.schedule.foldl (fun s x => (s.setF F.SEC_SWCYC_CYCLE x.1 x.2).setF F.SEC_SWSTAT_PENDING x.1 1) s
  let left := p.schedule.map Prod.fst
  let s := s.setFs 0 [(F.DEV_CHGSTAT_RESULT, 1), (F.DEV_CHGSTAT_PEND, 1), (F.DEV_CHGSTAT_LEFT, left.length),
    (F.DEV_CHGVER_VERSION, p.version)]
  { s with change := some { image := p.image, bytes := s.mergedBytes, version := p.version, anchor := left.headD 0, left := left
                            microcode := p.microcode } }

/-- The checks before the storing of the new bank pass, so that it is written (R374). -/
def State.stored (s : State) (p : Package) : Bool :=
  s.packageResult { p with view := { p.view with storeOk := false } } == 10

/-- The checks that CHGEND started have ended, with the storage of the new bank. -/
def State.packageChecked (s : State) (p : Package) : State :=
  if !s.dev.storing then s
  else
    let r := s.packageResult p
    let s := s.onlyIf (s.stored p) (fun s => s.storeBank p.view.storeOk)
    let s := s.updDev (fun d => { d with storing := false })
    if r = 1 then s.acceptPackage p
    else if r = 2 then
      (s.setFs 0 [(F.DEV_CHGSTAT_RESULT, 2), (F.DEV_CHGSTAT_DONE, 1)]).event 0x0D05 0xFFFF 0xFFFF .none (2 :: le4 p.version)
    else s.endPackage r p.version

def execPackageCheckComplete (p : PackageView) (s : State) : Host.Outcome State Fault Refusal := .next (s.packageChecked (s.readPackage p))

/-! ## CHGABORT (R375) -/

/-- Before the first switch-over every switch-over is cancelled; after it the command is ignored with ABREF. -/
def State.abortChange (s : State) : State :=
  match s.change with
  | none => s
  | some c =>
    if c.started then s.setF F.DEV_CHGSTAT_ABREF 0 1
    else (c.left.foldl (fun s k => s.setF F.SEC_SWSTAT_PENDING k 0) s).endPackage 11 c.version

def execDevChgabort (s : State) : Host.Outcome State Fault Refusal := .next s.abortChange

/-! ## SWITCH_OVER (R376) -/

/-- DEV_STAT.MIXED follows the versions; entering and leaving the state set MIXEVT and write a record (R379). -/
def State.syncMixed (s : State) : State :=
  let v := (List.range 24).map (fun k => s.getF F.SEC_CFGVER_VERSION k)
  let lo := v.foldl min (s.getF F.SEC_CFGVER_VERSION 0)
  let hi := v.foldl max 0
  let mixed := lo != hi
  if mixed = s.flag F.DEV_STAT_MIXED then s
  else ((s.setF F.DEV_STAT_MIXED 0 (b2n mixed)).setF F.DEV_STAT_MIXEVT 0 1).event 0x0D04 0xFFFF 0xFFFF .none
    (b2n mixed :: (le4 lo ++ le4 hi))

/-- The source of an entry of the reference list: feeder or time base. -/
def SectionCfg.refSource (c : SectionCfg) (n : Nat) : Option Nat := if n = 3 then some c.ref3Tb else (c.refs.getD n {}).src

/-- Entries whose source changes lose their qualification and are chosen again; the others keep it. -/
def State.switchRefs (s : State) (k : Nat) (o c : SectionCfg) : State :=
  (List.range 4).foldl (fun s n =>
    if o.refSource n = c.refSource n then s
    else
      let s := (s.setBitF F.SEC_REF_STAT_VALID k n false).setBitF F.SEC_REF_STAT_QUAL k n false
      s.updSec k (fun x => { x with entries := modAt x.entries n (fun _ => { freq := c.nomFreq, lost := true }) })) s

/-- Added feeders take their places with empty windows: on their home engine where it is ON and has room, which the master has
for 8 and another engine for 12 (R166, R381), else where a migrating feeder would go. -/
def State.addFeeders (s : State) (k : Nat) (o : Image) : State :=
  ((s.img.feedersOf k).filter (fun p => (o.feeder p.1).isNone)).foldl (fun s p =>
    let home := engineOf k p.2.slot
    let room := if s.master k = home then 8 else 12
    let e := if s.engState home = 2 ∧ (s.held home).length < room then home else (s.receiver home).getD home
    let n := s.slotOn p.1 e
    (({ s with feeders := Tab.set s.feeders p.1 { p.2.place k with engine := e, slot := n } } : State).putFstat p.1 p.2).syncEngine e) s

/-- A change of a group's source clears REFRDY, and the new source settles, judged by its own range (R51, R52). -/
def State.switchRefGroup (s : State) (g : Nat) (o : Image) : State :=
  if s.groupSource g = o.groupSource g then s
  else
    let s := s.showRef g
    if !(s.ref g).powered then s
    else (((s.refLose g).forGroup g (fun s n => s.setF F.CV_STAT_RATIO n 0)).settleRef g).measureRef g

/-- A converter powers down: its conversions, requests, tests and session end, its queue empties, and its slot entries read as
disabled (R40; log entry 133). -/
def State.unpowerConv (s : State) (n : Nat) : State :=
  let s := if (s.conv n).cal.isSome then s.calEnd n 11 else s
  let s := (List.range 8).foldl (fun s k => s.setF (slotEnF k) n 0) s
  let s := (s.chainStopNow n).setFs n [(F.FC_STAT_PENDING, 0), (F.CV_STAT_PD, 1), (F.CV_CFG_INUSE, 0), (F.CV_CFG_OWEN, 0)]
  let s := s.updChain n (fun c => { c with startWait := false, pendOff := false, due := [] })
  ((s.updConv n (fun x => { slotTick := x.slotTick })).showConv n).showQueue n

/-- A converter block switches over: the chain is brought to STOPPED, loaded, and starts at the next slot instant. A
converter that is no longer used powers down. -/
def State.switchConv (s : State) (k n : Nat) (o : Image) : State :=
  let m := s.img
  let was := (o.conv n).filter (fun c => c.section_ == k && !(o.assignedOf n).isEmpty)
  let is := (m.conv n).filter (fun c => c.section_ == k && !(m.assignedOf n).isEmpty)
  match was, is with
  | none, none => s
  | some _, none =>
    let s := s.unpowerConv n
    if (List.range 8).any (fun i => s.convOn (8 * (n / 8) + i)) then s
    else (s.updRef (n / 8) (fun r => { r with powered := false })).forGroup (n / 8) (fun s i =>
      s.setFs i [(F.CV_STAT_REFRDY, 0), (F.CV_STAT_RATIO, 0), (F.CV_REF_VMON, 0)])
  | none, some c =>
    let s := ((s.loadConv m n c).loadCal n (m.assignedOf n)).powerConv n
    let e := (s.sec k).nextSample - 1
    let s := s.updChain n (fun x => { x with inps := x.inps.map (fun (i : InpChain) => { i with epoch := max i.epoch e }) })
    (s.updConv n (fun x => { x with slotTick := max x.slotTick (512 * e) })).chainBegin n
  | some a, some b =>
    if a = b ∧ o.assignedOf n = m.assignedOf n then s
    else
      let s := if s.getF F.FC_STAT_STATE n = 0 then s else s.chainStopNow n
      let s := s.updChain n (fun c => { c with due := [] })
      let new := (m.assignedOf n).filter (fun i => !(o.assignedOf n).contains i)
      (((s.setF F.FC_STAT_PENDING n 0).loadConv m n b).loadCal n new).chainBegin n

/-- Tiles whose configuration changes are written and read back, in ascending order (R255). -/
def State.switchTiles (s : State) (k : Nat) (o : Image) : State :=
  match s.img.chainOf k with
  | none => s
  | some (lane, c) =>
    let old := (Tab.find o.chains lane).getD {}
    let s := s.loadTc lane c
    let s := (List.range c.tiles.length).foldl (fun s a =>
      if ((old.tiles[a]?).map (fun t => t.ctag a old.period)) = some (s.imgCtag lane a) then s else s.reconfigure lane a) s
    let s := if s.isActive && old.tiles.length != c.tiles.length && !(s.lane lane).svcWritten then s.roleRange lane true else s
    s.syncTiles lane

/-- Streams: removed ones are discarded, added ones begin with the first epoch of the new configuration (R376). -/
def State.switchStreams (s : State) (k e : Nat) (o : Image) : State :=
  let m := s.img
  let changed := fun (p : Nat × SvSub) => Tab.find o.svSubs p.1 != some p.2
  s.updSec k (fun x => { x with
    svPoints := x.svPoints.filter (fun p => match Tab.find m.svSubs p.1 with | some c => !changed (p.1, c) | none => false)
    svNext := (m.svSubs.filter (fun p => p.2.section_ == k && changed p)).foldl (fun t p => Tab.set t p.1 e) x.svNext
    svDone := x.svDone.filter (fun p => match Tab.find m.svSubs p.1 with | some c => !changed (p.1, c) | none => false) })

/-- Pinned partner entries: those removed are freed, added ones created (R386). -/
def State.switchPartners (s : State) (o : Image) : State :=
  let keep := s.img.pinned
  let gone := o.pinned.filter (fun x => !keep.contains x)
  let s := gone.foldl (fun s x => match s.findPartner x.1 x.2.1 x.2.2.1 with
    | some n => ({ s with partners := Tab.del s.partners n } : State)
    | none => s) s
  s.createPinned

/-- The retained words of a core as written ones, by their numbers, before a program with other initial values (R223). -/
def CoreSt.settle (c : CoreSt) (g : CoreCfg) : CoreSt :=
  { c with vars := (List.range g.nv).map (fun v => (v, Tab.get c.vars (g.initVar v) v))
           ctrs := (List.range g.nc).map (fun v => (v, Tab.get c.ctrs {} v)) }

/-- The logic program of a core changes: a warm restart (R223); a core without a program is OFF. -/
def State.switchCore (s : State) (k : Nat) (o : Image) : State :=
  match Tab.find o.cores k, Tab.find s.img.cores k with
  | some a, some b =>
    if a = b then s else ((s.updCore k (fun c => c.settle a)).loadCore k b).restartCore k true
  | none, some b => (s.loadCore k b).restartCore k true
  | some _, none => ((s.invalidateCore k).setFs k [(F.LC_STAT_STATE, 0), (F.LC_PROG_LEN, 0)])
  | none, none => s

/-- A time base's settings change (R294, R376). -/
def State.switchTb (s : State) (k : Nat) (o : Image) : State :=
  let m := s.img
  let s := s.loadTb m k
  if o.tbSrc k = m.tbSrc k ∧ o.tbDomain k = m.tbDomain k then s
  else
    let s := s.disableTb k
    if m.tbSrc k = 0 then s else s.enableTb k

/-- Runs of repeat mode that are open under an old mode close (R348). -/
def State.switchFlood (s : State) (before : List (Nat × FloodMode)) : State :=
  before.foldl (fun s p => if s.floodMode p.1 = p.2 then s else match Tab.find s.log.flood p.1 with
    | some x => if x.open_ then s.closeRun p.1 else s
    | none => s) s

/-- What switches over at the anchor. -/
def State.switchAnchor (s : State) (new : Image) : State :=
  let o := s.img
  let before := s.log.flood.map (fun (p : Nat × FloodSt) => (p.1, s.floodMode p.1))
  let s := { s with cfg := some (o.withAnchor new) }
  let m := s.img
  let s := s.forN 32 (fun s n => (((s.setF F.LN_CFG_MODE n (m.lane n).mode.code).loadTx n (m.lane n)).loadPort n (m.lane n)))
  let s := m.chains.foldl (fun s c => if (Tab.find o.chains c.1) = some c.2 then s else s.switchTiles c.2.section_ o) s
  let s := s.forN 4 (fun s k => s.switchTb k o)
  let s := s.forN 4 (fun s k => s.switchCore k o)
  let s := { s with pubs := s.pubs.filter (fun (p : Nat × PubSt) => (Tab.find m.goPubs p.1).isSome)
                    subs := s.subs.filter (fun (p : Nat × SubSt) => (Tab.find m.goSubs p.1).isSome) }
  ((s.setF F.DEV_REV_FW 0 m.fwRev).switchFlood before).switchPartners o

/-- The section's part of the package takes effect from epoch `e`. -/
def State.switchSection (s : State) (k e version : Nat) (new : Image) : State :=
  let o := s.img
  let s := s.squashAll .other (fun p => decide (e ≤ p.target) && (p.sec == some k || (p.sec.isNone && p.feeder / 64 == k)))
  let s := { s with oldCfg := some ((s.oldCfg.getD o).withSection o k), cfg := some (o.withSection new k) }
  let s := s.updSec k (fun x => { x with cfgFrom := e })
  let s := (s.loadSection s.img k).setFs k [(F.SEC_CFGVER_VERSION, version), (F.SEC_SWSTAT_PENDING, 0), (F.SEC_SWSTAT_DONE, 1)]
  let s := (s.switchRefs k (o.sec k) (s.img.sec k)).addFeeders k o
  let s := s.forN 32 (fun s n => s.switchConv k n o)
  let s := s.forN 4 (fun s g => s.switchRefGroup g o)
  (((s.switchTiles k o).switchStreams k e o).switchPartners o).setRing k

/-- The last switch-over has passed: a package with microcode begins its rollout (R383). -/
def State.afterSwitches (s : State) (c : Change) : State :=
  let s := s.setF F.DEV_CHGSTAT_PEND 0 0
  if !c.microcode then s
  else
    let s := s.forN 192 (fun s e => s.updEngine e (fun g => { g with rollout := true }))
    let s := { s.setF F.DEV_CHGSTAT_ROLL 0 1 with change := some { c with rolling := true } }
    s.forN 24 (fun s k => s.rolloutNext k)

/-- A section switches over at tick 0 of its scheduled cycle, after the sampling of that instant and the evaluation deadline
that falls on it (R36, R375). -/
def State.switchOver (s : State) (k : Nat) : State :=
  match s.change with
  | none => s
  | some c =>
    let cyc := s.cycleOf k (s.getF F.SEC_SWCYC_CYCLE k)
    if !c.left.contains k || decide ((s.sec k).nextSample ≤ 128 * cyc) ||
        decide (s.deadlineAngle k (s.sec k).nextDeadline ≤ 65536 * cyc) then s
    else
      let s := s.advanceTo (s.angleClk k (65536 * cyc))
      let c' : Change := { c with left := c.left.filter (fun j => j != k), started := true }
      let s := { s with change := some c' }
      let s := if k = c.anchor then s.switchAnchor c.image else s
      let s := ((s.switchSection k (128 * cyc) c.version c.image).setF F.DEV_CHGSTAT_LEFT 0 c'.left.length).syncMixed
      (if c'.left.isEmpty then s.afterSwitches c' else s).published

def execSwitchOver (k : Nat) (s : State) : Host.Outcome State Fault Refusal := .next (s.switchOver k)

/-! ## BANK_COMMIT (R378) -/

/-- Every switch-over has passed and any rollout has ended: COMMIT of the new bank is programmed, the package is complete. -/
def State.commitBank (s : State) : State :=
  match s.change with
  | some c =>
    if !c.started || !c.left.isEmpty || c.rolling then s
    else
      let s := ((s.commitSpare c.bytes).setF F.DEV_IMGVER_VERSION 0 c.version).endPackage 1 c.version
      { s with cfg := s.cfg.map (fun (m : Image) => { m with version := c.version, hcrc := c.image.hcrc }) }
  | none => s

def execBankCommit (s : State) : Host.Outcome State Fault Refusal := .next s.commitBank

end Sys2Proof.Machine
end

