-- ==== Sys2Proof/Machine/Snapshot.lean ====
section
/-! DEFINITION. Snapshot pages: publication, latches and the coherent cut (R398 to R402). -/

namespace Sys2Proof.Machine

def State.snap (s : State) (p : Nat) : SnapSt := Tab.get s.snaps {} p
def State.updSnap (s : State) (p : Nat) (f : SnapSt → SnapSt) : State := { s with snaps := Tab.upd s.snaps {} p f }

/-- One buffer of a page. -/
def SnapSt.buf (x : SnapSt) (b : Bool) : Tab Nat := if b then x.buf1 else x.buf0

/-- The present buffer written and published: the one that no reader holds (R398, R400). -/
def SnapSt.write (x : SnapSt) (w : Tab Nat) : SnapSt :=
  let b := match x.latch with
    | some (h, _) => !h
    | none => !x.pub
  if b then { x with buf1 := w, pub := true } else { x with buf0 := w, pub := false }

/-! ## Latches (R400) -/

/-- Which SN_LATCH bits belong to a reader: reader 0 is the maintenance port, reader 1 the management service. -/
def heldF (r : Nat) : Fld := if r = 0 then F.SN_LATCH_HELD0 else F.SN_LATCH_HELD1
def expiredF (r : Nat) : Fld := if r = 0 then F.SN_LATCH_EXPIRED0 else F.SN_LATCH_EXPIRED1

/-- The end of the latches of a page 1 ms after the first. -/
def State.endLatch (s : State) (p : Nat) : State :=
  let out (s : State) (r : Nat) : State := if s.flag (heldF r) p then (s.setF (heldF r) p 0).setF (expiredF r) p 1 else s
  (out (out s 0) 1).updSnap p (fun x => { x with latch := none })

/-- Latches older than 1 ms have ended. -/
def State.ageLatch (s : State) (p : Nat) : State :=
  match (s.snap p).latch with
  | some (_, t) => if t + msClk ≤ s.now then s.endLatch p else s
  | none => s

/-- LATCH_EXPIRY. -/
def execLatchExpiry (p : Nat) (s : State) : Host.Outcome State Fault Refusal :=
  .next (match (s.snap p).latch with
    | some (_, t) => (s.advanceTo (t + msClk)).endLatch p
    | none => s)

/-- A read of SN_EPOCH by a reader: the published buffer is latched, or the one that the other reader holds. -/
def State.latchPage (s : State) (p r : Nat) : State :=
  if 25 ≤ p then s
  else
    let s := s.ageLatch p
    let s :=
      if s.flag (heldF (1 - r)) p then s
      else s.updSnap p (fun x => { x with latch := match x.latch with
        | some (b, t) => if b = x.pub then some (b, t) else some (x.pub, s.now)
        | none => some (x.pub, s.now) })
    s.setF (heldF r) p 1

/-- SN_EPOCH_READ through the maintenance port. -/
def execSnEpochRead (p : Nat) (s : State) : Host.Outcome State Fault Refusal := .next (s.latchPage p 0)

/-! ## Reading (R398, R399) -/

/-- The section of page 1 + k has no grid yet. -/
def State.noGrid (s : State) (k : Nat) : Bool := !(s.sec k).running

/-- SN_LATCH of a page as a word. -/
def State.latchWord (s : State) (p : Nat) : Nat :=
  b2n (s.flag F.SN_LATCH_HELD0 p) + 2 * b2n (s.flag F.SN_LATCH_HELD1 p) + 4 * b2n (s.flag F.SN_LATCH_EXPIRED0 p) +
    8 * b2n (s.flag F.SN_LATCH_EXPIRED1 p)

/-- Where SN_LATCH lies in a page (R401, R402). -/
def latchOff (p : Nat) : Nat := if p = 0 then 0x0C else 0x14

/-- The word of a page at a byte offset for a reader. -/
def State.snapWord (s : State) (p off r : Nat) : Nat :=
  if off = latchOff p then s.latchWord p
  else if p ≠ 0 && s.noGrid (p - 1) then (if off = 0x10 then 8 else 0)
  else
    let x := s.snap p
    let b := match x.latch with
      | some (h, _) => if s.flag (heldF r) p then h else x.pub
      | none => x.pub
    Tab.get (x.buf b) 0 off

/-! ## The section page (R398, R401) -/

/-- The version of the section differs from that of another section in use (R379). -/
def State.differs (s : State) (k : Nat) : Bool :=
  s.img.secs.any (fun p => s.getF F.SEC_CFGVER_VERSION p.1 != s.getF F.SEC_CFGVER_VERSION k)

/-- An output of every instance as two words of bits. -/
def State.instWords (s : State) (f : Nat) (c : FeederCfg) (m : ElemKind → Nat) : Nat × Nat :=
  let w := c.elems.foldl (fun a p => a + (if (s.instSig f p.1).value.toNat &&& m p.2.kind ≠ 0 then 2 ^ p.1 else 0)) 0
  (w % 2 ^ 32, w / 2 ^ 32)

/-- The 24 words of a feeder. -/
def State.feederWords (s : State) (f : Nat) (c : FeederCfg) : List Nat :=
  let m := (s.feeder f).meas
  let on (n : Nat) (w : Nat) : Nat := if c.has n then w else 0
  let (st0, st1) := s.instWords f c ElemKind.startOut
  let (op0, op1) := s.instWords f c ElemKind.opOut
  (List.range 8).map (fun n => on n (binary32 (mag (m.y1 n)))) ++ (List.range 8).map (fun n => on n (binary32 (m.y1 n).deg)) ++
    [(List.range 8).foldl (fun a n => a + 16 ^ n * on n ((m.qOf [n]).code)) 0,
     (s.sig (feederSig f 78)).value.toNat % 64 + 256 * m.freqQ.code + 4096 * m.rocofQ.code,
     binary32 m.freq, binary32 m.rocof, st0, st1, op0, op1]

/-- The section page of epoch `e`. -/
def State.pageWords (s : State) (k e : Nat) : Tab Nat :=
  let r := ((s.sec k).epochRec e).getD {}
  let mfault := (s.sigBelow (sectionSig k 15)).bit 1
  let head : Tab Nat := [(0, e % 2 ^ 32), (4, e / 2 ^ 32 % 128), (8, r.stamp), (0xC, r.freq),
    (0x10, b2n mfault + 2 * b2n r.glide + 4 * b2n (s.differs k))]
  let sigs : Tab Nat := (List.range 32).map (fun i => (0x80 + 4 * i, (s.sig (sectionSig k i)).word))
  let feeders : Tab Nat := ((s.imgAt k e).feedersOf k).flatMap (fun p =>
    let l := s.feederWords p.1 p.2
    (List.zip (List.range 24) l).map (fun q => (0x100 + 0x60 * (p.1 % 64) + 4 * q.1, q.2)))
  head ++ sigs ++ feeders

/-- SNAPSHOT_PUBLISH at the deadline of epoch `e` (R398). -/
def State.publishPage (s : State) (k e : Nat) : State :=
  let w := s.pageWords k e
  (s.ageLatch (1 + k)).updSnap (1 + k) (fun x => x.write w)

/-! ## The coherent cut (R402) -/

/-- One section's entry of the cut: words 0 to 4, and 8 to 39 for its signals. -/
def State.cutSection (s : State) (k : Nat) : Tab Nat :=
  let a := 0x100 + 0xC0 * k
  if s.noGrid k then [(a + 0x10, 8)]
  else
    let x := s.snap (1 + k)
    let w := x.buf x.pub
    (List.range 5).map (fun i => (a + 4 * i, Tab.get w 0 (4 * i))) ++
      (List.range 32).map (fun i => (a + 4 * (8 + i), Tab.get w 0 (0x80 + 4 * i)))

/-- The counter value of the next cut: the next multiple of 1,000,000 ns that the 32-bit counter takes, its next one after the last
being 0; the value at which a cut has just been taken has passed (R402). -/
def State.nextCut (s : State) : Nat :=
  let ns := s.tbNs 0
  let taken := match s.dev.cutAt with | some (c, t) => t == ns && decide (s.now < c + msClk / 2) | none => false
  let t := (ns + b2n taken + 999999) / 1000000 * 1000000
  if t < 2 ^ 32 then t else 0

/-- COHERENT_CUT: at the next TB0 value T that is a multiple of 1,000,000 ns. -/
def execCoherentCut (s : State) : Host.Outcome State Fault Refusal :=
  .next (if !s.pins.porn then s
    else
      let t := s.nextCut
      let s := match s.tbDue 0 t with | some c => s.advanceTo c | none => s
      let n := (s.dev.cut + 1) % 2 ^ 32
      let w : Tab Nat := [(0, n), (4, t), (8, s.getF F.TB_STAT_LOCK 0)] ++
        (List.range 7).map (fun k => (0x10 + 4 * k, (s.deviceSig k).word)) ++ (List.range 24).flatMap s.cutSection
      ((s.ageLatch 0).updDev (fun d => { d with cut := n, cutAt := some (s.now, t) })).updSnap 0 (fun x => x.write w))

end Sys2Proof.Machine
end

