-- ==== Sys2Proof/Machine/Deadline.lean ====
section
/-! DEFINITION. The sample instant and the evaluation deadline of an epoch (R15, R22). -/

namespace Sys2Proof.Machine

/-! ## EPOCH_SAMPLE (R22) -/

/-- The converters of a section (R11). -/
def State.convsOf (s : State) (k : Nat) : List Nat :=
  (s.img.convs.filter (fun p => p.2.section_ == k)).map Prod.fst

/-- What a converter's chain does at the sample instant of epoch `e`: new coefficients (R61), zeros of a stopped chain and
REFILL (R76). -/
def State.chainEpoch (s : State) (n e : Nat) : State :=
  let s := (s.applyCoef n).setRefill n
  if s.chainStopped n then (s.img.assignedOf n).foldl (fun s i => s.deliverZeros n i e) s else s

/-- EPOCH_SAMPLE: the angle reaches the sample instant of epoch `e`, the next of the section, which ends the epoch before it; at grid
start no epoch ends. -/
def State.epochSample (s : State) (k e : Nat) : State :=
  if !(s.sec k).running || e != (s.sec k).nextSample then s
  else
    let s := s.advanceTo (s.angleClk k (512 * e))
    let s := s.stampEpoch k
    let s := (s.convsOf k).foldl (fun s n => s.chainEpoch n e) s
    let s := s.onlyIf (decide (0 < e)) (fun s => s.endEpoch k)
    if k = s.refSec then s.checkPeer else s

def execEpochSample (k e : Nat) (s : State) : Host.Outcome State Fault Refusal := .next (s.epochSample k e)

/-! ## EVALUATION_DEADLINE (R15) -/

/-- The engines of a rank with a round of ply attempts under way: one is due, and the normal evaluations of the epoch have
completed (R186). -/
def State.inRound (s : State) (k : Nat) : List Nat :=
  ((List.range 8).map (fun r => 8 * k + r)).filter (fun e => (s.engine e).roundDue && s.plyActive e && s.idleEngine e)

/-- The rounds of a rank end at the deadline; those under way (`l`) are abandoned and counted (R186). -/
def State.abandonPlies (s : State) (k : Nat) (l : List Nat) : State :=
  (List.range 8).foldl (fun s r =>
    let s := if l.contains (8 * k + r) then s.incF F.PE_PLYREF_ABANDON (8 * k + r) else s
    s.updEngine (8 * k + r) (fun g => { g with roundDue := false })) s

/-- Core clocks that an engine used in the epoch: no rule fixes them, so PE_LOAD takes free values (log entry 1). -/
def State.engineLoad (s : State) (e : Nat) : State :=
  if (s.held e).isEmpty then s
  else
    let (v, s) := s.fresh 16
    (s.setF F.PE_LOAD_LAST e v).setF F.PE_LOAD_MAX e (max v (s.getF F.PE_LOAD_MAX e))

/-- EVALUATION_DEADLINE of the next epoch of a section, after the sampling that falls on the same clock (R36): missed deadlines (R168, R204), abandoned plies (R186), digest and
feed (R312, R316), the recorder (R327, R328) and the snapshot page (R398). -/
def State.deadline (s : State) (k : Nat) (ecc : EccIn) : State :=
  let x := s.sec k
  let e := x.nextDeadline
  if !x.running || decide (x.nextDue ≤ e) || decide (x.nextSample < e + s.delayOf k e + 2) then s
  else
    let s := s.advanceTo (s.angleClk k (s.deadlineAngle k e))
    let rounds := s.inRound k
    let old := s
    let s := ((s.imgAt k e).feedersOf k).foldl (fun s p => s.missFeeder e p.1 p.2) s
    let s := ((s.missSection k e).abandonPlies k rounds).updSec k (fun y => { y with nextDeadline := e + 1 })
    let s := (List.range 8).foldl (fun s r => s.engineLoad (8 * k + r)) s
    let s := (s.queueChanges old).published
    let s := (s.formDigest k e).sendFeed k e
    (((s.dramWords ecc (s.sec k).recOpen).recorderDeadline k e)).publishPage k e

def execEvaluationDeadline (k : Nat) (ecc : EccIn) (s : State) : Host.Outcome State Fault Refusal := .next (s.deadline k ecc)

end Sys2Proof.Machine
end

