-- ==== Sys2Proof/Machine/Stream.lean ====
section
/-! DEFINITION. Sampled values: subscription, the resampler and publication (R77 to R80, R281 to R284). -/

namespace Sys2Proof.Machine

/-! ## The resampler (R78, R79) -/

/-- The date of sample `n` of a stream at rate `r` in sample intervals: in the latest second for which it is not after
the arrival at `ext` ns (R78). -/
def svDate (ext r n : Nat) : Option Nat :=
  let sec := ext / 1000000000
  if (sec * r + n) * 1000000000 ≤ ext * r then some (sec * r + n)
  else if 0 < sec then some ((sec - 1) * r + n) else none

/-- The smpSynch value is accepted (R77); a further value that the image sets outside 5 to 254 is accepted as it is (log entry 142). -/
def SvSub.accepts (c : SvSub) (synch : Nat) : Bool :=
  (c.sync1 && synch == 1) || (c.sync2 && synch == 2) || c.syncOther == some synch

/-- The values of a stream's sample as values of group S, in primary A and V: channel 8 f + c for the channels of
feeder f (R330). -/
def State.svRow (s : State) (k : Nat) (c : SvSub) (g : Nat) (vals : List (Int × Nat)) : State :=
  let ago := (s.extNs (s.img.sec k).stampTb - g * 1000000000 / c.rate) * 6 / 5
  (List.zip c.map vals).foldl (fun s p => p.1.foldl (fun s (fc : Nat × Nat) =>
    s.noteRow k (2 + c.rate) g (s.now - ago) (8 * fc.1 + fc.2)
      (if (qualOfWord p.2.2).usable then binary32 (if fc.2 < 4 then (p.2.1 : Rat) / 1000 else (p.2.1 : Rat) / 100)
        else 0xFFFFFFFF)) s) s

/-- The extended time of the arrival stamp of a stream's latest frame, in its stamp time base (R78, R280). -/
def State.arrival (s : State) (c : SvSub) : Nat :=
  let tb := (s.img.sec c.section_).stampTb
  s.extOf tb ((s.lane c.lane).rxStamps.getD tb 0)

/-- One ASDU enters the resampler (R78); a sample whose date would lie before second 0 is dropped and not counted (log entry 160). -/
def State.addPoint (s : State) (sub : Nat) (c : SvSub) (n synch : Nat) (vals : List (Int × Nat)) : State :=
  let k := c.section_
  if c.rate ≤ n ∨ ¬ c.accepts synch then s.incF F.SEC_SVCNT_REJECT k
  else match svDate (s.arrival c) c.rate n with
    | none => s
    | some g =>
      if (s.sec k).svPoints.any (fun p => p.1 == sub && p.2.1 == g) then s
      else
        let s := s.updSec k (fun x => { x with
          svPoints := (sub, g, vals) :: (x.svPoints.filter (fun p => p.1 != sub)) ++
                        ((x.svPoints.filter (fun p => p.1 == sub)).take 255) })
        s.svRow k c g vals

/-- The points n0 − 1 to n0 + 2 about the stamp of an epoch, and μ, for a stream (R79). -/
def State.svAround (s : State) (sub : Nat) (c : SvSub) (r : EpochRec) : List (Option (List (Int × Nat))) × Rat :=
  let k := c.section_
  let t : Rat := ((s.extOf (s.img.sec k).stampTb r.stamp * c.rate : Nat) : Rat) / 1000000000
  let n0 := t.floor
  ([-1, 0, 1, 2].map (fun (d : Int) =>
    ((s.sec k).svPoints.find? (fun p => p.1 == sub && ((p.2.1 : Nat) : Int) == n0 + d)).map (fun p => p.2.2)), t - (n0 : Rat))

/-- The second-order Lagrange polynomial through three points (R79). -/
def lagrange3 (t x0 y0 x1 y1 x2 y2 : Rat) : Rat :=
  y0 * (t - x1) * (t - x2) / ((x0 - x1) * (x0 - x2)) + y1 * (t - x0) * (t - x2) / ((x1 - x0) * (x1 - x2)) +
    y2 * (t - x0) * (t - x1) / ((x2 - x0) * (x2 - x1))

/-- The grid sample of entry `j` from the points present (R79, R80): value, quality. -/
def svSample (pts : List (Option (List (Int × Nat)))) (mu : Rat) (j : Nat) : Int × Quality :=
  let at_ (i : Nat) : Option (Int × Nat) := (pts.getD i none).map (fun l => l.getD j (0, 1))
  let present := (List.zip [(-1 : Rat), 0, 1, 2] (List.range 4)).filterMap (fun p => (at_ p.2).map (fun v => (p.1, v)))
  let q := Quality.joins (present.map (fun p => qualOfWord p.2.2))
  match present with
  | [a, b, c, d] => (roundQ (farrow mu (a.2.1 : Rat) (b.2.1 : Rat) (c.2.1 : Rat) (d.2.1 : Rat)), q)
  | [a, b, c] => (roundQ (lagrange3 mu a.1 (a.2.1 : Rat) b.1 (b.2.1 : Rat) c.1 (c.2.1 : Rat)), q.join Quality.quest)
  | _ => (0, Quality.bad)

/-- The bursts of one formation: one for each feeder that the stream serves (R79, R82). -/
def State.svBursts (s : State) (sub : Nat) (c : SvSub) (e : Nat) (pts : List (Option (List (Int × Nat)))) (mu : Rat) :
    List IngressItem :=
  let k := c.section_
  let lost := Quality.when (!s.flag F.TB_STAT_LOCK (s.img.sec k).stampTb) Quality.quest
  ((s.imgAt k e).feedersOf k).filterMap (fun p =>
    match p.2.sources.findIdx? (fun x => x == (true, sub)) with
    | none => none
    | some i => some (.burst p.1 i e ((List.range 8).map (fun ch =>
        ((List.range 8).find? (fun j => (c.map.getD j []).contains (p.1, ch))).map (fun j =>
          let (v, q) := svSample pts mu j
          (v, q.join lost))))))

/-- The first epoch from `e` on that is not among those formed. -/
def nextForm (l : List Nat) (e : Nat) : Nat := ((List.range (l.length + 1)).find? (fun i => !l.contains (e + i))).elim (e + l.length + 1) (e + ·)

/-- Epoch `e` of a stream has been formed. -/
def SecSt.svFormed (x : SecSt) (sub e : Nat) : SecSt :=
  let done := (sub, e) :: x.svDone
  let next := nextForm ((done.filter (fun p => p.1 == sub)).map Prod.snd) (Tab.get x.svNext 0 sub)
  { x with svNext := Tab.set x.svNext sub next, svDone := done.filter (fun p => p.1 != sub || decide (next ≤ p.2)) }

/-- The grid samples of one epoch of a stream are formed (R79); QUAD and INVAL count one for the stream and epoch (log entry 161). -/
def State.svForm (s : State) (sub : Nat) (c : SvSub) (e : Nat) (pts : List (Option (List (Int × Nat)))) (mu : Rat) : State :=
  let k := c.section_
  let n := (pts.filter Option.isSome).length
  let items := s.svBursts sub c e pts mu
  let s := if n = 3 then s.incF F.SEC_SVCNT_QUAD k else if n ≤ 2 then s.incF F.SEC_SVCNT_INVAL k else s
  s.updSec k (fun x => { x with toIngress := x.toIngress ++ items }.svFormed sub e)

/-- Each epoch's grid sample is formed as soon as its own four points are present (R79). -/
def State.svRun (s : State) (sub : Nat) (c : SvSub) : State :=
  let x := s.sec c.section_
  let open_ := x.epochs.reverse.filter (fun r => decide (Tab.get x.svNext 0 sub ≤ r.epoch) && !x.svDone.contains (sub, r.epoch))
  open_.foldl (fun s r =>
    let (pts, mu) := s.svAround sub c r
    if pts.all Option.isSome then s.svForm sub c r.epoch pts mu else s) s

/-- RESAMPLE_CUTOFF (R79): at 512 (E + D) − 32 the samples still missing are formed from what is there. -/
def State.svCutoff (s : State) (k : Nat) : State :=
  let subs := s.img.svSubs.filter (fun p => p.2.section_ == k)
  let x := s.sec k
  match (subs.map (fun p => Tab.get x.svNext 0 p.1)).min? with
  | none => s
  | some e =>
    match x.epochRec e with
    | none => s
    | some r =>
      let s := s.advanceTo (x.clockOf ((512 * (e + (s.img.sec k).delay) : Nat) - 32 : Rat))
      subs.foldl (fun s p =>
        if Tab.get (s.sec k).svNext 0 p.1 = e then
          let (pts, mu) := s.svAround p.1 p.2 r
          s.svForm p.1 p.2 e pts mu
        else s) s

def execResampleCutoff (k : Nat) (s : State) : Host.Outcome State Fault Refusal := .next (s.svCutoff k)

/-! ## Reception (R281, R283) -/

/-- The subscription of a stream on a lane: with the destination address where one has it too (R282, R384). -/
def Image.svSubOf (m : Image) (lane : Nat) (f : SvFrame) : Option (Nat × SvSub) :=
  let l := m.svSubs.filter (fun p => p.2.lane == lane && p.2.appid == f.appid && p.2.svid == f.svid)
  match l.find? (fun p => p.2.dst == f.dst) with
  | some p => some p
  | none => l.head?

/-- The protocol checks of R283. -/
def SvSub.passes (c : SvSub) (f : SvFrame) : Bool :=
  c.dst == f.dst && c.confRev == f.confRev && f.asdus.all (fun a => a.2.2.length == 8) && !f.security && f.noAsdu == c.noAsdu &&
  f.asdus.length == f.noAsdu && (!f.sim || c.acceptSim)

/-- A discard counted in LN_SVRX.DISC. -/
def State.svDiscard (s : State) (lane : Nat) : State := s.incF F.LN_SVRX_DISC lane

/-- The samples of an accepted frame; the simulation bit adds test to every value (R281). -/
def State.svAccept (s : State) (lane sub : Nat) (c : SvSub) (f : SvFrame) : State :=
  let s := s.bumpF F.LN_SVRX_ACC lane
  let s := f.asdus.foldl (fun s a =>
    s.addPoint sub c a.1 a.2.1 (a.2.2.map (fun v => (v.1, if f.sim then v.2 ||| 2048 else v.2)))) s
  s.svRun sub c

/-- SV_FRAME (R280, R281, R283, R390). -/
def State.svFrame (s : State) (lane : Nat) (f : SvFrame) : State :=
  let s := s.captureRx lane
  if !s.ethRx lane then s
  else if !frameLenOk f.snd.len then s.incF F.LN_FRMCNT_RXDISC lane
  else match s.img.svSubOf lane f with
    | none => (s.unadmitted lane 0 f.snd.mac).svDiscard lane
    | some (sub, c) =>
      match s.judgePinned lane 0 sub c.srcMac f.snd with
      | (none, s1) => if s.admitsPinned lane 0 sub c.srcMac f.snd then s1 else s1.svDiscard lane
      | (some n, s) => if c.passes f then s.svAccept lane sub c f else (s.violation n lane 2).svDiscard lane

def execSvFrame (lane : Nat) (f : SvFrame) (s : State) : Host.Outcome State Fault Refusal := .next (s.svFrame lane f)

/-! ## Publication (R284) -/

/-- The publication sends on this side (R304, R313). -/
def State.svPublishes (s : State) (p : SvPub) : Bool := p.both || s.isActive

/-- smpSynch: 2 while locked to PTP, 1 while locked to the PPS input (R284). -/
def State.smpSynch (s : State) (tb : Nat) : Nat :=
  if !s.flag F.TB_STAT_LOCK tb then 0 else if s.tbSrc tb = 1 then 2 else if s.tbSrc tb = 2 then 1 else 0

/-- The grid sample of a local channel in an epoch, as its chain delivered it. -/
def State.localSample (s : State) (ain e : Nat) : Option (Int × Quality) := (s.chain (ain / 8)).outAt e (ain % 8)

/-- One value of a published sample at `t` ns of extended time: the cubic of R67 through the grid samples whose stamps
surround it, scaled and saturated; a channel that is not there reads 0 with invalid. -/
def State.svValue (s : State) (k : Nat) (c : FeederCfg) (ch : Nat) (t : Rat) : Int × Nat :=
  let bad : Int × Nat := (0, wordOfQual (Quality.bad.join (Quality.when s.forcing Quality.testQ)))
  let tb := (s.img.sec k).stampTb
  match (c.chans.getD ch none).bind (fun g => match g.src with | .conv a p => some (a, p) | .stream _ => none),
        (s.sec k).epochs.find? (fun r => decide (((s.extOf tb r.stamp : Nat) : Rat) ≤ t)) with
  | some (ain, ppu), some r0 =>
    match (s.sec k).epochRec (r0.epoch + 1), (([-1, 0, 1, 2] : List Int).map (fun d => s.localSample ain ((r0.epoch : Int) + d).toNat)) with
    | some r1, [some a, some b, some x, some y] =>
      let t0 : Rat := ((s.extOf tb r0.stamp : Nat) : Rat)
      let t1 : Rat := ((s.extOf tb r1.stamp : Nat) : Rat)
      let mu : Rat := (t - t0) / (t1 - t0)
      let v := farrow mu (a.1 : Rat) (b.1 : Rat) (x.1 : Rat) (y.1 : Rat) * ppu * (if ch < 4 then 1000 else 100)
      let q := Quality.joins [a.2, b.2, x.2, y.2, Quality.when s.forcing Quality.testQ]
      (clampInt (-2147483648) 2147483647 (roundQ v), wordOfQual q)
    | _, _ => bad
  | _, _ => bad

/-- Bytes of a published frame, without a VLAN tag, which grow with the svID (R284; log entry 151). -/
def SvPub.frameLen (p : SvPub) : Nat := 116 + p.idLen

/-- SV_PUBLICATION: sample `n` of a publication is formed and queued on its ports (R284). -/
def State.svPublish (s : State) (pub n : Nat) : State :=
  match Tab.find s.img.svPubs pub with
  | none => s
  | some p =>
    let k := p.feeder / 64
    let tb := (s.img.sec k).stampTb
    match s.img.feeder p.feeder, svDate (s.extNs tb) 4800 n with
    | some c, some g =>
      if !s.svPublishes p || !(s.sec k).running || decide (4800 ≤ n) then s
      else
        let vals := (List.range 8).map (fun ch => s.svValue k c ch (((g * 1000000000 : Nat) : Rat) / 4800))
        let o : SvOut := { n := n, synch := s.smpSynch tb, values := vals }
        let s := { s with svOuts := Tab.set s.svOuts pub o }
        p.lanes.foldl (fun s l => s.queueEth l { cls := 3, len := p.frameLen, sv := some (pub, o) }) s
    | _, _ => s

def execSvPublication (pub n : Nat) (s : State) : Host.Outcome State Fault Refusal := .next (s.svPublish pub n)

end Sys2Proof.Machine
end

