-- ==== Sys2Proof/Machine/Ethernet.lean ====
section
/-! DEFINITION. Ethernet transmission with launch conditions, GOOSE messages and PTP (R280, R285 to R291, R299 to R301). -/

namespace Sys2Proof.Machine

/-! ## Transmission (R288 to R291) -/

def State.is10g (s : State) (lane : Nat) : Bool := s.laneMode lane == 4

/-- Core clocks that a frame takes on the line, with its preamble (R258, R290). -/
def frameClk (tenG : Bool) (len : Nat) : Nat := if tenG then ((len + 8) * 24 + 24) / 25 else ((len + 8) * 48 + 4) / 5

/-- The reservation window: 12.4 µs at 1000BASE-X, 1.24 µs at 10GBASE-R (R290). -/
def windowClk (tenG : Bool) : Nat := if tenG then 1488 else 14880

/-- The core clock at which the target of a held frame is reached (R20, R288). -/
def State.heldDue (s : State) (f : EthFrame) : Nat :=
  match f.timeTgt, f.angleTgt with
  | some (k, t), _ => (s.tbDue k t).getD s.now
  | none, some (k, a) => max s.now ((s.sec k).clockOf ((a : Nat) : Rat))
  | none, none => s.now

/-- The frame comes behind no other of its GOOSE publication (R286). -/
def LaneSt.inTurn (l : LaneSt) (f : EthFrame) : Bool :=
  match f.goose with
  | none => true
  | some g => !(l.ethQ.takeWhile (fun x => x != f)).any (fun x => x.goose.any (fun o => o.pub == g.pub))

/-- The held frame of a lane whose target comes first, among those that meet `p` and whose turn it is. -/
def State.firstHeld (s : State) (lane : Nat) (p : EthFrame → Bool) : Option EthFrame :=
  ((s.lane lane).ethQ.filter (fun f => !f.ready && p f && (s.lane lane).inTurn f)).foldl (fun best f =>
    match best with
    | none => some f
    | some b => if s.heldDue f < s.heldDue b then some f else some b) none

/-- The stamp of an originated PTP event message enters the queue of 16 (R300). -/
def State.pushStamp (s : State) (lane id : Nat) : State :=
  if 16 ≤ (s.lane lane).tsq.length then s.incF F.LN_TSQSTAT_OVF lane
  else
    let ns := s.tbNs ((s.img.lane lane).ptpTb.getD 0)
    (s.updLane lane (fun l => { l with tsq := l.tsq ++ [(id, ns)] })).setF F.LN_TSQSTAT_FILL lane ((s.lane lane).tsq.length + 1)

/-- Residence time added to the sum held for a forwarded two-step Sync (R301). -/
def LaneSt.addResidence (l : LaneSt) (seq src ns : Nat) : LaneSt :=
  { l with ptp := { l.ptp with held := l.ptp.held.map (fun (h : Nat × Nat × Int × Nat) =>
      if h.1 = seq ∧ h.2.1 = src then (h.1, h.2.1, h.2.2.1 + ns, h.2.2.2) else h) } }

/-- The same added to a Follow_Up that waits behind its Sync. -/
def LaneSt.addWaiting (l : LaneSt) (ingress seq src ns : Nat) : LaneSt :=
  { l with ethQ := l.ethQ.map (fun f => if f.await = some (ingress, seq, src) then { f with corr := f.corr + ns, await := none } else f) }

/-- The residence time in ns of a forwarded frame that leaves a lane now: its egress stamp less its ingress stamp (R301). -/
def State.residence (s : State) (lane stamp : Nat) : Nat := (s.tbNs ((s.img.lane lane).ptpTb.getD 0) + 2 ^ 32 - stamp) % 2 ^ 32

/-- A frame as it leaves: a forwarded one-step Sync has its residence time and the ingress port's meanLinkDelay added (R301). -/
def State.corrected (s : State) (lane : Nat) (f : EthFrame) : EthFrame :=
  match f.resid, f.oneStep with
  | some (ingress, _, _, st), true => { f with corr := f.corr + s.residence lane st + (s.lane ingress).ptp.linkDelay }
  | _, _ => f

/-- A frame starts on a lane at the present instant: the lane is busy until it ends; stamps, residence times and the first repetition of
the message formed last, where it was held, are taken from its timestamp point (R280, R289, R300, R301). -/
def State.emit (s : State) (lane : Nat) (f : EthFrame) : State :=
  let s := s.updLane lane (fun l => { l with
    ethQ := l.ethQ.erase f, txFree := s.now + frameClk (s.is10g lane) f.len, ethTx := some (s.corrected lane f) })
  let s := match f.ptpId with
    | some id =>
      let full := decide (16 ≤ (s.lane lane).tsq.length)
      let s := s.pushStamp lane id
      if f.follow && !full then s.updLane lane (fun l => { l with follows := id :: l.follows }) else s
    | none => s
  let s := match f.resid with
    | some (ingress, seq, src, st) =>
      let ns := s.residence lane st
      if f.oneStep then s
      else (s.updLane ingress (fun l => l.addResidence seq src ns)).updLane lane (fun l => l.addWaiting ingress seq src ns)
    | none => s
  match f.goose, f.ready with
  | some g, false => { s with pubs := Tab.upd s.pubs {} g.pub (fun p =>
      if p.stNum = g.stNum ∧ p.nextAt.isNone then { p with nextAt := some (s.now + p.interval * msClk) } else p) }
  | _, _ => s

/-- A held frame at its target: it leaves at once, or as soon as the frame before it ends within 2 µs, else it is discarded
(R290). -/
def State.launch (s : State) (lane : Nat) (f : EthFrame) : State :=
  let due := s.heldDue f
  let start := max due (s.lane lane).txFree
  let s := s.updLane lane (fun l => { l with resv := false })
  if due + 2 * usClk < start then
    ((s.advanceTo due).updLane lane (fun l => { l with ethQ := l.ethQ.erase f })).incF F.LN_LAUNCH_LATE lane
  else ((s.advanceTo start).emit lane f).incF F.LN_LAUNCH_SENT lane

/-- TIME_LAUNCH (R288, R290): the first time target of a lane is reached. -/
def execTimeLaunch (lane : Nat) (s : State) : Host.Outcome State Fault Refusal :=
  .next (match s.firstHeld lane (fun f => f.timeTgt.isSome) with
    | some f => s.launch lane f
    | none => s)

/-- The section of an angle target has acted on the samplings, deadlines and switch-overs that fall on the target's clock (R36). -/
def State.launchTurn (s : State) (f : EthFrame) : Bool :=
  match f.angleTgt with
  | none => true
  | some (k, _) =>
    let x := s.sec k
    let due := s.heldDue f
    !x.running || (decide (due < s.angleClk k (512 * x.nextSample)) && decide (due < s.angleClk k (s.deadlineAngle k x.nextDeadline)) &&
      (!s.flag F.SEC_SWSTAT_PENDING k || decide (due < s.angleClk k (65536 * s.cycleOf k (s.getF F.SEC_SWCYC_CYCLE k)))))

/-- ANGLE_LAUNCH (R20, R34 to R36, R288, R290): the first angle target of a lane is reached, after what R36 puts before it. -/
def execAngleLaunch (lane : Nat) (s : State) : Host.Outcome State Fault Refusal :=
  .next (match s.firstHeld lane (fun f => f.timeTgt.isNone && f.angleTgt.isSome) with
    | some f => if s.launchTurn f then s.launch lane f else s
    | none => s)

/-- RESERVATION_WINDOW (R290): the window before the next held target begins. -/
def execReservationWindow (lane : Nat) (s : State) : Host.Outcome State Fault Refusal :=
  .next (match s.firstHeld lane (fun _ => true) with
    | some f => (s.advanceTo (s.heldDue f - windowClk (s.is10g lane))).updLane lane (fun l => { l with resv := true })
    | none => s)

/-- The next frame without a launch condition, by class (R291). -/
def LaneSt.nextEth (l : LaneSt) : Option EthFrame :=
  ([1, 2, 3, 4] : List Nat).findSome? (fun c => l.ethQ.find? (fun f => f.ready && f.cls == c && l.inTurn f))

/-- The firmware takes the stamps of its queue, and queues the follow-up messages that they call for (R300; log entry 168). -/
def State.takeStamps (s : State) (lane : Nat) : State :=
  match (s.lane lane).tsq with
  | [] => s
  | q =>
    let due := q.filter (fun x => (s.lane lane).follows.contains x.1)
    let s := (s.updLane lane (fun l => { l with tsq := [], follows := [] })).setF F.LN_TSQSTAT_FILL lane 0
    due.foldl (fun s _ => s.queueEth lane { cls := 1 }) s

/-- ETHERNET_TRANSMIT (R290, R291): a held frame whose target is reached, else the first of the highest class, unless it
would not end before the target of a reservation window. -/
def State.transmit (s : State) (lane : Nat) : State :=
  let s := s.takeStamps lane
  match s.firstHeld lane (fun f => decide (s.heldDue f ≤ s.now) && s.launchTurn f) with
  | some f => s.launch lane f
  | none =>
    match (s.lane lane).nextEth with
    | none => s
    | some f =>
      let start := max s.now (s.lane lane).txFree
      let fits := match s.firstHeld lane (fun _ => true) with
        | some h => !((s.lane lane).resv || decide (s.heldDue h ≤ start + windowClk (s.is10g lane))) ||
            decide (start + frameClk (s.is10g lane) f.len ≤ s.heldDue h)
        | none => true
      if fits then (s.advanceTo start).emit lane f else s

def execEthernetTransmit (lane : Nat) (s : State) : Host.Outcome State Fault Refusal := .next (s.transmit lane)

/-- TSQHEAD_READ (R300): the head entry is removed, lost to the firmware, and its stamp latched. -/
def State.popStamp (s : State) (lane : Nat) : State :=
  match (s.lane lane).tsq with
  | [] => s
  | (_, ns) :: r => ((s.updLane lane (fun l => { l with tsq := r })).setF F.LN_TSQNS_NS lane ns).setF F.LN_TSQSTAT_FILL lane r.length

def execTsqheadRead (lane : Nat) (s : State) : Host.Outcome State Fault Refusal := .next (s.popStamp lane)

/-! ## GOOSE (R285 to R287) -/

/-- GOOSE_REPETITION (R286): sqNum + 1; each interval is twice the one before, up to Tmax. -/
def State.repeatGoose (s : State) (i : Nat) : State :=
  match Tab.find s.img.goPubs i, (Tab.get s.pubs {} i).nextAt with
  | some p, some t =>
    if !s.publishes p then s
    else
      let s := s.advanceTo t
      let x := Tab.get s.pubs {} i
      let n := min (2 * x.interval) p.tmax
      let y : PubSt := { x with sqNum := goNext x.sqNum, interval := n, nextAt := some (s.now + n * msClk), ttl := 2 * n, test := s.forcing }
      ({ s with pubs := Tab.set s.pubs i y }).sendGoose i p y none none
  | _, _ => s

def execGooseRepetition (i : Nat) (s : State) : Host.Outcome State Fault Refusal := .next (s.repeatGoose i)

/-- The subscription of a message on a lane, with the destination address where one has it too (R384). -/
def Image.goSubOf (m : Image) (lane : Nat) (g : GooseMsg) : Option (Nat × GoSub) :=
  let l := m.goSubs.filter (fun p => p.2.lane == lane && p.2.appid == g.appid && p.2.gocbRef == g.gocbRef)
  match l.find? (fun p => p.2.dst == g.dst) with
  | some p => some p
  | none => l.head?

/-- Entries of a data set: its members with the quality members that follow them. -/
def entriesOf (l : List (Nat × Bool)) : Nat := (l.map (fun t => 1 + b2n t.2)).sum

/-- The checks of R287, and that the APDU has no length or encoding error (R391). -/
def GoSub.passes (c : GoSub) (g : GooseMsg) : Bool :=
  g.encOk && c.dst == g.dst && c.datSet == g.datSet && c.confRev == g.confRev && entriesOf c.types == g.nEntries &&
  c.types == g.members.map (fun m => (m.1, m.2.2.isSome)) && !g.ndsCom

/-- A message with the last stNum and no greater sqNum, or with an older stNum, modulo its wrap (R287). -/
def SubSt.stale (x : SubSt) (st sq : Nat) : Bool :=
  match x.last with
  | none => false
  | some (s0, q0) => if st = s0 then decide (sq ≤ q0) else decide (2 ^ 31 ≤ (st + 2 ^ 32 - s0) % 2 ^ 32)

/-- The entry that a member writes: BOOLEAN 0 or 1, INT32 saturated to 24 bits, quality of its quality member, TEST of the test
field. -/
def memberEntry (g : GooseMsg) (ty : Nat) (v : Int) (q : Option Nat) : Entry :=
  Entry.mk' (if ty = 0 then b2n (v != 0) else unsext 24 (clampInt (-8388608) 8388607 v))
    ((match q with | some w => qualOfWord w | none => Quality.ok).join (Quality.when g.test Quality.testQ))

/-- A publication of the same control block continues its partner's stNum while it does not publish (R313). -/
def State.adoptSt (s : State) (g : GooseMsg) : State :=
  s.img.goPubs.foldl (fun s p =>
    if p.2.gocbRef == g.gocbRef && p.2.appid == g.appid && !s.publishes p.2 then
      { s with pubs := Tab.upd s.pubs {} p.1 (fun x => { x with stNum := g.stNum }) }
    else s) s

/-- An accepted message writes its mapped members (R287). -/
def State.acceptGoose (s : State) (i : Nat) (c : GoSub) (g : GooseMsg) : State :=
  let x := Tab.get s.subs {} i
  let s := s.onlyIf x.expired (fun s => s.event 0x0A02 i 0xFFFF .none (le4 g.stNum))
  let s := { s with subs := Tab.set s.subs i { last := some (g.stNum, g.sqNum), expireAt := s.now + g.ttlMs * msClk, expired := false } }
  let s := c.map.foldl (fun s m => match g.members[m.1]? with
    | some (ty, v, q) => s.putSig m.2 (memberEntry g ty v q)
    | none => s) s
  (s.adoptSt g).published

/-- A discard counted in LN_GORX.DISC. -/
def State.goDiscard (s : State) (lane : Nat) : State := s.incF F.LN_GORX_DISC lane

/-- GOOSE_MESSAGE (R280, R287, R390). -/
def State.goose (s : State) (lane : Nat) (g : GooseMsg) : State :=
  let s := s.captureRx lane
  if !s.ethRx lane then s
  else if !frameLenOk g.snd.len then s.incF F.LN_FRMCNT_RXDISC lane
  else match s.img.goSubOf lane g with
    | none => (s.unadmitted lane 1 g.snd.mac).goDiscard lane
    | some (i, c) =>
      match s.judgePinned lane 1 i c.srcMac g.snd with
      | (none, s1) => if s.admitsPinned lane 1 i c.srcMac g.snd then s1 else s1.goDiscard lane
      | (some n, s) =>
        if !c.passes g then (s.violation n lane 2).goDiscard lane
        else if (Tab.get s.subs {} i).stale g.stNum g.sqNum then s
        else (s.bumpF F.LN_GORX_ACC lane).acceptGoose i c g

def execGooseMessage (lane : Nat) (g : GooseMsg) (s : State) : Host.Outcome State Fault Refusal := .next (s.goose lane g)

/-- TIME_ALLOWED_TO_LIVE_EXPIRY (R287): every mapped signal keeps its value with validity invalid. -/
def State.expireGoose (s : State) (i : Nat) : State :=
  let x := Tab.get s.subs {} i
  match Tab.find s.img.goSubs i, x.last with
  | some c, some (st, _) =>
    if x.expired then s
    else
      let s := s.advanceTo x.expireAt
      let s := { s with subs := Tab.set s.subs i { x with expired := true } }
      let s := c.map.foldl (fun s m =>
        let e := s.sigBelow m.2
        s.putSig m.2 { e with q := { e.q with validity := .invalid }, forced := false }) s
      (s.event 0x0A01 i 0xFFFF .none (le4 st)).published
  | _, _ => s

def execTimeAllowedToLiveExpiry (i : Nat) (s : State) : Host.Outcome State Fault Refusal := .next (s.expireGoose i)

/-! ## PTP (R299 to R301) -/

/-- The time base of a port's PTP. -/
def State.portTb (s : State) (lane : Nat) : Option Nat := (s.img.lane lane).ptpTb

/-- Steps 1, 3, 4 and 5 of R390 for a message of a PTP clock (kind 2) or of the link neighbour (kind 3). -/
def State.judgePtp (s : State) (lane kind : Nat) (m : PtpMsg) : Option Nat × State :=
  let s := s.captureRx lane
  if !s.ethRx lane then (none, s)
  else if !frameLenOk m.snd.len then (none, s.incF F.LN_FRMCNT_RXDISC lane)
  else match s.portTb lane with
    | none => (none, s.unadmitted lane kind m.snd.mac)
    | some tb =>
      let id0 := m.source / 65536 % 2 ^ 32
      let id1 := m.source % 65536
      let r := if kind = 3 then s.judgePinned lane 3 lane none m.snd
        else s.judgeDynamic lane 2 (m.source / 65536) (m.source * 256 + m.domain) id0 id1 m.snd
      match r with
      | (none, s) => (none, s)
      | (some n, s) =>
        let s := s.updPartner n (fun p => { p with id0 := id0, id1 := id1 })
        if m.version = 2 ∧ m.domain = s.getF F.TB_CFG_DOMAIN tb ∧ m.lenOk ∧ m.typeOk then (some n, s)
        else (none, s.violation n lane 3)

/-- A message of the domain forwarded out of the other port of a port pair (R301). -/
def State.forwardPtp (s : State) (lane : Nat) (f : EthFrame) : State :=
  match (s.img.lane lane).pairLane with
  | some other => (s.bumpF F.LN_PTPFWD_FWD lane).queueEth other f
  | none => s

def State.updPtp (s : State) (lane : Nat) (f : PtpSt → PtpSt) : State := s.updLane lane (fun l => { l with ptp := f l.ptp })

/-- The message comes from the selected master of the port. -/
def State.fromMaster (s : State) (lane : Nat) (m : PtpMsg) : Bool := (s.lane lane).ptp.master == some m.source

/-- An update of the port's time base where PTP is its source (R294). -/
def State.ptpUpdate (s : State) (lane : Nat) (m : PtpMsg) : State :=
  match s.portTb lane with
  | some tb => if s.tbSrc tb = 1 then s.tbUpdate tb m.offset else s
  | none => s

/-- The sums held of which the Follow_Up may still come: 1 s from their Sync on (R301). -/
def State.heldSums (s : State) (lane : Nat) : List (Nat × Nat × Int × Nat) :=
  (s.lane lane).ptp.held.filter (fun h => decide (s.now ≤ h.2.2.2 + 1000 * msClk))

/-- The arrival stamp of a PTP frame, against the port's time base (R280, R301). -/
def State.rxStamp (s : State) (lane : Nat) : Nat := (s.lane lane).rxStamps.getD ((s.portTb lane).getD 0) 0

/-- SYNC (R294, R299, R301): one-step updates at once, two-step with its Follow_Up; forwarded with the sum held, up to 8. -/
def State.ptpSync (s : State) (lane : Nat) (m : PtpMsg) : State :=
  match s.judgePtp lane 2 m with
  | (none, s) => s
  | (some _, s) =>
    let s := if !s.fromMaster lane m then s
      else if m.twoStep then s.updPtp lane (fun p => { p with syncSeq := some m.seqId })
      else s.ptpUpdate lane m
    if (s.img.lane lane).pairLane.isNone then s
    else
      let live := s.heldSums lane
      let hold := m.twoStep && decide (live.length < 8)
      let s := if hold then s.updPtp lane (fun p => { p with held := live ++ [(m.seqId, m.source, p.linkDelay, s.now)] }) else s
      s.forwardPtp lane { cls := 1, oneStep := !m.twoStep, corr := m.correction
                          resid := if hold || !m.twoStep then some (lane, m.seqId, m.source, s.rxStamp lane) else none }

def execSync (lane : Nat) (m : PtpMsg) (s : State) : Host.Outcome State Fault Refusal := .next (s.ptpSync lane m)

/-- The Sync of a Follow_Up still waits on the other port of the pair: what the Follow_Up waits for there. -/
def State.syncWaits (s : State) (lane : Nat) (m : PtpMsg) : Option (Nat × Nat × Nat) :=
  match (s.img.lane lane).pairLane with
  | some other =>
    if (s.lane other).ethQ.any (fun f => f.resid.any (fun r => r.1 == lane && r.2.1 == m.seqId && r.2.2.1 == m.source)) then
      some (lane, m.seqId, m.source)
    else none
  | none => none

/-- FOLLOW_UP (R299, R301): forwarded with the sum of its Sync, to which the residence time is added when the Sync leaves. -/
def State.ptpFollowUp (s : State) (lane : Nat) (m : PtpMsg) : State :=
  match s.judgePtp lane 2 m with
  | (none, s) => s
  | (some _, s) =>
    let s := if s.fromMaster lane m && (s.lane lane).ptp.syncSeq == some m.seqId then
        (s.updPtp lane (fun p => { p with syncSeq := none })).ptpUpdate lane m
      else s
    if (s.img.lane lane).pairLane.isNone then s
    else
      let live := s.heldSums lane
      let sum := (live.find? (fun h => h.1 == m.seqId && h.2.1 == m.source)).map (fun h => h.2.2.1)
      let s := s.updPtp lane (fun p => { p with held := live.filter (fun h => !(h.1 == m.seqId && h.2.1 == m.source)) })
      match sum with
      | some d => s.forwardPtp lane { cls := 1, corr := m.correction + d, await := s.syncWaits lane m }
      | none => s.incF F.LN_PTPFWD_NOMATCH lane

def execFollowUp (lane : Nat) (m : PtpMsg) (s : State) : Host.Outcome State Fault Refusal := .next (s.ptpFollowUp lane m)

/-- An event message that the port originates: tagged with the next identifier (R300). -/
def State.originate (s : State) (lane : Nat) (follow : Bool) : State :=
  let id := (s.lane lane).ptp.nextId
  (s.updPtp lane (fun p => { p with nextId := (p.nextId + 1) % 65536 })).queueEth lane { cls := 1, ptpId := some id, follow := follow }

/-- PDELAY_REQ (R299): answered with Pdelay_Resp, and with its follow-up once the response is stamped. -/
def State.ptpPdelayReq (s : State) (lane : Nat) (m : PtpMsg) : State :=
  match s.judgePtp lane 3 m with
  | (none, s) => s
  | (some _, s) => s.originate lane true

def execPdelayReq (lane : Nat) (m : PtpMsg) (s : State) : Host.Outcome State Fault Refusal := .next (s.ptpPdelayReq lane m)

/-- PDELAY_RESP (R299): the answer to the port's own request. -/
def State.ptpPdelayResp (s : State) (lane : Nat) (m : PtpMsg) : State :=
  match s.judgePtp lane 3 m with
  | (none, s) => s
  | (some _, s) =>
    if (s.lane lane).ptp.pdelayAsked then s.updPtp lane (fun p => { p with pdelayAsked := false, pdelaySeq := some m.seqId }) else s

def execPdelayResp (lane : Nat) (m : PtpMsg) (s : State) : Host.Outcome State Fault Refusal := .next (s.ptpPdelayResp lane m)

/-- PDELAY_RESP_FOLLOW_UP (R299, R301): completes the measurement of meanLinkDelay. -/
def State.ptpPdelayFollow (s : State) (lane : Nat) (m : PtpMsg) (delay : Nat) : State :=
  match s.judgePtp lane 3 m with
  | (none, s) => s
  | (some _, s) =>
    if (s.lane lane).ptp.pdelaySeq = some m.seqId then s.updPtp lane (fun p => { p with pdelaySeq := none, linkDelay := (delay : Int) })
    else s

def execPdelayRespFollowUp (lane : Nat) (m : PtpMsg) (delay : Nat) (s : State) : Host.Outcome State Fault Refusal :=
  .next (s.ptpPdelayFollow lane m delay)

/-- The other ports of the same time base give up their master (one selected master for each time base). -/
def State.selectMaster (s : State) (lane src : Nat) : State :=
  let tb := s.portTb lane
  let s := (List.range 32).foldl (fun s n =>
    if n ≠ lane ∧ s.portTb n = tb then s.updPtp n (fun p => { p with master := none }) else s) s
  s.updPtp lane (fun p => { p with master := some src, syncSeq := none, announceAt := s.now, listening := false })

/-- ANNOUNCE (R299, R301): `best` is what the best master clock algorithm of the profile finds. -/
def State.ptpAnnounce (s : State) (lane : Nat) (m : PtpMsg) (best : Bool) : State :=
  match s.judgePtp lane 2 m with
  | (none, s) => s
  | (some _, s) =>
    let s := if s.fromMaster lane m then s.updPtp lane (fun p => { p with announceAt := s.now })
      else if best then s.selectMaster lane m.source else s
    s.forwardPtp lane { cls := 1 }

def execAnnounce (lane : Nat) (m : PtpMsg) (best : Bool) (s : State) : Host.Outcome State Fault Refusal :=
  .next (s.ptpAnnounce lane m best)

/-- ANNOUNCE_RECEIPT_TIMEOUT (R299): three Announce intervals without one from the master, or since the port began to listen. -/
def execAnnounceReceiptTimeout (lane : Nat) (s : State) : Host.Outcome State Fault Refusal :=
  .next (if (s.lane lane).ptp.master.isSome || (s.portTb lane).isSome && s.laneOn lane && (s.lane lane).ptp.listening then
      (s.advanceTo ((s.lane lane).ptp.announceAt + 3000 * msClk)).updPtp lane
        (fun p => { p with master := none, syncSeq := none, listening := false })
    else s)

/-- SIGNALING (R301): forwarded; the profile options give it no other effect. -/
def State.ptpPass (s : State) (lane : Nat) (m : PtpMsg) : State :=
  match s.judgePtp lane 2 m with
  | (none, s) => s
  | (some _, s) => s.forwardPtp lane { cls := 1 }

def execSignaling (lane : Nat) (m : PtpMsg) (s : State) : Host.Outcome State Fault Refusal := .next (s.ptpPass lane m)

/-- PTP_MANAGEMENT (R301). -/
def execPtpManagement (lane : Nat) (m : PtpMsg) (s : State) : Host.Outcome State Fault Refusal := .next (s.ptpPass lane m)

/-- PTP_MESSAGE_INTERVAL (R299): every 1 s a Pdelay_Req, and on a master port, which no longer listens for one, an Announce with the
image's priorities and a Sync with its Follow_Up. -/
def State.ptpInterval (s : State) (lane : Nat) : State :=
  match s.portTb lane with
  | none => s
  | some tb =>
    if !s.laneOn lane then s
    else
      let s := s.advanceTo (s.lane lane).ptp.nextAt
      let s := s.updPtp lane (fun p => { p with nextAt := s.now + 1000 * msClk, pdelayAsked := true, pdelaySeq := none })
      let s := s.originate lane false
      let c := s.img.tb tb
      if (s.lane lane).ptp.master.isSome || (s.lane lane).ptp.listening || c.slaveOnly then s
      else (s.queueEth lane { cls := 1, prio := some (c.prio1, c.prio2) }).originate lane true

def execPtpMessageInterval (lane : Nat) (s : State) : Host.Outcome State Fault Refusal := .next (s.ptpInterval lane)

end Sys2Proof.Machine
end

