-- ==== Sys2Proof/Machine/Forcing.lean ====
section
/-! DEFINITION. Forcing of signals and tile outputs (R225 to R229, R250). -/

namespace Sys2Proof.Machine

/-- The entry of a forced signal: the forced value, good, TEST set, FORCED set (R226). -/
def forcedEntry (v : Nat) : Entry := ⟨Quality.testQ, true, BitVec.ofNat 24 v⟩

/-- The selected force entry (LC_FSEL). -/
def State.selForce (s : State) : Nat := s.getF F.LC_FSEL_ENTRY
def State.force (s : State) (n : Nat) : Force := Tab.get s.forces {} n

/-- Outputs of the group of an output target: the feeder's tile and its mask (R250). -/
def State.targetGroup (s : State) (target : Nat) : Option (Nat × Nat) :=
  (s.tileOf (target % 2048)).bind (fun p => (s.tileCfg p.1 p.2).map (fun t => (target % 2048, t.groupOf (fieldOf target 12 3))))

/-- The new target is refused (R225, R250), disregarding entry `n` itself. -/
def State.forceRefused (s : State) (n : Nat) (out : Bool) (target : Nat) : Bool :=
  let others := s.forces.filter (fun p => p.1 != n && p.2.active)
  if out then
    bitOf target 11 || decide (32768 ≤ target) || match s.targetGroup target with
    | none => true
    | some g => others.any (fun p => p.2.output && decide (s.targetGroup p.2.target = some g))
  else !s.populated target || (decide (123648 ≤ target) && decide (target ≤ 123903)) ||
    others.any (fun p => !p.2.output && p.2.target == target)

/-- The value of a target: a signal's VALUE, or the bit of the command that its tile gets (R239). -/
def State.targetValue (s : State) (out : Bool) (target : Nat) : Nat :=
  if out then
    match s.tileOf (target % 2048) with
    | some (lane, a) => b2n (bitOf (s.tileCmd lane a) (fieldOf target 12 3))
    | none => 0
  else (s.sig target).value.toNat

/-- The LC_FDEF word of a target, bits [30:0]. -/
def fdefWord (out : Bool) (target : Nat) : Nat := 2 ^ 30 * b2n out + target

/-- A value in a forcing record: a signal's sign-extended to 32 bits, an output's state as it is. -/
def forceValue (out : Bool) (v : Nat) : List Nat := le4 (if out then v else unsext 32 (sext 24 v))

/-- A forcing record: action, entry, target, old value, new value (R229, R339). -/
def State.forceRecord (s : State) (action n : Nat) (out : Bool) (target old new : Nat) : State :=
  s.event 0x0701 0xFFFF 0xFFFF .none ([action, n] ++ le4 (fdefWord out target) ++ forceValue out old ++ forceValue out new)

/-- COUNT, TESTMODE, FORCEDN and the two balls follow the applied entries (R228). -/
def State.syncForces (s : State) : State :=
  let out := s.forces.any (fun p => p.2.active && p.2.output)
  let s := ((s.setF F.LC_FSTAT_COUNT 0 (s.forces.filter (fun p => p.2.active)).length).setF F.LC_FSTAT_TESTMODE 0
    (b2n s.forcing)).setF F.LC_FSTAT_FORCEDN 0 (b2n out)
  s.updPins (fun p => { p with testmode := s.forcing, forcedN := !out })

/-- A force put on a target: the entry of a signal moves into the hidden copy (R226). -/
def State.putForce (s : State) (n : Nat) (out : Bool) (target value : Nat) : State :=
  let s := if out then s else
    { s with hidden := Tab.put s.hidden Entry.absent target (Tab.get s.sigs Entry.absent target)
             sigs := Tab.set s.sigs target (forcedEntry value) }
  { s with forces := Tab.upd s.forces {} n (fun f => { f with active := true, output := out, target := target, value := value }) }

/-- A force taken off: the hidden copy becomes the entry again (R226). -/
def State.dropForce (s : State) (n : Nat) : State :=
  let f := s.force n
  if !f.active then s else
    let s := if f.output then s else
      { s with sigs := Tab.put s.sigs Entry.absent f.target (Tab.get s.hidden Entry.absent f.target)
               hidden := Tab.del s.hidden f.target }
    { s with forces := Tab.upd s.forces {} n (fun f => { f with active := false }) }

/-- A release with its record, taken while FORCING still stands (log entry 21): the new value is what stands without the force. -/
def State.releaseForce (s : State) (n : Nat) : State :=
  let f := s.force n
  if !f.active then s else
    let below := if f.output then (s.dropForce n).targetValue true f.target else (s.sigBelow f.target).value.toNat
    (s.forceRecord 2 n f.output f.target f.value below).dropForce n

/-- APPLY on entry `n`: a change of value, an apply, a move or a refusal (R225). -/
def State.applyForce (s : State) (n : Nat) : State :=
  let f := s.force n
  let out := bitOf f.def_ 30
  let target := f.def_ % 2 ^ 17
  let value := if out then f.val % 2 else f.val % 2 ^ 24
  if f.active && f.output == out && f.target == target then
    let s := if out then s else { s with sigs := Tab.set s.sigs target (forcedEntry value) }
    ({ s with forces := Tab.upd s.forces {} n (fun f => { f with value := value }) }).forceRecord 1 n out target f.value value
  else if s.forceRefused n out target then s.setF F.LC_FSTAT_REF 0 1
  else
    let s := s.releaseForce n
    let old := s.targetValue out target
    (s.putForce n out target value).forceRecord 0 n out target old value

/-- What follows each change of the applied entries. -/
def State.forcesChanged (s : State) : State := s.syncForces.published

/-- LC_FCTRL.APPLY. -/
def execApply (s : State) : Host.Outcome State Fault Refusal := .next (s.applyForce s.selForce).forcesChanged

/-- LC_FCTRL.RELEASE. -/
def execRelease (s : State) : Host.Outcome State Fault Refusal := .next (s.releaseForce s.selForce).forcesChanged

/-- LC_FCTRL.RELALL, in ascending entry order. -/
def execRelall (s : State) : Host.Outcome State Fault Refusal :=
  .next ((List.range 64).foldl (fun s n => s.releaseForce n) s).forcesChanged

end Sys2Proof.Machine
end

