-- ==== Sys2Proof/Machine/Comtrade.lean ====
section
/-! DEFINITION. The COMTRADE file sets of a closed record (R331). The rows of the .dat file are formed byte by byte, each as long as
R330 counts it; the text of the .cfg and .inf files, whose form the spec leaves to IEEE C37.111-2013, is an opaque function of the
items that the spec gives them (log entry 6). -/

namespace Sys2Proof.Machine

/-! ## Timestamps -/

/-- The sample instants of a record's epochs, oldest first: core clock, and ns by the epoch stamps since the first of them (R38). -/
def DrRec.instants (r : DrRec) : List (Nat × Nat) :=
  let l := (r.rows.filter (fun c => c.grp == 1 && c.chan == 2)).reverse
  (l.foldl (fun (a : List (Nat × Nat) × Nat) c =>
    let t := match a.1.head? with | some p => p.2 + (c.word + 2 ^ 32 - a.2) % 2 ^ 32 | none => 0
    ((c.at_, t) :: a.1, c.word)) ([], 0)).1.reverse

/-- The time in ns at a core clock, interpolated between the instants beside it; outside them the nearest interval goes on. -/
def timeAt : List (Nat × Nat) → Nat → Rat
  | (a, x) :: (b, y) :: l, t =>
    if decide (t < b) || l.isEmpty then (x : Rat) + ((y : Rat) - x) * ((t : Rat) - a) / ((b : Rat) - a) else timeAt ((b, y) :: l) t
  | [(a, x)], t => (x : Rat) + ((t : Rat) - a) * 5 / 6
  | [], t => (t : Rat) * 5 / 6

/-! ## The .dat file -/

/-- The core clock of a row of a group. -/
def DrRec.rowAt (r : DrRec) (grp row : Nat) : Option Nat := (r.rows.find? (fun c => c.grp == grp && c.row == row)).map (fun c => c.at_)

/-- A stored value, 0xFFFF_FFFF where none is. -/
def DrRec.value (r : DrRec) (grp row chan : Nat) : Nat :=
  ((r.rows.find? (fun c => c.grp == grp && c.row == row && c.chan == chan)).map (fun c => c.word)).getD 0xFFFFFFFF

/-- The timestamp of a row: units of 10 ns from the group's first row in groups L and E, missing in group S, whose rate stands in the
.cfg file. -/
def DrRec.rowTime (r : DrRec) (grp first row : Nat) : Nat :=
  match r.rowAt grp first, r.rowAt grp row with
  | some a, some b => if 2 ≤ grp then 0xFFFFFFFF else ((timeAt r.instants b - timeAt r.instants a) / 10).floor.toNat % 2 ^ 32
  | _, _ => 0xFFFFFFFF

/-- A BINARY32 row: its number from 1, its timestamp, its analog values, the words of its digital channels. -/
def DrRec.datRow (r : DrRec) (p : Nat × List Nat) (first row : Nat) : List Nat :=
  le4 (row + 1 - first) ++ le4 (r.rowTime p.1 first row) ++ p.2.flatMap (fun ch => le4 (r.value p.1 row ch)) ++
    (if p.1 = 1 then leBytes (2 * ((r.bits + 15) / 16)) (r.value 1 row 1) else [])

/-- The rows of a record's part `i`; an uncorrectable word shows 0xFFFF_FFFF in both halves (R333). -/
def DrRec.datBytes (r : DrRec) (i : Nat) : List Nat :=
  let p := r.parts.getD i (1, [0])
  let rows := r.rowsOf p.1
  let b := rows.flatMap (fun row => r.datRow p (rows.headD 0) row)
  (List.zip (List.range b.length) b).map (fun x => if r.lost.contains (i, x.1 / 8) then 0xFF else x.2)

/-! ## The .cfg and .inf files -/

/-- A time of a .cfg file in ns: extended time, or RTC time with tmq_code F. -/
structure CfgTime where
  rtc : Bool
  ns : Int
deriving DecidableEq, Repr

/-- An analog channel of a .cfg file: primary value = a × value + b, skew in µs, PS = P. -/
structure CfgChan where
  chan : Nat
  a : Nat := 1
  b : Nat := 0
  skew : Rat := 0
  primary : Bool := true
deriving DecidableEq, Repr

/-- What the .cfg file of a group says. -/
structure CfgFile where
  record : Nat
  grp : Nat
  analog : List CfgChan
  digital : Nat
  freq : Nat
  nrates : Nat
  samp : Nat := 0
  rows : Nat
  start : CfgTime
  trig : CfgTime
  /-- The files' data are BINARY32; one timestamp unit in ns. -/
  binary32 : Bool := true
  unitNs : Nat
deriving DecidableEq, Repr

/-- The skew of a channel in µs at the section frequency of the trigger (R72). -/
def DrNote.skewUs (n : DrNote) (chan : Nat) : Rat :=
  match n.chans.find? (fun c => c.1 == chan) with
  | some c => if n.freq = 0 then 0 else (c.2.1 : Rat) / 8 / 65536 / ((n.freq : Rat) / 10000) * 1000000
  | none => 0

/-- The time at a core clock by the trigger's. -/
def DrRec.timeOf (r : DrRec) (clk : Nat) : CfgTime :=
  let d := ((clk : Int) - r.trig) * 5 / 6
  match r.note.ext with
  | some t => { rtc := false, ns := (t : Int) + d }
  | none => { rtc := true, ns := (r.note.rtc : Int) * 1000000 + d }

def DrRec.cfgFile (r : DrRec) (id i : Nat) : CfgFile :=
  let p := r.parts.getD i (1, [0])
  let rows := r.rowsOf p.1
  { record := id, grp := p.1
    analog := p.2.map (fun ch => { chan := ch, skew := if p.1 = 0 then r.note.skewUs ch else 0 })
    digital := if p.1 = 1 then r.bits else 0, freq := r.note.freq
    nrates := b2n (decide (2 ≤ p.1)), samp := if 2 ≤ p.1 then p.1 - 2 else 0, rows := rows.length
    start := r.timeOf ((r.rowAt p.1 (rows.headD 0)).getD r.start), trig := r.timeOf r.trig, unitNs := if 2 ≤ p.1 then 1000 else 10 }

/-- What the private section [Brodurn PH-7192] of the .inf file says. -/
structure InfFile where
  record : Nat
  pcc : Nat
  opAt : Nat
  fired : List SigBit
  manual_ : Bool
  version : Nat
  ratio : List Nat
  link : Option Nat
  damaged : Bool
deriving DecidableEq, Repr

def DrRec.infFile (r : DrRec) (id : Nat) : InfFile :=
  { record := id, pcc := r.note.pcc, opAt := r.note.opAt, fired := r.note.fired, manual_ := r.note.manual_, version := r.note.version
    ratio := (r.note.chans.filter (fun c => c.2.2)).map Prod.fst, link := r.link, damaged := r.damaged }

/-- The items of a time, of a rational. -/
def CfgTime.items (t : CfgTime) : List Int := [(b2n t.rtc : Int), t.ns]

/-- The items of a .cfg file in order, lists after their lengths. -/
def CfgFile.items (c : CfgFile) : List Int :=
  [0, (c.record : Int), (c.grp : Int), (c.analog.length : Int)] ++
    c.analog.flatMap (fun x => [(x.chan : Int), (x.a : Int), (x.b : Int), x.skew.num, (x.skew.den : Int), (b2n x.primary : Int)]) ++
    [(c.digital : Int), (c.freq : Int), (c.nrates : Int), (c.samp : Int), (c.rows : Int)] ++ c.start.items ++ c.trig.items ++
    [(b2n c.binary32 : Int), (c.unitNs : Int)]

/-- The items of an .inf file in order. -/
def InfFile.items (f : InfFile) : List Int :=
  [1, (f.record : Int), (f.pcc : Int), (f.opAt : Int), (f.fired.length : Int)] ++
    f.fired.flatMap (fun b => [(b.id : Int), (b.bit : Int)]) ++
    [(b2n f.manual_ : Int), (f.version : Int), (f.ratio.length : Int)] ++ f.ratio.map (fun n => (n : Int)) ++
    [(b2n f.link.isSome : Int), (f.link.getD 0 : Int), (b2n f.damaged : Int)]

/-- The text of a .cfg or .inf file, whose form the spec leaves to the standard (log entry 6). -/
def comtradeText (items : List Int) : List Nat :=
  (List.range (Config.comtradeLen items + 1)).map (fun i => (Config.comtradeByte items i).toNat)

/-- The bytes of file `file` = group × 3 + type of record `id` (R331, R393). -/
def DrRec.fileBytes (r : DrRec) (id file : Nat) : List Nat :=
  if file % 3 = 0 then comtradeText (r.cfgFile id (file / 3)).items
  else if file % 3 = 1 then r.datBytes (file / 3)
  else comtradeText (r.infFile id).items

end Sys2Proof.Machine
end

