-- ==== Sys2Proof/Machine/Mgmt.lean ====
section
/-! DEFINITION. The management service: ARP, requests, responses and change sessions (R392 to R396). -/

namespace Sys2Proof.Machine

/-! ## Datagrams (R392) -/

/-- Bytes 0 to 19 of the header. -/
def mgmtHead (magic version code reqId status arg0 arg1 len : Nat) : List Nat :=
  le2 magic ++ [version % 256, code % 256] ++ le2 reqId ++ le2 status ++ le4 arg0 ++ le4 arg1 ++ le2 len ++ [0, 0]

/-- The CRC of a datagram: over bytes 0 to 19 and the payload. -/
def mgmtCrc (head payload : List Nat) : Nat := crcOf crc32c (head ++ payload)

def headOf (m : MgmtMsg) (code : Nat) : List Nat :=
  mgmtHead m.magic m.version code m.reqId m.status m.arg0 m.arg1 m.len

/-- MAGIC, VERSION, CRC and length of a request are right (R391). -/
def headOk (m : MgmtMsg) (code : Nat) : Bool :=
  m.magic == 0xB0D8 && m.version == 1 && m.len == m.payload.length && decide (m.payload.length ≤ 1448) &&
  m.crc == mgmtCrc (headOf m code) m.payload

/-- A response as bytes. -/
def Resp.bytes (r : Resp) : List Nat :=
  let h := mgmtHead 0xB0D8 1 r.code r.reqId r.status r.arg0 r.arg1 r.payload.length
  h ++ le4 (mgmtCrc h r.payload) ++ r.payload

/-! ## Responses (R392, R394) -/

/-- What a request is answered with: STATUS, ARG0 where the spec gives it, payload. -/
structure Ans where
  status : Nat := 0
  arg0 : Option Nat := none
  payload : List Nat := []
deriving DecidableEq, Repr

/-- The response to a request is formed, from the address and port that the request named (R376), and queued; `n` names the entry while the request counts as outstanding (R395). -/
def State.answer (s : State) (m : MgmtMsg) (code : Nat) (a : Ans) (n : Option Nat) : State :=
  let (arg0, s) := match a.arg0 with | some x => (x, s) | none => s.fresh 32
  let (arg1, s) := s.fresh 32
  let r : Resp := { mac := m.snd.mac, ip := m.ip, port := m.port, fromIp := m.toIp, fromPort := m.toPort
                    code := code % 0x80 + 0x80, reqId := m.reqId, status := a.status, arg0 := arg0, arg1 := arg1, payload := a.payload }
  ({ s with resps := r :: s.resps }).queueEth m.lane
    { cls := 4, len := 70 + a.payload.length, mgmt := n.map (fun n => (n, m.reqId)) }

/-- Requests in the queue of management requests (R396). -/
def State.mgmtFill (s : State) : Nat :=
  (s.lanes.map (fun (p : Nat × LaneSt) => (p.2.ethQ.filter (fun f => f.mgmt.isSome)).length)).sum

/-- The port serves datagrams to this address and port (R392). -/
def LaneCfg.serves (c : LaneCfg) (ip port : Nat) : Bool := c.sb && c.ipv4 != 0 && c.ipv4 == ip && c.udp == port

/-- Steps 1 to 4 of R390 for a datagram: the entry of its client. -/
def State.judgeMgmt (s : State) (m : MgmtMsg) : Option Nat × State :=
  let s := s.captureRx m.lane
  if !s.ethRx m.lane then (none, s)
  else if !frameLenOk m.snd.len then (none, s.incF F.LN_FRMCNT_RXDISC m.lane)
  else if !(s.img.lane m.lane).serves m.toIp m.toPort then (none, s.incF F.PT_UNADM_OTHER)
  else s.judgeDynamic m.lane 4 m.ip (m.ip * 65536 + m.port) m.ip m.port m.snd

/-- The answer of an unknown, malformed or not permitted request, or of one over the outstanding cap, is a violation
(R391). -/
def badStatus (st : Nat) : Bool := st == 1 || st == 2 || st == 3 || st == 4

/-- A request (R390 to R396): `priv` is the privilege bit it needs, `act` its effect and answer. -/
def State.request (s : State) (m : MgmtMsg) (code : Nat) (priv : Option Nat) (wellFormed : Bool) (act : State → Ans × State) :
    State :=
  match s.judgeMgmt m with
  | (none, s) => s
  | (some n, s) =>
    if !headOk m code then s.violation n m.lane 4
    else if (s.outstanding n).contains m.reqId then s
    else if (s.partner n).capOut ≤ (s.outstanding n).length then (s.violation n m.lane 5).answer m code { status := 4 } none
    else if 256 ≤ s.mgmtFill then s.incF F.PT_UNADM_OTHER
    else
      let s := s.brim F.DEV_BRIM2_MGMT (s.mgmtFill + 1)
      let (a, s) :=
        if !wellFormed then (({ status := 1 } : Ans), s)
        else match priv with
          | none => ({ status := 2 }, s)
          | some b => if bitOf (s.partner n).priv b then act s else ({ status := 3 }, s)
      let s := if badStatus a.status then s.violation n m.lane 5 else s
      s.answer m code a (some n)

/-- A request without payload. -/
def bareMsg (m : MgmtMsg) : Bool := m.payload.isEmpty

/-- UNKNOWN_REQUEST: UNSUPPORTED, or a discard where MAGIC, VERSION, CRC or the length is wrong. -/
def execUnknownRequest (m : MgmtMsg) (s : State) : Host.Outcome State Fault Refusal :=
  .next (s.request m m.code none true (fun s => ({}, s)))

/-- ARP_REQUEST (R392): answered for the port's own address on a station-bus port, else a frame of no kind. -/
def State.arp (s : State) (lane ip : Nat) : State :=
  let s := s.captureRx lane
  if !s.ethRx lane then s
  else
    let c := s.img.lane lane
    if c.sb && c.ipv4 != 0 && c.ipv4 == ip then (s.updDev (fun d => { d with arps := d.arps + 1 })).queueEth lane { cls := 4 }
    else s.incF F.PT_UNADM_OTHER

def execArpRequest (lane ip : Nat) (s : State) : Host.Outcome State Fault Refusal := .next (s.arp lane ip)

/-! ## PAGE (R393, R400) -/

/-- Up to 1,024 bytes of the buffer latched for reader 1, with its EPOCH word. -/
def State.mgmtPage (s : State) (page off : Nat) : Ans × State :=
  if 24 < page ∨ 0x2000 ≤ off then ({ status := 6 }, s)
  else
    let s := s.latchPage page 1
    let n := min 256 ((0x2000 - off) / 4)
    ({ arg0 := some (s.snapWord page 0 1), payload := (List.range n).flatMap (fun i => le4 (s.snapWord page (off + 4 * i) 1)) }, s)

def execPage (m : MgmtMsg) (s : State) : Host.Outcome State Fault Refusal :=
  .next (s.request m 1 (some 0) ((bareMsg m) && m.arg1 % 4 == 0) (fun s => s.mgmtPage m.arg0 m.arg1))

/-! ## LOGREAD (R347, R349) -/

/-- A committed record as a reader gets it: a suspect one takes its SEQ from its position (R347). -/
def State.readBytes (s : State) (seq : Nat) : List Nat :=
  match s.slotOf seq with
  | some slot => let b := s.slotBytes slot
                 if s.suspect slot then le4 seq ++ b.drop 4 else b
  | none => []

/-- The committed records of a range up to the head, each with its mark. -/
def State.mgmtLog (s : State) (first n : Nat) : Ans × State :=
  let head := s.getF F.EL_HEAD_HEAD
  if first < s.getF F.EL_FIRST_FIRST ∨ head < first then ({ status := 6 }, s)
  else
    let seqs := ((List.range n).map (fun i => first + i)).filter (fun q => decide (q ≤ head) && (s.slotOf q).isSome)
    ({ payload := seqs.flatMap (fun q => s.readBytes q ++ le4 (s.readState q)) }, seqs.foldl (fun s q => s.noteRead q) s)

def execLogread (m : MgmtMsg) (s : State) : Host.Outcome State Fault Refusal :=
  .next (s.request m 2 (some 0) ((bareMsg m) && decide (1 ≤ m.arg1) && decide (m.arg1 ≤ 21)) (fun s => s.mgmtLog m.arg0 m.arg1))

/-! ## Disturbance records (R331, R332) -/

/-- An entry of the record list: the identifier, then 20 bytes made of section, state (open or closed), trigger time (operating time
in ms), length in ms and flags as in record 0x0C01, in a layout that the spec does not give (log entry 6). -/
def listEntry (id : Nat) (r : DrRec) : List Nat :=
  let items := [r.sec, b2n r.open_, r.note.opAt, (r.stop - r.start) / msClk, b2n r.link.isSome + 2 * b2n r.damaged]
  le4 id ++ (List.range 20).map (fun i => (Config.listByte items i).toNat)

/-- Up to 60 entries of records from an identifier on, in rising order. -/
def State.mgmtList (s : State) (first : Nat) : Ans × State :=
  ({ payload := ((s.recs.filter (fun r => !r.2.acked && decide (first ≤ r.1))).take 60).flatMap (fun r => listEntry r.1 r.2) }, s)

def execDrlist (m : MgmtMsg) (s : State) : Host.Outcome State Fault Refusal :=
  .next (s.request m 3 (some 0) (bareMsg m) (fun s => s.mgmtList m.arg0))

/-- Up to 1,024 bytes of a file of a closed record; errors of the store are met on the way (R331 to R333). -/
def State.mgmtExport (s : State) (id arg1 : Nat) (ecc : EccIn) : Ans × State :=
  let file := arg1 / 2 ^ 24
  let off := 1024 * (arg1 % 2 ^ 24)
  match Tab.find s.recs id with
  | none => ({ status := 7 }, s)
  | some r =>
    if r.acked then ({ status := if r.exported then 9 else 7 }, s)
    else if r.open_ then ({ status := 8 }, s)
    else if r.dirLost then ({ status := 7 }, s)
    else
      if 3 * r.groups ≤ file ∨ (r.fileBytes id file).length ≤ off then ({ status := 6 }, s)
      else
        let s := s.dramWords ecc (some id)
        let r := (Tab.find s.recs id).getD r
        if ecc.dir then ({ status := 7 }, s)
        else
          let s : State := { s with recs := s.recs.map (fun (p : Nat × DrRec) => if p.1 = id then (id, { p.2 with exported := true }) else p) }
          ({ payload := ((r.fileBytes id file).drop off).take 1024 }, s)

def execDrexport (m : MgmtMsg) (ecc : EccIn) (s : State) : Host.Outcome State Fault Refusal :=
  .next (s.request m 4 (some 0) (bareMsg m) (fun s => s.mgmtExport m.arg0 m.arg1 ecc))

/-- An acknowledgment: refused for a record that is open or does not exist (R332). -/
def State.mgmtAck (s : State) (id : Nat) : Ans × State :=
  match Tab.find s.recs id with
  | none => ({ status := 7 }, s)
  | some r => if r.acked then ({ status := 7 }, s) else if r.open_ then ({ status := 8 }, s) else ({}, s.ackRec id)

def execDrack (m : MgmtMsg) (s : State) : Host.Outcome State Fault Refusal :=
  .next (s.request m 5 (some 1) (bareMsg m) (fun s => s.mgmtAck m.arg0))

/-! ## Change sessions (R393) -/

def clientOf (m : MgmtMsg) : Nat × Nat × Nat := (m.lane, m.ip, m.port)

/-- A session ends 60 s after its last accepted request. -/
def State.ageSession (s : State) : State :=
  match s.session with
  | some x => if x.lastAt + 60000 * msClk ≤ s.now then { s with session := none } else s
  | none => s

def execChangeSessionTimeout (s : State) : Host.Outcome State Fault Refusal :=
  .next (match s.session with
    | some x => { s.advanceTo (x.lastAt + 60000 * msClk) with session := none }
    | none => s)

/-- The session is another client's. -/
def State.foreign (s : State) (m : MgmtMsg) : Bool :=
  match s.session with
  | some x => x.client != clientOf m
  | none => false

def State.own (s : State) (m : MgmtMsg) : Bool :=
  match s.session with
  | some x => x.client == clientOf m
  | none => false

/-- CHGBEGIN: a package of at most 8 MiB is announced. -/
def State.beginChange (s : State) (m : MgmtMsg) : Ans × State :=
  let s := s.ageSession
  if s.foreign m || s.dev.storing || s.change.isSome then ({ status := 5 }, s)
  else if 8 * 2 ^ 20 < m.arg0 then ({ status := 6 }, s)
  else ({}, { s with session := some { client := clientOf m, len := m.arg0, lastAt := s.now }, pkgBuf := [] })

def execChgbegin (m : MgmtMsg) (s : State) : Host.Outcome State Fault Refusal :=
  .next (s.request m 6 (some 2) (bareMsg m) (fun s => s.beginChange m))

/-- CHGDATA: bytes into the package buffer, within the announced length. -/
def State.changeData (s : State) (m : MgmtMsg) : Ans × State :=
  let s := s.ageSession
  match s.session with
  | none => ({ status := 8 }, s)
  | some x =>
    if x.client ≠ clientOf m then ({ status := 8 }, s)
    else if x.len < m.arg0 + m.payload.length then ({ status := 6 }, s)
    else ({}, { s with session := some { x with lastAt := s.now }, pkgBuf := Mem.writeN 0 s.pkgBuf m.arg0 m.payload })

def execChgdata (m : MgmtMsg) (s : State) : Host.Outcome State Fault Refusal :=
  .next (s.request m 7 (some 2) (decide (m.payload.length ≤ 1024)) (fun s => s.changeData m))

/-- CHGEND: the session ends and the checks of R374 start. -/
def State.endChange (s : State) (m : MgmtMsg) : Ans × State :=
  let s := s.ageSession
  if s.own m then ({ status := 10 }, { s with session := none, dev := { s.dev with storing := true } }) else ({ status := 8 }, s)

def execChgend (m : MgmtMsg) (s : State) : Host.Outcome State Fault Refusal :=
  .next (s.request m 8 (some 2) (bareMsg m) (fun s => s.endChange m))

/-- DEV_CHGSTAT as a word. -/
def State.chgstatWord (s : State) : Nat :=
  2 ^ 28 * s.getF F.DEV_CHGSTAT_RESULT + 2 ^ 23 * s.getF F.DEV_CHGSTAT_PEND + 2 ^ 22 * s.getF F.DEV_CHGSTAT_ROLL +
    2 ^ 21 * s.getF F.DEV_CHGSTAT_ABREF + 2 ^ 20 * s.getF F.DEV_CHGSTAT_DONE + s.getF F.DEV_CHGSTAT_LEFT

def execChgstat (m : MgmtMsg) (s : State) : Host.Outcome State Fault Refusal :=
  .next (s.request m 9 (some 0) (bareMsg m) (fun s => ({ payload := le4 s.chgstatWord ++ le4 (s.getF F.DEV_CHGVER_VERSION) }, s)))

/-- CHGABORT: the client's session ends, or the pending package is aborted under R375. -/
def State.mgmtAbort (s : State) (m : MgmtMsg) : Ans × State :=
  let s := s.ageSession
  if s.foreign m then ({ status := 5 }, s)
  else if s.own m then ({}, { s with session := none })
  else ({}, s.abortChange)

def execChgabort (m : MgmtMsg) (s : State) : Host.Outcome State Fault Refusal :=
  .next (s.request m 10 (some 2) (bareMsg m) (fun s => s.mgmtAbort m))

end Sys2Proof.Machine
end

