-- ==== Sys2Proof/Machine/MaintPort.lean ====
section
/-! DEFINITION. The maintenance port: register reads and writes, SPI frames and the NVM registers (R4 to R6, R404 to R413). -/

namespace Sys2Proof.Machine

/-! ## The address map (R404) -/

/-- The rows of R404; the check buffer and the force block are rows of their own. -/
inductive Blk where
  | dev | sec | pe | ln | cv | tb | ck | buf | el | dr | pr | lc | lcf | pt | sn
deriving DecidableEq, Repr

/-- Each row: base, end and instance stride, 0 for one instance. -/
def mapRows : List (Blk × Nat × Nat × Nat) :=
  [(.dev, 0x0, 0xFFF, 0), (.sec, 0x10000, 0x27FFF, 0x1000), (.pe, 0x30000, 0x3BFFF, 0x100), (.ln, 0x40000, 0x47FFF, 0x400),
   (.cv, 0x50000, 0x53FFF, 0x200), (.tb, 0x60000, 0x603FF, 0x100), (.ck, 0x70000, 0x707FF, 0x100), (.buf, 0x78000, 0x7FFFF, 0),
   (.el, 0x80000, 0x80FFF, 0), (.dr, 0x88000, 0x88FFF, 0), (.pr, 0x90000, 0x90FFF, 0), (.lc, 0xA0000, 0xA03FF, 0x100),
   (.lcf, 0xA1000, 0xA1FFF, 0), (.pt, 0xB0000, 0xB0FFF, 0), (.sn, 0x100000, 0x131FFF, 0x2000)]

/-- The row that holds an address. -/
def blockAt (a : Nat) : Option (Blk × Nat × Nat × Nat) := mapRows.find? (fun b => decide (b.2.1 ≤ a) && decide (a ≤ b.2.2.1))

/-- Row, instance and offset of an address. -/
def locate (a : Nat) : Option (Blk × Nat × Nat) :=
  (blockAt a).map (fun b =>
    let d := a - b.2.1
    if b.2.2.2 = 0 then (b.1, 0, d) else (b.1, d / b.2.2.2, d % b.2.2.2))

/-- Instance and index of a field whose register is at an address. -/
def Fld.at_ (f : Fld) (a : Nat) : Option (Nat × Nat) :=
  if a < f.base + f.off then none
  else
    let d := a - (f.base + f.off)
    let i := if f.stride = 0 then 0 else d / f.stride
    let r := d - f.stride * i
    if i < f.insts ∧ r % 4 = 0 ∧ r / 4 < f.count then some (i, r / 4) else none

/-- The fields of the register at an address, with instance and index. -/
def fieldsAt (a : Nat) : List (Fld × Nat × Nat) := allFields.filterMap (fun f => (f.at_ a).map (fun p => (f, p)))

/-- A register of a tile chain exists only on a lane in tile link mode. -/
def State.absentReg (s : State) (b : Blk) (i off : Nat) : Bool := b == .ln && decide (0x200 ≤ off) && !s.tileLane i

/-! ## Reads (R4, R21, R296, R400, R409) -/

/-- The stored fields of a register as a word. -/
def State.plainWord (s : State) (a : Nat) : Nat :=
  (fieldsAt a).foldl (fun w p => if p.1.acc = .wo then w else w + 2 ^ p.1.lo * s.getF p.1 p.2.1 p.2.2) 0

/-- What the device brings up to date before a register is read. -/
def State.beforeRead (s : State) (b : Blk) (i off : Nat) : State :=
  match b, off with
  | .ln, 0x68 => s.syncPrbs i
  | .ln, 0x6C => s.syncPrbs i
  | .ln, 0x74 => s.syncInj i
  | .ln, 0x70 => s.syncInj i
  | .pr, 0x10 => s.setF F.PR_PCLAIM_PSEEN 0 (b2n s.pseen)
  | .sn, 0x0 => s.latchPage i 0
  | .sn, 0x10 => s.ageLatch i
  | .sn, _ => s.ageLatch i
  | .ck, _ => s.ckShow i
  | .buf, _ => s.ckShowAll
  | _, _ => s

/-- Bit b of DEV_ALERT: a W1C bit is set in an instance of its blocks (R411). -/
def State.alertBit (s : State) (base : Nat) : Bool :=
  allFields.any (fun f => f.acc == .w1c && (f.base == base) &&
    (List.range f.insts).any (fun i => (List.range f.count).any (fun j => s.getF f i j != 0)))

def State.alertWord (s : State) : Nat :=
  let l := [0x0, 0x10000, 0x30000, 0x50000, 0x40000, 0x60000, 0x70000, 0x80000, 0x88000, 0x90000, 0xA0000, 0xB0000, 0x100000]
  ((List.range 13).zip l).foldl (fun w p => w + 2 ^ p.1 * b2n (s.alertBit p.2)) 0

/-- MALERT# is low (R411). -/
def State.malertLow (s : State) : Bool := s.alertWord &&& s.getF F.DEV_ALERTEN_BLK != 0

/-- The word at LC_VADDR of a logic core. -/
def State.vdata (s : State) (k : Nat) : Nat :=
  let c := s.core k
  let n := s.getF F.LC_VADDR_INDEX k
  match s.getF F.LC_VADDR_KIND k with
  | 0 => (s.coreVar k n).word
  | 1 => unsext 32 (Tab.get c.timers {} n).e
  | _ => unsext 32 (Tab.get c.ctrs {} n).n

/-- LN_TILESTAT to LN_TILECFG for the tile of LN_TCSEL. -/
def State.tileWord (s : State) (n off : Nat) : Nat :=
  let a := s.getF F.LN_TCSEL_ADDR n
  let d := s.devTile n a
  let u := d.up.getD {}
  if s.chainN n ≤ a then 0
  else match off with
    | 0x218 => 2 ^ 16 * (u.aclaim % 65536) + 2 ^ 9 * b2n d.lost + 2 ^ 8 * b2n (!s.inRange n a) + u.stat % 256
    | 0x21C => 2 ^ 24 * (u.rb % 256) + 2 ^ 16 * (d.cmd % 256) + u.inp % 65536
    | 0x220 => d.serial
    | _ => 2 ^ 16 * (s.tileFeeder n a % 2048) + s.imgCtag n a

/-- PT_ENT to PT_OUT for the entry of PT_SEL. -/
def State.partnerWord (s : State) (off : Nat) : Nat :=
  let n := s.getF F.PT_SEL_ENTRY
  match Tab.find s.partners n with
  | none => 0
  | some p => match off with
    | 0x0C => 2 ^ 31 + 2 ^ 30 * b2n p.pinned + 2 ^ 27 * p.kind + 2 ^ 22 * p.lane + 2 ^ 19 * p.priv + p.rule
    | 0x10 => p.id0 % 2 ^ 32
    | 0x14 => p.id1 % 2 ^ 32
    | 0x18 => 2 ^ 16 * p.capDrop + p.viol
    | _ => (s.outstanding n).length

/-- What a register shows beside its stored fields: the values that change without a write (R19, R292, R341, R347). -/
def State.liveWord (s : State) (b : Blk) (i off : Nat) : Nat :=
  match b, off with
  | .dev, 0x04 => 2 ^ 16 * (Config.bootRomRev % 2 ^ 16)
  | .dev, 0x08 => s.alertWord
  | .sec, 0x00 => let t := s.tick i % 65536; 2 ^ 16 * (t / 512) + t
  | .sec, 0x10 => if s.flag F.SEC_REF_STAT_GLIDE i then
      unsext 16 ((s.sec i).glideErr ((s.sec i).entry (s.target i)).hz s.now).floor else 0
  | .pe, 0x40 => 2 ^ F.PE_PLYSTAT_ACTIVE.lo * b2n (s.plyActive i)
  | .cv, 0x10C => s.coef i
  | .tb, 0x0C => s.tbNs i
  | .ln, 0x104 => match (s.lane i).tsq with | (id, _) :: _ => 2 ^ 31 + id % 65536 | [] => 0
  | .ln, 0x218 => s.tileWord i 0x218
  | .ln, 0x21C => s.tileWord i 0x21C
  | .ln, 0x220 => s.tileWord i 0x220
  | .ln, 0x224 => s.tileWord i 0x224
  | .el, 0x24 => s.opTime % 2 ^ 32
  | .el, 0x30 => s.rtcMs % 2 ^ 32
  | .el, 0x3C => s.readState (s.getF F.EL_RDSEQ_SEQ)
  | .el, o => if 0x40 ≤ o ∧ o < 0x80 then leNat (((s.readBytes (s.getF F.EL_RDSEQ_SEQ)).drop (o - 0x40)).take 4) else 0
  | .lc, 0x20 => s.vdata i
  | .lcf, 0x08 => let f := s.force s.selForce; 2 ^ 31 * b2n f.active + f.def_
  | .lcf, 0x0C => (s.force s.selForce).val
  | .pt, 0x0C => s.partnerWord 0x0C
  | .pt, 0x10 => s.partnerWord 0x10
  | .pt, 0x14 => s.partnerWord 0x14
  | .pt, 0x18 => s.partnerWord 0x18
  | .pt, 0x1C => s.partnerWord 0x1C
  | _, _ => 0

/-- What a read of a register does beside clearing its RC fields. -/
def State.afterRead (s : State) (b : Blk) (i off : Nat) : State :=
  match b, off with
  | .sec, 0x00 => s.setF F.SEC_ANGLE_CYC_CYCLE i (s.tick i / 65536)
  | .sec, 0x18 => s.setF F.SEC_EPOCH_TS_NS i (s.sec i).stamp
  | .cv, 0x10C => s.nextTap i
  | .tb, 0x1C => s.latchBase i
  | .ln, 0x104 => s.popStamp i
  | .el, 0x24 => s.setF F.EL_OPTH_OPTH 0 (s.opTime / 2 ^ 32)
  | .el, 0x30 => s.setF F.EL_RTCH_RTCH 0 (s.rtcMs / 2 ^ 32)
  | .el, o => if 0x40 ≤ o ∧ o < 0x80 then s.noteRead (s.getF F.EL_RDSEQ_SEQ) else s
  | .pt, 0x18 =>
    let n := s.getF F.PT_SEL_ENTRY
    if (Tab.find s.partners n).isSome then s.updPartner n (fun p => { p with capDrop := 0, viol := 0 }) else s
  | _, _ => s

/-- The RC fields of a register cleared (R4). -/
def State.clearRc (s : State) (a : Nat) : State :=
  (fieldsAt a).foldl (fun s p => if p.1.acc = .rc then s.setF p.1 p.2.1 0 p.2.2 else s) s

/-- A read of the word at an address, and what it does (R4, R405). -/
def State.readWord (s : State) (a : Nat) : Nat × State :=
  match locate a with
  | none => (0, s)
  | some (b, i, off) =>
    if s.absentReg b i off then (0, s)
    else
      let s := s.beforeRead b i off
      match b with
      | .buf => (leNat (Mem.readN 0 s.ckBuf off 4), s)
      | .sn => (s.snapWord i off 0, s)
      | _ => (s.plainWord a + s.liveWord b i off, (s.afterRead b i off).clearRc a)

/-! ## Writes (R4 to R6) -/

/-- A write under the access codes: RW fields take defined encodings, W1C bits written 1 clear, W1S bits written 1 set. -/
def State.writePlain (s : State) (a w : Nat) : State :=
  (fieldsAt a).foldl (fun s p =>
    let (f, i, j) := p
    let v := fieldOf w f.lo f.width
    match f.acc with
    | .rw => s.writeRw f i w j
    | .w1c => s.clearW1c f i v j
    | .w1s => s.setF f i (s.getF f i j ||| v) j
    | _ => s) s

/-- `f` where bit `b` of the word is 1. -/
def State.onBit (s : State) (w b : Nat) (f : State → State) : State := if bitOf w b then f s else s

/-- An enable and a disable bit: a write that carries both does nothing (R364). -/
def State.onPair (s : State) (w en dis : Nat) (on off : State → State) : State :=
  if bitOf w en && bitOf w dis then s else (s.onBit w en on).onBit w dis off

/-- Exactly one of three command bits acts; more than one does nothing. -/
def State.onOne (s : State) (w : Nat) (f0 f1 f2 : State → State) : State :=
  match w % 8 with
  | 1 => f0 s
  | 2 => f1 s
  | 4 => f2 s
  | _ => s

/-- A write to a check unit: CK_STAT, the reserved addresses from 0x30 (R5), a unit that serves the device (R362), CK_CTRL,
the two registers that only read, and the others, which a running job does not take (R360, R361). -/
def State.writeCk (s : State) (k off a w : Nat) : State :=
  if off = 0x04 then s.writePlain a w
  else if 0x30 ≤ off then s
  else if s.ckOwned k then s.setF F.CK_STAT_BUSY k 1
  else if off = 0x00 then s.onOne w (fun s => s.ckStart k (bitOf w 3)) (fun s => s.ckPause k) (fun s => s.ckAbort k)
  else if 0x28 ≤ off then s
  else if s.getF F.CK_STAT_STATE k = 1 then s.setF F.CK_STAT_BUSY k 1
  else if 0x18 ≤ off then (s.writePlain a w).ckRestored k
  else s.writePlain a w

/-- A write to a lane. -/
def State.writeLane (s : State) (n off a w : Nat) : State :=
  match off with
  | 0x004 =>
    if bitOf w 0 && bitOf w 1 then s
    else ((s.onBit w 0 (fun s => s.startLane n)).onBit w 1 (fun s => s.stopLane n)).onBit w 2 (fun s => s.retrain n)
  | 0x030 => s.eqWrite n 0 w
  | 0x034 => s.eqWrite n 1 w
  | 0x038 => s.eqWrite n 2 w
  | 0x03C => s.eqWrite n 3 w
  | 0x040 => s.eqWrite n 4 w
  | 0x044 => s.eqWrite n 5 w
  | 0x060 => s.prbsWrite n w
  | 0x070 => s.injWrite n w
  | 0x208 => (s.onBit w 0 (fun s => s.startEnum n)).onBit w 1 (fun s => s.confCmd n)
  | 0x20C => (s.writePlain a w).updLane n (fun l => { l with svcWritten := true })
  | _ => s.writePlain a w

/-- A write to a converter or its filter chain. -/
def State.writeConv (s : State) (n off a w : Nat) : State :=
  match off with
  | 0x040 => match fieldOf w 4 2 with
    | 1 => s.calZero n (w % 8)
    | 2 => s.calFull n (w % 8)
    | 3 => s.calAbort n (w % 8)
    | _ => s
  | 0x100 => s.onPair w 1 0 (fun s => s.chainStart n) (fun s => s.chainStop n)
  | 0x10C => s.coefWrite n w
  | o => if 0x120 ≤ o ∧ o < 0x140 then s.delayWrite n ((o - 0x120) / 4) w else s.writePlain a w

/-- A write to a time base. -/
def State.writeTb (s : State) (k off a w : Nat) : State :=
  match off with
  | 0x00 => s.onPair w 0 1 (fun s => s.enableTb k) (fun s => s.disableTb k)
  | 0x10 => s.writeRate k w
  | 0x14 => s.writeStep k w
  | 0x2C => s.writePpsat k w
  | _ => s.writePlain a w

/-- A write to the event log. -/
def State.writeLog (s : State) (off a w : Nat) : State :=
  match off with
  | 0x08 =>
    let s := s.onBit w 3 (fun s => s.eraseCmd)
    let s := s.onBit w 2 (fun s => s.updLog (fun l => { l with armedAt := some s.now }))
    (s.onBit w 0 (fun s => s.freeze)).onBit w 1 (fun s => s.thaw)
  | 0x30 => s.updLog (fun l => { l with rtcHeld := w })
  | 0x34 => s.setRtc (w % 2 ^ 16 * 2 ^ 32 + s.log.rtcHeld) 0
  | _ => s.writePlain a w

/-- LC_FDEF as a write leaves it: for a tile output a TARGET with bits [16:15] or [11] set is not used, so the field keeps its
value (R6, R225). -/
def Force.writeDef (f : Force) (w : Nat) : Force :=
  let kind := fieldOf w 30 1
  let bad := kind == 1 && (fieldOf w 15 2 != 0 || bitOf w 11)
  { f with def_ := 2 ^ 30 * kind + (if bad then f.def_ % 2 ^ 17 else w % 2 ^ 17) }

/-- LC_FVAL as a write leaves it: for a tile output a VALUE with bits [23:1] set is not used (R6, R225). -/
def Force.writeVal (f : Force) (w : Nat) : Force :=
  if bitOf f.def_ 30 && fieldOf w 1 23 != 0 then f else { f with val := w % 2 ^ 24 }

/-- A write to the force block: LC_FDEF and LC_FVAL belong to the entry of LC_FSEL (R225). -/
def State.writeForce (s : State) (off a w : Nat) : State :=
  let n := s.selForce
  match off with
  | 0x08 => { s with forces := Tab.upd s.forces {} n (fun f => f.writeDef w) }
  | 0x0C => { s with forces := Tab.upd s.forces {} n (fun f => f.writeVal w) }
  | 0x10 => s.onOne w (fun s => (s.applyForce n).forcesChanged) (fun s => (s.releaseForce n).forcesChanged)
      (fun s => ((List.range 64).foldl (fun s n => s.releaseForce n) s).forcesChanged)
  | _ => s.writePlain a w

/-! ## The NVM registers (R412, R413) -/

/-- LC_VADDR: INDEX goes to 1,023 with KIND 1 or 2, so one beyond is not defined and leaves the field as it is (R6). -/
def State.writeVaddr (s : State) (k w : Nat) : State :=
  let s := s.writeRw F.LC_VADDR_KIND k w
  if s.getF F.LC_VADDR_KIND k ≠ 0 ∧ 1024 ≤ w % 4096 then s else s.writeRw F.LC_VADDR_INDEX k w

/-- The refusal code of an NVM command. -/
def State.nvmRefusal (s : State) (cmd addr len : Nat) (event : Bool) : Option Nat :=
  let cap := if event then s.evBytes else s.cfgBytes
  let n := if cmd = 3 then 1 else len
  if s.flag F.DEV_NVMSTAT_BUSY then some 1
  else if cap < addr + n ∨ (cmd ≠ 3 ∧ (len = 0 ∨ 64 < len)) then some 2
  else if cmd = 2 ∧ addr / 256 ≠ (addr + len - 1) / 256 then some 3
  else if cmd ≠ 1 ∧ event ∧ ¬ (s.getF F.DEV_STAT_STATE = 4 ∨ s.flag F.EL_STAT_FROZEN) then some 4
  else if cmd ≠ 1 ∧ !event ∧ (s.dev.storing ∨ s.flag F.DEV_CHGSTAT_PEND) then some 5
  else none

/-- A command of DEV_NVMCTRL starts, or is refused. -/
def State.nvmStart (s : State) (cmd w : Nat) : State :=
  let event := bitOf w 4
  let len := fieldOf w 16 8
  let addr := s.getF F.DEV_NVMADDR_ADDR
  match s.nvmRefusal cmd addr len event with
  | some c => (s.setF F.DEV_NVMSTAT_REF 0 1).setF F.DEV_NVMSTAT_CAUSE 0 c
  | none =>
    let data := ((List.range 16).flatMap (fun j => le4 (s.getF F.DEV_NVMDATA_DATA 0 j))).take len
    (s.setF F.DEV_NVMSTAT_BUSY 0 1).updDev (fun d =>
      { d with nvm := some { cmd := cmd, event := event, addr := addr, len := len, data := data } })

/-- The bytes of one of the two NVM devices changed. -/
def State.updNvm (s : State) (event : Bool) (f : Mem → Mem) : State :=
  if event then { s with evNvm := f s.evNvm } else { s with cfgNvm := f s.cfgNvm }

/-- Sector 0 of the event NVM shows no identity after an erase (R335). -/
def State.dropIdentity (s : State) (c : NvmCmd) : State :=
  if c.event && decide (c.addr < 4096) then s.updLog (fun l => { l with identity := none }) else s

/-- Bytes of one of the two NVM devices. -/
def State.nvmRead (s : State) (event : Bool) (a n : Nat) : List Nat := if event then s.evRead a n else Mem.readN 0xFF s.cfgNvm a n

/-- Bytes programmed into one of the two. -/
def State.nvmProgram (s : State) (event : Bool) (a : Nat) (l : List Nat) : State :=
  if event then s.evProgram a l else { s with cfgNvm := Mem.programN s.cfgNvm a l }

/-- The size of the sector that a command erases (R334, R367). -/
def NvmCmd.sector (c : NvmCmd) : Nat := if !c.event && Config.cfgSector64 then 65536 else 4096

/-- Bytes filled into DEV_NVMDATAj, the lowest first; bytes beyond those of the command keep their value (R412). -/
def State.putNvmData (s : State) (j : Nat) (l : List Nat) : State :=
  s.setF F.DEV_NVMDATA_DATA 0 (leNat (l ++ (leBytes 4 (s.getF F.DEV_NVMDATA_DATA 0 j)).drop l.length)) j

/-- What a command leaves: bytes read, programmed or erased; after a failure the bytes it worked on are free values. -/
def State.nvmEffect (s : State) (c : NvmCmd) (good : Bool) : State :=
  let old := s.nvmRead c.event c.addr c.len
  let base := c.sector * (c.addr / c.sector)
  match c.cmd with
  | 1 =>
    if good then
      (List.range 16).foldl (fun s j => if 4 * j < c.len then s.putNvmData j ((old.drop (4 * j)).take 4) else s) s
    else
      (List.range 16).foldl (fun s j => if 4 * j < c.len then
        let (x, s) := s.fresh 32
        s.putNvmData j ((leBytes 4 x).take (c.len - 4 * j)) else s) s
  | 2 =>
    if good then s.nvmProgram c.event c.addr c.data
    else
      let (x, s) := s.fresh (8 * c.len)
      s.nvmProgram c.event c.addr ((c.data.zip (leBytes c.len x)).map (fun p => p.1 ||| p.2))
  | _ =>
    if good then (s.updNvm c.event (fun m => Mem.erase m base c.sector)).dropIdentity c
    else
      let (x, s) := s.fresh (8 * c.sector)
      (s.updNvm c.event (fun m => Mem.writeN 0xFF m base (leBytes c.sector x))).dropIdentity c

/-- A program reads back as the bytes that it was given; other commands read nothing back (R412). -/
def State.readsBack (s : State) (c : NvmCmd) : Bool :=
  c.cmd != 2 || s.nvmRead c.event c.addr c.data.length == c.data

/-- NVM_COMMAND_COMPLETE: `ok` unless the NVM reports a failure; a program fails its read-back where the NVM spoils it
(`readBackOk` false) or a byte does not read back as given, since programming only clears bits (R412). -/
def State.nvmDone (s : State) (ok readBackOk : Bool) : State :=
  match s.dev.nvm with
  | none => s
  | some c =>
    let rb := readBackOk || c.cmd != 2
    let s := (s.updDev (fun d => { d with nvm := none })).nvmEffect c (ok && rb)
    let rb := rb && s.readsBack c
    let s := (s.setF F.DEV_NVMSTAT_BUSY 0 0).setF F.DEV_NVMSTAT_DONE 0 1
    if ok && rb then s
    else (s.setF F.DEV_NVMSTAT_ERR 0 1).setF F.DEV_NVMSTAT_CAUSE 0 (if ok then 9 else 8)

def execNvmRead (w : Word) (s : State) : Host.Outcome State Fault Refusal := .next (s.nvmStart 1 w.toNat)
def execNvmProgram (w : Word) (s : State) : Host.Outcome State Fault Refusal := .next (s.nvmStart 2 w.toNat)
def execEraseSector (w : Word) (s : State) : Host.Outcome State Fault Refusal := .next (s.nvmStart 3 w.toNat)
def execNvmCommandComplete (ok readBackOk : Bool) (s : State) : Host.Outcome State Fault Refusal :=
  .next (s.nvmDone ok readBackOk)

/-! ## A word written -/

/-- A write to the device block. -/
def State.writeDev (s : State) (off a w : Nat) : State :=
  match off with
  | 0x14 => (s.onBit w 0 (fun s => s.reload)).onBit w 1 (fun s => s.abortChange)
  | 0x40 => if w % 4 = 0 then s else s.nvmStart (w % 4) w
  | _ => s.writePlain a w

/-- A write of the word at an address (R4 to R6, R405). -/
def State.writeWord (s : State) (a w : Nat) : State :=
  match locate a with
  | none => s
  | some (b, i, off) =>
    if s.absentReg b i off then s
    else match b with
      | .dev => s.writeDev off a w
      | .sec => if off = 0x80 then s.onBit w 11 (fun s => s.rotreq i (fieldOf w 8 3)) else s.writePlain a w
      | .pe => if off = 0x60 then s.onPair w 1 0 (fun s => s.return_ i) (fun s => s.evac i) else s.writePlain a w
      | .ln => s.writeLane i off a w
      | .cv => s.writeConv i off a w
      | .tb => s.writeTb i off a w
      | .ck => s.writeCk i off a w
      | .buf => let s := s.ckShowAll
                { s with ckBuf := Mem.writeN 0 s.ckBuf off (le4 w) }
      | .el => s.writeLog off a w
      | .dr =>
        if off = 0x04 then s.onBit w 8 (fun s => s.manTrigger (w % 32))
        else if off = 0x1C then s.ackRec w else s.writePlain a w
      | .pr =>
        if off = 0x04 then ((s.onBit w 0 (fun s => s.castle)).onBit w 1 (fun s => s.clrDemote)).onBit w 2 (fun s => s.clrFail)
        else s.writePlain a w
      | .lc =>
        if off = 0x00 then
          match w % 4 with
          | 1 => s.coreRestartCmd i true
          | 2 => s.coreRestartCmd i false
          | 3 => s.coreStopCmd i
          | _ => s
        else if off = 0x1C then s.writeVaddr i w
        else s.writePlain a w
      | .lcf => s.writeForce off a w
      | .pt => s.writePlain a w
      | .sn =>
        if off = latchOff i then
          (s.onBit w 2 (fun s => s.clearW1c F.SN_LATCH_EXPIRED0 i 1)).onBit w 3 (fun s => s.clearW1c F.SN_LATCH_EXPIRED1 i 1)
        else s

/-- REGISTER_WRITE (R4 to R6). -/
def execRegisterWrite (a : Nat) (w : Word) (s : State) : Host.Outcome State Fault Refusal := .next (s.writeWord a w.toNat)

/-- RC_READ (R4): the read of a register clears its RC fields. -/
def execRcRead (a : Nat) (s : State) : Host.Outcome State Fault Refusal := .next (s.readWord a).2

/-! ## SPI frames (R406 to R410) -/

/-- STATUS codes of R410. -/
def stOk : Nat := 0
def stCrc : Nat := 1
def stAddress : Nat := 2
def stCount : Nat := 3
def stLength : Nat := 4
def stAlign : Nat := 5
def stCommand : Nat := 6

/-- The two CRC bytes of a frame part, most significant first. -/
def spiCrc (l : List Nat) : List Nat := beBytes 2 (crcOf crc16 l)

/-- DEV_MPCNT: every frame counts, and those with a code other than OK count by code (R410). -/
def State.countFrame (s : State) (st : Nat) : State :=
  let s := s.bumpF F.DEV_MPCNT_FRAMES
  if st = stOk then s else if st = stCrc then s.incF F.DEV_MPCNT_CRCERR else s.incF F.DEV_MPCNT_FMTERR

/-- ADDR and COUNT of a frame. -/
def spiAddr (f : SpiFrame) : Nat := beNat ((f.drop 1).take 4)
def spiCount (f : SpiFrame) : Nat := f.getD 5 0

/-- Every word of a frame lies in one row of R404. -/
def oneBlock (a n : Nat) : Bool :=
  match blockAt a with
  | some b => decide (a + 4 * (n - 1) ≤ b.2.2.1)
  | none => false

/-- The code of a write frame (R407, R410). -/
def writeStatus (f : SpiFrame) : Nat :=
  let n := spiCount f
  if f.length < 8 then stLength
  else if n = 0 ∨ 64 < n then stCount
  else if f.length ≠ 8 + 4 * n then stLength
  else if f.drop (f.length - 2) ≠ spiCrc (f.take (f.length - 2)) then stCrc
  else if spiAddr f % 4 ≠ 0 then stAlign
  else if !oneBlock (spiAddr f) n then stAddress
  else stOk

/-- The words of a write frame in ascending address order. -/
def State.writeWords (s : State) (a : Nat) : Nat → List Nat → State
  | 0, _ => s
  | n + 1, l => (s.writeWord a (beNat (l.take 4))).writeWords (a + 4) n (l.drop 4)

/-- A write frame as MCS# rises. -/
def State.spiWrite (s : State) (f : SpiFrame) : State :=
  let st := writeStatus f
  let s := (s.updDev (fun d => { d with wstatus := st, mso := [] })).countFrame st
  if st = stOk then s.writeWords (spiAddr f) (spiCount f) (f.drop 6) else s

/-- The code of a read frame (R408, R410). -/
def readStatus (f : SpiFrame) : Nat :=
  let n := spiCount f
  if (f.drop 6).take 2 ≠ spiCrc (f.take 6) then stCrc
  else if n = 0 ∨ 64 < n then stCount
  else if spiAddr f % 4 ≠ 0 then stAlign
  else if (List.range n).all (fun k => (blockAt (spiAddr f + 4 * k)).isSome) then stOk
  else stAddress

/-- `n` words read in ascending order. -/
def State.readWords (s : State) (a : Nat) : Nat → List Nat × State
  | 0 => ([], s)
  | n + 1 =>
    let (w, s) := s.readWord a
    let (l, s) := s.readWords (a + 4) n
    (w :: l, s)

/-- A read frame: the words whose bits have begun are latched; what is driven ends as MCS# rises. -/
def State.spiRead (s : State) (f : SpiFrame) : State :=
  if f.length < 8 then (s.updDev (fun d => { d with mso := [] })).countFrame stOk
  else
    let st := readStatus f
    let n := spiCount f
    let out := f.length - 10
    let reads := decide (st = stOk) || decide (st = stAddress)
    let (l, s) := if reads then s.readWords (spiAddr f) (min n ((out + 3) / 4)) else ([], s)
    let data := (l.flatMap (beBytes 4) ++ List.replicate (4 * n) 0).take (4 * n)
    let tail := st :: spiCrc (data ++ [st])
    (s.updDev (fun d => { d with mso := (data ++ tail).take out })).countFrame st

/-- A frame whose CMD is none of 0x02, 0x05 and 0x0B: it drives 0xFF and counts as the most recent write frame. -/
def State.spiUnknown (s : State) (f : SpiFrame) : State :=
  (s.updDev (fun d => { d with wstatus := stCommand, mso := List.replicate (f.length - 1) 0xFF })).countFrame stCommand

/-- The status command: the STATUS of the most recent write frame with its CRC. -/
def State.spiStatus (s : State) : State :=
  (s.updDev (fun d => { d with mso := d.wstatus :: spiCrc [d.wstatus] })).countFrame stOk

/-- A frame on the port, by its CMD; the port is at rest while PORn is low. -/
def State.spiFrame (s : State) (f : SpiFrame) : State :=
  if !s.pins.porn then s
  else match f with
    | [] => s
    | 2 :: _ => s.spiWrite f
    | 0x0B :: _ => s.spiRead f
    | 5 :: _ => s.spiStatus
    | _ => s.spiUnknown f

/-- WRITE_FRAME (R407). -/
def execWriteFrame (f : SpiFrame) (s : State) : Host.Outcome State Fault Refusal := .next (s.spiFrame f)

/-- READ_FRAME (R408, R409). -/
def execReadFrame (f : SpiFrame) (s : State) : Host.Outcome State Fault Refusal := .next (s.spiFrame f)

/-- STATUS_COMMAND (R410). -/
def execStatusCommand (s : State) : Host.Outcome State Fault Refusal := .next (s.spiFrame [5, 0])

end Sys2Proof.Machine
end

