-- ==== Sys2Proof/Machine/Dispatch.lean ====
section
/-! DEFINITION. The table of meanings: one arm per command (spec/opcode_table.json). -/

namespace Sys2Proof.Machine

/-- A command's effect on everything but the queue. -/
def exec (i : Instr) (s : State) : Host.Outcome State Fault Refusal :=
  match i with
  | .pornRelease a0 a1 a2 => Sys2Proof.Machine.execPornRelease a0 a1 a2 s
  | .pornAssert a0 => Sys2Proof.Machine.execPornAssert a0 s
  | .pwrgoodFall => Sys2Proof.Machine.execPwrgoodFall s
  | .holdupWarnAssert => Sys2Proof.Machine.execHoldupWarnAssert s
  | .holdupWarnClear => Sys2Proof.Machine.execHoldupWarnClear s
  | .saveSetComplete => Sys2Proof.Machine.execSaveSetComplete s
  | .vbatLoss => Sys2Proof.Machine.execVbatLoss s
  | .imageCheckComplete a0 a1 a2 => Sys2Proof.Machine.execImageCheckComplete a0 a1 a2 s
  | .gridStart => Sys2Proof.Machine.execGridStart s
  | .protectionActive => Sys2Proof.Machine.execProtectionActive s
  | .roleListenExpiry => Sys2Proof.Machine.execRoleListenExpiry s
  | .reload => Sys2Proof.Machine.execReload s
  | .epochSample a0 a1 => Sys2Proof.Machine.execEpochSample a0 a1 s
  | .entryLost a0 a1 => Sys2Proof.Machine.execEntryLost a0 a1 s
  | .entryQualified a0 a1 => Sys2Proof.Machine.execEntryQualified a0 a1 s
  | .glideEnd a0 => Sys2Proof.Machine.execGlideEnd a0 s
  | .glideExtended a0 => Sys2Proof.Machine.execGlideExtended a0 s
  | .cycleWrap a0 => Sys2Proof.Machine.execCycleWrap a0 s
  | .dataDue a0 => Sys2Proof.Machine.execDataDue a0 s
  | .evaluationDeadline a0 a1 => Sys2Proof.Machine.execEvaluationDeadline a0 a1 s
  | .angleLaunch a0 => Sys2Proof.Machine.execAngleLaunch a0 s
  | .switchOver a0 => Sys2Proof.Machine.execSwitchOver a0 s
  | .angleTickRead a0 => Sys2Proof.Machine.execAngleTickRead a0 s
  | .epochNumRead a0 => Sys2Proof.Machine.execEpochNumRead a0 s
  | .slotInstant a0 => Sys2Proof.Machine.execSlotInstant a0 s
  | .conversionComplete a0 a1 a2 => Sys2Proof.Machine.execConversionComplete a0 a1 a2 s
  | .queueEntryTransfer a0 => Sys2Proof.Machine.execQueueEntryTransfer a0 s
  | .urgentRequest a0 a1 a2 => Sys2Proof.Machine.execUrgentRequest a0 a1 a2 s
  | .deferredUrgentStart a0 => Sys2Proof.Machine.execDeferredUrgentStart a0 s
  | .openWireInterval a0 a1 => Sys2Proof.Machine.execOpenWireInterval a0 a1 s
  | .openWireTestStart a0 a1 => Sys2Proof.Machine.execOpenWireTestStart a0 a1 s
  | .openWireAttemptTimeout a0 a1 => Sys2Proof.Machine.execOpenWireAttemptTimeout a0 a1 s
  | .referenceOutOfRange a0 => Sys2Proof.Machine.execReferenceOutOfRange a0 s
  | .refrdySet a0 => Sys2Proof.Machine.execRefrdySet a0 s
  | .calZero a0 a1 => Sys2Proof.Machine.execCalZero a0 a1 s
  | .calFull a0 a1 => Sys2Proof.Machine.execCalFull a0 a1 s
  | .calAbort a0 a1 => Sys2Proof.Machine.execCalAbort a0 a1 s
  | .calAveragingDone a0 => Sys2Proof.Machine.execCalAveragingDone a0 s
  | .calStoreComplete a0 a1 => Sys2Proof.Machine.execCalStoreComplete a0 a1 s
  | .calSessionTimeout a0 => Sys2Proof.Machine.execCalSessionTimeout a0 s
  | .filterShift a0 a1 => Sys2Proof.Machine.execFilterShift a0 a1 s
  | .fcStop a0 => Sys2Proof.Machine.execFcStop a0 s
  | .fcStopComplete a0 => Sys2Proof.Machine.execFcStopComplete a0 s
  | .fcStart a0 => Sys2Proof.Machine.execFcStart a0 s
  | .fcRunStart a0 => Sys2Proof.Machine.execFcRunStart a0 s
  | .coefdataRead a0 => Sys2Proof.Machine.execCoefdataRead a0 s
  | .coefdataWrite a0 a1 => Sys2Proof.Machine.execCoefdataWrite a0 a1 s
  | .delayWrite a0 a1 a2 => Sys2Proof.Machine.execDelayWrite a0 a1 a2 s
  | .resampleCutoff a0 => Sys2Proof.Machine.execResampleCutoff a0 s
  | .sourceLost a0 a1 => Sys2Proof.Machine.execSourceLost a0 a1 s
  | .ingressArrival a0 a1 => Sys2Proof.Machine.execIngressArrival a0 a1 s
  | .measurementPartWrite a0 => Sys2Proof.Machine.execMeasurementPartWrite a0 s
  | .feederEvaluationComplete a0 => Sys2Proof.Machine.execFeederEvaluationComplete a0 s
  | .missRunInvalid a0 => Sys2Proof.Machine.execMissRunInvalid a0 s
  | .elementDelayExpiry a0 => Sys2Proof.Machine.execElementDelayExpiry a0 s
  | .definiteResetExpiry a0 a1 a2 => Sys2Proof.Machine.execDefiniteResetExpiry a0 a1 a2 s
  | .integratorFull a0 a1 a2 => Sys2Proof.Machine.execIntegratorFull a0 a1 a2 s
  | .saturationFlagClear a0 a1 => Sys2Proof.Machine.execSaturationFlagClear a0 a1 s
  | .blockHoldExpiry a0 a1 => Sys2Proof.Machine.execBlockHoldExpiry a0 a1 s
  | .memoryExpiry a0 a1 => Sys2Proof.Machine.execMemoryExpiry a0 a1 s
  | .crossBlockHoldExpiry a0 a1 => Sys2Proof.Machine.execCrossBlockHoldExpiry a0 a1 s
  | .retripDelay a0 a1 => Sys2Proof.Machine.execRetripDelay a0 a1 s
  | .backtripDelay a0 a1 => Sys2Proof.Machine.execBacktripDelay a0 a1 s
  | .minimumPulseExpiry a0 a1 a2 => Sys2Proof.Machine.execMinimumPulseExpiry a0 a1 a2 s
  | .currentCheckSampleClear a0 a1 => Sys2Proof.Machine.execCurrentCheckSampleClear a0 a1 s
  | .faultLocatorCapture a0 a1 => Sys2Proof.Machine.execFaultLocatorCapture a0 a1 s
  | .sectionEvaluationComplete a0 => Sys2Proof.Machine.execSectionEvaluationComplete a0 s
  | .contributionCutoff a0 => Sys2Proof.Machine.execContributionCutoff a0 s
  | .lateContribution a0 => Sys2Proof.Machine.execLateContribution a0 s
  | .bdAlarmDelay a0 => Sys2Proof.Machine.execBdAlarmDelay a0 s
  | .afOpHoldExpiry a0 a1 => Sys2Proof.Machine.execAfOpHoldExpiry a0 a1 s
  | .lightWithoutCurrent a0 a1 => Sys2Proof.Machine.execLightWithoutCurrent a0 a1 s
  | .rotreq a0 a1 => Sys2Proof.Machine.execRotreq a0 a1 s
  | .masterHandover a0 => Sys2Proof.Machine.execMasterHandover a0 s
  | .plyRound a0 => Sys2Proof.Machine.execPlyRound a0 s
  | .commitGrant => Sys2Proof.Machine.execCommitGrant s
  | .nop a0 => Sys2Proof.Machine.execNop a0 s
  | .ld a0 a1 => Sys2Proof.Machine.execLd a0 a1 s
  | .and a0 a1 => Sys2Proof.Machine.execAnd a0 a1 s
  | .or a0 a1 => Sys2Proof.Machine.execOr a0 a1 s
  | .xor a0 a1 => Sys2Proof.Machine.execXor a0 a1 s
  | .not a0 => Sys2Proof.Machine.execNot a0 s
  | .push a0 => Sys2Proof.Machine.execPush a0 s
  | .andp a0 => Sys2Proof.Machine.execAndp a0 s
  | .orp a0 => Sys2Proof.Machine.execOrp a0 s
  | .st a0 a1 => Sys2Proof.Machine.execSt a0 a1 s
  | .set a0 a1 => Sys2Proof.Machine.execSet a0 a1 s
  | .rst a0 a1 => Sys2Proof.Machine.execRst a0 a1 s
  | .re a0 a1 => Sys2Proof.Machine.execRe a0 a1 s
  | .fe a0 a1 => Sys2Proof.Machine.execFe a0 a1 s
  | .ton a0 a1 => Sys2Proof.Machine.execTon a0 a1 s
  | .tof a0 a1 => Sys2Proof.Machine.execTof a0 a1 s
  | .tp a0 a1 => Sys2Proof.Machine.execTp a0 a1 s
  | .tona a0 a1 => Sys2Proof.Machine.execTona a0 a1 s
  | .tofa a0 a1 => Sys2Proof.Machine.execTofa a0 a1 s
  | .ctu a0 a1 => Sys2Proof.Machine.execCtu a0 a1 s
  | .ctd a0 a1 => Sys2Proof.Machine.execCtd a0 a1 s
  | .crst a0 a1 => Sys2Proof.Machine.execCrst a0 a1 s
  | .lde a0 a1 a2 => Sys2Proof.Machine.execLde a0 a1 a2 s
  | .lda a0 a1 => Sys2Proof.Machine.execLda a0 a1 s
  | .ldk a0 a1 a2 => Sys2Proof.Machine.execLdk a0 a1 a2 s
  | .sta a0 a1 => Sys2Proof.Machine.execSta a0 a1 s
  | .add a0 a1 => Sys2Proof.Machine.execAdd a0 a1 s
  | .sub a0 a1 => Sys2Proof.Machine.execSub a0 a1 s
  | .cmp a0 a1 => Sys2Proof.Machine.execCmp a0 a1 s
  | .jmp a0 a1 => Sys2Proof.Machine.execJmp a0 a1 s
  | .jc a0 a1 a2 => Sys2Proof.Machine.execJc a0 a1 a2 s
  | .end_ a0 => Sys2Proof.Machine.execEnd a0 s
  | .scanOverrun a0 => Sys2Proof.Machine.execScanOverrun a0 s
  | .warmRestart a0 => Sys2Proof.Machine.execWarmRestart a0 s
  | .coldRestart a0 => Sys2Proof.Machine.execColdRestart a0 s
  | .lcStop a0 => Sys2Proof.Machine.execLcStop a0 s
  | .apply => Sys2Proof.Machine.execApply s
  | .release => Sys2Proof.Machine.execRelease s
  | .relall => Sys2Proof.Machine.execRelall s
  | .refreshPeriod a0 => Sys2Proof.Machine.execRefreshPeriod a0 s
  | .laneFrameStart a0 => Sys2Proof.Machine.execLaneFrameStart a0 s
  | .refreshFrame a0 a1 a2 a3 => Sys2Proof.Machine.execRefreshFrame a0 a1 a2 a3 s
  | .changeFrame a0 a1 a2 a3 => Sys2Proof.Machine.execChangeFrame a0 a1 a2 a3 s
  | .tripFrame a0 a1 a2 a3 => Sys2Proof.Machine.execTripFrame a0 a1 a2 a3 s
  | .enumerateFrame a0 a1 a2 a3 a4 => Sys2Proof.Machine.execEnumerateFrame a0 a1 a2 a3 a4 s
  | .configurationWriteFrame a0 a1 a2 a3 => Sys2Proof.Machine.execConfigurationWriteFrame a0 a1 a2 a3 s
  | .configurationReadFrame a0 a1 a2 a3 => Sys2Proof.Machine.execConfigurationReadFrame a0 a1 a2 a3 s
  | .statusUpFrame a0 a1 a2 => Sys2Proof.Machine.execStatusUpFrame a0 a1 a2 s
  | .configurationResponse a0 a1 a2 => Sys2Proof.Machine.execConfigurationResponse a0 a1 a2 s
  | .partnerDownFrame a0 a1 => Sys2Proof.Machine.execPartnerDownFrame a0 a1 s
  | .claimAgeOut a0 a1 a2 => Sys2Proof.Machine.execClaimAgeOut a0 a1 a2 s
  | .safeStateTimeout a0 a1 => Sys2Proof.Machine.execSafeStateTimeout a0 a1 s
  | .crossingWord a0 a1 a2 a3 => Sys2Proof.Machine.execCrossingWord a0 a1 a2 a3 s
  | .crossingLoss a0 a1 a2 => Sys2Proof.Machine.execCrossingLoss a0 a1 a2 s
  | .outputOvercurrent a0 a1 a2 => Sys2Proof.Machine.execOutputOvercurrent a0 a1 a2 s
  | .inputDebounce a0 a1 a2 => Sys2Proof.Machine.execInputDebounce a0 a1 a2 s
  | .tilePowerUp a0 a1 a2 => Sys2Proof.Machine.execTilePowerUp a0 a1 a2 s
  | .tilePowerLoss a0 a1 => Sys2Proof.Machine.execTilePowerLoss a0 a1 s
  | .minimumOnTimeExpiry a0 a1 a2 => Sys2Proof.Machine.execMinimumOnTimeExpiry a0 a1 a2 s
  | .readbackMismatch a0 a1 => Sys2Proof.Machine.execReadbackMismatch a0 a1 s
  | .tileLost a0 a1 => Sys2Proof.Machine.execTileLost a0 a1 s
  | .enum a0 => Sys2Proof.Machine.execEnum a0 s
  | .conf a0 => Sys2Proof.Machine.execConf a0 s
  | .lnStart a0 => Sys2Proof.Machine.execLnStart a0 s
  | .lnStop a0 => Sys2Proof.Machine.execLnStop a0 s
  | .retrain a0 => Sys2Proof.Machine.execRetrain a0 s
  | .laneStartTimeout a0 => Sys2Proof.Machine.execLaneStartTimeout a0 s
  | .laneStopComplete a0 => Sys2Proof.Machine.execLaneStopComplete a0 s
  | .signalDetectChange a0 a1 => Sys2Proof.Machine.execSignalDetectChange a0 a1 s
  | .cdrLock a0 a1 => Sys2Proof.Machine.execCdrLock a0 a1 s
  | .cdrUnlock a0 => Sys2Proof.Machine.execCdrUnlock a0 s
  | .linkUp a0 => Sys2Proof.Machine.execLinkUp a0 s
  | .linkDown a0 => Sys2Proof.Machine.execLinkDown a0 s
  | .adaptationUpdate a0 a1 a2 a3 => Sys2Proof.Machine.execAdaptationUpdate a0 a1 a2 a3 s
  | .ctleDfeWrite a0 a1 a2 => Sys2Proof.Machine.execCtleDfeWrite a0 a1 a2 s
  | .prbsctrlWrite a0 a1 => Sys2Proof.Machine.execPrbsctrlWrite a0 a1 s
  | .checkerLock a0 => Sys2Proof.Machine.execCheckerLock a0 s
  | .checkerLoss a0 a1 => Sys2Proof.Machine.execCheckerLoss a0 a1 s
  | .injWrite a0 a1 => Sys2Proof.Machine.execInjWrite a0 a1 s
  | .digest a0 => Sys2Proof.Machine.execDigest a0 s
  | .contestResult a0 => Sys2Proof.Machine.execContestResult a0 s
  | .castlingRequest a0 => Sys2Proof.Machine.execCastlingRequest a0 s
  | .castlingAnswer a0 => Sys2Proof.Machine.execCastlingAnswer a0 s
  | .standbyDataFeed a0 a1 a2 => Sys2Proof.Machine.execStandbyDataFeed a0 a1 a2 s
  | .svFrame a0 a1 => Sys2Proof.Machine.execSvFrame a0 a1 s
  | .gooseMessage a0 a1 => Sys2Proof.Machine.execGooseMessage a0 a1 s
  | .gooseRepetition a0 => Sys2Proof.Machine.execGooseRepetition a0 s
  | .timeAllowedToLiveExpiry a0 => Sys2Proof.Machine.execTimeAllowedToLiveExpiry a0 s
  | .reservationWindow a0 => Sys2Proof.Machine.execReservationWindow a0 s
  | .timeLaunch a0 => Sys2Proof.Machine.execTimeLaunch a0 s
  | .ethernetTransmit a0 => Sys2Proof.Machine.execEthernetTransmit a0 s
  | .svPublication a0 a1 => Sys2Proof.Machine.execSvPublication a0 a1 s
  | .sync a0 a1 => Sys2Proof.Machine.execSync a0 a1 s
  | .followUp a0 a1 => Sys2Proof.Machine.execFollowUp a0 a1 s
  | .pdelayReq a0 a1 => Sys2Proof.Machine.execPdelayReq a0 a1 s
  | .pdelayResp a0 a1 => Sys2Proof.Machine.execPdelayResp a0 a1 s
  | .pdelayRespFollowUp a0 a1 a2 => Sys2Proof.Machine.execPdelayRespFollowUp a0 a1 a2 s
  | .announce a0 a1 a2 => Sys2Proof.Machine.execAnnounce a0 a1 a2 s
  | .ptpMessageInterval a0 => Sys2Proof.Machine.execPtpMessageInterval a0 s
  | .timeBaseStep a0 => Sys2Proof.Machine.execTimeBaseStep a0 s
  | .enable a0 => Sys2Proof.Machine.execEnable a0 s
  | .disable a0 => Sys2Proof.Machine.execDisable a0 s
  | .tbStepWrite a0 a1 => Sys2Proof.Machine.execTbStepWrite a0 a1 s
  | .tbRateWrite a0 a1 => Sys2Proof.Machine.execTbRateWrite a0 a1 s
  | .tbPpsatWrite a0 a1 => Sys2Proof.Machine.execTbPpsatWrite a0 a1 s
  | .holdoverExpiry a0 => Sys2Proof.Machine.execHoldoverExpiry a0 s
  | .holdoverFlag a0 => Sys2Proof.Machine.execHoldoverFlag a0 s
  | .ppsInputEdge a0 a1 a2 => Sys2Proof.Machine.execPpsInputEdge a0 a1 a2 s
  | .ppsOutputRise a0 => Sys2Proof.Machine.execPpsOutputRise a0 s
  | .ppsOutputFall a0 => Sys2Proof.Machine.execPpsOutputFall a0 s
  | .basePairWrite a0 a1 a2 => Sys2Proof.Machine.execBasePairWrite a0 a1 a2 s
  | .basensRead a0 => Sys2Proof.Machine.execBasensRead a0 s
  | .tsqheadRead a0 => Sys2Proof.Machine.execTsqheadRead a0 s
  | .roleYield a0 => Sys2Proof.Machine.execRoleYield a0 s
  | .ringBreakService a0 => Sys2Proof.Machine.execRingBreakService a0 s
  | .ringServiceEnd a0 => Sys2Proof.Machine.execRingServiceEnd a0 s
  | .standbyFeedMissing a0 => Sys2Proof.Machine.execStandbyFeedMissing a0 s
  | .selfTestComplete a0 => Sys2Proof.Machine.execSelfTestComplete a0 s
  | .contestOutcome => Sys2Proof.Machine.execContestOutcome s
  | .demoteCheck => Sys2Proof.Machine.execDemoteCheck s
  | .demoteInFall => Sys2Proof.Machine.execDemoteInFall s
  | .demoteHeld => Sys2Proof.Machine.execDemoteHeld s
  | .pairOkLow => Sys2Proof.Machine.execPairOkLow s
  | .clrfail => Sys2Proof.Machine.execClrfail s
  | .clrdemote => Sys2Proof.Machine.execClrdemote s
  | .castle => Sys2Proof.Machine.execCastle s
  | .castlingAnswerTimeout => Sys2Proof.Machine.execCastlingAnswerTimeout s
  | .castlingSwitch => Sys2Proof.Machine.execCastlingSwitch s
  | .castlingEnd => Sys2Proof.Machine.execCastlingEnd s
  | .mantrig a0 => Sys2Proof.Machine.execMantrig a0 s
  | .drAck a0 => Sys2Proof.Machine.execDrAck a0 s
  | .logStageComplete a0 a1 => Sys2Proof.Machine.execLogStageComplete a0 a1 s
  | .sectorEraseComplete => Sys2Proof.Machine.execSectorEraseComplete s
  | .repeatWindowExpiry a0 => Sys2Proof.Machine.execRepeatWindowExpiry a0 s
  | .correlationRecord => Sys2Proof.Machine.execCorrelationRecord s
  | .freeze => Sys2Proof.Machine.execFreeze s
  | .thaw => Sys2Proof.Machine.execThaw s
  | .freezeExpiry => Sys2Proof.Machine.execFreezeExpiry s
  | .erasearm => Sys2Proof.Machine.execErasearm s
  | .erase => Sys2Proof.Machine.execErase s
  | .eraseArmExpiry => Sys2Proof.Machine.execEraseArmExpiry s
  | .rtclRead => Sys2Proof.Machine.execRtclRead s
  | .rtclWrite a0 => Sys2Proof.Machine.execRtclWrite a0 s
  | .rtchWrite a0 => Sys2Proof.Machine.execRtchWrite a0 s
  | .optlRead => Sys2Proof.Machine.execOptlRead s
  | .ckStart a0 => Sys2Proof.Machine.execCkStart a0 s
  | .ckStartCont a0 => Sys2Proof.Machine.execCkStartCont a0 s
  | .ckPause a0 => Sys2Proof.Machine.execCkPause a0 s
  | .ckAbort a0 => Sys2Proof.Machine.execCkAbort a0 s
  | .ckJobComplete a0 a1 => Sys2Proof.Machine.execCkJobComplete a0 a1 s
  | .packageCheckComplete a0 => Sys2Proof.Machine.execPackageCheckComplete a0 s
  | .devChgabort => Sys2Proof.Machine.execDevChgabort s
  | .bankCommit => Sys2Proof.Machine.execBankCommit s
  | .evac a0 => Sys2Proof.Machine.execEvac a0 s
  | .return_ a0 => Sys2Proof.Machine.execReturn a0 s
  | .feederMigration a0 => Sys2Proof.Machine.execFeederMigration a0 s
  | .engineSelfTestComplete a0 a1 => Sys2Proof.Machine.execEngineSelfTestComplete a0 a1 s
  | .microcodeLoadComplete a0 => Sys2Proof.Machine.execMicrocodeLoadComplete a0 s
  | .dynamicEntryExpiry a0 => Sys2Proof.Machine.execDynamicEntryExpiry a0 s
  | .arpRequest a0 a1 => Sys2Proof.Machine.execArpRequest a0 a1 s
  | .page a0 => Sys2Proof.Machine.execPage a0 s
  | .logread a0 => Sys2Proof.Machine.execLogread a0 s
  | .drlist a0 => Sys2Proof.Machine.execDrlist a0 s
  | .drexport a0 a1 => Sys2Proof.Machine.execDrexport a0 a1 s
  | .drack a0 => Sys2Proof.Machine.execDrack a0 s
  | .chgbegin a0 => Sys2Proof.Machine.execChgbegin a0 s
  | .chgdata a0 => Sys2Proof.Machine.execChgdata a0 s
  | .chgend a0 => Sys2Proof.Machine.execChgend a0 s
  | .chgstat a0 => Sys2Proof.Machine.execChgstat a0 s
  | .chgabort a0 => Sys2Proof.Machine.execChgabort a0 s
  | .changeSessionTimeout => Sys2Proof.Machine.execChangeSessionTimeout s
  | .snEpochRead a0 => Sys2Proof.Machine.execSnEpochRead a0 s
  | .latchExpiry a0 => Sys2Proof.Machine.execLatchExpiry a0 s
  | .coherentCut => Sys2Proof.Machine.execCoherentCut s
  | .writeFrame a0 => Sys2Proof.Machine.execWriteFrame a0 s
  | .readFrame a0 => Sys2Proof.Machine.execReadFrame a0 s
  | .statusCommand => Sys2Proof.Machine.execStatusCommand s
  | .nvmRead a0 => Sys2Proof.Machine.execNvmRead a0 s
  | .nvmProgram a0 => Sys2Proof.Machine.execNvmProgram a0 s
  | .eraseSector a0 => Sys2Proof.Machine.execEraseSector a0 s
  | .nvmCommandComplete a0 a1 => Sys2Proof.Machine.execNvmCommandComplete a0 a1 s
  | .registerWrite a0 a1 => Sys2Proof.Machine.execRegisterWrite a0 a1 s
  | .rcRead a0 => Sys2Proof.Machine.execRcRead a0 s
  | .jtagReset => Sys2Proof.Machine.execJtagReset s
  | .referenceReturn a0 => Sys2Proof.Machine.execReferenceReturn a0 s
  | .fieldSupplyChange a0 a1 a2 => Sys2Proof.Machine.execFieldSupplyChange a0 a1 a2 s
  | .demoteInRise => Sys2Proof.Machine.execDemoteInRise s
  | .demotePulseEnd => Sys2Proof.Machine.execDemotePulseEnd s
  | .announceReceiptTimeout a0 => Sys2Proof.Machine.execAnnounceReceiptTimeout a0 s
  | .signaling a0 a1 => Sys2Proof.Machine.execSignaling a0 a1 s
  | .ptpManagement a0 a1 => Sys2Proof.Machine.execPtpManagement a0 a1 s
  | .unknownRequest a0 => Sys2Proof.Machine.execUnknownRequest a0 s
  | .frameOfNoKind a0 a1 a2 => Sys2Proof.Machine.execFrameOfNoKind a0 a1 a2 s
  | .calibrationEraseComplete a0 => Sys2Proof.Machine.execCalibrationEraseComplete a0 s
  | .saveSlotEraseComplete => Sys2Proof.Machine.execSaveSlotEraseComplete s

end Sys2Proof.Machine
end

