-- ==== Sys2Proof/Safety.lean ====
section
/-! DEFINITION. What a safe run keeps: the stores in canonical form, time that never goes back, a queue served in order. -/

namespace Sys2Proof.Machine

/-- The two NVMs, the check buffer and the package buffer are in canonical form: equal contents are equal data. -/
structure State.StoresOk (s : State) : Prop where
  cfgNvm : Mem.wf 0xFF s.cfgNvm = true
  evNvm : Mem.wf 0xFF s.evNvm = true
  ckBuf : Mem.wf 0 s.ckBuf = true
  pkgBuf : Mem.wf 0 s.pkgBuf = true

/-- What every command keeps between the states `r` before and `s` after it: the queue's rest is untouched, neither the
clock nor the count of free values goes back, and the stores keep their canonical form. -/
structure State.Keeps (r s : State) : Prop where
  pending : s.pending = r.pending
  now : r.now ≤ s.now
  free : r.free ≤ s.free
  stores : r.StoresOk → s.StoresOk

/-- The management service takes a request of a code (R390, R395, R396): its client's entry `n` exists or is made, MAGIC, VERSION, CRC
and length are right, the REQID is not outstanding, neither the outstanding cap nor the queue is full, and the entry holds the
privilege bit `priv` where the request needs one. `v` is the state in which the request then acts. -/
def State.Serves (s : State) (m : MgmtMsg) (code : Nat) (priv : Option Nat) (n : Nat) (v : State) : Prop :=
  ∃ u, s.judgeMgmt m = (some n, u) ∧ headOk m code = true ∧ (u.outstanding n).contains m.reqId = false ∧
    (u.outstanding n).length < (u.partner n).capOut ∧ u.mgmtFill < 256 ∧
    v = u.brim F.DEV_BRIM2_MGMT (u.mgmtFill + 1) ∧ ∀ b, priv = some b → bitOf (v.partner n).priv b = true

/-- A state answers request `m` of a code with a response of the given status and payload, as the one formed last. -/
def State.Answers (t : State) (m : MgmtMsg) (code status : Nat) (payload : List Nat) : Prop :=
  ∃ r, t.resps.head? = some r ∧ r.mac = m.snd.mac ∧ r.ip = m.ip ∧ r.port = m.port ∧ r.code = code % 0x80 + 0x80 ∧ r.reqId = m.reqId ∧
    r.status = status ∧ r.payload = payload

/-- A command completes in a state: it answers a next state. -/
def Completes (c : Instr) (s : State) : Prop := ∃ t, exec c s = .next t

end Sys2Proof.Machine
end

