-- ==== Sys2Proof/WellFormed.lean ====
section
/-! DEFINITION. Well-formed commands: every operand names a part that exists and holds a value that its field can carry. -/

namespace Sys2Proof

open Sys2Proof.Machine

/-! ## Ranges (R9 to R13, R404) -/

def secOk (n : Nat) : Bool := decide (n < 24)
def laneOk (n : Nat) : Bool := decide (n < 32)
def convOk (n : Nat) : Bool := decide (n < 32)
def feederOk (n : Nat) : Bool := decide (n < 1536)
def instOk (n : Nat) : Bool := decide (n < 48)
def engineOk (n : Nat) : Bool := decide (n < 192)
def posOk (n : Nat) : Bool := decide (n < 64)
def pageOk (n : Nat) : Bool := decide (n < 25)
def four (n : Nat) : Bool := decide (n < 4)
def eight (n : Nat) : Bool := decide (n < 8)
/-- A source of a feeder: at most one for each of its channels (R82). -/
def srcOk (n : Nat) : Bool := decide (n < 8)
/-- A calibration sector pair of the event NVM (R336). -/
def pairOk (n : Nat) : Bool := decide (n < 4)
def entry12 (n : Nat) : Bool := decide (n < 4096)
def instance10 (n : Nat) : Bool := decide (n < 1024)
def jumpOk (n : Nat) : Bool := decide (1 ≤ n) && decide (n < 65536)
def u8 (n : Nat) : Bool := decide (n < 256)
def u16 (n : Nat) : Bool := decide (n < 65536)
def u32 (n : Nat) : Bool := decide (n < 4294967296)
def u48 (n : Nat) : Bool := decide (n < 281474976710656)
def nsOk (n : Nat) : Bool := decide (n < 1000000000)
/-- An epoch number has 39 bits (R22). -/
def epochOk (n : Nat) : Bool := decide (n < 549755813888)
/-- Register addresses are multiples of 4 in a 32-bit space (R404). -/
def wordAddr (a : Nat) : Bool := u32 a && a % 4 == 0
def bytes (l : List Nat) : Bool := l.all u8

/-! ## Operands with parts -/

def Requester.wf : Requester → Bool
  | .engine e => engineOk e
  | .openWire => true
def TimerRef.wf : TimerRef → Bool
  | .feeder f i p => feederOk f && instOk i && four p
  | .differential k p => secOk k && decide (p < 3)
/-- Characters of the 8b/10b code (R234). -/
def charsOk (l : TileChars) : Bool := l.all (fun c => decide (c < 512))
/-- Blocks of a peer link: a 2-bit header and 64 bits (R267). -/
def PeerRx.wf (r : PeerRx) : Bool :=
  laneOk r.lane && decide (r.before < 2 ^ 58) && r.blocks.all (fun b => four b.1 && decide (b.2 < 2 ^ 64))
def Sender.wf (x : Sender) : Bool := u48 x.mac && u16 x.len
def SvFrame.wf (f : SvFrame) : Bool := f.snd.wf && u48 f.dst && u16 f.appid && f.asdus.all (fun a => u16 a.1 && u8 a.2.1)
def GooseMsg.wf (m : GooseMsg) : Bool := m.snd.wf && u48 m.dst && u16 m.appid && u32 m.stNum && u32 m.sqNum
def PtpMsg.wf (m : PtpMsg) : Bool := m.snd.wf && u8 m.domain && u8 m.version && u16 m.seqId
/-- A datagram has a payload of at most 1,448 bytes (R392). -/
def MgmtMsg.wf (m : MgmtMsg) : Bool :=
  laneOk m.lane && m.snd.wf && u32 m.ip && u16 m.port && u32 m.toIp && u16 m.toPort && u16 m.magic && u8 m.version && u8 m.code &&
  u16 m.reqId && u16 m.status && u32 m.arg0 && u32 m.arg1 && u16 m.len && u32 m.crc && decide (m.payload.length ≤ 1448) &&
  bytes m.payload
/-- A well-formed command. -/
def Instr.wf : Instr → Bool
  | .pornRelease _ evSize cfgSize => (evSize.all (fun k => decide (k ≤ 8))) && (cfgSize.all (fun k => decide (2 ≤ k) && decide (k ≤ 7)))
  | .pornAssert _ => true
  | .pwrgoodFall => true
  | .holdupWarnAssert => true
  | .holdupWarnClear => true
  | .saveSetComplete => true
  | .vbatLoss => true
  | .imageCheckComplete _ _ _ => true
  | .gridStart => true
  | .protectionActive => true
  | .roleListenExpiry => true
  | .reload => true
  | .epochSample sec _ => secOk sec
  | .entryLost sec entry => secOk sec && four entry
  | .entryQualified sec entry => secOk sec && four entry
  | .glideEnd sec => secOk sec
  | .glideExtended sec => secOk sec
  | .cycleWrap sec => secOk sec
  | .dataDue sec => secOk sec
  | .evaluationDeadline sec _ => secOk sec
  | .angleLaunch lane => laneOk lane
  | .switchOver sec => secOk sec
  | .angleTickRead sec => secOk sec
  | .epochNumRead sec => secOk sec
  | .slotInstant conv => convOk conv
  | .conversionComplete conv _ _ => convOk conv
  | .queueEntryTransfer conv => convOk conv
  | .urgentRequest conv inp by_ => convOk conv && eight inp && by_.wf
  | .deferredUrgentStart conv => convOk conv
  | .openWireInterval conv inp => convOk conv && eight inp
  | .openWireTestStart conv inp => convOk conv && eight inp
  | .openWireAttemptTimeout conv inp => convOk conv && eight inp
  | .referenceOutOfRange r => four r.grp
  | .refrdySet grp => four grp
  | .calZero conv inp => convOk conv && eight inp
  | .calFull conv inp => convOk conv && eight inp
  | .calAbort conv inp => convOk conv && eight inp
  | .calAveragingDone conv => convOk conv
  | .calStoreComplete conv _ => convOk conv
  | .calSessionTimeout conv => convOk conv
  | .filterShift conv inp => convOk conv && eight inp
  | .fcStop conv => convOk conv
  | .fcStopComplete conv => convOk conv
  | .fcStart conv => convOk conv
  | .fcRunStart conv => convOk conv
  | .coefdataRead conv => convOk conv
  | .coefdataWrite conv _ => convOk conv
  | .delayWrite conv inp _ => convOk conv && eight inp
  | .resampleCutoff sec => secOk sec
  | .sourceLost feeder src => feederOk feeder && srcOk src
  | .ingressArrival sec n => secOk sec && u16 n
  | .measurementPartWrite feeder => feederOk feeder
  | .feederEvaluationComplete feeder => feederOk feeder
  | .missRunInvalid feeder => feederOk feeder
  | .elementDelayExpiry t => t.wf
  | .definiteResetExpiry feeder inst phase => feederOk feeder && instOk inst && four phase
  | .integratorFull feeder inst phase => feederOk feeder && instOk inst && four phase
  | .saturationFlagClear feeder ch => feederOk feeder && eight ch
  | .blockHoldExpiry feeder inst => feederOk feeder && instOk inst
  | .memoryExpiry feeder inst => feederOk feeder && instOk inst
  | .crossBlockHoldExpiry feeder inst => feederOk feeder && instOk inst
  | .retripDelay feeder inst => feederOk feeder && instOk inst
  | .backtripDelay feeder inst => feederOk feeder && instOk inst
  | .minimumPulseExpiry feeder inst _ => feederOk feeder && instOk inst
  | .currentCheckSampleClear feeder inst => feederOk feeder && instOk inst
  | .faultLocatorCapture feeder inst => feederOk feeder && instOk inst
  | .sectionEvaluationComplete sec => secOk sec
  | .contributionCutoff sec => secOk sec
  | .lateContribution sec => secOk sec
  | .bdAlarmDelay sec => secOk sec
  | .afOpHoldExpiry sec zone => secOk sec && eight zone
  | .lightWithoutCurrent sec zone => secOk sec && eight zone
  | .rotreq sec req => secOk sec && eight req
  | .masterHandover sec => secOk sec
  | .plyRound engine => engineOk engine
  | .commitGrant => true
  | .nop core => four core
  | .ld core x => four core && x.ok { mayN := true }
  | .and core x => four core && x.ok { mayN := true }
  | .or core x => four core && x.ok { mayN := true }
  | .xor core x => four core && x.ok { mayN := true }
  | .not core => four core
  | .push core => four core
  | .andp core => four core
  | .orp core => four core
  | .st core x => four core && x.ok { mayN := true, writes := true }
  | .set core x => four core && x.ok { writes := true }
  | .rst core x => four core && x.ok { writes := true }
  | .re core x => four core && x.ok { writes := true, varOnly := true }
  | .fe core x => four core && x.ok { writes := true, varOnly := true }
  | .ton core t => four core && instance10 t
  | .tof core t => four core && instance10 t
  | .tp core t => four core && instance10 t
  | .tona core t => four core && instance10 t
  | .tofa core t => four core && instance10 t
  | .ctu core c => four core && instance10 c
  | .ctd core c => four core && instance10 c
  | .crst core c => four core && instance10 c
  | .lde core _ t => four core && instance10 t
  | .lda core x => four core && x.ok { numeric := true }
  | .ldk core _ imm => four core && decide (-33554432 ≤ imm) && decide (imm < 33554432)
  | .sta core x => four core && x.ok { numeric := true }
  | .add core x => four core && x.ok { numeric := true }
  | .sub core x => four core && x.ok { numeric := true }
  | .cmp core x => four core && x.ok { cc := true, numeric := true }
  | .jmp core off => four core && jumpOk off
  | .jc core _ off => four core && jumpOk off
  | .end_ core => four core
  | .scanOverrun core => four core
  | .warmRestart core => four core
  | .coldRestart core => four core
  | .lcStop core => four core
  | .apply => true
  | .release => true
  | .relall => true
  | .refreshPeriod lane => laneOk lane
  | .laneFrameStart lane => laneOk lane
  | .refreshFrame lane pos _ f => laneOk lane && posOk pos && charsOk f
  | .changeFrame lane pos _ f => laneOk lane && posOk pos && charsOk f
  | .tripFrame lane pos _ f => laneOk lane && posOk pos && charsOk f
  | .enumerateFrame lane pos _ n f => laneOk lane && posOk pos && posOk n && charsOk f
  | .configurationWriteFrame lane pos _ f => laneOk lane && posOk pos && charsOk f
  | .configurationReadFrame lane pos _ f => laneOk lane && posOk pos && charsOk f
  | .statusUpFrame lane pos u => laneOk lane && posOk pos && charsOk u
  | .configurationResponse lane pos r => laneOk lane && posOk pos && r.all charsOk
  | .partnerDownFrame lane f => laneOk lane && charsOk f
  | .claimAgeOut lane pos _ => laneOk lane && posOk pos
  | .safeStateTimeout lane pos => laneOk lane && posOk pos
  | .crossingWord lane pos _ w => laneOk lane && posOk pos && w.all (fun w => decide (w.currents.length = 16) && u8 w.volts)
  | .crossingLoss lane pos _ => laneOk lane && posOk pos
  | .outputOvercurrent lane pos out => laneOk lane && posOk pos && eight out
  | .inputDebounce lane pos inp => laneOk lane && posOk pos && decide (inp < 16)
  | .tilePowerUp lane pos serial => laneOk lane && posOk pos && u32 serial
  | .tilePowerLoss lane pos => laneOk lane && posOk pos
  | .minimumOnTimeExpiry lane pos out => laneOk lane && posOk pos && eight out
  | .readbackMismatch lane pos => laneOk lane && posOk pos
  | .tileLost lane pos => laneOk lane && posOk pos
  | .enum lane => laneOk lane
  | .conf lane => laneOk lane
  | .lnStart lane => laneOk lane
  | .lnStop lane => laneOk lane
  | .retrain lane => laneOk lane
  | .laneStartTimeout lane => laneOk lane
  | .laneStopComplete lane => laneOk lane
  | .signalDetectChange lane _ => laneOk lane
  | .cdrLock lane _ => laneOk lane
  | .cdrUnlock lane => laneOk lane
  | .linkUp x => laneOk x.lane && x.blocks.all (fun b => decide (b < 1024))
  | .linkDown x => laneOk x.lane && x.blocks.all (fun b => decide (b < 1024))
  | .adaptationUpdate lane desired eye mse => laneOk lane && decide (desired.length = 6) && u16 eye && u16 mse
  | .ctleDfeWrite lane p _ => laneOk lane && decide (p < 6)
  | .prbsctrlWrite lane _ => laneOk lane
  | .checkerLock x => laneOk x.lane
  | .checkerLoss lane _ => laneOk lane
  | .injWrite lane _ => laneOk lane
  | .digest r => r.wf
  | .contestResult r => r.wf
  | .castlingRequest r => r.wf
  | .castlingAnswer r => r.wf
  | .standbyDataFeed lane before blocks => ({ lane := lane, before := before, blocks := blocks } : PeerRx).wf
  | .svFrame lane f => laneOk lane && f.wf
  | .gooseMessage lane m => laneOk lane && m.wf
  | .gooseRepetition pub => u32 pub
  | .timeAllowedToLiveExpiry i => u32 i
  | .reservationWindow lane => laneOk lane
  | .timeLaunch lane => laneOk lane
  | .ethernetTransmit lane => laneOk lane
  | .svPublication pub n => u32 pub && u16 n
  | .sync lane m => laneOk lane && m.wf
  | .followUp lane m => laneOk lane && m.wf
  | .pdelayReq lane m => laneOk lane && m.wf
  | .pdelayResp lane m => laneOk lane && m.wf
  | .pdelayRespFollowUp lane m delay => laneOk lane && m.wf && u32 delay
  | .announce lane m _ => laneOk lane && m.wf
  | .ptpMessageInterval lane => laneOk lane
  | .timeBaseStep tb => four tb
  | .enable tb => four tb
  | .disable tb => four tb
  | .tbStepWrite tb _ => four tb
  | .tbRateWrite tb _ => four tb
  | .tbPpsatWrite tb _ => four tb
  | .holdoverExpiry tb => four tb
  | .holdoverFlag tb => four tb
  | .ppsInputEdge tb _ _ => four tb
  | .ppsOutputRise tb => four tb
  | .ppsOutputFall tb => four tb
  | .basePairWrite tb secs ns => four tb && u48 secs && nsOk ns
  | .basensRead tb => four tb
  | .tsqheadRead lane => laneOk lane
  | .roleYield lane => laneOk lane
  | .ringBreakService lane => laneOk lane
  | .ringServiceEnd lane => laneOk lane
  | .standbyFeedMissing sec => secOk sec
  | .selfTestComplete failed => decide (failed < 2 ^ 24)
  | .contestOutcome => true
  | .demoteCheck => true
  | .demoteInFall => true
  | .demoteHeld => true
  | .pairOkLow => true
  | .clrfail => true
  | .clrdemote => true
  | .castle => true
  | .castlingAnswerTimeout => true
  | .castlingSwitch => true
  | .castlingEnd => true
  | .mantrig sec => secOk sec
  | .drAck id => u32 id
  | .logStageComplete _ us => us.all u32
  | .sectorEraseComplete => true
  | .repeatWindowExpiry code => u16 code
  | .correlationRecord => true
  | .freeze => true
  | .thaw => true
  | .freezeExpiry => true
  | .erasearm => true
  | .erase => true
  | .eraseArmExpiry => true
  | .rtclRead => true
  | .rtclWrite _ => true
  | .rtchWrite _ => true
  | .optlRead => true
  | .ckStart unit => eight unit
  | .ckStartCont unit => eight unit
  | .ckPause unit => eight unit
  | .ckAbort unit => eight unit
  | .ckJobComplete unit _ => eight unit
  | .packageCheckComplete _ => true
  | .devChgabort => true
  | .bankCommit => true
  | .evac engine => engineOk engine
  | .return_ engine => engineOk engine
  | .feederMigration sec => secOk sec
  | .engineSelfTestComplete engine _ => engineOk engine
  | .microcodeLoadComplete engine => engineOk engine
  | .dynamicEntryExpiry entry => entry12 entry
  | .arpRequest lane ip => laneOk lane && u32 ip
  | .page m => m.wf && m.code == 1
  | .logread m => m.wf && m.code == 2
  | .drlist m => m.wf && m.code == 3
  | .drexport m _ => m.wf && m.code == 4
  | .drack m => m.wf && m.code == 5
  | .chgbegin m => m.wf && m.code == 6
  | .chgdata m => m.wf && m.code == 7
  | .chgend m => m.wf && m.code == 8
  | .chgstat m => m.wf && m.code == 9
  | .chgabort m => m.wf && m.code == 10
  | .changeSessionTimeout => true
  | .snEpochRead n => pageOk n
  | .latchExpiry n => pageOk n
  | .coherentCut => true
  | .writeFrame f => bytes f
  | .readFrame f => bytes f
  | .statusCommand => true
  | .nvmRead w => w.toNat % 4 == 1
  | .nvmProgram w => w.toNat % 4 == 2
  | .eraseSector w => w.toNat % 4 == 3
  | .nvmCommandComplete _ _ => true
  | .registerWrite addr _ => wordAddr addr
  | .rcRead addr => wordAddr addr
  | .jtagReset => true
  | .referenceReturn r => four r.grp
  | .fieldSupplyChange lane pos _ => laneOk lane && posOk pos
  | .demoteInRise => true
  | .demotePulseEnd => true
  | .announceReceiptTimeout lane => laneOk lane
  | .signaling lane m => laneOk lane && m.wf
  | .ptpManagement lane m => laneOk lane && m.wf
  | .unknownRequest m => m.wf && (m.code == 0 || decide (10 < m.code))
  | .frameOfNoKind lane _ len => laneOk lane && u16 len
  | .calibrationEraseComplete pair => pairOk pair
  | .saveSlotEraseComplete => true

end Sys2Proof
end

