-- ==== Sys2Proof/Certificates/Slice0/Obligations.lean ====
section
/-! DEFINITION. The statements about the model, from the rules of spec/. -/

open Sys2Proof Sys2Proof.Machine

/-- The log's control writes and clock reads and writes complete (R342, R350, R351): FREEZE sets FROZEN and notes the
instant, ERASEARM arms, a read of EL_RTCL or EL_OPTL latches the high word, a write of EL_RTCL is held, and a write of
EL_RTCH sets the RTC from both words. The equations say that nothing else changes.
The end of a freeze (R350): record 0x0004 with the events not logged goes before the queued records, FROZEN clears
and writing resumes; the expiry acts as a THAW 10 s after the freeze. -/
def Obligations.LogControlCommandsComplete : Prop :=
  ((∀ s : State, s.flag F.EL_STAT_FROZEN = false →
    exec .freeze s = .next ((s.setF F.EL_STAT_FROZEN 0 1).updLog (fun l => { l with frozenAt := s.now }))) ∧
  (∀ s : State, exec .erasearm s = .next (s.updLog (fun l => { l with armedAt := some s.now }))) ∧
  (∀ (s : State) (t0 : Nat), s.log.armedAt = some t0 →
    exec .eraseArmExpiry s = .next ((s.advanceTo (t0 + 1000 * msClk)).updLog (fun l => { l with armedAt := none }))) ∧
  (∀ s : State, exec .rtclRead s = .next (s.setF F.EL_RTCH_RTCH 0 (s.rtcMs / 2 ^ 32))) ∧
  (∀ (s : State) (w : Word), exec (.rtclWrite w) s = .next (s.updLog (fun l => { l with rtcHeld := w.toNat }))) ∧
  (∀ s : State, exec .optlRead s = .next (s.setF F.EL_OPTH_OPTH 0 (s.opTime / 2 ^ 32))) ∧
  (∀ (s : State) (w : Word), ∃ t, exec (.rtchWrite w) s = .next t ∧
    t.log.rtc = (w.toNat % 2 ^ 16 * 2 ^ 32 + s.log.rtcHeld) % 2 ^ 48 ∧ t.log.rtcAt = s.now ∧ t.log.rtcValid = true ∧
    t.flag F.EL_STAT_RTCVALID = true)) ∧
  ((∀ s : State, s.flag F.EL_STAT_FROZEN = true → s.flag F.EL_STAT_FULL = false → s.flag F.EL_STAT_HOLD = false → s.log.present = true →
    ∃ t, exec .thaw s = .next t ∧ t.flag F.EL_STAT_FROZEN = false ∧ t = ((s.setF F.EL_STAT_FROZEN 0 0).updLog (fun l => { l with
      lostFreeze := 0, lostQueue := 0, lostHold := 0, firstCode := 0, lastCode := 0,
      queue := (s.setF F.EL_STAT_FROZEN 0 0).recNotLogged :: l.queue })).closeLapsed.startWrite) ∧
  (∀ s : State, s.flag F.EL_STAT_FROZEN = true → ∃ t, exec .freezeExpiry s = .next t ∧
    t.flag F.EL_STAT_FROZEN = false ∧ exec .thaw (s.advanceTo (s.log.frozenAt + 10000 * msClk)) = .next t))

/-- The stages of a record (R344): bytes 0 to 55, the CRC at 56, the commit value 0xA5 at 63; with the last the record's
SEQ becomes EL_HEAD and the record enters the index. The first two change nothing but the event NVM and the stage. -/
def Obligations.RecordWritesInThreeStages : Prop :=
  (∀ (s : State) (r : EvRec) (slot : Nat) (us : List Nat), s.log.writing = some (r, slot, 0) → (∀ x ∈ us, x ≤ s.img.slowUs) →
    exec (.logStageComplete true us) s = .next ((s.evProgram (64 * slot)
      (recBytes r (s.getF F.EL_HEAD_HEAD + 1) (s.getF F.EL_PWRCNT_PCC))).updLog
        (fun l => { l with programs := 0, writing := some (r, slot, 1) }))) ∧
  (∀ (s : State) (r : EvRec) (slot : Nat) (us : List Nat), s.log.writing = some (r, slot, 1) → (∀ x ∈ us, x ≤ s.img.slowUs) →
    exec (.logStageComplete true us) s = .next ((s.evProgram (64 * slot + 56) (le4 (crcOf crc32c
      (recBytes r (s.getF F.EL_HEAD_HEAD + 1) (s.getF F.EL_PWRCNT_PCC))))).updLog
        (fun l => { l with programs := 0, writing := some (r, slot, 2) }))) ∧
  (∀ (s : State) (r : EvRec) (slot : Nat) (us : List Nat), s.log.writing = some (r, slot, 2) → (∀ x ∈ us, x ≤ s.img.slowUs) →
    ∃ t, exec (.logStageComplete true us) s = .next t ∧ t.getF F.EL_HEAD_HEAD = (s.getF F.EL_HEAD_HEAD + 1) % 2 ^ 32 ∧
      t.log.index = (slot, s.getF F.EL_HEAD_HEAD + 1) :: s.log.index ∧
      Mem.read 0xFF t.evNvm (64 * slot + 63) = Mem.read 0xFF s.evNvm (64 * slot + 63) &&& 0xA5)

/-- Erasing and flood filtering (R348, R351, R352): an armed ERASE starts a generation of its own with nothing in the index,
a background erase leaves the sector erased but for its erase count, a lapsed repeat window closes its run.
The correlation record (R343): when the operating time passes the next multiple of 60,000 ms in normal service, record
0x0006 holds the extended time of TB0, its LOCK, and the RTC with its validity. -/
def Obligations.LogErasesRunsCloseAndCorrelates : Prop :=
  ((∀ (s : State) (t0 : Nat), s.log.armedAt = some t0 → s.now ≤ t0 + 1000 * msClk → s.flag F.EL_STAT_READY = true →
    ∃ t, exec .erase s = .next t ∧ t.log.gen = s.log.gen + 1 ∧ t.log.index = [] ∧ t.log.armedAt = none ∧
      t.getF F.EL_FIRST_FIRST = (s.getF F.EL_HEAD_HEAD + 1) % 2 ^ 32 ∧ t.flag F.EL_STAT_FULL = false ∧
      t.flag F.EL_STAT_WEAR = false ∧ t.getF F.EL_FULLCNT_COUNT = 0) ∧
  (∀ (s : State) (y old : Nat), s.flag F.EL_STAT_READY = true → s.eraseTarget = some y → s.waitsErase = false →
    old = leNat (s.evRead (4096 * y + 4) 4) →
    exec .sectorEraseComplete s = .next (((s.evErase y).evProgram (4096 * y + 4)
      (le4 (if old = 0xFFFFFFFF then 1 else old + 1))).updLog (fun l => { l with ahead := l.ahead + 1 }))) ∧
  (∀ (s : State) (code w : Nat) (x : FloodSt), s.floodMode code = .rep w → Tab.find s.log.flood code = some x →
    x.open_ = true → s.logHeld = false →
    exec (.repeatWindowExpiry code) s = .next ((s.advanceTo (x.lastAt + w * msClk)).closeRun code))) ∧
  (∀ (s u : State) (n : Nat), s.flag F.EL_STAT_READY = true → s.calendar = false →
    n = (if s.opTime / 60000 ≤ s.log.corr then s.opTime / 60000 + 1 else s.opTime / 60000) →
    u = (s.advanceTo (s.dev.startAt + (n * 60000 - s.log.opBase) * msClk)).updLog (fun l => { l with corr := n }) →
    exec .correlationRecord s = .next (u.event 6 0xFFFF 0xFFFF .none (leBytes 6 (u.extNs 0 / 1000000000) ++
      le4 (u.extNs 0 % 1000000000) ++ [u.getF F.TB_STAT_LOCK 0] ++ leBytes 6 u.rtcMs ++ [b2n u.log.rtcValid])))

/-- The forcing commands (R225, R226, R228): APPLY of an idle entry on a signal forces it, a RELEASE gives the entry back
from the hidden copy, RELALL leaves no entry applied, and a refused target sets REF and applies nothing. -/
def Obligations.ForcesApplyAndRelease : Prop :=
  (∀ (s : State) (f : Force) (g : Nat), f = s.force s.selForce → g = f.def_ % 2 ^ 17 → f.active = false →
    bitOf f.def_ 30 = false → s.forceRefused s.selForce false g = false →
    ∃ t, exec .apply s = .next t ∧ t.sig g = forcedEntry (f.val % 2 ^ 24) ∧
      t.force s.selForce = { f with active := true, output := false, target := g, value := f.val % 2 ^ 24 } ∧
      t.pins.testmode = true) ∧
  (∀ (s : State) (f : Force) (g : Nat), f = s.force s.selForce → g = f.def_ % 2 ^ 17 → f.active = false →
    bitOf f.def_ 30 = false → s.forceRefused s.selForce false g = true →
    exec .apply s = .next (s.setF F.LC_FSTAT_REF 0 1).forcesChanged) ∧
  (∀ (s : State) (f : Force), f = s.force s.selForce → f.active = true → f.output = false →
    ¬(123648 ≤ f.target ∧ f.target < 123904) →
    ∃ t, exec .release s = .next t ∧ t.force s.selForce = { f with active := false } ∧
      t.sig f.target = Tab.get s.hidden Entry.absent f.target) ∧
  (∀ s : State, ∃ t, exec .relall s = .next t ∧ ∀ n, n < 64 → (t.force n).active = false)

/-- Reset and power balls (R337, R342, R345, R365, R420, R421): what each leaves in the balls, the reset cause, the clocks
of the time bases and the two NVMs.
The start (R365, R366, R370, R372): with no valid bank the state is NO_IMAGE, of the valid ones that with the higher GEN loads, bank 0 where
both have the same, all grids
start at once at angle 0 and nominal rate, protection becomes active with its time in ACTT, and RELOAD repeats the
check. -/
def Obligations.PowerAndStartCommandsComplete : Prop :=
  ((∀ (s : State) (on : Bool) (ev cfg : Option Nat), s.pins.porn = false →
    ∃ t, exec (.pornRelease on ev cfg) s = .next t ∧ t.pins.porn = true ∧ t.now = s.now ∧ t.pins.crstN = true ∧ t.pins.erstN = true ∧
      t.getF F.DEV_STAT_RSTCAUSE = b2n (!on && s.pins.pwrgood) ∧ t.cfgNvm = s.cfgNvm ∧
      t.tbs = (List.range 4).map (fun k => (k, ({ t0 := s.now } : TbSt)))) ∧
  (∀ (s : State) (low : Bool), ∃ t, exec (.pornAssert low) s = .next t ∧ t.regs = [] ∧ t.cfg = none ∧
    t.pins.porn = false ∧ t.pins.lanesIdle = true ∧ t.pins.demoteOutLow = false ∧ t.pins.testmode = false ∧ t.pins.forcedN = true ∧
    t.pins.ccsN = true ∧ t.pins.ecsN = true ∧ t.pins.crstN = false ∧ t.pins.erstN = false ∧ t.evNvm = s.evNvm ∧ t.cfgNvm = s.cfgNvm ∧ t.tiles = s.tiles ∧ t.log.rtc = s.log.rtc ∧
    t.pending = s.pending) ∧
  (∀ s : State, s.pins.porn = true → ∃ t, exec .jtagReset s = .next t ∧ t.pins.porn = true ∧ t.cfg = none ∧
    t.getF F.DEV_STAT_RSTCAUSE = 2 ∧ t.cfgNvm = s.cfgNvm ∧ t.tiles = s.tiles) ∧
  (∀ s : State, s.pins.porn = true → s.pins.holdup = false → s.flag F.EL_STAT_HOLD = false →
    exec .holdupWarnAssert s = .next (((s.updPins (fun p => { p with holdup := true })).setF F.EL_STAT_HOLD 0 1).updLog
      (fun l => { l with saving := l.saveErased, saveSet := some s.takeSave })).published) ∧
  (∀ s : State, s.pins.porn = true → s.pins.holdup = false → s.pins.pwrgood = true → s.flag F.EL_STAT_HOLD = false →
    exec .pwrgoodFall s = .next (((s.updPins (fun p => { p with pwrgood := false })).setF F.EL_STAT_HOLD 0 1).updLog
      (fun l => { l with saving := l.saveErased, saveSet := some s.takeSave })).published) ∧
  (∀ s : State, s.pins.holdup = true → exec .pwrgoodFall s = .next (s.updPins (fun p => { p with pwrgood := false }))) ∧
  (∀ s u : State, s.pins.porn = true → s.flag F.EL_STAT_HOLD = true →
    u = (s.saveDone.updPins (fun p => { p with holdup := false, pwrgood := true })).setF F.EL_STAT_HOLD 0 0 →
    u.flag F.EL_STAT_READY = true → u.flag F.EL_STAT_FULL = false →
    exec .holdupWarnClear s = .next ((u.updLog (fun l => { l with
      lostFreeze := 0, lostQueue := 0, lostHold := 0, firstCode := 0, lastCode := 0,
      queue := u.recNotLogged :: l.queue, saveSet := none, saveErased := false })).closeLapsed.startWrite.published)) ∧
  (∀ s : State, s.pins.porn = false → s.pins.pwrgood = false →
    exec .vbatLoss s = .next (s.updLog (fun l => { l with vbatLost := true, rtcValid := false })))) ∧
  ((∀ (s : State) (b0 b1 : BankView) (dram : Bool), s.pins.porn = true → s.getF F.DEV_STAT_STATE = 1 →
    (s.readBank 0 b0).fault ≠ none → (s.readBank 1 b1).fault ≠ none → ∃ t, exec (.imageCheckComplete b0 b1 dram) s = .next t ∧ t.getF F.DEV_STAT_STATE = 4 ∧
      t.cfg = s.cfg) ∧
  (∀ (s u : State) (v0 v1 : BankView) (b0 b1 : Bank) (dram : Bool) (l : Nat × Nat), s.pins.porn = true →
    s.getF F.DEV_STAT_STATE = 1 → b0 = s.readBank 0 v0 → b1 = s.readBank 1 v1 →
    l = (match b1.fault with | some f => f | none => b0.fault.getD (0, 0)) →
    u = (s.setFs 0 [(F.DEV_IMGSTAT_CAUSE, l.1), (F.DEV_IMGSTAT_BLOCK, l.2)]).trainDram dram →
    (b0.fault = none → (b1.fault = none → b1.gen ≤ b0.gen) → exec (.imageCheckComplete v0 v1 dram) s =
      .next (((u.otherBank 1 b1 b0).fillStart b0.image.hcrc).loadBank 0 b0)) ∧
    (b1.fault = none → (b0.fault = none → b0.gen < b1.gen) → exec (.imageCheckComplete v0 v1 dram) s =
      .next (((u.otherBank 0 b0 b1).fillStart b1.image.hcrc).loadBank 1 b1))) ∧
  (∀ s : State, s.getF F.DEV_STAT_STATE = 2 → (s.sec 0).running = false → ∃ t, exec .gridStart s = .next t ∧
    ∀ k, k < 24 → (t.sec k).running = true ∧ (t.sec k).theta0 = 0 ∧ (t.sec k).t0 = t.now ∧ (t.sec k).nextSample = 0 ∧
      t.getF F.SEC_FREQ_FREQ k = (s.img.sec k).nomFreq) ∧
  (∀ s : State, s.getF F.DEV_STAT_STATE = 2 → s.mayProtect = true → ∃ t, exec .protectionActive s = .next t ∧
    t.getF F.DEV_STAT_STATE = 3 ∧ t.getF F.DEV_STAT_ACTT = min 4095 ((s.now - s.dev.countAt) / msClk)) ∧
  (∀ s : State, s.getF F.DEV_STAT_STATE = 4 →
    exec .reload s = .next ((s.setF F.DEV_STAT_STATE 0 1).updDev (fun d => { d with countAt := s.now }))))

/-- The save set (R337): it goes into the slot that does not hold the newest set, its commit byte last, and no byte outside
that slot's set changes; the erase of the slot leaves its two sectors erased and no other byte changed. -/
def Obligations.SaveSetStaysInItsSlot : Prop :=
  (∀ (s : State) (x : SaveSet), s.log.saving = true → s.log.saveSet = some x →
    ∃ t, exec .saveSetComplete s = .next t ∧ t.log.newest = some s.spareSlot ∧ t.log.saving = false ∧ t.regs = s.regs ∧
      Mem.read 0xFF t.evNvm (saveAddr s.spareSlot + 63) = Mem.read 0xFF s.evNvm (saveAddr s.spareSlot + 63) &&& 0xA5 ∧
      ∀ a, a < saveAddr s.spareSlot ∨ saveAddr s.spareSlot + 64 + x.body.length ≤ a →
        Mem.read 0xFF t.evNvm a = Mem.read 0xFF s.evNvm a) ∧
  (∀ s : State, s.flag F.EL_STAT_READY = true → s.log.saveErased = false → s.log.saving = false →
    ∃ t, exec .saveSlotEraseComplete s = .next t ∧ t.log.saveErased = true ∧ t.regs = s.regs ∧
      ∀ a, Mem.read 0xFF t.evNvm a =
        if saveAddr s.spareSlot ≤ a ∧ a < saveAddr s.spareSlot + 8192 then 0xFF else Mem.read 0xFF s.evNvm a)

/-- The section clock's commands (R20, R21, R24, R28 to R31): the latching reads, a lost and a qualified entry followed by
the choice of target, the end and the extension of a glide, the wrap of the cycle count.
The two angle instants of an epoch (R15, R22): at the sample instant the epoch is numbered and stamped, each converter
chain of the section takes what waits for it, and the trackers report; at the evaluation deadline what is missing is
counted, the change frames are queued, and the digest, the feed, the recorder and the page follow in this order. -/
def Obligations.SectionClockCommandsComplete : Prop :=
  ((∀ (s : State) (k : Nat), k < 24 →
    exec (.angleTickRead k) s = .next (s.setF F.SEC_ANGLE_CYC_CYCLE k (s.tick k / 65536)) ∧
    exec (.epochNumRead k) s = .next (s.setF F.SEC_EPOCH_TS_NS k (s.sec k).stamp)) ∧
  (∀ (s u : State) (k n : Nat), (s.sec k).running = true → n < 4 → 16 ≤ ((s.sec k).entry n).failRun →
    ((s.sec k).entry n).lost = false →
    u = s.updSec k (fun x => { x with entries := modAt x.entries n (fun y => { y with lost := true }) }) →
    exec (.entryLost k n) s = .next ((if s.target k = n then u.setF F.SEC_ANGLE_EVT_LOSS k 1 else u).chooseTarget k)) ∧
  (∀ (s : State) (k n : Nat), (s.sec k).running = true → n < 4 →
    128 * s.getF F.SEC_ANGLE_CFG_Q k ≤ ((s.sec k).entry n).validRun →
    exec (.entryQualified k n) s = .next ((s.setBitF F.SEC_REF_STAT_QUAL k n true).chooseTarget k)) ∧
  (∀ (s : State) (k t0 : Nat), s.flag F.SEC_REF_STAT_GLIDE k = true →
    (s.sec k).glideZero ((s.sec k).entry (s.target k)).hz = some t0 →
    ∃ t, exec (.glideEnd k) s = .next t ∧ t.now = max s.now t0 ∧ t.flag F.SEC_REF_STAT_GLIDE k = false ∧
      t.flag F.SEC_REF_STAT_EXTENDED k = false ∧ (t.sec k).glideE = 0 ∧
      (t.sec k).rate = rnd (clampHz ((s.sec k).entry (s.target k)).hz)) ∧
  (∀ (s : State) (k : Nat), s.flag F.SEC_REF_STAT_GLIDE k = true → (s.sec k).clamped = true → s.glideEnds k = false →
    exec (.glideExtended k) s = .next (((s.advanceTo (s.glideCycles k)).setF F.SEC_REF_STAT_EXTENDED k 1).setF
      F.SEC_ANGLE_EVT_GLIDEEXT k 1)) ∧
  (∀ (s : State) (k a : Nat), (s.sec k).running = true → a = ((s.sec k).wraps + 1) * 2 ^ 48 →
    ∃ t, exec (.cycleWrap k) s = .next t ∧ t.now = max s.now ((s.sec k).clockOf ((a : Nat) : Rat)) ∧
      t.flag F.SEC_ANGLE_EVT_WRAP k = true ∧ (t.sec k).wraps = (s.sec k).wraps + 1 ∧ (t.sec k).theta0 = (s.sec k).theta0)) ∧
  ((∀ (s a b : State) (k e : Nat), (s.sec k).running = true → e = (s.sec k).nextSample → 0 < e →
    a = (s.advanceTo (s.angleClk k (512 * e))).stampEpoch k →
    b = ((a.convsOf k).foldl (fun s n => s.chainEpoch n e) a).endEpoch k →
    exec (.epochSample k e) s = .next (if k = b.refSec then b.checkPeer else b) ∧
      a.getF F.SEC_EPOCH_NUM_EPOCH k = e % 2 ^ 32 ∧ (a.sec k).nextSample = e + 1 ∧
      a.now = max s.now (s.angleClk k (512 * e))) ∧
  (∀ (s o a b c d : State) (k e : Nat) (ecc : EccIn), (s.sec k).running = true → e = (s.sec k).nextDeadline →
    e < (s.sec k).nextDue → e + s.delayOf k e + 2 ≤ (s.sec k).nextSample →
    o = s.advanceTo (s.angleClk k (s.deadlineAngle k e)) →
    a = ((s.imgAt k e).feedersOf k).foldl (fun s p => s.missFeeder e p.1 p.2) o →
    b = ((a.missSection k e).abandonPlies k (o.inRound k)).updSec k (fun y => { y with nextDeadline := e + 1 }) →
    c = (((List.range 8).foldl (fun s r => s.engineLoad (8 * k + r)) b).queueChanges o).published →
    d = (c.formDigest k e).sendFeed k e →
    ∃ t, exec (.evaluationDeadline k ecc) s = .next t ∧ t = ((d.dramWords ecc (d.sec k).recOpen).recorderDeadline k e).publishPage k e))

/-- The check units' commands (R356, R359, R360): a START that nothing refuses runs from INIT, a START with CONT from
CK_VALUE, a refused one leaves its result code, a PAUSE stops a check-buffer job at the byte reached, an ABORT ends with
result 7. A computing job ends with its value; an appending one writes the value after the copied bytes; a verifying one
ends with result 1 or 2 as the stored value matches. -/
def Obligations.CheckUnitCommandsComplete : Prop :=
  (∀ (s u : State) (k : Nat) (p : CrcParam), k < 8 → s.ckOwned k = false → s.getF F.CK_STAT_STATE k ≠ 1 → u = s.ckShowAll →
    u.ckRefusal k false = none → p = u.ckParam k →
    exec (.ckStart k) s = .next { (u.setF F.CK_VALUE_VALUE k (p.init % 2 ^ p.w)).setF F.CK_STAT_STATE k 1 with
      cks := Tab.set u.cks k { startAt := s.now } }) ∧
  (∀ (s u : State) (k : Nat) (p : CrcParam), k < 8 → s.ckOwned k = false → s.getF F.CK_STAT_STATE k ≠ 1 → u = s.ckShowAll →
    u.ckRefusal k true = none → p = u.ckParam k →
    exec (.ckStartCont k) s = .next { (u.setF F.CK_VALUE_VALUE k (u.getF F.CK_VALUE_VALUE k % 2 ^ p.w)).setF F.CK_STAT_STATE k 1 with
      cks := Tab.set u.cks k { (if s.getF F.CK_STAT_STATE k = 2 then s.ck k else {}) with startAt := s.now } }) ∧
  (∀ (s : State) (k r : Nat), k < 8 → s.ckOwned k = false → s.getF F.CK_STAT_STATE k ≠ 1 → s.ckShowAll.ckRefusal k false = some r →
    exec (.ckStart k) s = .next (((s.ckShowAll.setF F.CK_STAT_RESULT k r).setF F.CK_STAT_DONE k 1).setF F.CK_STAT_STATE k 0)) ∧
  (∀ (s : State) (k n : Nat), k < 8 → s.ckOwned k = false → s.getF F.CK_STAT_STATE k = 1 →
    s.getF F.CK_CFG_SSPACE k = 0 → n = 4 * (s.now - (s.ck k).startAt) → n < s.getF F.CK_LEN_LEN k →
    ∃ t, exec (.ckPause k) s = .next t ∧ t.getF F.CK_STAT_STATE k = 2 ∧
      t.getF F.CK_SRC_SRC k = (s.getF F.CK_SRC_SRC k + n) % 2 ^ 32 ∧
      t.getF F.CK_LEN_LEN k = (s.getF F.CK_LEN_LEN k - n) % 2 ^ 32 ∧ (t.ck k).done = (s.ck k).done + min n (s.ckData k) ∧
      exec (.ckAbort k) s = .next ((((s.ckConsume k n).setF F.CK_STAT_RESULT k 7).setF F.CK_STAT_DONE k 1).setF
        F.CK_STAT_STATE k 0)) ∧
  (∀ (s : State) (k : Nat), k < 8 → s.ckOwned k = false → s.getF F.CK_STAT_STATE k = 2 →
    exec (.ckAbort k) s = .next (((s.setF F.CK_STAT_RESULT k 7).setF F.CK_STAT_DONE k 1).setF F.CK_STAT_STATE k 0)) ∧
  (∀ (s : State) (k len src dst out d : Nat) (p : CrcParam) (l : List Nat), k < 8 → s.getF F.CK_STAT_STATE k = 1 →
    (s.ck k).stored = [] → (s.ck k).page = [] → d = (s.ck k).done → p = s.ckParam k → len = s.getF F.CK_LEN_LEN k → src = s.getF F.CK_SRC_SRC k → dst = s.getF F.CK_DST_DST k →
    l = s.spaceRead (s.getF F.CK_CFG_SSPACE k) src len →
    (s.getF F.CK_CFG_MODE k = 0 → out = crcOut p (crcRun p (s.getF F.CK_VALUE_VALUE k) l % 2 ^ 32) →
      ∃ t, exec (.ckJobComplete k false) s = .next t ∧ t.getF F.CK_RESULT_RESULT k = out % 2 ^ 32 ∧
        t.flag F.CK_STAT_DONE k = true ∧ t.getF F.CK_STAT_RESULT k = 1 ∧ t.getF F.CK_STAT_STATE k = 0 ∧ t.ckBuf = s.ckBuf ∧
        t.getF F.CK_OUTLEN_OUTLEN k = 0) ∧
    (s.getF F.CK_CFG_MODE k = 1 → out = crcOut p (crcRun p (s.getF F.CK_VALUE_VALUE k) l % 2 ^ 32) → dst + len < 2 ^ 32 →
      ∃ t, exec (.ckJobComplete k false) s = .next t ∧ t.getF F.CK_RESULT_RESULT k = out % 2 ^ 32 ∧
        t.flag F.CK_STAT_DONE k = true ∧ t.getF F.CK_STAT_RESULT k = 1 ∧ t.getF F.CK_STAT_STATE k = 0 ∧
        t.getF F.CK_OUTLEN_OUTLEN k = (d + len + p.bytes) % 2 ^ 32 ∧
        t.ckBuf = Mem.writeN 0 (Mem.writeN 0 s.ckBuf dst l) (dst + len) (leBytes p.bytes out)) ∧
    (s.getF F.CK_CFG_MODE k = 2 → p.bytes < len →
      out = crcOut p (crcRun p (s.getF F.CK_VALUE_VALUE k) (l.take (len - p.bytes)) % 2 ^ 32) →
      ∃ t, exec (.ckJobComplete k false) s = .next t ∧ t.getF F.CK_RESULT_RESULT k = out % 2 ^ 32 ∧
        t.flag F.CK_STAT_DONE k = true ∧ t.getF F.CK_STAT_STATE k = 0 ∧ t.getF F.CK_OUTLEN_OUTLEN k = (d + (len - p.bytes)) % 2 ^ 32 ∧
        t.getF F.CK_STAT_RESULT k = (if leNat (l.drop (len - p.bytes)) = out then 1 else 2) ∧
        t.ckBuf = Mem.writeN 0 s.ckBuf dst (l.take (len - p.bytes))))
/-- Conversions of a converter (R41 to R45): at a slot instant with the converter idle the enabled slot's conversion starts,
a completed conversion takes the next SEQ and enters the queue where it has room, and a transfer takes the head of the
queue to its consumer.
Urgent conversions (R47, R48): a request starts at once where 4 µs have passed since the last start, waits where they
have not, joins a waiting one on the same input, is refused on another; the deferred start follows 4 µs after the last. -/
def Obligations.ConversionsRunInOrder : Prop :=
  ((∀ (s : State) (n a k : Nat), s.slotsRun n = true → a = (s.conv n).slotTick → k = a % 16 / 2 →
    s.flag (slotEnF k) n = true → (s.conv n).cur = none →
    ∃ t c, exec (.slotInstant n) s = .next t ∧ t.now = max s.now (s.nextSlotClk n) ∧ (t.conv n).slotTick = a + 2 ∧
      (t.conv n).cur = some c ∧ c.inp = s.getF (slotChF k) n ∧ c.slotAngle = a ∧ c.at_ = t.now ∧
      t.flag F.CV_CONV_BUSY n = true) ∧
  (∀ (s : State) (n : Nat) (c : Conversion) (vdiff vref : Int), n < 32 → (s.conv n).cur = some c →
    ∃ t, exec (.conversionComplete n vdiff vref) s = .next t ∧ (t.conv n).seq = ((s.conv n).seq + 1) % 256 ∧
      t.getF F.CV_QSTAT_LASTSEQ n = (s.conv n).seq % 256 ∧ t.now = max s.now (c.at_ + convClk) ∧
      ((s.conv n).fill < 64 → (t.conv n).fill = (s.conv n).fill + 1 ∧
        t.getF F.CV_QLAST_ENTRY n =
          entryWord c (convCode vdiff vref).2 (s.conv n).seq (convCode vdiff vref).1 % 2 ^ 32)) ∧
  (∀ (s : State) (n : Nat) (e : QEnt) (r : List QEnt), (s.conv n).queue = e :: r →
    (∀ d, r.head? = some d → d.dropped = false) →
    exec (.queueEntryTransfer n) s =
      .next (((s.updConv n (fun x => { x with queue := r })).consume n e).showQueue n))) ∧
  ((∀ (s : State) (n inp : Nat) (b : Requester), n < 32 → (s.slotOfInput n inp).isSome = true → s.slotsRun n = true →
    s.urgHeld n = none → s.urgFree n = true →
    ∃ t c, exec (.urgentRequest n inp b) s = .next t ∧ (t.conv n).cur = some c ∧ c.inp = inp ∧ c.urg = true ∧
      c.at_ = s.now ∧ (t.conv n).lastUrg = some s.now ∧
      t.getF F.CV_URGCNT_URG n = satAdd F.CV_URGCNT_URG.width (s.getF F.CV_URGCNT_URG n) 1) ∧
  (∀ (s : State) (n inp : Nat) (b : Requester), n < 32 → (s.slotOfInput n inp).isSome = true → s.slotsRun n = true →
    s.urgHeld n = none → s.urgFree n = false →
    ∃ t, exec (.urgentRequest n inp b) s = .next t ∧ (t.conv n).pendUrg = some (inp, [b]) ∧ (t.conv n).cur = (s.conv n).cur ∧
      t.getF F.CV_URGREF_DEFERRED n = satAdd F.CV_URGREF_DEFERRED.width (s.getF F.CV_URGREF_DEFERRED n) 1) ∧
  (∀ (s : State) (n inp : Nat) (l : List Requester) (b : Requester), n < 32 → (s.slotOfInput n inp).isSome = true →
    s.slotsRun n = true → (s.conv n).pendUrg = some (inp, l) →
    ∃ t l', exec (.urgentRequest n inp b) s = .next t ∧ (t.conv n).pendUrg = some (inp, l') ∧ b ∈ l' ∧
      (t.conv n).cur = (s.conv n).cur ∧
      t.getF F.CV_URGREF_MERGED n = satAdd F.CV_URGREF_MERGED.width (s.getF F.CV_URGREF_MERGED n) 1) ∧
  (∀ (s : State) (n inp i : Nat) (l : List Requester) (b : Requester), n < 32 → (s.slotOfInput n inp).isSome = true →
    s.slotsRun n = true → (s.conv n).pendUrg = some (i, l) → i ≠ inp → s.tookNow n = none →
    ∃ t, exec (.urgentRequest n inp b) s = .next t ∧ t.flag F.CV_STAT_URGREF n = true ∧
      t.getF F.CV_URGREF_REFUSED n = satAdd F.CV_URGREF_REFUSED.width (s.getF F.CV_URGREF_REFUSED n) 1 ∧
      (t.conv n).pendUrg = some (i, l) ∧ (t.conv n).cur = (s.conv n).cur) ∧
  (∀ (s : State) (n inp t0 : Nat) (l : List Requester), (s.conv n).pendUrg = some (inp, l) →
    (s.conv n).lastUrg = some t0 →
    ∃ t c, exec (.deferredUrgentStart n) s = .next t ∧ t.now = max s.now (t0 + 4 * usClk) ∧ (t.conv n).pendUrg = none ∧
      (t.conv n).cur = some c ∧ c.inp = inp ∧ c.urg = true ∧ (t.conv n).lastUrg = some t.now))

/-- Open-wire tests (R54, R55): the interval makes an attempt due, the test conversion starts 1,500 ns after the currents
went on (as an urgent request after eight attempts), and an attempt ends 400 ns before the input's next slot instant.
The reference of a converter group (R12, R51, R52): its loss clears REFRDY and sets REFLOSS in the eight converters, its
return starts the settling time, after which REFRDY sets and RATIO shows the supply source. -/
def Obligations.OpenWireTestsAndReferencesRun : Prop :=
  ((∀ (s : State) (n inp : Nat), s.slotsRun n = true → inp < 8 → bitOf (s.getF F.CV_CFG_OWEN n) inp = true →
    (s.ow n inp).due = false → (s.ow n inp).pull = none → (s.conv n).underCal inp = false →
    exec (.openWireInterval n inp) s = .next ((s.advanceTo (s.ow n inp).nextAt).updOw n inp
      (fun o => { o with due := true, attempts := 0 }))) ∧
  (∀ (s : State) (n inp t0 : Nat) (r : Int), (s.ow n inp).pull = some (t0, r) → (s.conv n).testing inp = false →
    (s.ow n inp).attempts < 8 → (s.conv n).cur = none → (s.advanceTo (t0 + 1800)).roomForTest n = true →
    exec (.openWireTestStart n inp) s = .next ((s.advanceTo (t0 + 1800)).startConv n { inp := inp, owt := true })) ∧
  (∀ (s : State) (n inp t0 : Nat) (r : Int), (s.ow n inp).pull = some (t0, r) → (s.conv n).testing inp = false →
    8 ≤ (s.ow n inp).attempts →
    exec (.openWireTestStart n inp) s = .next ((s.advanceTo (t0 + 1800)).urgent n inp .openWire)) ∧
  (∀ (s : State) (n inp a : Nat) (p : Nat × Int), (s.ow n inp).pull = some p → s.nextSlotOf n inp = some a →
    (s.conv n).started inp = false →
    ∃ t, exec (.openWireAttemptTimeout n inp) s = .next t ∧
      t.now = max s.now ((s.sec (s.convSec n)).clockOf (a : Rat) - 480) ∧ (t.ow n inp).pull = none ∧ (t.ow n inp).due = true ∧
      (t.ow n inp).attempts = (s.ow n inp).attempts + 1 ∧ (t.conv n).cur = (s.conv n).cur ∧ (t.conv n).testing inp = false)) ∧
  ((∀ (s : State) (g : Nat), g < 4 → (s.ref g).powered = true → s.refInRange g = true →
    ∃ t, exec (.referenceOutOfRange { grp := g, src := s.groupSource g }) s = .next t ∧ t.refInRange g = false ∧
      ∀ i, i < 8 → t.flag F.CV_STAT_REFRDY (8 * g + i) = false ∧ t.flag F.CV_STAT_REFLOSS (8 * g + i) = true) ∧
  (∀ (s : State) (g : Nat), g < 4 → (s.ref g).powered = true → s.refInRange g = false →
    ∃ t, exec (.referenceReturn { grp := g, src := s.groupSource g }) s = .next t ∧ t.refInRange g = true ∧ (t.ref g).settleAt = s.now ∧
      ∀ i, i < 8 → t.flag F.CV_STAT_REFRDY (8 * g + i) = s.flag F.CV_STAT_REFRDY (8 * g + i)) ∧
  (∀ (s : State) (g : Nat) (x : RefSource), s.groupSource g ≠ x → (s.ref g).out.contains x = false →
    ∃ t, exec (.referenceOutOfRange { grp := g, src := x }) s = .next t ∧ (t.ref g).out = x :: (s.ref g).out ∧ t.regs = s.regs) ∧
  (∀ (s : State) (g : Nat), g < 4 → (s.ref g).powered = true → s.refInRange g = true →
    ∃ t, exec (.refrdySet g) s = .next t ∧ t.now = max s.now ((s.ref g).settleAt + (s.groupSource g).settle) ∧
      ∀ i, i < 8 → t.flag F.CV_STAT_REFRDY (8 * g + i) = true ∧
        t.flag F.CV_STAT_RATIO (8 * g + i) = decide (s.groupSource g = .supply)))

/-- Calibration (R59 to R61, R336): the commands open, continue and end a session, the averages become the zero point and
the coefficients, a storage that reads back stands and ends with result 1, and an erase frees the spare sector. -/
def Obligations.CalibrationSessionCommandsComplete : Prop :=
  (∀ (s : State) (n inp : Nat), n < 32 → inp < 8 → s.inUse n inp = true → s.flag F.CV_STAT_REFRDY n = true →
    bitOf (s.getF F.CV_OWSTAT_FLAG n) inp = false → s.getF F.CV_CALSTAT_STATE n ≠ 1 → s.getF F.CV_CALSTAT_STATE n ≠ 3 →
    (∀ c, (s.conv n).cal = some c → c.inp = inp) →
    (∃ t, exec (.calZero n inp) s = .next t ∧ t.getF F.CV_CALSTAT_STATE n = 1 ∧ t.getF F.CV_CALSTAT_CH n = inp ∧
      t.getF F.CV_CALSTAT_RESULT n = 0 ∧ (t.conv n).cal = some { inp := inp, lastAt := s.now } ∧ (t.ow n inp).pull = none) ∧
    (∀ (c : CalSt) (z : Rat), (s.conv n).cal = some c → c.zero = some z → 32768 ≤ s.getF F.CV_CALVAL_EXPECT n →
      s.getF F.CV_CALVAL_EXPECT n ≤ 131071 → ∃ t d, exec (.calFull n inp) s = .next t ∧ t.getF F.CV_CALSTAT_STATE n = 3 ∧
        t.getF F.CV_CALSTAT_RESULT n = 0 ∧ (t.conv n).cal = some d ∧ d.inp = inp ∧ d.zero = some z ∧ d.count = 0 ∧ d.sum = 0 ∧
        d.waitErase = !s.calReady ((8 * n + inp) / 64))) ∧
  (∀ (s : State) (n : Nat) (c : CalSt), n < 32 → (s.conv n).cal = some c →
    (s.inUse n c.inp = true → ∃ t, exec (.calAbort n c.inp) s = .next t ∧ t.getF F.CV_CALSTAT_RESULT n = 11 ∧
      t.getF F.CV_CALSTAT_STATE n = 0 ∧ t.flag F.CV_STAT_CALDONE n = true ∧ (t.conv n).cal = none) ∧
    (∃ t, exec (.calSessionTimeout n) s = .next t ∧ t.now = max s.now (c.lastAt + 600000 * msClk) ∧
      t.getF F.CV_CALSTAT_RESULT n = 10 ∧ t.getF F.CV_CALSTAT_STATE n = 0 ∧ t.flag F.CV_STAT_CALDONE n = true ∧
      (t.conv n).cal = none)) ∧
  (∀ (s : State) (n : Nat) (c : CalSt) (m : Rat), n < 32 → (s.conv n).cal = some c → 4096 ≤ c.count → c.newCoef = none →
    m = (c.sum : Rat) / 4096 → c.ovr = false →
    (s.getF F.CV_CALSTAT_STATE n = 1 → -4096 ≤ m → m ≤ 4096 → ∃ t, exec (.calAveragingDone n) s = .next t ∧
      t.getF F.CV_CALSTAT_STATE n = 2 ∧ t.getF F.CV_CALSTAT_RESULT n = 1 ∧
      (t.conv n).cal = some { c with zero := some m, count := 0, sum := 0 }) ∧
    (∀ z g : Rat, s.getF F.CV_CALSTAT_STATE n = 3 → c.zero = some z → m ≠ z → g = (s.getF F.CV_CALVAL_EXPECT n : Rat) / (m - z) →
      9 / 10 ≤ g → g ≤ 11 / 10 → ∃ t, exec (.calAveragingDone n) s = .next t ∧ t.getF F.CV_CALSTAT_STATE n = 3 ∧
      (t.conv n).cal = some { c with newCoef := some (roundQ (z * 16), (roundQ (g * 2 ^ 30)).toNat) })) ∧
  (∀ (s : State) (n ain sp : Nat) (c : CalSt) (off : Int) (gain : Nat) (entry : List Nat), n < 32 → (s.conv n).cal = some c →
    c.newCoef = some (off, gain) → s.log.present = true → ain = 8 * n + c.inp → sp = s.calSpare (ain / 64) →
    s.calReady (ain / 64) = true →
    entry = calEntry ain off gain (s.opTime % 2 ^ 48) (s.getF F.EL_PWRCNT_PCC) →
    (∃ t, exec (.calStoreComplete n true) s = .next t ∧ t.getF F.CV_CALSTAT_RESULT n = 1 ∧
      t.getF F.CV_CALSTAT_STATE n = 0 ∧ t.flag F.CV_STAT_CALDONE n = true ∧ (t.conv n).cal = none ∧
      (t.conv n).newCoef = some (c.inp, off, gain) ∧
      (1024 ≤ s.log.slot → t.evRead (4096 * sp + 32 * (ain % 64)) 32 = entry)) ∧
    (∃ t, exec (.calStoreComplete n false) s = .next t ∧ t.getF F.CV_CALSTAT_RESULT n = 9 ∧
      t.getF F.CV_CALSTAT_STATE n = 0 ∧ t.flag F.CV_STAT_CALDONE n = true ∧ (t.conv n).cal = none ∧
      t.log.calErasing.contains (ain / 64) = true ∧
      ∀ a, a < 4096 * sp ∨ 4096 * sp + 4095 ≤ a → Mem.read 0xFF t.evNvm a = Mem.read 0xFF s.evNvm a)) ∧
  (∀ (s : State) (q : Nat), s.log.calErasing.contains q = true →
    ∃ t, exec (.calibrationEraseComplete q) s = .next t ∧ t.log.calErasing.contains q = false ∧
      ∀ a, Mem.read 0xFF t.evNvm a =
        if 4096 * s.calSpare q ≤ a ∧ a < 4096 * s.calSpare q + 4096 then 0xFF else Mem.read 0xFF s.evNvm a)

/-- The filter chain's commands (R65, R66, R68, R73 to R76): STOP, its end, START and the start at the slot instant; a shift
leaves the list of shifts being computed and puts its FIR output at the head of the line; coefficients and delays are
written while the chain is STOPPED and refused otherwise. The default coefficients are 64, symmetric, with gain 1 at DC. -/
def Obligations.FilterChainCommandsComplete : Prop :=
  (∀ (s : State) (n : Nat), n < 32 → s.getF F.FC_STAT_STATE n = 1 → (s.chain n).startWait = false →
    ∃ t, exec (.fcStop n) s = .next t ∧
      ((s.chain n).due ≠ [] → t = s.setF F.FC_STAT_STATE n 2) ∧
      ((s.chain n).due = [] → t.getF F.FC_STAT_STATE n = 0 ∧ t.flag F.FC_STAT_DIRTY n = true)) ∧
  (∀ (s : State) (n : Nat), s.getF F.FC_STAT_STATE n = 2 → s.flag F.FC_STAT_PENDING n = false →
    exec (.fcStopComplete n) s = .next (((s.runShifts n).releaseAll n).setF F.FC_STAT_STATE n 0)) ∧
  (∀ (s : State) (n : Nat), n < 32 → s.getF F.FC_STAT_STATE n = 0 →
    exec (.fcStart n) s = .next ((s.updChain n (fun c => { c with startWait := true, pendOff := false })).setF
      F.FC_STAT_STATE n 1)) ∧
  (∀ (s : State) (n : Nat), (s.chain n).startWait = true → (s.sec (s.convSec n)).running = true →
    (s.chain n).pendOff = false →
    ∃ t, exec (.fcRunStart n) s = .next t ∧ t.now = max s.now (s.nextSlotClk n) ∧ t.getF F.FC_STAT_STATE n = 1 ∧
      t.flag F.FC_STAT_DIRTY n = false ∧ (t.chain n).startWait = false ∧
      (t.chain n).startAngle = some (s.conv n).slotTick) ∧
  (∀ (s : State) (n inp k : Nat) (d : Nat × Int) (x : InpChain), (s.chain n).due.find? (fun d => d.1 == inp) = some d →
    s.slotOfInput n inp = some k → inp < (s.chain n).inps.length → x = (s.chain n).inps.getD inp {} →
    ∃ t, exec (.filterShift n inp) s = .next t ∧
      (t.chain n).due = (s.chain n).due.filter (fun y => !(y.1 == inp && y.2 == d.2)) ∧
      ((t.chain n).inps.getD inp {}).fir =
        ((d.2, dot ((s.chain n).coefs.map (fun c => (c : Rat) / 2 ^ 23)) x.cic) :: x.fir).take 4) ∧
  (∀ (s : State) (n : Nat), exec (.coefdataRead n) s =
    .next (s.setF F.FC_COEFADDR_TAP n (s.getF F.FC_COEFADDR_TAP n + 1))) ∧
  (∀ (s : State) (n : Nat) (w : Word), s.getF F.FC_STAT_STATE n = 0 → s.getF F.FC_COEFADDR_TAP n < 64 →
    ∃ t, exec (.coefdataWrite n w) s = .next t ∧
      (∀ i, i < 64 → (t.chain n).coefs.getD i 0 =
        if i = s.getF F.FC_COEFADDR_TAP n then sext 24 w.toNat else (s.chain n).coefs.getD i 0) ∧
      t.getF F.FC_COEFADDR_TAP n = (s.getF F.FC_COEFADDR_TAP n + 1) % 64) ∧
  (∀ (s : State) (n inp : Nat) (w : Word), s.getF F.FC_STAT_STATE n = 0 → -3968 ≤ sext 13 w.toNat →
    sext 13 w.toNat ≤ 3968 → exec (.delayWrite n inp w) s = .next (s.setF F.FC_DELAY_CORR n w.toNat inp)) ∧
  (∀ (s : State) (n inp : Nat) (w : Word), s.getF F.FC_STAT_STATE n ≠ 0 →
    exec (.delayWrite n inp w) s = .next ((s.setF F.FC_STAT_BUSY n 1).incF F.FC_STAT_REFUSED n) ∧
    exec (.coefdataWrite n w) s = .next ((s.setF F.FC_STAT_BUSY n 1).incF F.FC_STAT_REFUSED n)) ∧
  (∀ c : ConvCfg, c.coefs = [] → c.fir.length = 64 ∧ c.fir.sum = 2 ^ 23 ∧ c.fir.reverse = c.fir)

/-- Sampled values (R79, R281, R283, R284): at the cutoff every stream of the section that still lacks the epoch forms it,
an accepted frame counts and its samples enter the resampler, a publication's sample is formed with its number and
synchronisation. -/
def Obligations.SampledValueCommandsComplete : Prop :=
  (∀ (s : State) (k e : Nat) (r : EpochRec),
    ((s.img.svSubs.filter (fun p => p.2.section_ == k)).map (fun p => Tab.get (s.sec k).svNext 0 p.1)).min? = some e →
    (s.sec k).epochRec e = some r →
    ∃ t, exec (.resampleCutoff k) s = .next t ∧ s.now ≤ t.now ∧
      ∀ p, p ∈ s.img.svSubs → p.2.section_ = k → Tab.get (s.sec k).svNext 0 p.1 = e →
        e < Tab.get (t.sec k).svNext 0 p.1) ∧
  (∀ (s u : State) (lane n sub : Nat) (c : SvSub) (f : SvFrame), lane < 32 → c.section_ < 24 → s.ethRx lane = true →
    frameLenOk f.snd.len = true →
    s.img.svSubOf lane f = some (sub, c) → (s.captureRx lane).judgePinned lane 0 sub c.srcMac f.snd = (some n, u) → c.passes f = true →
    ∃ t, exec (.svFrame lane f) s = .next t ∧ t = u.svAccept lane sub c f ∧
      t.getF F.LN_SVRX_ACC lane = (u.getF F.LN_SVRX_ACC lane + 1) % 2 ^ F.LN_SVRX_ACC.width) ∧
  (∀ (s : State) (pub n g : Nat) (p : SvPub) (c : FeederCfg), Tab.find s.img.svPubs pub = some p →
    s.img.feeder p.feeder = some c → svDate (s.extNs (s.img.sec (p.feeder / 64)).stampTb) 4800 n = some g →
    s.svPublishes p = true → (s.sec (p.feeder / 64)).running = true → n < 4800 →
    ∃ t, exec (.svPublication pub n) s = .next t ∧ Tab.find t.svOuts pub = some
      { n := n, synch := s.smpSynch (s.img.sec (p.feeder / 64)).stampTb,
        values := (List.range 8).map (fun ch => s.svValue (p.feeder / 64) c ch (g * 1000000000 / 4800)) })

/-- Events inside a feeder's evaluation (R104, R112, R117, R132, R152, R153, R157), where it has come to the instance: the command
evaluates the instance, with the event that its state and quantities bring about. `z` is what the evaluation reads. -/
def Obligations.EvaluationEventsComplete : Prop :=
  ∀ (s : State) (f inst e : Nat) (c : FeederCfg) (g : ElemCfg) (el : ElemSt) (z : EvCtx), s.evaluating f = some (c, e) →
    c.order.findIdx? (fun j => j == inst) = some (s.feeder f).evalNext → Tab.find c.elems inst = some g →
    el = (s.feeder f).elem inst → z = (s.feeder f).clearSat.ctx c e s.now →
    (∀ (t : ThrKind) (k : ThrCfg) (p : Nat) (q : Quality) (ph : PhSt), g.kind = .thr t k → ph = el.ph.getD p {} →
      p < (if t = .oc then 3 else 1) → z.missing (k.chans t c ++ z.linkChans k ++ z.inrushChans k) = false →
      q = ((z.thrQual t k).join (z.dirQual k)).join (z.inrushQual k) →
      (k.curve = .definite → blocks g.blockOnQuest q = false → el.blocked = false → ph.started = true → ph.op = false →
        z.direction k (decide (t = .oc)) p = true → z.inrush k (k.inrBit t c p) = false → z.blockIn k.block = false →
        z.thrGate t k = true → (t = .oc → c.has p = true) → k.r * z.thrStart t k ≤ (z.thrQty t k p).lo →
        (k.delayOf t).limit ≤ ph.t + (k.delayOf t).step z.dt →
        ∃ u, exec (.elementDelayExpiry (.feeder f inst p)) s = .next u ∧ (((u.feeder f).elem inst).ph.getD p {}).op = true ∧
          (u.feeder f).evalNext = (s.feeder f).evalNext + 1 ∧ u.now = s.now ∧ u.sigs = s.sigs ∧ u.regs = s.regs) ∧
      (∀ m h : Rat, k.curve ≠ .definite → blocks g.blockOnQuest q = false → el.blocked = false → ph.started = true → ph.op = false →
        z.direction k (decide (t = .oc)) p = true → z.inrush k (k.inrBit t c p) = false → z.blockIn k.block = false →
        z.thrGate t k = true → (t = .oc → c.has p = true) → k.r * z.thrStart t k ≤ (z.thrQty t k p).lo →
        m = minQ ((z.thrQty t k p).lo / (k.isOf t * z.thrUnit t)) k.mmax →
        h = (if 1 < m then minQ 1 (ph.g + rnd (z.dt / (k.kt * k.curve.time m))) else ph.g) → 1 ≤ h → k.tmin ≤ ph.u + z.dt →
        ∃ u, exec (.integratorFull f inst p) s = .next u ∧ (((u.feeder f).elem inst).ph.getD p {}).op = true ∧
          (((u.feeder f).elem inst).ph.getD p {}).g = h ∧ (u.feeder f).evalNext = (s.feeder f).evalNext + 1 ∧ u.now = s.now ∧
          u.sigs = s.sigs ∧ u.regs = s.regs) ∧
      (k.curve = .definite → k.reset = .definite → blocks g.blockOnQuest q = false → el.blocked = false → ph.started = false →
        (z.thrQty t k p).lo < z.thrStart t k → ph.t ≠ 0 → k.tdr ≤ ph.w + z.dtOff →
        ∃ u, exec (.definiteResetExpiry f inst p) s = .next u ∧ (((u.feeder f).elem inst).ph.getD p {}).t = 0 ∧
          (((u.feeder f).elem inst).ph.getD p {}).started = false ∧ (u.feeder f).evalNext = (s.feeder f).evalNext + 1 ∧
          u.now = s.now ∧ u.sigs = s.sigs ∧ u.regs = s.regs) ∧
      (blocks g.blockOnQuest q = true → el.blocked = true → el.hold = 1 →
        ∃ u, exec (.blockHoldExpiry f inst) s = .next u ∧ ((u.feeder f).elem inst).hold = 0 ∧ ((u.feeder f).elem inst).bits = 0 ∧
          ((u.feeder f).elem inst).blocked = true ∧ (u.feeder f).evalNext = (s.feeder f).evalNext + 1 ∧ u.now = s.now ∧
          u.sigs = s.sigs ∧ u.regs = s.regs)) ∧
    (∀ (k : InrCfg) (v : Rat), g.kind = .inr k → z.missing (c.inrChans k) = false → el.rst = 0 → el.crossT = some v →
      (∀ n, n < 4 → z.restrained k false (z.full n) (z.second n) = false) →
      z.restrained k false (sum3 z.full 0) (sum3 z.second 0) = false → k.hold ≤ v + z.dt →
      ∃ u, exec (.crossBlockHoldExpiry f inst) s = .next u ∧ ((u.feeder f).elem inst).crossT = none ∧
        (u.feeder f).evalNext = (s.feeder f).evalNext + 1 ∧ u.now = s.now ∧ u.sigs = s.sigs ∧ u.regs = s.regs) ∧
    (∀ (k : BfCfg) (l : List Nat), g.kind = .bf k → l = [0, 1, 2].filter c.has ++ k.resChans c → z.missing l = false →
      (blocks g.blockOnQuest (z.m.qHalfOf l) = false → el.blocked = false → el.active = true → z.bfCheck k el.check = true →
        (k.sealIn = true ∨ z.bfInit k = true) →
        (k.retrip = true → k.t1 ≤ el.bfT + z.dt → bitOf el.bits 1 = false →
          ∃ u, exec (.retripDelay f inst) s = .next u ∧ bitOf ((u.feeder f).elem inst).bits 1 = true ∧
            ((u.feeder f).elem inst).taR = s.now ∧ ((u.feeder f).elem inst).bfT = el.bfT + z.dt ∧ u.now = s.now ∧
            u.sigs = s.sigs ∧ u.regs = s.regs) ∧
        (k.t2 ≤ el.bfT + z.dt → bitOf el.bits 2 = false →
          ∃ u, exec (.backtripDelay f inst) s = .next u ∧ bitOf ((u.feeder f).elem inst).bits 2 = true ∧
            ((u.feeder f).elem inst).taB = s.now ∧ ((u.feeder f).elem inst).bfT = el.bfT + z.dt ∧ u.now = s.now ∧
            u.sigs = s.sigs ∧ u.regs = s.regs)) ∧
      (el.check = true → z.bfQuiet k = true →
        ∃ u, exec (.currentCheckSampleClear f inst) s = .next u ∧ ((u.feeder f).elem inst).check = false ∧
          (u.feeder f).evalNext = (s.feeder f).evalNext + 1 ∧ u.now = s.now ∧ u.sigs = s.sigs ∧ u.regs = s.regs)) ∧
    (∀ (k : FlCfg) (es : Nat) (l : List Nat), g.kind = .fl k → l = [0, 1, 2, 4, 5, 6] ++ (if c.has 3 then [3] else []) →
      z.missing l = false → blocks g.blockOnQuest (z.m.qOf l) = false → k.inits.any (fun i => bitOf (z.elem i).bits 0) = true →
      el.fl.any = true → el.fl.es = some es →
      (e = es + 64 → el.fl.halfCap = none →
        ∃ u, exec (.faultLocatorCapture f inst) s = .next u ∧ ((u.feeder f).elem inst).fl.halfCap = some (z.flCapture k true) ∧
          (u.feeder f).evalNext = (s.feeder f).evalNext + 1 ∧ u.now = s.now ∧ u.sigs = s.sigs ∧ u.regs = s.regs) ∧
      (e = es + 128 → el.fl.fullCap = none →
        ∃ u, exec (.faultLocatorCapture f inst) s = .next u ∧ ((u.feeder f).elem inst).fl.fullCap = some (z.flCapture k false) ∧
          (u.feeder f).evalNext = (s.feeder f).evalNext + 1 ∧ u.now = s.now ∧ u.sigs = s.sigs ∧ u.regs = s.regs))

/-- Events of an evaluation that have an instant or a store of their own (R96, R122, R153): a pulse ends tp after it
asserted, a phasor memory older than 1,024 epochs is dropped, a saturation flag whose time is over clears.
Events inside the section evaluation (R172, R175, R180), with every part of the epoch on the board: the command computes the open
evaluation, with the event that its state and quantities bring about. `z` is what the evaluation reads, `o` the state before. -/
def Obligations.SectionEventsAndExpiriesComplete : Prop :=
  ((∀ (s : State) (f inst e v : Nat) (c : FeederCfg) (g : ElemCfg) (k : BfCfg) (back : Bool) (el : ElemSt) (l : List Nat) (z : EvCtx),
    s.evaluating f = some (c, e) → c.order.findIdx? (fun j => j == inst) = some (s.feeder f).evalNext →
    Tab.find c.elems inst = some g → g.kind = .bf k → el = (s.feeder f).elem inst →
    v = max s.now ((if back then el.taB else el.taR) + (k.tp * 1200000000).floor.toNat) →
    z = (s.feeder f).clearSat.ctx c e v → l = [0, 1, 2].filter c.has ++ k.resChans c → z.missing l = false →
    blocks g.blockOnQuest (z.m.qHalfOf l) = false → el.blocked = false → k.cbMode = false → z.bfCheck k el.check = false →
    bitOf el.bits (if back then 2 else 1) = true →
    ∃ u, exec (.minimumPulseExpiry f inst back) s = .next u ∧ bitOf ((u.feeder f).elem inst).bits (if back then 2 else 1) = false ∧
      ((u.feeder f).elem inst).active = false ∧ u.now = v ∧ u.sigs = s.sigs ∧ u.regs = s.regs) ∧
  (∀ (s : State) (f inst e : Nat) (c : FeederCfg), s.evaluating f = some (c, e) →
    (∀ m, ((s.feeder f).elem inst).mem = some m → m.2.2.1 + 1024 < e) → ((s.feeder f).elem inst).mem ≠ none →
    exec (.memoryExpiry f inst) s = .next (s.updFeeder f (fun x => x.updElem inst (fun el => { el with mem := none })))) ∧
  (∀ (s : State) (f ch : Nat), (s.feeder f).measOpen.isSome = true → satDue ((s.feeder f).satRun.getD ch none) = true →
    exec (.saturationFlagClear f ch) s =
      .next (s.updFeeder f (fun x => { x with satRun := modAt x.satRun ch (fun _ => none) })))) ∧
  ((∀ (s : State) (k e : Nat) (o : MasterSt) (z : SecCtx), (s.sec k).evalOpen = some e → (s.sec k).evald = false →
    (∀ p, p ∈ (s.imgAt k e).feedersOf k → (Tab.find ((s.sec k).page e).meas p.1).isSome = true) → o = (s.sec k).mst →
    z = s.secCtx k e →
    (∀ p : Nat, p < 3 → z.c.bd.enabled = true → z.mainBlocked p = false →
      (z.checkBlocked p = false → z.bdStart o p = true → z.czStart o p = true → o.bdRun.getD p false = true →
        o.bdOp.getD p false = false → z.c.bd.delay ≤ o.bdT.getD p 0 + z.dt →
        ∃ u, exec (.elementDelayExpiry (.differential k p)) s = .next u ∧ (u.sec k).mst.bdOp.getD p false = true ∧
          (u.sec k).evald = true ∧ u.now = s.now ∧ u.sigs = s.sigs ∧ u.regs = s.regs) ∧
      (∀ v : Rat, z.bdStart o p = false → z.c.bd.ialarm * z.c.ibase ≤ (z.diff z.main p).lo → o.alarmT.getD p none = some v →
        o.alarm = false → z.c.bd.alarmDelay ≤ v + z.dt →
        ∃ u, exec (.bdAlarmDelay k) s = .next u ∧ (u.sec k).mst.alarm = true ∧ (u.sec k).evald = true ∧ u.now = s.now ∧
          u.sigs = s.sigs ∧ u.regs = s.regs)) ∧
    (∀ (i : Nat) (a : ArcCfg) (v : Rat) (l : List Nat), z.c.arcs[i]? = some a → l = z.m.arcChecks k a →
      (l = [] ∨ l.all z.checkBad = false) → (a.lights.map z.light).any (fun l => l.1 && l.2.usable) = true →
      l.any (z.passes a.iaf) = false → (o.arcs.getD i {}).lightT = some v → (o.arcs.getD i {}).lwc = false → a.lwcDelay ≤ v + z.dt →
      ∃ u, exec (.lightWithoutCurrent k i) s = .next u ∧ ((u.sec k).mst.arcs.getD i {}).lwc = true ∧ (u.sec k).evald = true ∧
        u.now = s.now ∧ u.sigs = s.sigs ∧ u.regs = s.regs) ∧
    (∀ (i : Nat) (a : ArcCfg) (l : List Nat), z.c.arcs[i]? = some a → l = z.m.arcChecks k a →
      (l = [] ∨ l.all z.checkBad = false) → (a.lights.map z.light).any (fun l => l.1 && l.2.usable) = false →
      (o.arcs.getD i {}).op = true →
      ∃ u, exec (.afOpHoldExpiry k i) s = .next u ∧ ((u.sec k).mst.arcs.getD i {}).op = false ∧ (u.sec k).evald = true ∧
        u.now = max s.now ((o.arcs.getD i {}).opAt + 100 * msClk) ∧ u.sigs = s.sigs ∧ u.regs = s.regs)))

/-- The board of a section (R82, R84, R161 to R164, R196): a burst that arrives in time joins its feeder's bursts, a late one
is counted, a part is written or discarded as late, missing parts are substituted at the cutoff, a lost source is
recorded. -/
def Obligations.IngressAndBoardCommandsComplete : Prop :=
  (∀ (s : State) (k n f src e : Nat) (l : List (Option (Int × Quality))), (s.sec k).toIngress[n]? = some (.burst f src e l) →
    (s.sec k).nextDue ≤ e → s.arrived k (s.dueAngle k e) = false → s.heldBursts k < 2048 →
    ∃ t, exec (.ingressArrival k n) s = .next t ∧ (t.sec k).toIngress = (s.sec k).toIngress.eraseIdx n ∧
      (t.feeder f).bursts = (s.feeder f).bursts ++ [(src, e, l)] ∧ t.now = s.now) ∧
  (∀ (s : State) (k n f src e : Nat) (l : List (Option (Int × Quality))), (s.sec k).toIngress[n]? = some (.burst f src e l) →
    (e < (s.sec k).nextDue ∨ s.arrived k (s.dueAngle k e) = true) →
    exec (.ingressArrival k n) s = .next ((s.updSec k (fun x => { x with toIngress := x.toIngress.eraseIdx n })).incF
      F.SEC_INGSTAT_LATE k)) ∧
  (∀ (s : State) (f e : Nat), (s.feeder f).measOpen = some e → s.partLate (f / 64) e f = false →
    (s.boardRoom (f / 64) = true → exec (.measurementPartWrite f) s = .next (((s.updFeeder f (fun x =>
      { x.clearSat with measOpen := none })).updPage (f / 64) e (fun g =>
      { g with meas := Tab.set g.meas f (s.feeder f).clearSat.measPart })).brim F.DEV_BRIM1_BOARD (s.boardFill (f / 64) + 1))) ∧
    (s.boardRoom (f / 64) = false → exec (.measurementPartWrite f) s = .next ((s.updFeeder f (fun x =>
      { x.clearSat with measOpen := none })).lateCount (f / 64)))) ∧
  (∀ (s : State) (k f : Nat), s.lateFeeder k = some f →
    exec (.lateContribution k) s = .next ((s.updFeeder f (fun x => if 0 < x.lateParts
      then { x with lateParts := x.lateParts - 1 } else { x with measOpen := none })).incF F.SEC_STALECNT_LATE k)) ∧
  (∀ (s : State) (k e : Nat), (s.sec k).evalOpen = some e → ∃ t, exec (.contributionCutoff k) s = .next t ∧
    t.now = max s.now (s.angleClk k (s.cutoffAngle k e)) ∧
    ∀ p, p ∈ (s.imgAt k e).feedersOf k → Tab.find ((t.sec k).page e).meas p.1 =
      some ((Tab.find ((s.sec k).page e).meas p.1).getD MeasPart.substituted)) ∧
  (∀ (s : State) (f i : Nat) (c : FeederCfg) (src : Bool × Nat), s.img.feeder f = some c → c.sources[i]? = some src →
    16 ≤ ((s.feeder f).src i).missRun → ((s.feeder f).src i).lost = false →
    exec (.sourceLost f i) s = .next ((s.updFeeder f (fun x => x.updSrc i (fun y => { y with lost := true }))).event
      0x0301 f 0xFFFF (.sec (f / 64)) ([b2n src.1] ++ le2 src.2)))

/-- The evaluations of an epoch (R15, R17, R165 to R168, R204): the due angle opens it, a completed feeder evaluation ends
its run of misses, a completed section evaluation becomes the section's state, from 128 misses on the outputs carry
invalid; a rotation is asked for and the role moves at its epoch. -/
def Obligations.EvaluationsOpenAndComplete : Prop :=
  (∀ (s : State) (k e : Nat), (s.sec k).running = true → e = (s.sec k).nextDue → (s.sec k).nextDeadline = e →
    e + s.delayOf k e ≤ (s.sec k).nextSample →
    ∃ t, exec (.dataDue k) s = .next t ∧ t.now = max s.now (s.angleClk k (s.dueAngle k e)) ∧ (t.sec k).nextDue = e + 1 ∧
      (t.sec k).evalOpen = some e ∧ (e ≠ (s.sec k).cfgFrom → ∀ p, p ∈ (s.imgAt k e).feedersOf k →
        (t.feeder p.1).evalOpen = some e ∧ (t.feeder p.1).measOpen = some e ∧ (t.feeder p.1).evalNext = 0)) ∧
  (∀ (s : State) (f e : Nat) (c : FeederCfg), s.evaluating f = some (c, e) →
    s.past (f / 64) (s.deadlineAngle (f / 64) e) = false →
    ∃ t, exec (.feederEvaluationComplete f) s = .next t ∧ (t.feeder f).evalOpen = none ∧ (t.feeder f).missRun = 0 ∧
      (t.feeder f).missed = false ∧ t.now = s.now ∧ (∀ p, p ∈ c.elems → p.1 < 74 →
        t.sigBelow (feederSig f p.1) = Entry.mk' ((t.feeder f).elem p.1).shown.1 ((t.feeder f).elem p.1).shown.2) ∧
      (s.boardRoom (f / 64) = true → (Tab.find ((t.sec (f / 64)).page e).elem f).isSome = true)) ∧
  (∀ (s : State) (k e : Nat), (s.sec k).evalOpen = some e → s.past k (s.deadlineAngle k e) = false →
    s.secReady k e = true →
    ∃ t, exec (.sectionEvaluationComplete k) s = .next t ∧ (t.sec k).evalOpen = none ∧ (t.sec k).evalDone = some e ∧
      (t.sec k).mst = s.secNext k e ∧ t.now = s.now) ∧
  (∀ (s : State) (f : Nat) (c : FeederCfg), s.img.feeder f = some c → 128 ≤ (s.feeder f).missRun →
    exec (.missRunInvalid f) s = .next (s.holdOutputs f c Quality.bad).published) ∧
  (∀ (s : State) (k r : Nat), (s.sec k).running = true → s.getF F.SEC_MASTER_CUR k ≠ r → s.eligible k r = true → r < 8 →
    exec (.rotreq k r) s = .next (s.updSec k (fun x =>
      { x with rotReq := some { h := s.cycleAfterNext k, req := r, cause := 0 } }))) ∧
  (∀ (s u : State) (k : Nat) (r : Rotation), k < 24 → (s.sec k).rotEvac = none → (s.sec k).rotReq = some r →
    r.h ≤ (s.sec k).nextDue → r.req < 8 → s.eligible k r.req = true → s.getF F.SEC_MASTER_CUR k ≠ r.req →
    u = (s.advanceTo (s.angleClk k (s.dueAngle k r.h))).updSec k (fun x => { x with rotReq := none }) →
    ∃ t, exec (.masterHandover k) s = .next t ∧ t = (u.rotate k r.h r.req 0).readMaster k r.h ∧
      t.getF F.SEC_MASTER_CUR k = r.req)

/-- Speculation (R185, R186, R192 to R199, R202). A round publishes nothing and uses no time; it makes the attempts of the section
elements, where the engine is master, then those of its feeders in slot order, instance by instance. A ply that decides trip
takes its slot and one closed gate for each frame that it would send. A grant takes every confirmed ply out of its slot; the
outputs of a feeder's ply stand in its signal with its quality, its gates open, and the latency stays within 800 ns; a section
ply sets its element's output and the SECTRIP of its targets. -/
def Obligations.PliesStageAndCommit : Prop :=
  (∀ (s u : State) (e : Nat), (s.engine e).roundDue = true → s.plyActive e = true → s.idleEngine e = true →
    (s.sec (e / 8)).nextDue ≠ 0 → u = s.updEngine e (fun g => { g with roundDue := false }) →
    ∃ t, exec (.plyRound e) s = .next t ∧ (t.engine e).roundDue = false ∧ t.sigs = s.sigs ∧ t.hidden = s.hidden ∧
      t.now = s.now ∧ t.evNvm = s.evNvm ∧
      t = (u.heldBySlot e).foldl (fun s f => match s.img.feeder f with
        | some c => c.order.foldl (fun s i => match Tab.find c.elems i with
            | some g => s.tryInst f i c g
            | none => s) s
        | none => s) (if s.master (e / 8) = e then u.trySections (e / 8) else u)) ∧
  (∀ (s : State) (p : Ply) (id slot : Nat), s.gatesUsed (p.engine / 8) + p.gates.length ≤ 128 →
    (∀ g, g ∈ p.gates → s.getF F.LN_STAT_STATE g.1 = 2) → Tab.freeKey s.plies 4096 = some id → s.freeSlot p.engine = some slot →
    p.urgent = false → (∀ d, d ∈ p.deps → ∀ x, x ∈ d.wait → ∀ c, s.img.feeder d.feeder = some c →
      (s.feeder d.feeder).burst (c.srcOf d.ch) x = none) →
    Tab.find (s.stage p).plies id = some { p with shared := decide (16 ≤ slot), slot := slot } ∧ (s.stage p).sigs = s.sigs ∧
    (∀ g, g ∈ p.gates → ∃ h, h ∈ ((s.stage p).lane g.1).gates ∧ h.ply = id ∧ h.addr = g.2.1 ∧ h.bits = g.2.2 ∧ h.open_ = false)) ∧
  (∀ s : State, s.grantOrder ≠ [] → ∃ t, exec .commitGrant s = .next t ∧ t.now = s.now ∧
    ∀ id, id ∈ s.grantOrder → Tab.find t.plies id = none) ∧
  (∀ (s : State) (id g : Nat) (p : Ply), s.grantOrder = [id] → Tab.find s.plies id = some p → p.engine < 192 → p.sec = none →
    g = feederSig p.feeder p.inst → g < 123648 → s.forcedSig g = false → ∃ t, exec .commitGrant s = .next t ∧
      t.sig g = Entry.mk' ((s.sig g).value.toNat ||| p.commit.bits) p.q ∧
      ((t.feeder p.feeder).elem p.inst).committed = some { p.commit with q := p.q } ∧
      (∀ n h, h ∈ (s.lane n).gates → h.ply = id → h.open_ = false → s.inRange n h.addr = true →
        { h with open_ := true } ∈ (t.lane n).gates) ∧
      t.getF F.SEC_COMMITLAT_LASTLAT (p.engine / 8) ≤ 800) ∧
  (∀ (s : State) (id k g : Nat) (p : Ply), s.grantOrder = [id] → Tab.find s.plies id = some p → p.engine < 192 → p.sec = some k →
    k < 24 → g = sectionSig k (if p.inst = 0 then 13 else 15 + p.inst) → p.inst ≤ 8 → s.forcedSig g = false →
    ∃ t, exec .commitGrant s = .next t ∧ t.sig g = Entry.mk' 1 p.q ∧
      Tab.find (t.sec k).committed p.inst = some { p.commit with q := p.q } ∧
      (∀ f, f ∈ p.targets → f < 1536 → s.forcedSig (feederSig f 73) = false →
        t.sig (feederSig f 73) = Entry.mk' 1 (secTrip [(if p.inst = 0 then 0 else 1, true, p.q, 0)]).2) ∧
      (∀ n h, h ∈ (s.lane n).gates → h.ply = id → h.open_ = false → s.inRange n h.addr = true →
        { h with open_ := true } ∈ (t.lane n).gates) ∧
      t.getF F.SEC_COMMITLAT_LASTLAT (p.engine / 8) ≤ 800)

/-- The bit instructions of a logic core (R214, R215, R218): what B, its quality and the stack become; nothing else but the
program counter changes.
The writing instructions (R210, R213, R214): ST, SET, RST, RE and FE write one bit of their operand with B's quality; a
variable and a signal of the core itself take it, any other signal stays as it is. -/
def Obligations.BitInstructionsComplete : Prop :=
  (∀ (s : State) (k : Nat), s.scanning k = true →
    exec (.nop k) s = .next (s.updCore k (fun c => { c with pc := c.pc + 1 })) ∧
    (∀ x : SOp, exec (.ld k x) s = .next (s.updCore k (fun c =>
      { c with b := s.opBit k x, bq := s.opQual k x, pc := c.pc + 1 }))) ∧
    (∀ x : SOp, exec (.and k x) s = .next (s.updCore k (fun c =>
      { c with b := c.b && s.opBit k x, bq := c.bq.join (s.opQual k x), pc := c.pc + 1 }))) ∧
    (∀ x : SOp, exec (.or k x) s = .next (s.updCore k (fun c =>
      { c with b := c.b || s.opBit k x, bq := c.bq.join (s.opQual k x), pc := c.pc + 1 }))) ∧
    (∀ x : SOp, exec (.xor k x) s = .next (s.updCore k (fun c =>
      { c with b := Bool.xor c.b (s.opBit k x), bq := c.bq.join (s.opQual k x), pc := c.pc + 1 }))) ∧
    exec (.not k) s = .next (s.updCore k (fun c => { c with b := !c.b, pc := c.pc + 1 })) ∧
    ((s.core k).stack.length < 8 → exec (.push k) s = .next (s.updCore k (fun c =>
      { c with stack := (c.b, c.bq) :: c.stack, pc := c.pc + 1 }))) ∧
    (8 ≤ (s.core k).stack.length → exec (.push k) s = .next ((s.setF F.LC_STAT_STK k 1).updCore k (fun c =>
      { c with pc := c.pc + 1 }))) ∧
    (∀ b q r, (s.core k).stack = (b, q) :: r → exec (.andp k) s = .next (s.updCore k (fun c =>
      { c with stack := r, b := b && c.b, bq := q.join c.bq, pc := c.pc + 1 }))) ∧
    (∀ b q r, (s.core k).stack = (b, q) :: r → exec (.orp k) s = .next (s.updCore k (fun c =>
      { c with stack := r, b := b || c.b, bq := q.join c.bq, pc := c.pc + 1 })))) ∧
  ((∀ (s : State) (k : Nat) (x : SOp), s.scanning k = true →
    exec (.st k x) s = .next ((s.opPut k x (Bool.xor (s.core k).b x.n) (s.core k).bq).updCore k (fun c =>
      { c with pc := c.pc + 1 })) ∧
    exec (.set k x) s = .next ((if (s.core k).b then s.opPut k x true (s.core k).bq else s).updCore k (fun c =>
      { c with pc := c.pc + 1 })) ∧
    exec (.rst k x) s = .next ((if (s.core k).b then s.opPut k x false (s.core k).bq else s).updCore k (fun c =>
      { c with pc := c.pc + 1 })) ∧
    exec (.re k x) s = .next ((s.opPut k x (s.core k).b (s.core k).bq).updCore k (fun c =>
      { c with b := (s.core k).b && !(s.opEntry k x).bit x.bit, bq := (s.core k).bq, pc := c.pc + 1 })) ∧
    exec (.fe k x) s = .next ((s.opPut k x (s.core k).b (s.core k).bq).updCore k (fun c =>
      { c with b := (s.opEntry k x).bit x.bit && !(s.core k).b, bq := (s.core k).bq, pc := c.pc + 1 }))) ∧
  (∀ (s : State) (k : Nat) (x : SOp) (b : Bool) (q : Quality), x.bit < 24 →
    (x.sp = true → ((s.opPut k x b q).coreVar k x.addr).q = q ∧
      bitOf ((s.opPut k x b q).coreVar k x.addr).value.toNat x.bit = b) ∧
    (x.sp = false → ¬(coreBase k ≤ x.addr ∧ x.addr < coreBase (k + 1)) → s.opPut k x b q = s) ∧
    (s.opPut k x b q).sigs = s.sigs))

/-- The number instructions (R214, R215): what A and its quality become, saturated at 32 bits; STA writes VALUE, saturated at
24 bits; CMP compares.
Jumps (R213, R214): the program counter moves by the offset, or by one where the condition fails. -/
def Obligations.NumberAndJumpInstructionsComplete : Prop :=
  (∀ (s : State) (k : Nat), s.scanning k = true →
    (∀ x : SOp, exec (.lda k x) s = .next (s.updCore k (fun c =>
      { c with a := (s.opEntry k x).int, aq := (s.opEntry k x).q, pc := c.pc + 1 }))) ∧
    (∀ (n : Bool) (i : Int), exec (.ldk k n i) s = .next (s.updCore k (fun c =>
      { c with a := sat32 (if n then i * 1000 else i), aq := Quality.ok, pc := c.pc + 1 }))) ∧
    (∀ t : Nat, exec (.lde k false t) s = .next (s.updCore k (fun c =>
      { c with a := sat32 (Tab.get c.timers {} t).e, aq := Quality.ok, pc := c.pc + 1 }))) ∧
    (∀ t : Nat, exec (.lde k true t) s = .next (s.updCore k (fun c =>
      { c with a := (Tab.get c.ctrs {} t).n, aq := Quality.ok, pc := c.pc + 1 }))) ∧
    (∀ x : SOp, exec (.add k x) s = .next (s.updCore k (fun c =>
      { c with a := sat32 (c.a + (s.opEntry k x).int), aq := c.aq.join (s.opEntry k x).q, pc := c.pc + 1 }))) ∧
    (∀ x : SOp, exec (.sub k x) s = .next (s.updCore k (fun c =>
      { c with a := sat32 (c.a - (s.opEntry k x).int), aq := c.aq.join (s.opEntry k x).q, pc := c.pc + 1 }))) ∧
    (∀ x : SOp, exec (.cmp k x) s = .next (s.updCore k (fun c =>
      { c with b := compareCc x.cc c.a (s.opEntry k x).int, bq := c.aq.join (s.opEntry k x).q, pc := c.pc + 1 }))) ∧
    (∀ x : SOp, exec (.sta k x) s = .next ((s.opWrite k x ⟨(s.core k).aq, false,
      BitVec.ofNat 24 (unsext 24 (sat24 (s.core k).a))⟩).updCore k (fun c => { c with pc := c.pc + 1 })))) ∧
  (∀ (s : State) (k off : Nat), s.scanning k = true →
    exec (.jmp k off) s = .next (s.updCore k (fun c => { c with pc := c.pc + off })) ∧
    ∀ n : Bool, exec (.jc k n off) s = .next (s.updCore k (fun c =>
      { c with pc := if Bool.xor (s.core k).b n then c.pc + off else c.pc + 1 })))

/-- Timers (R216): the elapsed time of an on-delay counts while the input is 1 and is 0 at its rise, that of an off-delay
counts while it is 0, a pulse runs from a rise up to the preset; TONA and TOFA count ticks of the angle section. -/
def Obligations.TimerInstructionsComplete : Prop :=
  (∀ (s : State) (k i : Nat) (x : TimerSt) (p d da : Int), s.scanning k = true → x = Tab.get (s.core k).timers {} i →
    p = max (s.core k).a 0 → d = s.timerDelta k x false → da = s.timerDelta k x true →
    (∃ t, exec (.ton k i) s = .next t ∧ (t.core k).pc = (s.core k).pc + 1 ∧
      (Tab.get (t.core k).timers {} i).e = (if (s.core k).b && x.inp then min (x.e + d) p else 0) ∧
      (t.core k).b = ((s.core k).b && decide (p ≤ if x.inp then min (x.e + d) p else 0))) ∧
    (∃ t, exec (.tona k i) s = .next t ∧ (t.core k).pc = (s.core k).pc + 1 ∧
      (Tab.get (t.core k).timers {} i).e = (if (s.core k).b && x.inp then min (x.e + da) p else 0) ∧
      (t.core k).b = ((s.core k).b && decide (p ≤ if x.inp then min (x.e + da) p else 0))) ∧
    (∃ t, exec (.tof k i) s = .next t ∧ (t.core k).pc = (s.core k).pc + 1 ∧
      (Tab.get (t.core k).timers {} i).e = (if (s.core k).b then 0 else min (x.e + d) p) ∧
      (t.core k).b = ((s.core k).b || decide (min (x.e + d) p < p))) ∧
    (∃ t, exec (.tofa k i) s = .next t ∧ (t.core k).pc = (s.core k).pc + 1 ∧
      (Tab.get (t.core k).timers {} i).e = (if (s.core k).b then 0 else min (x.e + da) p) ∧
      (t.core k).b = ((s.core k).b || decide (min (x.e + da) p < p))) ∧
    (∃ t, exec (.tp k i) s = .next t ∧ (t.core k).pc = (s.core k).pc + 1 ∧
      (x.running = true → (Tab.get (t.core k).timers {} i).e = x.e + d ∧ (t.core k).b = decide (x.e + d < p)) ∧
      (x.running = false → (s.core k).b = true → x.inp = false →
        (Tab.get (t.core k).timers {} i).e = 0 ∧ (t.core k).b = decide (0 < p)) ∧
      (x.running = false → ((s.core k).b = false ∨ x.inp = true) → (t.core k).b = false)))

/-- Counters (R217): the count moves by one on a rise of B, within 0 and 2^31 − 1, and B is the comparison with A; CRST
loads A where B is 1. -/
def Obligations.CounterInstructionsComplete : Prop :=
  (∀ (s : State) (k i : Nat) (x : CtrSt) (n : Int), s.scanning k = true → x = Tab.get (s.core k).ctrs {} i →
    (n = (if (s.core k).b && !x.inp then min (x.n + 1) 2147483647 else x.n) →
      exec (.ctu k i) s = .next (s.updCore k (fun c => { c with
        ctrs := Tab.set c.ctrs i { n := n, inp := c.b }, b := decide (c.a ≤ n), bq := c.bq.join c.aq, pc := c.pc + 1 }))) ∧
    (n = (if (s.core k).b && !x.inp then max (x.n - 1) 0 else x.n) →
      exec (.ctd k i) s = .next (s.updCore k (fun c => { c with
        ctrs := Tab.set c.ctrs i { n := n, inp := c.b }, b := decide (n ≤ c.a), bq := c.bq.join c.aq, pc := c.pc + 1 }))) ∧
    ((s.core k).b = true → exec (.crst k i) s = .next (s.updCore k (fun c => { c with
      ctrs := Tab.set c.ctrs i { x with n := c.a }, pc := c.pc + 1 }))) ∧
    ((s.core k).b = false → exec (.crst k i) s = .next (s.updCore k (fun c => { c with pc := c.pc + 1 }))))

/-- Scans of a core (R211, R218, R220, R221, R223, R364): END in time publishes the writes of the scan and the next scan
starts with an empty stack; an overrun is noted; a restart from OFF empties or keeps the variables; CMD = 3 stops the core
at the end of its scan. -/
def Obligations.ScansAndRestartsComplete : Prop :=
  (∀ (s : State) (k : Nat), k < 4 → s.getF F.LC_STAT_STATE k = 2 → (s.core k).pend = 0 → (s.core k).overrun = false →
    s.now - (s.core k).scanAt ≤ (s.coreCfg k).deadline * 10 * usClk → Tab.sorted (s.core k).writes = true →
    ∃ t, exec (.end_ k) s = .next t ∧ (t.core k).pc = 0 ∧ (t.core k).stack = [] ∧ (t.core k).b = false ∧
      (t.core k).a = 0 ∧ (t.core k).writes = [] ∧ (t.core k).scanAt = s.now ∧
      ∀ id e, Tab.find (s.core k).writes id = some e → s.forcedSig id = false →
        ¬(123648 ≤ id ∧ id < 123904) → (t.sig id).value = e.value ∧ (t.sig id).q = e.q) ∧
  (∀ (s u : State) (k : Nat), s.scanning k = true → (s.core k).overrun = false →
    u = s.advanceTo ((s.core k).scanAt + (s.coreCfg k).deadline * 10 * usClk) →
    exec (.scanOverrun k) s = .next (((u.setF F.LC_STAT_OVR k 1).incF F.LC_OVRCNT_OVR k).updCore k (fun c =>
      { c with overrun := true }))) ∧
  (∀ (s : State) (k : Nat), s.hasProgram k = true → s.getF F.LC_STAT_STATE k = 0 →
    (∃ t, exec (.coldRestart k) s = .next t ∧ t.getF F.LC_STAT_STATE k = 1 ∧ (t.core k).vars = [] ∧ (t.core k).ctrs = [] ∧
      (t.core k).timers = [] ∧ (t.core k).pc = 0) ∧
    (∃ t, exec (.warmRestart k) s = .next t ∧ t.getF F.LC_STAT_STATE k = 1 ∧
      (t.core k).vars = (s.core k).vars.filter (fun p => decide (p.1 < (s.coreCfg k).nv)) ∧ (t.core k).timers = [] ∧
      (t.core k).pc = 0)) ∧
  (∀ (s : State) (k : Nat), s.hasProgram k = true → s.getF F.LC_STAT_STATE k = 2 →
    exec (.warmRestart k) s = .next (s.updCore k (fun c => { c with pend := 1 })) ∧
    exec (.coldRestart k) s = .next (s.updCore k (fun c => { c with pend := 2 }))) ∧
  (∀ (s : State) (k : Nat), k < 4 → s.getF F.LC_STAT_STATE k = 2 →
    exec (.lcStop k) s = .next ((s.updCore k (fun c => { c with pend := 0, pendOn := false })).setF F.LC_STAT_STATE k 3))

/-- The bit stack at its ends (R218): a scan starts with an empty stack, B = 0 and A = 0, both good; a PUSH onto a full stack
is ignored, an ANDP or ORP on an empty one pops 0 with invalid quality, either sets LC_STAT.STK, and the scan goes on. -/
def Obligations.StackEndsSetStk : Prop :=
  (∀ (s : State) (k : Nat), s.scanning k = true → ∃ t, exec (.end_ k) s = .next t ∧
    (t.core k).stack = [] ∧ (t.core k).b = false ∧ (t.core k).bq = Quality.ok ∧ (t.core k).a = 0 ∧
    (t.core k).aq = Quality.ok ∧ (t.core k).pc = 0) ∧
  (∀ (s : State) (k : Nat) (warm : Bool) (c : CoreSt), c = (s.restartCore k warm).core k →
    c.stack = [] ∧ c.b = false ∧ c.bq = Quality.ok ∧ c.a = 0 ∧ c.aq = Quality.ok ∧ c.pc = 0) ∧
  (∀ (s : State) (k : Nat), s.scanning k = true →
    (8 ≤ (s.core k).stack.length → exec (.push k) s =
      .next ((s.setF F.LC_STAT_STK k 1).updCore k (fun c => { c with pc := c.pc + 1 }))) ∧
    ((s.core k).stack = [] →
      exec (.andp k) s = .next ((s.setF F.LC_STAT_STK k 1).updCore k (fun c =>
        { c with b := false, bq := Quality.bad.join c.bq, pc := c.pc + 1 })) ∧
      exec (.orp k) s = .next ((s.setF F.LC_STAT_STK k 1).updCore k (fun c =>
        { c with bq := Quality.bad.join c.bq, pc := c.pc + 1 }))))

/-- Engines (R364, R380 to R383): an accepted EVAC brings an engine to STOPPING, one that the conditions refuse sets EVREF,
a RETURN starts the self-test, whose end brings the engine ON or OFF with KATFAIL, a microcode load starts it again. -/
def Obligations.EngineCommandsComplete : Prop :=
  (∀ (s : State) (e : Nat), e < 192 → s.engState e = 2 → s.mayEvacuate e = true → s.held e ≠ [] →
    ∃ t, exec (.evac e) s = .next t ∧ t.engState e = 3 ∧ (t.engine e).evacFrom.isSome = true ∧ t.held e = s.held e) ∧
  (∀ (s : State) (e : Nat), e < 192 → s.engState e = 2 → s.mayEvacuate e = false →
    exec (.evac e) s = .next (s.setF F.PE_STAT_EVREF e 1)) ∧
  (∀ (s : State) (e : Nat), e < 192 → s.cfg.isSome = true → s.engState e = 0 →
    exec (.return_ e) s = .next ((s.setF F.PE_STAT_STATE e 1).updEngine e (fun g =>
      { g with testing := true, returnFrom := none }))) ∧
  (∀ (s u : State) (e : Nat), (s.engine e).testing = true → s.engState e = 1 →
    u = (s.updEngine e (fun g => { g with testing := false })).updEngine e (fun g =>
      { g with returnFrom := some (s.sec (e / 8)).nextDue }) →
    exec (.engineSelfTestComplete e true) s = .next (if (s.homeAway e).isEmpty then u.engineOn e else u)) ∧
  (∀ (s u : State) (e : Nat), (s.engine e).testing = true → s.engState e = 1 →
    u = ((((s.updEngine e (fun g => { g with testing := false })).setF F.PE_STAT_STATE e 0).setF F.PE_STAT_KATFAIL e
      1).setF F.PE_STAT_PENDOFF e 0) →
    exec (.engineSelfTestComplete e false) s = .next (u.event 0x0603 e 0xFFFF (.sec (e / 8))).failRollout) ∧
  (∀ (s : State) (e : Nat), s.engState e = 0 → (s.engine e).rollout = true →
    exec (.microcodeLoadComplete e) s = .next (((((s.setF F.PE_UCVER_VERSION e s.img.ucVersion).updEngine e (fun g =>
      { g with rollout := false })).setF F.PE_STAT_STATE e 1).updEngine e (fun g =>
      { g with testing := true, returnFrom := none })).syncUcmix)) ∧
  (∀ (s : State) (k : Nat), k < 24 → (s.sec k).nextDue ≠ 0 → s.switchEpoch k ((s.sec k).nextDue - 1) = false →
    exec (.feederMigration k) s = .next
      (((List.range 8).foldl (fun u r => u.migrate ((s.sec k).nextDue - 1) (8 * k + r)) s).rolloutNext k))

/-- Command frames at a tile (R231, R234, R242 to R246): a correct frame that passes the checks, of an accepted claim, becomes the
tile's command and is answered on its port; one that does not is discarded, with the frame error of its port where it is addressed to
the tile. Either leaves by the other port as it came. -/
def Obligations.CommandFramesActAtTheTile : Prop :=
  ∀ (s : State) (lane pos : Nat) (east : Bool) (l : TileChars) (f : DownFrame) (x y : TileSt),
    s.tileReached lane pos east = true → x = (s.tile lane pos).catchUp s.now → x.items = 0 → f = downRead l →
    (frameOk 32 l = true → x.valid east f = true →
      y = (x.updPort east (fun p => { p with claim := f.claim, seqRec := some f.seq, at_ := s.now })).arbitrate →
      y.accepted = some east →
      ∃ z : TileSt, z.cmd = f.cmd ∧ z.lastAcc = s.now ∧ z.sent.map (fun u => (u.1, u.2.type, u.2.eseq)) = some (east, 0x81, f.seq) ∧
        z.fwd = some (!east, l) ∧ (z.port east).claim = f.claim ∧ (z.port east).seqRec = some f.seq ∧
        (f.type = 1 → exec (.refreshFrame lane pos east l) s = .next (s.updTile lane pos (fun _ => z))) ∧
        (f.type = 2 → exec (.changeFrame lane pos east l) s = .next (s.updTile lane pos (fun _ => z))) ∧
        (f.type = 3 → exec (.tripFrame lane pos east l) s = .next (s.updTile lane pos (fun _ => z)))) ∧
    ((frameOk 32 l && x.valid east f) = false → x.addr = some f.addr →
      exec (.refreshFrame lane pos east l) s =
        .next (s.updTile lane pos (fun _ => (x.forward east l).updPort east (fun p => { p with ferr := true }))) ∧
      exec (.changeFrame lane pos east l) s =
        .next (s.updTile lane pos (fun _ => (x.forward east l).updPort east (fun p => { p with ferr := true }))) ∧
      exec (.tripFrame lane pos east l) s =
        .next (s.updTile lane pos (fun _ => (x.forward east l).updPort east (fun p => { p with ferr := true }))))

/-- Enumeration and configuration at a tile (R254, R255, R435): an unconfigured tile takes the address of its position and passes the
frame on with HOP one more, a write frame clears the port's SEQ record and stores its item, with the fourth of which the tile holds
them as its configuration, and a read frame is answered with the item's bytes. -/
def Obligations.TileConfigurationFramesAct : Prop :=
  ∀ (s : State) (lane pos : Nat) (east : Bool) (l : TileChars) (f : DownFrame) (x : TileSt), s.tileReached lane pos east = true →
    f = downRead l → frameOk 32 l = true → x = s.tile lane pos →
    (∀ (n : Nat) (m : TileChars), l = forwarded n m → f.type = 5 → x.configured = false → ∃ (z : TileSt) (u : UpFrame),
      z.addr = some (if east then f.item - 1 - f.hop else f.hop) ∧ z.fwd = some (!east, hopped l) ∧ z.sent = some (east, u) ∧
      u.type = 0x82 ∧ u.eseq = f.seq ∧ u.data = enumData x.serial x.ctag true Config.tileFirmwareRev ∧
      exec (.enumerateFrame lane pos east n m) s = .next (s.updTile lane pos (fun _ => z))) ∧
    (∀ n : Nat, f.type = 6 → x.addr = some f.addr → f.item < 4 → f.len = (if f.item < 3 then 12 else 2) →
      n = setBit x.items f.item true → ∃ z : TileSt, (z.port east).seqRec = none ∧
        z.sent.map (fun u => (u.1, u.2.type, u.2.eseq)) = some (east, 0x82, f.seq) ∧
        (n % 16 ≠ 15 → z.items = n ∧ z.conf = x.conf ∧ z.ctag = x.ctag ∧ z.configured = x.configured ∧
          (f.item < 3 → ∀ j, j < 12 → z.stage.getD (12 * f.item + j) 0 = f.data.getD j 0) ∧
          (f.item = 3 → z.stageTag = leNat (f.data.take 2))) ∧
        (n % 16 = 15 → z.items = 0 ∧ z.configured = true ∧ z.addr = some (z.byte 2) ∧
          (f.item < 3 → z.ctag = x.stageTag ∧ ∀ j, j < 12 → z.byte (12 * f.item + j) = f.data.getD j 0) ∧
          (f.item = 3 → z.conf = x.stage ∧ z.ctag = leNat (f.data.take 2))) ∧
        exec (.configurationWriteFrame lane pos east l) s = .next (s.updTile lane pos (fun _ => z))) ∧
    (f.type = 7 → x.addr = some f.addr → ∃ (z : TileSt) (u : UpFrame), z.sent = some (east, u) ∧ u.type = 0x82 ∧ u.eseq = f.seq ∧
      u.data = padTo 16 (x.item f.item) ∧ z.conf = x.conf ∧ z.stage = x.stage ∧
      exec (.configurationReadFrame lane pos east l) s = .next (s.updTile lane pos (fun _ => z)))

/-- Tile frames read back (R234 to R236, R435): what the device forms a tile reads and the reverse, with a correct CRC; a tile that passes
an enumerate frame on changes nothing in it but HOP. The source words of a configuration block read back too. -/
def Obligations.TileFramesReadBack : Prop :=
  (∀ f : DownFrame, f.type < 256 → f.addr < 256 → f.hop < 256 → f.claim < 65536 → f.seq < 65536 → f.cmd < 256 → f.ncmd < 256 →
    f.ctag < 65536 → f.flags < 256 → f.feeder < 2048 → f.item < 256 → f.len < 256 → f.data.length = 12 →
    (∀ b, b ∈ f.data → b < 256) → frameOk 32 (downChars f) = true ∧ downRead (downChars f) = f) ∧
  (∀ u : UpFrame, u.addr < 256 → u.stat < 256 → u.aclaim < 65536 → u.eseq < 65536 → u.inp < 65536 → u.wb < 65536 → u.rb < 256 →
    (u.type = 0x81 ∧ u.data = [] ∨ u.type = 0x82 ∧ u.data.length = 16) → (∀ b, b ∈ u.data → b < 256) →
    upOk (upChars u) = true ∧ upRead (upChars u) = u) ∧
  (∀ l : TileChars, frameOk 32 l = true → frameOk 32 (hopped l) = true ∧
    downRead (hopped l) = { downRead l with hop := ((downRead l).hop + 1) % 256 }) ∧
  (∀ b : SigBit, b.id < 131072 → b.bit < 32 → sourceOf (sourceWord (some b)) = some b ∧ sourceOf (sourceWord none) = none)

/-- The tile's own events (R231, R236, R243, R245, R247, R248, R251, R252, R254): ageing of a claim, the safe-state timeout,
the words of the crossing and their loss, overcurrent, debounce, power and the field supply. -/
def Obligations.TileEventsComplete : Prop :=
  ∀ (s : State) (lane pos : Nat) (x : TileSt), x = s.tile lane pos →
    (∀ east : Bool, x.powered = true → (x.port east).claim ≠ 0 → ∃ t, exec (.claimAgeOut lane pos east) s = .next t ∧
      t.now = max s.now ((x.port east).at_ + x.fourP + 1) ∧ ((t.tile lane pos).port east).claim = 0) ∧
    (x.powered = true → x.configured = true → x.safe = false → ∃ t, exec (.safeStateTimeout lane pos) s = .next t ∧
      t.now = max s.now (x.lastAcc + x.timeout) ∧ (t.tile lane pos).safe = true) ∧
    (∀ (toField : Bool) (w : Option FieldWord), x.powered = true → ∃ z : TileSt,
      (∀ v : FieldWord, w = some v → z.rb = v.volts % 256 ∧ z.xerr = false ∧ z.logicAt = s.now) ∧
      (toField = true → x.items = 0 → z.fieldSafe = false ∧ z.fcmd = z.want ∧ z.fpat = z.safePat ∧ z.fieldAt = s.now) ∧
      (toField = false → z.fcmd = x.fcmd ∧ z.fieldSafe = x.fieldSafe) ∧ (w = none → z.rb = x.rb ∧ z.xerr = x.xerr) ∧
      exec (.crossingWord lane pos toField w) s = .next (s.updTile lane pos (fun _ => z))) ∧
    (∀ logic : Bool, x.powered = true → ∃ t, exec (.crossingLoss lane pos logic) s = .next t ∧
      t.now = max s.now ((if logic then x.logicAt else x.fieldAt) + 4 * usClk) ∧ (logic = true → (t.tile lane pos).xerr = true) ∧
      (logic = false → (t.tile lane pos).fieldSafe = true)) ∧
    (∀ out : Nat, x.powered = true → out < 8 → bitOf (x.catchUp s.now).drive out = true →
      exec (.outputOvercurrent lane pos out) s = .next (s.updTile lane pos (fun _ => { (x.catchUp s.now) with
        outFault := (x.catchUp s.now).outFault ||| (x.catchUp s.now).groupOf out }))) ∧
    (∀ inp c t0 : Nat, inp < 16 → c ≤ 2 → x.powered = true → x.cand.getD inp none = some (c, t0) → x.isLight inp = false →
      ∃ t, exec (.inputDebounce lane pos inp) s = .next t ∧ t.now = max s.now (t0 + x.debounce inp) ∧
        (t.tile lane pos).reported inp = c ∧ (t.tile lane pos).cand.getD inp none = none) ∧
    (∀ serial : Nat, x.powered = false → exec (.tilePowerUp lane pos serial) s =
      .next (s.updTile lane pos (fun _ => { powered := true, serial := serial, fieldAt := s.now, logicAt := s.now }))) ∧
    exec (.tilePowerLoss lane pos) s = .next (s.updTile lane pos (fun _ => { serial := x.serial })) ∧
    (∀ low : Bool, x.powered = true → ∃ z : TileSt, z.fsup = low ∧ z.inp = x.inp ∧ z.cmd = x.cmd ∧
      exec (.fieldSupplyChange lane pos low) s = .next (s.updTile lane pos (fun _ => z)))

/-- The device's end of a tile lane (R236 to R241, R249, R253 to R256): the frames of a refresh period, the frame that leaves in the order
of R238, the up-frame that arrives, the steps of configuration, the loss of a tile, a readback mismatch, the end of a minimum on
time, enumeration and configuration on command. -/
def Obligations.TileLaneCommandsComplete : Prop :=
  (∀ (s w a b : State) (lane : Nat) (q : List Nat), s.refreshes lane = true →
    w = s.advanceTo (s.lane lane).periodEnd →
    a = (w.incF F.LN_TCCNT_DROP lane ((w.lane lane).refreshQ.filter (fun a => w.inRange lane a)).length).loseTiles lane →
    b = a.endPeriod lane → q = (List.range (b.chainN lane)).filter (fun a => b.inRange lane a) →
    ∃ t, exec (.refreshPeriod lane) s = .next t ∧ (t.lane lane).refreshQ = q ∧
      (t.lane lane).periodEnd = b.now + b.periodClk lane * (if b.isActive then 1 else 2)) ∧
  (∀ (s u : State) (lane : Nat), s.laneOn lane = true → s.tileLane lane = true →
    u = (s.trimRange lane).advanceTo (s.lane lane).txFree →
    (∀ g, (u.lane lane).gates.find? (fun g => g.open_) = some g → ∃ t f, exec (.laneFrameStart lane) s = .next t ∧
      t = ((u.updLane lane (fun l => { l with gates := l.gates.erase g })).syncGates (u.chainSec lane)).sendCmd lane 3
        g.addr g.bits (some (g.flags, g.ctag)) ∧ (t.lane lane).tx = some f ∧ f.type = 3 ∧ f.addr = g.addr ∧ f.flags = g.flags ∧
      f.ctag = g.ctag ∧ f.seq = ((u.devTile lane g.addr).seq + 1) % 65536 ∧ f.ncmd = 255 - f.cmd) ∧
    (∀ a q, (u.lane lane).gates.find? (fun g => g.open_) = none → (u.lane lane).changeQ = a :: q →
      ∃ t f, exec (.laneFrameStart lane) s = .next t ∧ t = (u.updLane lane (fun l => { l with changeQ := q })).sendCmd lane 2 a 0 none ∧
        (t.lane lane).tx = some f ∧ f.type = 2 ∧ f.addr = a ∧ f.cmd = u.tileCmd lane a ∧ f.claim = u.claimSent) ∧
    (∀ a q, (u.lane lane).gates.find? (fun g => g.open_) = none → (u.lane lane).changeQ = [] →
      (u.lane lane).refreshQ = a :: q →
      ∃ t f, exec (.laneFrameStart lane) s = .next t ∧ t = (u.updLane lane (fun l => { l with refreshQ := q })).sendCmd lane 1 a 0 none ∧
        (t.lane lane).tx = some f ∧ f.type = 1 ∧ f.addr = a ∧ f.cmd = u.tileCmd lane a ∧ f.claim = u.claimSent ∧
        (t.devTile lane a).waiting = some f.seq) ∧
    (∀ x q, (u.lane lane).gates.find? (fun g => g.open_) = none → (u.lane lane).changeQ = [] → (u.lane lane).refreshQ = [] →
      (u.lane lane).confQ = x :: q → ∃ t f, exec (.laneFrameStart lane) s = .next t ∧ (t.lane lane).confQ = q ∧
        (t.lane lane).tx = some f ∧ f.type = x.1 ∧ f.addr = (if x.1 = 5 then 0xFF else x.2.1) ∧
        t.regs = s.regs)) ∧
  (∀ (s : State) (lane pos : Nat) (l : TileChars) (u : UpFrame), s.tileLane lane = true → s.flag F.LN_STAT_UP lane = true →
    u = upRead l →
    (upOk l = true → u.type = 0x81 → u.addr < s.chainN lane → ∃ t, exec (.statusUpFrame lane pos l) s = .next t ∧
      (t.devTile lane u.addr).up = some u ∧ (t.devTile lane u.addr).upAt = s.now ∧ (t.devTile lane u.addr).answers = true ∧
      (s.inRange lane u.addr = true → (t.devTile lane u.addr).lost = false) ∧
      ((s.devTile lane u.addr).waiting = some u.eseq →
        (t.devTile lane u.addr).missRun = 0 ∧ (t.devTile lane u.addr).waiting = none)) ∧
    (upOk l = false → exec (.statusUpFrame lane pos l) s = .next (s.incF F.LN_TCCNT_DCRC lane))) ∧
  (∀ (s : State) (lane pos : Nat) (c : TileCfg), lane < 32 → s.tileCfg lane pos = some c → s.tileLane lane = true →
    (∀ l : TileChars, s.flag F.LN_STAT_UP lane = true → upOk l = true → (upRead l).type = 0x82 →
      (s.devTile lane pos).enumWait = false → (s.lane lane).confAt = some pos → (s.devTile lane pos).step < 4 →
      ∃ t, exec (.configurationResponse lane pos (some l)) s = .next t ∧
        (t.devTile lane pos).step = (s.devTile lane pos).step + 1 ∧ (t.devTile lane pos).up = some (upRead l)) ∧
    ((s.devTile lane pos).enumWait = true → ∃ t, exec (.configurationResponse lane pos none) s = .next t ∧
      t.flag F.LN_TCSTAT_ENUMERR lane = true ∧ (t.devTile lane pos).step = 9 ∧ (t.devTile lane pos).configured = false ∧
      (t.devTile lane pos).enumWait = false)) ∧
  (∀ (s : State) (lane pos : Nat), (s.devTile lane pos).losing = true → s.inRange lane pos = true →
    pos < s.chainN lane → ∃ t, exec (.tileLost lane pos) s = .next t ∧ (t.devTile lane pos).lost = true ∧
      (t.devTile lane pos).answers = false) ∧
  (∀ (s v : State) (lane pos t0 : Nat) (u : UpFrame) (c : TileCfg), (s.devTile lane pos).rbSince = some t0 →
    (s.devTile lane pos).rbSaid = false → (s.devTile lane pos).up = some u → s.tileCfg lane pos = some c →
    v = s.advanceTo (t0 + msClk) →
    exec (.readbackMismatch lane pos) s = .next (((v.updDevTile lane pos (fun d => { d with rbSaid := true })).setF
      F.LN_TCSTAT_RBMM lane 1).event 0x0801 c.feeder pos .none [(s.devTile lane pos).expected c u, u.rb % 256])) ∧
  (∀ (s v : State) (lane pos out : Nat) (p : Nat × Bool) (c : TileCfg), (s.devTile lane pos).rose.getD out none = some p →
    s.tileCfg lane pos = some c → v = s.advanceTo (p.1 + (c.outs.getD out {}).minOnMs * msClk) →
    exec (.minimumOnTimeExpiry lane pos out) s = .next (v.updDevTile lane pos (fun d => { d with
      rose := modAt d.rose out (fun _ => v.riseOf c (v.devTile lane pos) out) }))) ∧
  (∀ (s : State) (lane : Nat), s.tileLane lane = true → s.laneOn lane = true →
    ∃ t, exec (.enum lane) s = .next t ∧ (t.lane lane).confQ = [(5, 0xFF, 0)] ∧ (t.lane lane).enumerated = false ∧
      (∀ a, a < s.chainN lane → (t.devTile lane a).step = 0) ∧ t.regs = s.regs) ∧
  (∀ (s : State) (lane a : Nat), s.tileLane lane = true → s.laneOn lane = true → a = s.getF F.LN_TCSEL_ADDR lane →
    a < s.chainN lane → ∃ t, exec (.conf lane) s = .next t ∧ (t.devTile lane a).step = 0 ∧
      (t.devTile lane a).configured = false ∧ (t.devTile lane a).answers = true ∧ t.regs = s.regs)

/-- The lanes' service states (R260, R261, R363, R364): a start of a lane that is OFF enters STARTING with its generator off,
one in STOPPING is held, a stop of a lane that is ON enters STOPPING with its queues empty, and each ends at its time. -/
def Obligations.LaneServiceStatesComplete : Prop :=
  (∀ (s : State) (n : Nat), n < 32 → s.laneMode n ≠ 0 → s.laneState n = 0 → ∃ t, exec (.lnStart n) s = .next t ∧
    t.laneState n = 1 ∧ t.flag F.LN_PRBSCTRL_GEN n = false ∧ (t.lane n).startAt = s.now ∧ (t.lane n).pendOff = false) ∧
  (∀ (s : State) (n : Nat), s.laneMode n ≠ 0 → s.laneState n = 3 →
    exec (.lnStart n) s = .next (s.setF F.LN_STAT_PENDING n 1)) ∧
  (∀ (s : State) (n : Nat), s.laneMode n = 0 → exec (.lnStart n) s = .next s) ∧
  (∀ (s : State) (n : Nat), n < 32 → s.laneState n = 2 → s.tileLane n = false → ∃ t, exec (.lnStop n) s = .next t ∧
    t.laneState n = 3 ∧ (t.lane n).ethQ = [] ∧ (t.lane n).gates = [] ∧ (t.lane n).changeQ = [] ∧
    (t.lane n).refreshQ = [] ∧ (t.lane n).peerQ0 = [] ∧ (t.lane n).peerQ1 = [] ∧ (t.lane n).stopAt = max s.now (s.lane n).txFree) ∧
  (∀ (s : State) (n : Nat), s.laneState n = 1 →
    exec (.lnStop n) s = .next (s.updLane n (fun l => { l with pendOff := true }))) ∧
  (∀ (s : State) (n : Nat), s.laneState n = 1 → s.flag F.LN_STAT_UP n = false →
    exec (.laneStartTimeout n) s =
      .next (((s.advanceTo ((s.lane n).startAt + 1000 * msClk)).event 0x0901 n 0xFFFF .none [0]).enterOn n)) ∧
  (∀ (s : State) (n : Nat), n < 32 → s.laneState n = 3 → s.flag F.LN_STAT_PENDING n = false →
    ∃ t, exec (.laneStopComplete n) s = .next t ∧ t.laneState n = 0 ∧
      t.now = max s.now ((s.lane n).stopAt + blocks64 (s.laneMode n))) ∧
  (∀ (s : State) (n : Nat), n < 32 → s.laneState n = 3 → s.flag F.LN_STAT_PENDING n = true →
    ∃ t, exec (.laneStopComplete n) s = .next t ∧ t.laneState n = 1 ∧ t.flag F.LN_STAT_PENDING n = false)

/-- The receiver and the link (R262, R263, R265, R274): signal detect, lock and link state of a lane that is not OFF; a link
that goes down while the lane is ON counts and sets DOWNEVT; a retrain resets lock and link. -/
def Obligations.LinkCommandsComplete : Prop :=
  ∀ (s : State) (n : Nat), n < 32 → s.laneMode n ≠ 0 → s.laneState n ≠ 0 →
    exec (.signalDetectChange n true) s = .next (s.setF F.LN_STAT_SIGDET n 1) ∧
    (∃ t, exec (.signalDetectChange n false) s = .next t ∧ t.flag F.LN_STAT_SIGDET n = false ∧
      t.flag F.LN_STAT_LOCK n = false ∧ t.flag F.LN_STAT_UP n = false) ∧
    (∀ ppm : Int, -2000 ≤ ppm → ppm ≤ 2000 → s.flag F.LN_STAT_SIGDET n = true →
      (s.flag F.LN_STAT_LOCK n = false → exec (.cdrLock n ppm) s = .next (((s.setF F.LN_CDR_PPM n (unsext 16 ppm)).setF
        F.LN_STAT_LOCK n 1).updLane n (fun l => { l with lockAt := s.now, run := 0, win := [], rd := none }))) ∧
      (s.flag F.LN_STAT_LOCK n = true → exec (.cdrLock n ppm) s = .next (s.setF F.LN_CDR_PPM n (unsext 16 ppm)))) ∧
    (s.flag F.LN_STAT_LOCK n = true → ∃ t, exec (.cdrUnlock n) s = .next t ∧ t.flag F.LN_STAT_LOCK n = false ∧
      t.flag F.LN_STAT_UP n = false ∧ (s.flag F.LN_STAT_UP n = true → s.laneState n = 2 →
        t.flag F.LN_STAT_DOWNEVT n = true)) ∧
    (∀ l : List Nat, (s.blockOks n l).1 = List.replicate l.length true → s.flag F.LN_STAT_LOCK n = true → s.flag F.LN_PRBSCTRL_CEN n = false → s.flag F.LN_STAT_UP n = false →
      s.tileLane n = false → (s.lane n).pendOff = false → 64 ≤ l.length → ∃ t, exec (.linkUp { lane := n, blocks := l }) s = .next t ∧
        t.flag F.LN_STAT_UP n = true ∧ (t.lane n).everUp = true ∧ t.flag F.LN_STAT_RETRAINING n = false ∧
        t.laneState n = (if s.laneState n = 1 then 2 else s.laneState n) ∧
        t.now = max s.now (max ((s.lane n).lockAt + 256 * usClk) (s.lane n).downAt + blocks64 (s.laneMode n))) ∧
    (s.flag F.LN_STAT_UP n = true → s.flag F.LN_STAT_LOCK n = true → s.flag F.LN_PRBSCTRL_CEN n = false →
      (∀ l : List Nat, (s.blockOks n l).1 = List.replicate 16 false → ∃ t, exec (.linkDown { lane := n, blocks := l }) s = .next t ∧ t.flag F.LN_STAT_UP n = false ∧
        t.laneState n = s.laneState n ∧
        t.getF F.LN_LINKCNT_INVAL n = satAdd F.LN_LINKCNT_INVAL.width (s.getF F.LN_LINKCNT_INVAL n) 16 ∧
        (s.laneState n = 2 → t.flag F.LN_STAT_DOWNEVT n = true ∧
          t.getF F.LN_LINKCNT_DOWNS n = satAdd F.LN_LINKCNT_DOWNS.width (s.getF F.LN_LINKCNT_DOWNS n) 1)) ∧
      (s.laneMode n = 4 → s.laneState n = 2 → ∃ t, exec (.linkDown { lane := n, hiBer := true }) s = .next t ∧ t.flag F.LN_STAT_UP n = false ∧
        t.flag F.LN_STAT_DOWNEVT n = true ∧ t.getF F.LN_LINKCNT_INVAL n = s.getF F.LN_LINKCNT_INVAL n)) ∧
    (s.laneState n = 1 ∨ s.laneState n = 2 → ∃ t, exec (.retrain n) s = .next t ∧ t.flag F.LN_STAT_RETRAINING n = true ∧
      t.flag F.LN_STAT_LOCK n = false ∧ t.flag F.LN_STAT_UP n = false ∧ (t.lane n).retrainAt = s.now ∧
      t.getF F.LN_LINKCNT_DOWNS n = s.getF F.LN_LINKCNT_DOWNS n)

/-- The equaliser (R271 to R273): an update brings each parameter that is not forced to its desired value within its bounds
and holds the metric; bounds with MIN above MAX are not taken while the forced value is. -/
def Obligations.EqualiserCommandsComplete : Prop :=
  (∀ (s : State) (n : Nat) (d : List Int) (eye mse : Nat), n < 32 → s.receives n = true → ∃ t,
    exec (.adaptationUpdate n d eye mse) s = .next t ∧
    t.getF F.LN_EQMET_EYE n = eye % 2 ^ F.LN_EQMET_EYE.width ∧ t.getF F.LN_EQMET_MSE n = mse % 2 ^ F.LN_EQMET_MSE.width ∧
    (bitOf (s.getF F.LN_EQCTRL_FORCE n) 0 = false → t.getF F.LN_CTLE_VALUE n =
      unsext 8 (clampInt (s.getF F.LN_CTLE_MIN n) (s.getF F.LN_CTLE_MAX n) (d.getD 0 0)) % 2 ^ F.LN_CTLE_VALUE.width) ∧
    (bitOf (s.getF F.LN_EQCTRL_FORCE n) 0 = true → t.getF F.LN_CTLE_VALUE n =
      unsext 8 (clampInt (s.getF F.LN_CTLE_MIN n) (s.getF F.LN_CTLE_MAX n) (s.getF F.LN_CTLE_FVAL n)) %
        2 ^ F.LN_CTLE_VALUE.width)) ∧
  (∀ (s u : State) (n p : Nat) (w : Word), 0 < p → p < 6 →
    u = ((s.writeRw F.LN_DFE_FVAL n w.toNat (p - 1)).writeRw F.LN_DFE_MAX n w.toNat (p - 1)).writeRw F.LN_DFE_MIN n w.toNat
      (p - 1) → exec (.ctleDfeWrite n p w) s =
        .next (if u.eqMax n p < u.eqMin n p then s.writeRw F.LN_DFE_FVAL n w.toNat (p - 1) else u)) ∧
  (∀ (s u : State) (n : Nat) (w : Word),
    u = ((s.writeRw F.LN_CTLE_FVAL n w.toNat).writeRw F.LN_CTLE_MAX n w.toNat).writeRw F.LN_CTLE_MIN n w.toNat →
    exec (.ctleDfeWrite n 0 w) s =
      .next (if u.eqMax n 0 < u.eqMin n 0 then s.writeRw F.LN_CTLE_FVAL n w.toNat else u))

/-- Patterns and error injection (R276 to R278): the generator's bit is refused while the lane is not OFF, the checker locks
and loses its lock with LOSTEVT, a single injection runs at once where the transmitter sends and counts one. -/
def Obligations.PatternCommandsComplete : Prop :=
  (∀ (s : State) (n : Nat) (w : Word), n < 32 → s.laneState n = 0 → ∃ t, exec (.prbsctrlWrite n w) s = .next t ∧
    t.getF F.LN_PRBSCTRL_GEN n = w.toNat % 2 ∧ t.flag F.LN_STAT_REFUSED n = s.flag F.LN_STAT_REFUSED n) ∧
  (∀ (s : State) (n : Nat) (w : Word), n < 32 → s.laneState n ≠ 0 → bitOf w.toNat 0 = true → ∃ t,
    exec (.prbsctrlWrite n w) s = .next t ∧ t.flag F.LN_STAT_REFUSED n = true ∧
      t.getF F.LN_PRBSCTRL_GEN n = s.getF F.LN_PRBSCTRL_GEN n) ∧
  (∀ (s : State) (n : Nat), s.laneMode n ≠ 0 → s.flag F.LN_PRBSCTRL_CEN n = true → s.flag F.LN_PRBSSTAT_LOCKED n = false →
    n < 32 → (prbsTaps (s.getF F.LN_PRBSCTRL_CPOLY n)).1 ≤ (s.lane n).chk.fill → ∃ t,
    exec (.checkerLock { lane := n, bits := prbsBits (s.getF F.LN_PRBSCTRL_CPOLY n) (s.lane n).chk.reg 64 }) s = .next t ∧
      t.flag F.LN_PRBSSTAT_LOCKED n = true ∧ (t.lane n).prbsAt = s.now ∧
      t.getF F.LN_PRBSERR_ERRORS n = s.getF F.LN_PRBSERR_ERRORS n) ∧
  (∀ (s : State) (n : Nat), n < 32 → s.laneMode n ≠ 0 → s.flag F.LN_PRBSCTRL_CEN n = true → s.flag F.LN_PRBSSTAT_LOCKED n = true →
    (s.lane n).chk.win.all id = true → ∃ t, exec (.checkerLoss n
        ((prbsBits (s.getF F.LN_PRBSCTRL_CPOLY n) (s.lane n).chk.reg 32).map (fun b => !b))) s = .next t ∧
      t.flag F.LN_PRBSSTAT_LOCKED n = false ∧ t.flag F.LN_PRBSSTAT_LOSTEVT n = true ∧
      t.getF F.LN_PRBSERR_ERRORS n = satAdd F.LN_PRBSERR_ERRORS.width (s.getF F.LN_PRBSERR_ERRORS n) 32) ∧
  (∀ (s : State) (n : Nat) (w : Word), n < 32 → s.transmits n = true → (s.lane n).injAt = none →
    fieldOf w.toNat F.LN_INJ_KIND.lo F.LN_INJ_KIND.width = 1 → ∃ t, exec (.injWrite n w) s = .next t ∧
      t.getF F.LN_INJCNT_INJECTED n = satAdd F.LN_INJCNT_INJECTED.width (s.getF F.LN_INJCNT_INJECTED n) 1 ∧
      t.getF F.LN_INJ_KIND n = 0)

/-- Ethernet transmission (R288, R290, R291, R300): a held frame leaves at its target, or as soon as the frame before it ends
within 2 µs, else it is discarded and counted; the next frame without a condition leaves when the lane is free; a read of
LN_TSQHEAD removes the head and latches its stamp. -/
def Obligations.EthernetTransmissionCompletes : Prop :=
  (∀ (s : State) (lane : Nat) (f : EthFrame) (due start : Nat), s.firstHeld lane (fun f => f.timeTgt.isSome) = some f →
    due = s.heldDue f → start = max due (s.lane lane).txFree →
    (start ≤ due + 2 * usClk → exec (.timeLaunch lane) s =
      .next ((((s.updLane lane (fun l => { l with resv := false })).advanceTo start).emit lane f).incF F.LN_LAUNCH_SENT lane)) ∧
    (due + 2 * usClk < start → exec (.timeLaunch lane) s =
      .next ((((s.updLane lane (fun l => { l with resv := false })).advanceTo due).updLane lane (fun l =>
        { l with ethQ := l.ethQ.erase f })).incF F.LN_LAUNCH_LATE lane))) ∧
  (∀ (s : State) (lane : Nat) (f : EthFrame) (due start : Nat),
    s.firstHeld lane (fun f => f.timeTgt.isNone && f.angleTgt.isSome) = some f →
    due = s.heldDue f → start = max due (s.lane lane).txFree → s.launchTurn f = true →
    (start ≤ due + 2 * usClk → exec (.angleLaunch lane) s =
      .next ((((s.updLane lane (fun l => { l with resv := false })).advanceTo start).emit lane f).incF F.LN_LAUNCH_SENT lane)) ∧
    (due + 2 * usClk < start → exec (.angleLaunch lane) s =
      .next ((((s.updLane lane (fun l => { l with resv := false })).advanceTo due).updLane lane (fun l =>
        { l with ethQ := l.ethQ.erase f })).incF F.LN_LAUNCH_LATE lane))) ∧
  (∀ (s : State) (lane : Nat) (f : EthFrame), s.firstHeld lane (fun _ => true) = some f →
    exec (.reservationWindow lane) s = .next ((s.advanceTo (s.heldDue f - windowClk (s.is10g lane))).updLane lane
      (fun l => { l with resv := true }))) ∧
  (∀ (s u : State) (lane : Nat) (f : EthFrame), u = s.takeStamps lane → u.firstHeld lane (fun f => decide (u.heldDue f ≤ u.now)) = none →
    (u.lane lane).nextEth = some f → (u.lane lane).resv = false →
    (∀ h, u.firstHeld lane (fun _ => true) = some h →
      max u.now (u.lane lane).txFree + windowClk (u.is10g lane) < u.heldDue h) →
    exec (.ethernetTransmit lane) s = .next ((u.advanceTo (max u.now (u.lane lane).txFree)).emit lane f)) ∧
  (∀ (s u : State) (lane : Nat) (f h : EthFrame), u = s.takeStamps lane → u.firstHeld lane (fun f => decide (u.heldDue f ≤ u.now)) = none →
    (u.lane lane).nextEth = some f → (u.lane lane).resv = true → u.firstHeld lane (fun _ => true) = some h →
    u.heldDue h < max u.now (u.lane lane).txFree + frameClk (u.is10g lane) f.len →
    exec (.ethernetTransmit lane) s = .next u) ∧
  (∀ (s : State) (lane id ns : Nat) (r : List (Nat × Nat)), (s.lane lane).tsq = (id, ns) :: r →
    exec (.tsqheadRead lane) s = .next (((s.updLane lane (fun l => { l with tsq := r })).setF F.LN_TSQNS_NS lane ns).setF
      F.LN_TSQSTAT_FILL lane r.length))

/-- GOOSE (R286, R287): a repetition carries the next sqNum and doubles the interval up to Tmax; an accepted message counts,
notes its numbers and the end of its time allowed to live, and writes its members; one that fails a check counts as
discarded and as a violation; an expiry leaves the mapped signals invalid with their values. -/
def Obligations.GooseCommandsComplete : Prop :=
  (∀ (s u : State) (i t0 n : Nat) (p : GoPub) (x y : PubSt), Tab.find s.img.goPubs i = some p → x = Tab.get s.pubs {} i →
    x.nextAt = some t0 → s.publishes p = true → n = min (2 * x.interval) p.tmax → u = s.advanceTo t0 →
    y = { x with sqNum := goNext x.sqNum, interval := n, nextAt := some (u.now + n * msClk), ttl := 2 * n, test := s.forcing } →
    exec (.gooseRepetition i) s = .next (({ u with pubs := Tab.set s.pubs i y } : State).sendGoose i p y none none)) ∧
  (∀ (s u : State) (lane i n : Nat) (g : GooseMsg) (c : GoSub), s.ethRx lane = true → 64 ≤ g.snd.len → g.snd.len ≤ 1522 →
    s.img.goSubOf lane g = some (i, c) → (s.captureRx lane).judgePinned lane 1 i c.srcMac g.snd = (some n, u) →
    (c.passes g = true → (Tab.get u.subs {} i).stale g.stNum g.sqNum = false → ∃ t,
      exec (.gooseMessage lane g) s = .next t ∧ t = (u.bumpF F.LN_GORX_ACC lane).acceptGoose i c g ∧
      Tab.get t.subs {} i = { last := some (g.stNum, g.sqNum), expireAt := s.now + g.ttlMs * msClk, expired := false }) ∧
    (c.passes g = false → exec (.gooseMessage lane g) s = .next ((u.violation n lane 2).goDiscard lane))) ∧
  (∀ (s : State) (i st sq : Nat) (c : GoSub), Tab.find s.img.goSubs i = some c →
    (Tab.get s.subs {} i).last = some (st, sq) → (Tab.get s.subs {} i).expired = false →
    ∃ t, exec (.timeAllowedToLiveExpiry i) s = .next t ∧ (Tab.get t.subs {} i).expired = true ∧
      t.now = max s.now (Tab.get s.subs {} i).expireAt ∧
      (∀ m, m ∈ c.map → m.2 < 123648 ∨ 123904 ≤ m.2 → (t.sigBelow m.2).q.validity = Validity.invalid ∧
        (t.sigBelow m.2).value = (s.sigBelow m.2).value))

/-- PTP (R299, R300, R301): a message of an admitted clock updates the port (the time base with the master's Sync or
Follow_Up, the link delay with a completed exchange, the master with the best Announce), a Pdelay_Req is answered with a
stamped Pdelay_Resp, the messages of a port pair are forwarded and counted, a Follow_Up with the sum held for its Sync or, without
one, not at all; three intervals without an Announce end a master; a master port announces itself and sends Sync. -/
def Obligations.PtpCommandsComplete : Prop :=
  (∀ (s u v : State) (lane n : Nat) (m : PtpMsg), s.judgePtp lane 2 m = (some n, u) →
    v = (if u.fromMaster lane m = false then u else if m.twoStep then u.updPtp lane (fun p => { p with syncSeq := some m.seqId })
      else u.ptpUpdate lane m) →
    ((v.img.lane lane).pairLane = none → exec (.sync lane m) s = .next v) ∧
    (∀ o, (v.img.lane lane).pairLane = some o → m.twoStep = false →
      exec (.sync lane m) s = .next ((v.bumpF F.LN_PTPFWD_FWD lane).queueEth o
        { cls := 1, oneStep := true, corr := m.correction, resid := some (lane, m.seqId, m.source, v.rxStamp lane) })) ∧
    (∀ o, (v.img.lane lane).pairLane = some o → m.twoStep = true → (v.heldSums lane).length < 8 →
      exec (.sync lane m) s = .next (((v.updPtp lane (fun p =>
        { p with held := v.heldSums lane ++ [(m.seqId, m.source, p.linkDelay, v.now)] })).bumpF F.LN_PTPFWD_FWD lane).queueEth o
          { cls := 1, corr := m.correction, resid := some (lane, m.seqId, m.source, v.rxStamp lane) }))) ∧
  (∀ (s u v : State) (lane n : Nat) (m : PtpMsg), s.judgePtp lane 2 m = (some n, u) →
    v = (if u.fromMaster lane m && (u.lane lane).ptp.syncSeq == some m.seqId
      then (u.updPtp lane (fun p => { p with syncSeq := none })).ptpUpdate lane m else u) →
    ((v.img.lane lane).pairLane = none → exec (.followUp lane m) s = .next v) ∧
    (∀ (o : Nat) (w : State) (h : Option (Nat × Nat × Int × Nat)), (v.img.lane lane).pairLane = some o →
      h = (v.heldSums lane).find? (fun h => h.1 == m.seqId && h.2.1 == m.source) →
      w = v.updPtp lane (fun p =>
        { p with held := (v.heldSums lane).filter (fun h => !(h.1 == m.seqId && h.2.1 == m.source)) }) →
      (h = none → exec (.followUp lane m) s = .next (w.incF F.LN_PTPFWD_NOMATCH lane)) ∧
      (∀ x, h = some x → exec (.followUp lane m) s = .next ((w.bumpF F.LN_PTPFWD_FWD lane).queueEth o
        { cls := 1, corr := m.correction + x.2.2.1, await := w.syncWaits lane m })))) ∧
  (∀ (s u : State) (lane n : Nat) (m : PtpMsg), s.judgePtp lane 3 m = (some n, u) →
    exec (.pdelayReq lane m) s = .next (u.originate lane true) ∧
    ((u.lane lane).ptp.pdelayAsked = true → exec (.pdelayResp lane m) s = .next (u.updPtp lane (fun p =>
      { p with pdelayAsked := false, pdelaySeq := some m.seqId }))) ∧
    (∀ d : Nat, (u.lane lane).ptp.pdelaySeq = some m.seqId → ∃ t, exec (.pdelayRespFollowUp lane m d) s = .next t ∧
      (t.lane lane).ptp.linkDelay = (d : Int) ∧ (t.lane lane).ptp.pdelaySeq = none ∧ t.regs = u.regs)) ∧
  (∀ (s u : State) (lane n : Nat) (m : PtpMsg), s.judgePtp lane 2 m = (some n, u) → u.fromMaster lane m = false → ∃ t,
    exec (.announce lane m true) s = .next t ∧ (t.lane lane).ptp.master = some m.source ∧
    (∀ k, k < 32 → k ≠ lane → u.portTb k = u.portTb lane → (t.lane k).ptp.master = none)) ∧
  (∀ (s u : State) (lane n : Nat) (m : PtpMsg) (best : Bool), s.judgePtp lane 2 m = (some n, u) →
    (u.img.lane lane).pairLane = none →
    (u.fromMaster lane m = true → exec (.announce lane m best) s = .next (u.updPtp lane (fun p => { p with announceAt := u.now }))) ∧
    (u.fromMaster lane m = false → exec (.announce lane m false) s = .next u)) ∧
  (∀ (s : State) (lane src : Nat), (s.lane lane).ptp.master = some src → ∃ t,
    exec (.announceReceiptTimeout lane) s = .next t ∧ (t.lane lane).ptp.master = none ∧
    t.now = max s.now ((s.lane lane).ptp.announceAt + 3000 * msClk)) ∧
  (∀ (s u : State) (lane n o : Nat) (m : PtpMsg), s.judgePtp lane 2 m = (some n, u) →
    (u.img.lane lane).pairLane = some o →
    exec (.signaling lane m) s = .next ((u.bumpF F.LN_PTPFWD_FWD lane).queueEth o { cls := 1 }) ∧
    exec (.ptpManagement lane m) s = .next ((u.bumpF F.LN_PTPFWD_FWD lane).queueEth o { cls := 1 })) ∧
  (∀ (s : State) (lane tb src : Nat), s.portTb lane = some tb → s.laneOn lane = true → (s.lane lane).ptp.master = some src →
    exec (.ptpMessageInterval lane) s = .next (((s.advanceTo (s.lane lane).ptp.nextAt).updPtp lane (fun p => { p with
      nextAt := max s.now (s.lane lane).ptp.nextAt + 1000 * msClk, pdelayAsked := true, pdelaySeq := none })).originate
        lane false)) ∧
  (∀ (s u : State) (lane tb : Nat), s.portTb lane = some tb → s.laneOn lane = true → (s.lane lane).ptp.master = none →
    (s.lane lane).ptp.listening = false → (s.img.tb tb).slaveOnly = false →
    u = (s.advanceTo (s.lane lane).ptp.nextAt).updPtp lane (fun p => { p with
      nextAt := max s.now (s.lane lane).ptp.nextAt + 1000 * msClk, pdelayAsked := true, pdelaySeq := none }) →
    exec (.ptpMessageInterval lane) s = .next (((u.originate lane false).queueEth lane
      { cls := 1, prio := some ((s.img.tb tb).prio1, (s.img.tb tb).prio2) }).originate lane true))

/-- Partner entries and stray frames (R266, R386, R389, R390): a frame of a known partner that its caps allow is admitted and takes its
tokens; 60 s without an admitted frame free a dynamic entry with nothing
outstanding; a frame of no kind counts in PT_UNADM.OTHER, one that a lane check discards in LN_FRMCNT. -/
def Obligations.PartnerCommandsComplete : Prop :=
  (∀ (s : State) (n : Nat) (p : Partner), Tab.find s.partners n = some p → p.pinned = false → s.outstanding n = [] →
    exec (.dynamicEntryExpiry n) s = .next ((s.advanceTo (p.lastAt + 60000 * msClk)).freePartner n)) ∧
  (∀ (s : State) (n : Nat) (p : Partner), Tab.find s.partners n = some p → p.pinned = true →
    exec (.dynamicEntryExpiry n) s = .next s) ∧
  (∀ (s : State) (lane len : Nat), s.ethRx lane = true →
    (64 ≤ len → len ≤ 1522 → exec (.frameOfNoKind lane false len) s = .next ((s.captureRx lane).incF F.PT_UNADM_OTHER)) ∧
    exec (.frameOfNoKind lane true len) s = .next ((s.captureRx lane).incF F.LN_FRMCNT_RXDISC lane)) ∧
  (∀ (s : State) (lane kind key id n : Nat) (p : Partner) (x : Sender), s.findPartner kind lane key = some n →
    p = (s.partner n).refill s.now → 1 ≤ p.ftok → (x.len : Rat) ≤ p.btok →
    (∀ src : Option Nat, (∀ m, src = some m → m = x.mac) → ∃ u, s.judgePinned lane kind key src x = (some n, u) ∧
      (u.partner n).ftok = p.ftok - 1 ∧ (u.partner n).btok = p.btok - x.len ∧ (u.partner n).lastAt = s.now ∧ u.regs = s.regs) ∧
    (∀ a b : Nat, (s.img.admits (kind == 4) lane id).isSome = true → ∃ u, s.judgeDynamic lane kind id key a b x = (some n, u) ∧
      (u.partner n).ftok = p.ftok - 1 ∧ (u.partner n).btok = p.btok - x.len ∧ (u.partner n).lastAt = s.now ∧ u.regs = s.regs))

/-- The time bases (R292 to R298): the step is the first correction after enabling; enabling and disabling; holdover;
the PPS edges; the base pairs. Writes of TB_STEP, TB_RATE and TB_PPSAT through the port act while the source is none, a second step is
refused with STEPREF; with a source each is ignored and sets WREF. -/
def Obligations.TimeBaseCommandsComplete : Prop :=
  (∀ (s : State) (k : Nat), k < 4 →
    (∀ u : State, s.flag F.TB_STAT_EN k = true → s.flag F.TB_STAT_STEPPED k = false → (s.tb k).lastUpd.isSome = true →
      u = s.advanceTo (max (s.tb k).enabledAt (s.tb k).unlockedAt + 10 * msClk) → ∃ t,
      exec (.timeBaseStep k) s = .next t ∧ t.flag F.TB_STAT_STEPPED k = true ∧
      t.tbNs k = unsext 32 (u.tbNs k + sext 32 (s.getF F.TB_OFFSET_OFFSET k)) ∧
      t.now = max s.now (max (s.tb k).enabledAt (s.tb k).unlockedAt + 10 * msClk)) ∧
    (∀ u : State, s.flag F.TB_STAT_EN k = false → u = (((s.setF F.TB_STAT_EN k 1).setF F.TB_STAT_STEPPED k 0).updTb k
        (fun x => { x with enabledAt := s.now, lastUpd := none, okRun := 0, badRun := 0 })) →
      (s.getF F.TB_CFG_SRC k = 0 → exec (.enable k) s = .next u) ∧
      (s.getF F.TB_CFG_SRC k ≠ 0 → exec (.enable k) s = .next (u.setF F.TB_PPSAT_AT k (u.nextSecond k)))) ∧
    (∃ t, exec (.disable k) s = .next t ∧ t.flag F.TB_STAT_EN k = false ∧ t.flag F.TB_STAT_LOCK k = false ∧
      t.getF F.TB_RATE_RATE k = s.getF F.TB_RATE_RATE k) ∧
    (∀ t0 : Nat, s.flag F.TB_STAT_LOCK k = true → (s.tb k).lastUpd = some t0 →
      (∃ t, exec (.holdoverExpiry k) s = .next t ∧ t.flag F.TB_STAT_LOCK k = false ∧ t.flag F.TB_STAT_LOCKEVT k = true ∧
        t.flag F.TB_STAT_HOLDOVER k = false ∧ t.now = max s.now (t0 + s.getF F.TB_CFG_HOLD k * 1000 * msClk)) ∧
      exec (.holdoverFlag k) s = .next ((s.advanceTo (t0 + 2000 * msClk)).setF F.TB_STAT_HOLDOVER k 1)) ∧
    (∀ (rising : Bool) (o : Int), rising ≠ s.flag F.TB_CFG_PPSPOL k → s.getF F.TB_CFG_SRC k ≠ 2 →
      exec (.ppsInputEdge k rising o) s =
        .next ((s.setF F.TB_PPSCAP_CAP k (s.tbNs k)).setF F.TB_STAT_PPSEVT k 1)) ∧
    (∀ t0 : Nat, s.tbDue k (s.getF F.TB_PPSAT_AT k) = some t0 → s.getF F.TB_CFG_PPSOUT k = 1 → ∃ t,
      exec (.ppsOutputRise k) s = .next t ∧ (t.tb k).ppsHigh = some (max s.now t0) ∧ bitOf t.pins.ppsOut k = true ∧
      t.now = max s.now t0) ∧
    (∀ t0 : Nat, (s.tb k).ppsHigh = some t0 → ∃ t, exec (.ppsOutputFall k) s = .next t ∧ (t.tb k).ppsHigh = none ∧
      bitOf t.pins.ppsOut k = false ∧ t.now = max s.now (t0 + 100 * msClk) ∧ t.regs = s.regs) ∧
    (∀ secs ns : Nat, s.flag F.TB_STAT_LOCK k = true → k ≠ 0 → ∃ t, exec (.basePairWrite k secs ns) s = .next t ∧
      t.flag F.TB_STAT_BASE k = true ∧ (t.tb k).baseS = secs ∧ (t.tb k).baseNs = ns ∧
      t.getF F.TB_BASENS_BASENS k % 2 ^ 30 = ns % 2 ^ 30) ∧
    exec (.basensRead k) s = .next (((s.setF F.TB_BASESECL_SECL k (s.tb k).baseS).setF F.TB_BASESECH_SECH k
      ((s.tb k).baseS / 2 ^ 32)).setF F.TB_BASESECH_NSHI k ((s.tb k).baseNs / 2 ^ 30))) ∧
  (∀ (s : State) (k : Nat) (w : Word), k < 4 →
    (s.getF F.TB_CFG_SRC k ≠ 0 →
      exec (.tbStepWrite k w) s = .next (s.setF F.TB_STAT_WREF k 1) ∧
      exec (.tbRateWrite k w) s = .next (s.setF F.TB_STAT_WREF k 1) ∧
      exec (.tbPpsatWrite k w) s = .next (s.setF F.TB_STAT_WREF k 1) ∧
      exec (.registerWrite (0x60010 + 0x100 * k) w) s = .next (s.setF F.TB_STAT_WREF k 1)) ∧
    (s.getF F.TB_CFG_SRC k = 0 →
      (s.flag F.TB_STAT_STEPPED k = true → exec (.tbStepWrite k w) s = .next (s.setF F.TB_STAT_STEPREF k 1)) ∧
      (s.flag F.TB_STAT_STEPPED k = false → exec (.tbStepWrite k w) s = .next ((s.updTb k (fun x =>
        { x with step := x.step + s.stepBy k (sext 32 w.toNat), okRun := 0, badRun := 0 })).setF F.TB_STAT_STEPPED k 1)) ∧
      exec (.tbRateWrite k w) s = .next ((s.updTb k (fun x => { x with acc := s.tbAcc k s.now, t0 := s.now })).setF
        F.TB_RATE_RATE k w.toNat) ∧
      exec (.tbPpsatWrite k w) s = .next (s.setF F.TB_PPSAT_AT k w.toNat)))

/-- Records of the partner (R307, R312, R314, R317, R318): a digest is kept with its section's and compared, a result of the
self-test is noted, a feed frame writes the inputs and their epoch, a claim on a chain is noted with PSEEN. -/
def Obligations.PartnerRecordsAct : Prop :=
  (∀ (s u : State) (x : PeerRx) (g : PeerFrame) (r : PeerRec), s.peerArrives x = ([g], u) → g.chan = 0 → g.payload.length = 32 →
    r = peerRecRead g →
    (∀ v w : State, r.type = 1 → u.takeRec r = some v →
      w = v.updPair (fun p => { p with peer := Tab.set p.peer r.section_ ((r :: Tab.get p.peer [] r.section_).take 16) }) →
      (∀ e, w.ownEpoch r.section_ r.epoch = some e → exec (.digest x) s = .next (w.compare r.section_ e)) ∧
      (w.ownEpoch r.section_ r.epoch = none → exec (.digest x) s = .next w)) ∧
    (r.type = 1 → u.takeRec r = none → exec (.digest x) s = .next (u.dropRec r)) ∧
    (∀ v : State, r.type = 3 → u.takeRec r = some v → v.pair.contest.isSome = true →
      exec (.contestResult x) s = .next (v.setF F.PR_CONTEST_PRES 0 (r.data % 256 % 3)))) ∧
  (∀ (s u : State) (x : PeerRx) (g : PeerFrame) (k epoch lane e : Nat) (tiles : List FeedTile) (c : ChainCfg),
    s.peerArrives x = ([g], u) → feedRead g = some (k, epoch, tiles) → u.img.chainOf k = some (lane, c) →
    u.ownEpoch k epoch = some e → u.paired = true → u.isActive = false →
    ∃ t, exec (.standbyDataFeed x.lane x.before x.blocks) s = .next t ∧ Tab.find t.pair.feed k = some (e, u.now)) ∧
  (∀ (s : State) (lane : Nat) (c : ChainCfg) (l : TileChars) (f : DownFrame), (lane, c) ∈ s.img.chains → s.paired = true →
    s.tileLane lane = true → s.flag F.LN_STAT_UP lane = true → frameOk 32 l = true → f = downRead l →
    f.type ∈ [1, 2, 3, 5, 6, 7] → bitOf f.flags 0 ≠ s.sideB →
    ∃ t, exec (.partnerDownFrame lane l) s = .next t ∧ (t.lane lane).partnerAt = some s.now ∧
      (t.lane lane).seen = true ∧ (t.lane lane).partnerClaim = f.claim ∧
      t.getF F.PR_PCLAIM_PCLAIM = f.claim % 2 ^ F.PR_PCLAIM_PCLAIM.width ∧ t.flag F.PR_PCLAIM_PSEEN = true)

/-- The peer variant reads back (R267, R268, R312, R314): blocks descrambled from the state that scrambled them are the blocks, the
blocks of a frame give the frame with nothing discarded, a record and a feed frame read as they were formed; so a frame sent whole
on a link that is up arrives as it is. -/
def Obligations.PeerFramesReadBack : Prop :=
  (∀ (st : Nat) (l : List PlainBlock), (∀ b, b ∈ l → b.2.length = 8 ∧ ∀ x, x ∈ b.2 → x < 256) →
    descrambleAll st (scrambleAll st l) = l) ∧
  (∀ (f : PeerFrame) (n : Nat), f.chan < 2 → f.seq < 65536 → n < 256 → f.payload.length = 8 * n → (∀ x, x ∈ f.payload → x < 256) →
    (({} : PeerGot).run (peerBlocks f)).frames = [f] ∧ (({} : PeerGot).run (peerBlocks f)).asm = none ∧
    (({} : PeerGot).run (peerBlocks f)).disc = 0 ∧ (({} : PeerGot).run (peerBlocks f)).inval = 0 ∧
    ∀ (s : State) (lane st : Nat), s.receives lane = true → s.laneMode lane = 2 → s.flag F.LN_STAT_UP lane = true →
      s.flag F.LN_STAT_LOCK lane = true → s.flag F.LN_PRBSCTRL_CEN lane = false → (s.lane lane).peerAsm = none →
      (∀ b, b ∈ (s.lane lane).win → b = true) → ∃ u,
        s.peerArrives { lane := lane, before := st, blocks := scrambleAll st (peerBlocks f) } = ([f], u) ∧
        u.pair = s.pair ∧ u.cfg = s.cfg ∧ u.sigs = s.sigs ∧ u.now = s.now) ∧
  (∀ r : PeerRec, r.type < 256 → r.section_ < 256 → r.seq < 65536 → r.epoch < 2 ^ 32 → r.stamp < 2 ^ 32 → r.data < 2 ^ 32 →
    r.cver < 2 ^ 32 → r.pairId < 65536 → r.claim < 65536 → r.g < 65536 → (peerRecBytes r).length = 32 ∧
    peerRecRead { chan := 0, seq := r.seq, payload := peerRecBytes r } = r) ∧
  (∀ (k e q : Nat) (l : List FeedTile), e < 2 ^ 32 → l.length < 256 →
    (∀ t, t ∈ l → t.inp < 65536 ∧ t.wb < 65536 ∧ t.rb < 256 ∧ t.stat < 256 ∧ t.q < 256) →
    feedRead { chan := 1, seq := q, payload := feedBytes k e l } = some (k, e, l))

/-- Roles and ring-break service (R308, R309, R311, R312, R323): a side that has heard an active partner becomes standby, one
that has not becomes active with G = 1, side B after a longer listening; a yield after four periods with a claim at or above
its own; service of a broken ring begins and ends; inputs without a feed are invalid. -/
def Obligations.RolesAndRingServiceComplete : Prop :=
  (∀ (s : State) (t0 g : Nat), (∀ p, p ∈ s.img.chains → p.1 < 32) → s.pair.listenAt = some t0 → s.pair.sawActive = some g →
    ∃ t, exec .roleListenExpiry s = .next t ∧ t.isActive = false ∧ t.pair.listenAt = none ∧
      t.gen = g % 2 ^ F.PR_CLAIM_G.width ∧ t.flag F.PR_STAT_ROLEEVT = true) ∧
  (∀ (s : State) (t0 : Nat), s.pair.listenAt = some t0 → s.pair.sawActive = none → s.sideB = true →
    s.pair.longListen = false → exec .roleListenExpiry s =
      .next ((s.advanceTo (t0 + 10 * msClk)).updPair (fun p => { p with longListen := true }))) ∧
  (∀ (s : State) (t0 : Nat), (∀ p, p ∈ s.img.chains → p.1 < 32) → s.pair.listenAt = some t0 → s.pair.sawActive = none →
    (s.sideB = false ∨ s.pair.longListen = true) → ∃ t, exec .roleListenExpiry s = .next t ∧ t.isActive = s.mayLead ∧
      t.gen = 1 ∧ t.pair.listenAt = none) ∧
  (∀ (s : State) (lane : Nat), s.paired = true → s.isActive = true → 4 ≤ (s.lane lane).highRun →
    exec (.roleYield lane) s = .next ((s.updLane lane (fun l => { l with highRun := 0 })).takeRole false s.gen 1)) ∧
  (∀ (s : State) (lane : Nat), s.paired = true → s.isActive = false → s.mayLead = true → s.pair.listenAt = none →
    s.getF F.DEV_STAT_STATE = 3 → (Tab.find s.img.chains lane).isSome = true → (s.lane lane).ringSvc = false →
    ∃ t, exec (.ringBreakService lane) s = .next t ∧ (t.lane lane).ringSvc = true ∧ t.flag F.PR_STAT_RINGSVC = true) ∧
  (∀ (s : State) (lane : Nat), (s.lane lane).ringSvc = true → 8 ≤ (s.lane lane).seenRun →
    exec (.ringServiceEnd lane) s = .next ((s.updLane lane (fun l => { l with ringSvc := false })).syncRing)) ∧
  (∀ (s : State) (k lane : Nat) (c : ChainCfg), s.img.chainOf k = some (lane, c) → Tab.find s.pair.feed k = none →
    s.paired = true → s.isActive = false → (s.sec k).nextDue ≠ 0 → ∃ t, exec (.standbyFeedMissing k) s = .next t ∧
    ∀ x, x ∈ c.tiles → x.feeder < 1536 → ∀ n, n < 16 → t.sigBelow (inSig x.feeder n) = Entry.mk' 0 Quality.bad) ∧
  (∀ s : State, s.paired = true → ∃ t, exec .pairOkLow s = .next t ∧ t.pins.pairOkIn = false ∧
    t.flag F.PR_STAT_PAIROKIN = false) ∧
  (∀ s : State, exec .clrfail s = .next ((s.setF F.PR_STAT_FAILED 0 0).syncRole)) ∧
  (∀ s : State, s.pins.demoteIn = true →
    exec .clrdemote s = .next (((s.setF F.PR_STAT_DEMOTED 0 0).setF F.PR_STAT_DEMHELD 0 0).syncRole)) ∧
  (∀ s : State, s.pins.demoteIn = false → exec .clrdemote s = .next s)

/-- Contests (R318, R319): the own result is noted and sent; the outcome closes the contest; a side that fails where
its partner passes is FAILED with claim 0, a standby that passes where its partner does not becomes active; a side whose firmware has
stalled carries out nothing of it. -/
def Obligations.ContestsCloseWithTheirOutcome : Prop :=
  (∀ (s : State) (c : Contest) (failed res : Nat), s.pair.contest = some c → res = (if failed &&& c.ranks = 0 then 1 else 2) →
    exec (.selfTestComplete failed) s = .next (((s.updPair (fun p => { p with contest := some { c with failed := failed &&& c.ranks } })).setF
      F.PR_CONTEST_RES 0 res).sendRec 3 c.sec c.c res)) ∧
  (∀ (s : State) (c : Contest), (∀ p, p ∈ s.img.chains → p.1 < 32) → s.pair.contest = some c →
    ∃ t, exec .contestOutcome s = .next t ∧ t.pair.contest = none ∧ t.flag F.PR_STAT_CONTEST = false ∧
    (s.pair.stalled = true → t.isActive = s.isActive ∧ t.gen = s.gen ∧ t.flag F.PR_STAT_FAILED = s.flag F.PR_STAT_FAILED) ∧
    (s.pair.stalled = false → s.getF F.PR_CONTEST_RES ≠ 1 → s.getF F.PR_CONTEST_PRES = 1 →
      t.flag F.PR_STAT_FAILED = true ∧ t.isActive = false ∧ t.getF F.PR_CLAIM_CLAIM = 0) ∧
    (s.pair.stalled = false → s.isActive = false → s.getF F.PR_CONTEST_RES = 1 → s.getF F.PR_CONTEST_PRES ≠ 1 →
      t.isActive = true ∧ t.gen = nextGen s.gen ∧ t.flag F.PR_STAT_TAKEEVT = true) ∧
    (s.getF F.PR_CONTEST_RES = 1 → s.getF F.PR_CONTEST_PRES = 1 → t.isActive = s.isActive ∧ t.gen = s.gen))

/-- Demotion (R320 to R322): the side that took over pulls DEMOTE_OUT# where its partner still claims, for 10 µs; a fall of
DEMOTE_IN# sets DEMOTED, takes the active role away and brings the claim to 0; low for more than 1 s holds it. -/
def Obligations.DemotionCommandsComplete : Prop :=
  (∀ (s : State) (k c : Nat), s.pair.took = some (k, c) → s.pair.tookSeen = 0 → ∃ t, exec .demoteCheck s = .next t ∧
    t.pair.took = none ∧ t.pins = s.pins ∧ t.regs = s.regs) ∧
  (∀ (s : State) (k c : Nat), s.pair.took = some (k, c) → s.pair.tookSeen ≠ 0 → ∃ t, exec .demoteCheck s = .next t ∧
    t.pair.took = none ∧ t.pins.demoteOutLow = true ∧ t.pair.pulseAt = some t.now ∧ t.flag F.PR_STAT_DEMOUTEVT = true) ∧
  (∀ (s : State) (t0 : Nat), s.pair.pulseAt = some t0 → ∃ t, exec .demotePulseEnd s = .next t ∧
    t.pins = { s.pins with demoteOutLow := false } ∧ t.pair.pulseAt = none ∧ t.now = max s.now (t0 + 10 * usClk) ∧
    t.regs = s.regs) ∧
  (∀ s : State, (∀ p, p ∈ s.img.chains → p.1 < 32) → s.pins.demoteIn = true → s.paired = true → ∃ t,
    exec .demoteInFall s = .next t ∧ t.flag F.PR_STAT_DEMOTED = true ∧ t.isActive = false ∧
    t.getF F.PR_CLAIM_CLAIM = 0 ∧ t.flag F.PR_STAT_PAIROKREL = false ∧ t.pins.demoteIn = false ∧
    t.gen = s.gen) ∧
  (∀ s : State, exec .demoteInRise s =
    .next ((s.updPins (fun p => { p with demoteIn := true })).updPair (fun p => { p with demLowAt := none }))) ∧
  (∀ (s : State) (t0 : Nat), s.pair.demLowAt = some t0 → s.flag F.PR_STAT_DEMHELD = false → ∃ t,
    exec .demoteHeld s = .next t ∧ t.flag F.PR_STAT_DEMHELD = true ∧ t.mayLead = false ∧
    t.now = max s.now (t0 + 1000 * msClk + 1))

/-- Castling (R324, R325): a request that nothing forbids goes out with its cycle, one of a side that is not active is
refused with reason 7; the standby that nothing hinders accepts; an answer accepts or refuses; without one the request ends
with reason 5; the switch makes the standby active with the new G and lowers the claim of an
old active side whose G is 32,512 or more, the end makes the old active side standby. -/
def Obligations.CastlingCommandsComplete : Prop :=
  (∀ s : State, s.paired = true → s.isActive = true →
    (∀ r, s.pair.lastRec = some r → r.failed = false ∧ r.demoted = false) → s.castleCause = 0 → ∃ t,
    exec .castle s = .next t ∧ t.pair.castling = some
      { x := ((s.theta s.refSec / 65536).floor.toNat + 2) * 128, newG := castleGen s.gen, at_ := s.refEpoch } ∧
    t.regs = s.regs) ∧
  (∀ s : State, s.paired = true → s.isActive = false →
    exec .castle s = .next ((s.setF F.PR_STAT_CASTREF 0 1).setF F.PR_CASTLE_REASON 0 7)) ∧
  (∀ (s v u : State) (b : PeerRx) (g : PeerFrame) (r : PeerRec), s.peerArrives b = ([g], v) → g.chan = 0 → g.payload.length = 32 →
    r = peerRecRead g → v.takeRec r = some u →
    (∀ x, r.type = 4 → u.isActive = false → u.mayLead = true → u.castleCause = 0 → u.ownEpoch u.refSec r.data = some x → ∃ t,
      exec (.castlingRequest b) s = .next t ∧ t.flag F.PR_STAT_CASTLING = true ∧ t.pair.castling = some
        { x := x, newG := castleGen r.g, accepted := true, at_ := u.refEpoch, taker := true }) ∧
    (r.type = 4 → u.isActive = false → u.mayLead = true → u.castleCause ≠ 0 →
      exec (.castlingRequest b) s = .next (u.sendRec 5 u.refSec u.refEpoch u.castleCause)) ∧
    (∀ c, r.type = 5 → u.pair.castling = some c → c.taker = false → c.accepted = false →
      (r.data % 256 = 0 → exec (.castlingAnswer b) s = .next ((u.updPair (fun p =>
        { p with castling := some { c with accepted := true } })).setF F.PR_STAT_CASTLING 0 1)) ∧
      (r.data % 256 ≠ 0 → exec (.castlingAnswer b) s =
        .next ((u.updPair (fun p => { p with castling := none })).refuseCastle (r.data % 256))))) ∧
  (∀ (s : State) (c : Castling), s.pair.castling = some c → c.accepted = false →
    exec .castlingAnswerTimeout s = .next (((s.advanceTo (s.angleClk s.refSec (512 * (c.at_ + 64)))).updPair (fun p =>
      { p with castling := none })).refuseCastle 5)) ∧
  (∀ (s : State) (c : Castling), (∀ p, p ∈ s.img.chains → p.1 < 32) → s.pair.castling = some c → c.accepted = true →
    c.switched = false → c.taker = true → s.isActive = false → s.mayLead = true → ∃ t,
    exec .castlingSwitch s = .next t ∧ t.isActive = true ∧ t.gen = c.newG % 2 ^ 15 ∧ t.flag F.PR_STAT_CASTEVT = true) ∧
  (∀ (s : State) (c : Castling), s.pair.castling = some c → c.accepted = true → c.switched = false → c.taker = false →
    s.isActive = true → s.flag F.PR_STAT_FAILED = false → s.flag F.PR_STAT_DEMOTED = false → ∃ t,
    exec .castlingSwitch s = .next t ∧ t.isActive = true ∧ t.gen = s.gen ∧
    t.getF F.PR_CLAIM_CLAIM = (if 32512 ≤ s.gen then s.gen else 0x8000 + s.gen)) ∧
  (∀ (s : State) (c : Castling), (∀ p, p ∈ s.img.chains → p.1 < 32) → s.pair.castling = some c → c.switched = true → ∃ t,
    exec .castlingEnd s = .next t ∧ t.pair.castling = none ∧ t.flag F.PR_STAT_CASTLING = false ∧
    t.flag F.PR_STAT_CASTEVT = true ∧
    t.getF F.PR_CNT_CASTLES = satAdd F.PR_CNT_CASTLES.width (s.getF F.PR_CNT_CASTLES) 1 ∧
    (c.taker = false → s.isActive = true → t.isActive = false ∧ t.gen = c.newG % 2 ^ 15))

/-- The management service (R389 to R395): a request of a known client under its caps is taken; a request that it takes is answered to its client under its REQID: UNSUPPORTED for
an unknown one, a page's words, log records, the list of records, bytes of a file, an acknowledgment; an ARP request for the
port's own address is answered. -/
def Obligations.ManagementRequestsAreAnswered : Prop :=
  ∀ (s v : State) (m : MgmtMsg) (n : Nat),
    (s.Serves m m.code none n v → ∃ t, exec (.unknownRequest m) s = .next t ∧ t.Answers m m.code 2 [] ∧ t.flag F.PT_STAT_VIOLEVT = true) ∧
    (s.Serves m 1 (some 0) n v → m.payload = [] → m.arg1 % 4 = 0 →
      (∀ u, m.arg0 ≤ 24 → m.arg1 < 0x2000 → u = v.latchPage m.arg0 1 → ∃ t,
        exec (.page m) s = .next t ∧ t.Answers m 1 0 ((List.range (min 256 ((0x2000 - m.arg1) / 4))).flatMap
          (fun i => le4 (u.snapWord m.arg0 (m.arg1 + 4 * i) 1)))) ∧
      ((24 < m.arg0 ∨ 0x2000 ≤ m.arg1) → ∃ t, exec (.page m) s = .next t ∧ t.Answers m 1 6 [])) ∧
    (s.Serves m 2 (some 0) n v → m.payload = [] → 1 ≤ m.arg1 → m.arg1 ≤ 21 → v.getF F.EL_FIRST_FIRST ≤ m.arg0 →
      m.arg0 ≤ v.getF F.EL_HEAD_HEAD → ∃ t,
        exec (.logread m) s = .next t ∧ t.Answers m 2 0 (((List.range m.arg1).map (fun i => m.arg0 + i)).filter (fun q =>
          decide (q ≤ v.getF F.EL_HEAD_HEAD) && (v.slotOf q).isSome) |>.flatMap (fun q => v.readBytes q ++ le4 (v.readState q)))) ∧
    (s.Serves m 3 (some 0) n v → m.payload = [] → ∃ t, exec (.drlist m) s = .next t ∧
      t.Answers m 3 0 (((v.recs.filter (fun r => !r.2.acked && decide (m.arg0 ≤ r.1))).take 60).flatMap (fun r => listEntry r.1 r.2))) ∧
    (s.Serves m 4 (some 0) n v → m.payload = [] → ∀ ecc : EccIn,
      (Tab.find v.recs m.arg0 = none → ∃ t, exec (.drexport m ecc) s = .next t ∧ t.Answers m 4 7 []) ∧
      (∀ (r q : DrRec) (file off : Nat), Tab.find v.recs m.arg0 = some r → r.acked = false → r.open_ = false → r.dirLost = false →
        ecc.dir = false → file = m.arg1 / 2 ^ 24 → off = 1024 * (m.arg1 % 2 ^ 24) → file < 3 * r.groups →
        off < (r.fileBytes m.arg0 file).length →
        q = (if ecc.bad.isEmpty then r else { r with damaged := true, lost := ecc.bad ++ r.lost }) →
        ∃ t, exec (.drexport m ecc) s = .next t ∧ t.Answers m 4 0 (((q.fileBytes m.arg0 file).drop off).take 1024) ∧
          Tab.find t.recs m.arg0 = some { q with exported := true })) ∧
    (s.Serves m 5 (some 1) n v → m.payload = [] →
      (∀ r, Tab.find v.recs m.arg0 = some r → r.open_ = false → r.acked = false → ∃ t,
        exec (.drack m) s = .next t ∧ t.Answers m 5 0 [] ∧
        Tab.find t.recs m.arg0 = some { r with acked := true, rows := [], blocks := 0 }) ∧
      (Tab.find v.recs m.arg0 = none → ∃ t, exec (.drack m) s = .next t ∧ t.Answers m 5 7 [])) ∧
    (∀ lane : Nat, s.ethRx lane = true → (s.img.lane lane).sb = true → (s.img.lane lane).ipv4 ≠ 0 →
      exec (.arpRequest lane (s.img.lane lane).ipv4) s =
        .next (((s.captureRx lane).updDev (fun d => { d with arps := d.arps + 1 })).queueEth lane { cls := 4 })) ∧
    (∀ (p : Partner) (code ix : Nat) (r : AllowRule) (priv : Option Nat), s.ethRx m.lane = true → 64 ≤ m.snd.len → m.snd.len ≤ 1522 →
      (s.img.lane m.lane).serves m.toIp m.toPort = true → s.img.admits true m.lane m.ip = some (ix, r) →
      s.findPartner 4 m.lane (m.ip * 65536 + m.port) = some n → p = ((s.partner n).under ix r).refill s.now → 1 ≤ p.ftok →
      (m.snd.len : Rat) ≤ p.btok → headOk m code = true → (s.outstanding n).contains m.reqId = false →
      (s.outstanding n).length < p.capOut → s.mgmtFill < 256 → (∀ b, priv = some b → bitOf p.priv b = true) →
      ∃ w, s.Serves m code priv n w ∧ w.now = s.now ∧ w.session = s.session ∧ w.pkgBuf = s.pkgBuf ∧ w.recs = s.recs ∧
        w.change = s.change ∧ w.evNvm = s.evNvm)

/-- Change sessions (R374, R393): CHGBEGIN opens a session of the client with its length, CHGDATA writes its bytes at their
place in the package buffer and nowhere else, CHGEND ends the session and starts the checks, CHGSTAT answers two words,
CHGABORT ends the session or the pending package; 60 s without an accepted request end it. -/
def Obligations.ChangeSessionCommandsComplete : Prop :=
  (∀ (s v : State) (m : MgmtMsg) (n : Nat),
    (s.Serves m 6 (some 2) n v → m.payload = [] → v.ageSession.foreign m = false → v.dev.storing = false → v.change = none →
      m.arg0 ≤ 8 * 2 ^ 20 → ∃ t, exec (.chgbegin m) s = .next t ∧ t.Answers m 6 0 [] ∧ t.pkgBuf = [] ∧
        t.session = some { client := clientOf m, len := m.arg0, lastAt := v.now }) ∧
    (∀ x, v.session = some x → x.client = clientOf m → v.now < x.lastAt + 60000 * msClk →
      (s.Serves m 7 (some 2) n v → m.payload.length ≤ 1024 →
        (m.arg0 + m.payload.length ≤ x.len → ∃ t, exec (.chgdata m) s = .next t ∧
          t.Answers m 7 0 [] ∧ t.session = some { x with lastAt := v.now } ∧
          (∀ i, i < m.payload.length → (Mem.read 0 t.pkgBuf (m.arg0 + i)).toNat = m.payload.getD i 0 % 256) ∧
          (∀ a, a < m.arg0 ∨ m.arg0 + m.payload.length ≤ a → Mem.read 0 t.pkgBuf a = Mem.read 0 s.pkgBuf a)) ∧
        (x.len < m.arg0 + m.payload.length → ∃ t, exec (.chgdata m) s = .next t ∧ t.Answers m 7 6 [] ∧ t.pkgBuf = s.pkgBuf)) ∧
      (s.Serves m 8 (some 2) n v → m.payload = [] → ∃ t, exec (.chgend m) s = .next t ∧ t.Answers m 8 10 [] ∧ t.session = none ∧
        t.dev.storing = true) ∧
      (s.Serves m 10 (some 2) n v → m.payload = [] → ∃ t, exec (.chgabort m) s = .next t ∧ t.Answers m 10 0 [] ∧ t.session = none)) ∧
    (s.Serves m 10 (some 2) n v → m.payload = [] → v.session = none → ∃ t, exec (.chgabort m) s = .next t ∧ t.Answers m 10 0 []) ∧
    (s.Serves m 9 (some 0) n v → m.payload = [] → ∃ t,
      exec (.chgstat m) s = .next t ∧ t.Answers m 9 0 (le4 v.chgstatWord ++ le4 (v.getF F.DEV_CHGVER_VERSION)))) ∧
  (∀ (s : State) (x : Session), s.session = some x →
    exec .changeSessionTimeout s = .next { s.advanceTo (x.lastAt + 60000 * msClk) with session := none })

/-- Change packages (R36, R373 to R376, R378): an accepted package is pending with its switch-overs, a refused one ends with
its result; an abort before the first switch-over ends it with ABORTED, one after it sets ABREF; a section switches over at
tick 0 of its cycle and takes the new version; when all have passed the package is complete. -/
def Obligations.ChangePackageCommandsComplete : Prop :=
  (∀ (s : State) (x : PackageView) (p : Package), s.dev.storing = true → p = s.readPackage x →
    (s.packageResult p = 1 → ∃ t, exec (.packageCheckComplete x) s = .next t ∧ t.dev.storing = false ∧
      t.change = some { image := p.image, bytes := s.mergedBytes, version := p.version, anchor := (p.schedule.map Prod.fst).headD 0,
                        left := p.schedule.map Prod.fst, microcode := p.microcode } ∧
      t.getF F.DEV_CHGSTAT_RESULT = 1 ∧ t.flag F.DEV_CHGSTAT_PEND = true ∧
      t.getF F.DEV_CHGVER_VERSION = p.version % 2 ^ 32 ∧
      Mem.readN 0xFF t.cfgNvm (s.bankAddr s.spareBank) s.mergedBytes.length = s.mergedBytes.map (fun b => b % 256)) ∧
    (2 < s.packageResult p → s.change = none → ∃ t, exec (.packageCheckComplete x) s = .next t ∧ t.dev.storing = false ∧
      t.change = none ∧ t.getF F.DEV_CHGSTAT_RESULT = s.packageResult p ∧ t.flag F.DEV_CHGSTAT_DONE = true ∧
      (s.packageResult p < 9 → t.cfgNvm = s.cfgNvm))) ∧
  (∀ (s : State) (c : Change), s.change = some c →
    (c.started = true → exec .devChgabort s = .next (s.setF F.DEV_CHGSTAT_ABREF 0 1)) ∧
    (c.started = false → ∃ t, exec .devChgabort s = .next t ∧ t.change = none ∧ t.getF F.DEV_CHGSTAT_RESULT = 11 ∧
      t.flag F.DEV_CHGSTAT_PEND = false ∧ t.cfg = s.cfg)) ∧
  (∀ (s : State) (k cyc : Nat) (c : Change), k < 24 → s.change = some c → k ∈ c.left →
    cyc = s.cycleOf k (s.getF F.SEC_SWCYC_CYCLE k) → 128 * cyc < (s.sec k).nextSample → ∃ t,
    exec (.switchOver k) s = .next t ∧ (t.sec k).cfgFrom = 128 * cyc ∧
    t.getF F.SEC_CFGVER_VERSION k = c.version % 2 ^ 32 ∧ t.flag F.SEC_SWSTAT_DONE k = true ∧
    t.flag F.SEC_SWSTAT_PENDING k = false) ∧
  (∀ (s : State) (c : Change), s.change = some c → c.started = true → c.left = [] → c.rolling = false → ∃ t,
    exec .bankCommit s = .next t ∧ t.change = none ∧ t.getF F.DEV_IMGVER_VERSION = c.version % 2 ^ 32 ∧
    t.getF F.DEV_CHGSTAT_RESULT = 1 ∧ t.flag F.DEV_CHGSTAT_DONE = true ∧ t.img.feeders = s.img.feeders ∧ t.dev.image = c.bytes ∧
    Mem.read 0xFF t.cfgNvm (s.bankAddr s.spareBank + 60) = Mem.read 0xFF s.cfgNvm (s.bankAddr s.spareBank + 60) &&& 0xA5)

/-- Recorder and snapshots (R327, R332, R398, R400, R402) and RELOAD (R372): a manual trigger waits for the section's next
deadline, an acknowledged record gives its blocks back, a read of SN_EPOCH latches a page, whose latches end together, and
the cut publishes the counter's next whole millisecond with every section's values. -/
def Obligations.RecorderAndSnapshotCommandsComplete : Prop :=
  (∀ (s : State) (k : Nat), k < 24 → (s.sec k).running = true →
    exec (.mantrig k) s = .next (s.updSec k (fun x => { x with manTrig := true }))) ∧
  (∀ (s : State) (id : Nat) (r : DrRec), Tab.find s.recs id = some r → r.open_ = false → r.acked = false →
    exec (.drAck id) s = .next ((({ s with recs := Tab.set s.recs id { r with acked := true, rows := [], blocks := 0 } } :
      State).addFree (r.blocks : Int)).syncRecs)) ∧
  (∀ (s : State) (id : Nat) (r : DrRec), Tab.find s.recs id = some r → r.open_ = true → exec (.drAck id) s = .next s) ∧
  (∀ (s : State) (p : Nat), p < 25 → (s.flag F.SN_LATCH_HELD1 p = false ∨ (s.snap p).latch.isSome = true) → ∃ t,
    exec (.snEpochRead p) s = .next t ∧ t.flag F.SN_LATCH_HELD0 p = true ∧
    (t.snap p).latch.isSome = true ∧ t.flag F.SN_LATCH_HELD1 p = (s.ageLatch p).flag F.SN_LATCH_HELD1 p) ∧
  (∀ (s : State) (p t0 : Nat) (b : Bool), p < 25 → (s.snap p).latch = some (b, t0) → ∃ t,
    exec (.latchExpiry p) s = .next t ∧ (t.snap p).latch = none ∧ t.flag F.SN_LATCH_HELD0 p = false ∧
    t.flag F.SN_LATCH_HELD1 p = false ∧ (s.flag F.SN_LATCH_HELD0 p = true → t.flag F.SN_LATCH_EXPIRED0 p = true) ∧
    (s.flag F.SN_LATCH_HELD1 p = true → t.flag F.SN_LATCH_EXPIRED1 p = true) ∧ t.now = max s.now (t0 + msClk)) ∧
  (∀ s : State, s.pins.porn = true → ∃ t w, exec .coherentCut s = .next t ∧ t.dev.cut = (s.dev.cut + 1) % 2 ^ 32 ∧
    w = (t.snap 0).buf (t.snap 0).pub ∧ Tab.get w 0 0 = t.dev.cut ∧
    Tab.get w 0 4 = s.nextCut ∧ s.nextCut % 1000000 = 0 ∧ Tab.get w 0 8 = s.getF F.TB_STAT_LOCK 0 ∧
    ∀ k, k < 7 → Tab.get w 0 (0x10 + 4 * k) = (s.deviceSig k).word) ∧
  (∀ s : State, s.getF F.DEV_STAT_STATE = 4 →
    exec .reload s = .next ((s.setF F.DEV_STAT_STATE 0 1).updDev (fun d => { d with countAt := s.now }))) ∧
  (∀ s : State, s.getF F.DEV_STAT_STATE ≠ 4 → exec .reload s = .next s)

/-- The maintenance port's frames (R407 to R410): a valid write frame writes its words in ascending order and leaves STATUS
OK, another writes nothing and leaves its code; a read frame drives its words, STATUS and their CRC; the status command
drives the code of the last write frame. -/
def Obligations.PortFramesComplete : Prop :=
  ∀ s : State, s.pins.porn = true →
    (∀ (f : SpiFrame) (r : List Nat), f = 2 :: r →
      (writeStatus f = 0 → exec (.writeFrame f) s = .next
        (((s.updDev (fun d => { d with wstatus := 0, mso := [] })).countFrame 0).writeWords (spiAddr f) (spiCount f) (f.drop 6))) ∧
      (writeStatus f ≠ 0 → exec (.writeFrame f) s = .next
        ((s.updDev (fun d => { d with wstatus := writeStatus f, mso := [] })).countFrame (writeStatus f)))) ∧
    (∀ (f : SpiFrame) (r l : List Nat) (u : State) (n : Nat), f = 0x0B :: r → n = spiCount f → readStatus f = 0 →
      f.length = 13 + 4 * n → s.readWords (spiAddr f) n = (l, u) → ∃ t, exec (.readFrame f) s = .next t ∧
      t.dev.mso = l.flatMap (beBytes 4) ++ [0] ++ spiCrc (l.flatMap (beBytes 4) ++ [0]) ∧
      t.dev.wstatus = u.dev.wstatus ∧ t.cfgNvm = u.cfgNvm ∧ t.ckBuf = u.ckBuf) ∧
    (∃ t, exec .statusCommand s = .next t ∧ t.dev.mso = s.dev.wstatus :: spiCrc [s.dev.wstatus] ∧
      t.getF F.DEV_MPCNT_FRAMES = (s.getF F.DEV_MPCNT_FRAMES + 1) % 2 ^ F.DEV_MPCNT_FRAMES.width)

/-- The NVM registers (R412, R413): a command that nothing refuses is under way with BUSY, a refused one sets REF and its
cause; a completed program clears the bits that its bytes hold 0 and an erase sets its sector to 0xFF, each changing no byte
beside those. -/
def Obligations.NvmCommandsComplete : Prop :=
  (∀ (s : State) (w : Word) (event : Bool) (len addr : Nat) (data : List Nat), event = bitOf w.toNat 4 →
    len = fieldOf w.toNat 16 8 → addr = s.getF F.DEV_NVMADDR_ADDR →
    data = ((List.range 16).flatMap (fun j => le4 (s.getF F.DEV_NVMDATA_DATA 0 j))).take len →
    (s.nvmRefusal 1 addr len event = none → exec (.nvmRead w) s = .next ((s.setF F.DEV_NVMSTAT_BUSY 0 1).updDev (fun d =>
      { d with nvm := some { cmd := 1, event := event, addr := addr, len := len, data := data } }))) ∧
    (s.nvmRefusal 2 addr len event = none → exec (.nvmProgram w) s = .next ((s.setF F.DEV_NVMSTAT_BUSY 0 1).updDev (fun d =>
      { d with nvm := some { cmd := 2, event := event, addr := addr, len := len, data := data } }))) ∧
    (s.nvmRefusal 3 addr len event = none → exec (.eraseSector w) s = .next ((s.setF F.DEV_NVMSTAT_BUSY 0 1).updDev (fun d =>
      { d with nvm := some { cmd := 3, event := event, addr := addr, len := len, data := data } }))) ∧
    (∀ c, s.nvmRefusal 2 addr len event = some c → exec (.nvmProgram w) s =
      .next ((s.setF F.DEV_NVMSTAT_REF 0 1).setF F.DEV_NVMSTAT_CAUSE 0 c))) ∧
  (∀ (s : State) (c : NvmCmd), s.dev.nvm = some c → ∃ t, exec (.nvmCommandComplete true true) s = .next t ∧
    t.dev.nvm = none ∧ t.flag F.DEV_NVMSTAT_BUSY = false ∧ t.flag F.DEV_NVMSTAT_DONE = true ∧
    (c.cmd = 1 → t.evNvm = s.evNvm ∧ t.cfgNvm = s.cfgNvm) ∧
    (c.cmd = 2 → c.event = true → t.cfgNvm = s.cfgNvm ∧
      (∀ i, i < c.data.length → Mem.read 0xFF t.evNvm (c.addr + i) =
        Mem.read 0xFF s.evNvm (c.addr + i) &&& BitVec.ofNat 8 (c.data.getD i 0)) ∧
      (∀ a, a < c.addr ∨ c.addr + c.data.length ≤ a → Mem.read 0xFF t.evNvm a = Mem.read 0xFF s.evNvm a)) ∧
    (c.cmd = 3 → c.event = false → t.evNvm = s.evNvm ∧
      (∀ a, a / c.sector = c.addr / c.sector → Mem.read 0xFF t.cfgNvm a = 0xFF) ∧
      (∀ a, a / c.sector ≠ c.addr / c.sector → Mem.read 0xFF t.cfgNvm a = Mem.read 0xFF s.cfgNvm a)))

/-- Registers (R4, R6, R7): a word written to the check buffer is stored least significant byte first and changes no other byte; a W1C bit
clears where 1 is written, unless the device sets it on the same core clock, and stays where 0 is; a read clears the RC fields of its
register. -/
def Obligations.RegistersWriteAndReadsClear : Prop :=
  (∀ (s : State) (a : Nat) (w : Word), 0x78000 ≤ a → a ≤ 0x7FFFC → a % 4 = 0 →
    (∀ k, k < 8 → s.getF F.CK_STAT_STATE k ≠ 1) → ∃ t, exec (.registerWrite a w) s = .next t ∧
    Mem.readN 0 t.ckBuf (a - 0x78000) 4 = le4 w.toNat ∧ t.regs = s.regs ∧
    (∀ b, b < a - 0x78000 ∨ a - 0x78000 + 4 ≤ b → Mem.read 0 t.ckBuf b = Mem.read 0 s.ckBuf b)) ∧
  (∀ (s : State) (w : Word) (x y : Bool), s.getF F.PR_STAT_ROLEEVT < 2 → s.getF F.PR_STAT_CASTEVT < 2 →
    x = bitOf (s.w1c.on s.now (F.PR_STAT_ROLEEVT.key 0 0)) 0 → y = bitOf (s.w1c.on s.now (F.PR_STAT_CASTEVT.key 0 0)) 0 → ∃ t,
    exec (.registerWrite 0x90008 w) s = .next t ∧
    t.flag F.PR_STAT_ROLEEVT = (s.flag F.PR_STAT_ROLEEVT && (!bitOf w.toNat 0 || x)) ∧
    t.flag F.PR_STAT_CASTEVT = (s.flag F.PR_STAT_CASTEVT && (!bitOf w.toNat 5 || y)) ∧ t.isActive = s.isActive ∧
    t.cfgNvm = s.cfgNvm ∧ t.evNvm = s.evNvm) ∧
  (∀ (s : State) (f : Fld) (i j : Nat), f ∈ allFields → f.acc = .rc → i < f.insts → j < f.count →
    (∀ b k off, locate (f.addr i j) = some (b, k, off) → s.absentReg b k off = false) → ∃ t,
    exec (.rcRead (f.addr i j)) s = .next t ∧ t.getF f i j = 0)

/-- Addresses in no block of R404 (R405): a read gives 0, a write is ignored, neither has an effect, and a frame that touches
one reports ADDRESS; so do reserved addresses inside a block read 0 and ignore a write (R5). -/
def Obligations.UnmappedAddressesReadZero : Prop :=
  (∀ (s : State) (a : Nat) (w : Word), blockAt a = none →
    s.readWord a = (0, s) ∧ exec (.rcRead a) s = .next s ∧ exec (.registerWrite a w) s = .next s) ∧
  (∀ (f : SpiFrame) (k : Nat), f.length = 8 + 4 * spiCount f → 1 ≤ spiCount f → spiCount f ≤ 64 →
    f.drop (f.length - 2) = spiCrc (f.take (f.length - 2)) → spiAddr f % 4 = 0 → k < spiCount f →
    blockAt (spiAddr f + 4 * k) = none → writeStatus f = 2) ∧
  (∀ (f : SpiFrame) (k : Nat), (f.drop 6).take 2 = spiCrc (f.take 6) → 1 ≤ spiCount f → spiCount f ≤ 64 →
    spiAddr f % 4 = 0 → k < spiCount f → blockAt (spiAddr f + 4 * k) = none → readStatus f = 2) ∧
  (∀ (s : State) (a : Nat) (w : Word), a ∈ [0xFFC, 0x80FFC, 0x88FFC, 0x90FFC] →
    s.readWord a = (0, s) ∧ exec (.registerWrite a w) s = .next s)

/-- The queue: a step takes the command at its front and runs it on the state with the queue's rest; on an empty queue one
core clock passes and nothing else changes (the model's choice, log entry 9). -/
def Obligations.StepRunsTheFrontCommand : Prop :=
  (∀ (c : Instr) (r : List Instr) (s : State), step { s with pending := c :: r } = exec c { s with pending := r }) ∧
  (∀ s : State, s.pending = [] → step s = .next { s with now := s.now + 1 })

/-- Reset (R4, R415, R420): every register field of every instance reads the reset value of its field map, no tile is
powered, nothing is configured, no command waits, and the stores are in canonical form. -/
def Obligations.ResetHoldsTheStatedValues : Prop :=
  (∀ (f : Fld) (i j : Nat), State.reset.getF f i j = f.resetVal i j) ∧
  State.reset.pending = [] ∧ State.reset.cfg = none ∧ State.reset.pins.porn = false ∧ State.reset.isActive = false ∧
  State.reset.forces = [] ∧ State.reset.StoresOk

/-- The words of R213 and R214: no operand, LD of a variable's bit 5 with N, LDK of −1, CMP with LT, JC over three
instructions, and words that the tables do not give; and the CRC of the read frame of R410's example. -/
def Obligations.WordsReadAsTheTablesGive : Prop :=
  logicInstr 0 0x00000000 = some (.nop 0) ∧
  logicInstr 1 0x0C400065 = some (.ld 1 { n := true, sp := true, addr := 3, bit := 5 }) ∧
  logicInstr 2 0xC3FFFFFF = some (.ldk 2 false (-1)) ∧
  logicInstr 0 0xE1400020 = some (.cmp 0 { cc := 2, sp := true, addr := 1 }) ∧
  logicInstr 3 0xF4000003 = some (.jc 3 true 3) ∧
  logicInstr 0 0xF8000000 = some (.end_ 0) ∧
  logicInstr 0 0x00000001 = none ∧ logicInstr 0 0xE8000000 = none ∧ logicInstr 0 0x48000018 = none ∧
  spiCrc [0x00, 0x07, 0xA1, 0x20, 0x00] = [0xCC, 0x6B]

/-- Words and instructions of the logic cores agree (R213, R214, R219): the word of a well-formed instruction of a core
reads as that instruction, and a 32-bit word that reads as an instruction is the word of that instruction, which is
well-formed. -/
def Obligations.LogicWordsRoundTrip : Prop :=
  (∀ (k w : Nat) (i : Instr), k < 4 → w < 2 ^ 32 → logicInstr k w = some i → i.wf = true ∧ logicWord i = some w) ∧
  (∀ (w : Nat) (i : Instr), i.wf = true → logicWord i = some w → w < 2 ^ 32 ∧ ∃ k, k < 4 ∧ logicInstr k w = some i)

/-- Every step keeps the stores in canonical form, serves the queue in order and never turns time or the count of free
values back. -/
def Obligations.EveryStepKeepsTheStores : Prop :=
  ∀ s t : State, step s = .next t →
    (s.StoresOk → t.StoresOk) ∧ t.pending = s.pending.tail ∧ s.now ≤ t.now ∧ s.free ≤ t.free

/-- Every command has a next state: none faults and none is refused, in any state. -/
def Obligations.EveryCommandCompletes : Prop :=
  ∀ (c : Instr) (s : State), Completes c s

/-- The configuration NVM (R367, R374, R378, R412): the only commands that change a byte of it are the completion of an NVM command on
it, the completion of a package check that has passed every check before the storing, and the bank commit, which changes one byte
of the bank that did not load. -/
def Obligations.OnlyThreeCommandsChangeTheConfigurationNvm : Prop :=
  ∀ (c : Instr) (s t : State), exec c s = .next t → t.cfgNvm ≠ s.cfgNvm →
    (∃ ok rb n, c = .nvmCommandComplete ok rb ∧ s.dev.nvm = some n ∧ n.event = false ∧ n.cmd ≠ 1) ∨
    (∃ v, c = .packageCheckComplete v ∧ s.dev.storing = true ∧ s.change = none ∧ (s.readPackage v).formatOk = true) ∨
    (c = .bankCommit ∧ (∃ x, s.change = some x ∧ x.started = true ∧ x.left = [] ∧ x.rolling = false) ∧
      ∀ a, a ≠ s.bankAddr s.spareBank + 60 → Mem.read 0xFF t.cfgNvm a = Mem.read 0xFF s.cfgNvm a)
end

