-- ==== Sys2Proof/Laws/Tab.lean ====
section
/-! SUPPORT. Laws of sparse tables and byte memories: what a read after a write gives, and that every operation keeps the
canonical form. -/

namespace Sys2Proof.Machine

/-! ## Tables -/

@[simp] theorem Tab.find_nil {α : Type} (k : Nat) : Tab.find ([] : Tab α) k = none := rfl

theorem Tab.find_set_same {α : Type} (t : Tab α) (k : Nat) (v : α) : Tab.find (Tab.set t k v) k = some v := by
  induction t with
  | nil => simp [Tab.set, Tab.find]
  | cons c r ih =>
    obtain ⟨a, x⟩ := c
    simp only [Tab.set]
    split
    · simp [Tab.find]
    · split
      · simp [Tab.find]
      · simp [Tab.find, *]

theorem Tab.find_set_other {α : Type} (t : Tab α) (k j : Nat) (v : α) (h : j ≠ k) :
    Tab.find (Tab.set t k v) j = Tab.find t j := by
  induction t with
  | nil => simp [Tab.set, Tab.find, Ne.symm h]
  | cons c r ih =>
    obtain ⟨a, x⟩ := c
    simp only [Tab.set]
    split
    · rename_i e; subst e; simp [Tab.find, Ne.symm h]
    · split
      · simp [Tab.find, Ne.symm h]
      · simp only [Tab.find]; split <;> simp_all

@[simp] theorem Tab.get_set_same {α : Type} (t : Tab α) (d : α) (k : Nat) (v : α) : Tab.get (Tab.set t k v) d k = v := by
  simp [Tab.get, Tab.find_set_same]

theorem Tab.get_set_other {α : Type} (t : Tab α) (d : α) (k j : Nat) (v : α) (h : j ≠ k) :
    Tab.get (Tab.set t k v) d j = Tab.get t d j := by
  simp [Tab.get, Tab.find_set_other t k j v h]

theorem Tab.find_del_same {α : Type} (t : Tab α) (k : Nat) : Tab.find (Tab.del t k) k = none := by
  induction t with
  | nil => rfl
  | cons c r ih =>
    obtain ⟨a, x⟩ := c
    unfold Tab.del at *
    by_cases e : a = k <;> simp [e, Tab.find] <;> simpa using ih

theorem Tab.find_del_other {α : Type} (t : Tab α) (k j : Nat) (h : j ≠ k) : Tab.find (Tab.del t k) j = Tab.find t j := by
  induction t with
  | nil => rfl
  | cons c r ih =>
    obtain ⟨a, x⟩ := c
    unfold Tab.del at *
    by_cases e : a = k
    · subst e; simp [Tab.find, Ne.symm h]; simpa using ih
    · simp only [List.filter_cons, ne_eq, e, not_false_eq_true, decide_true, ↓reduceIte, Tab.find]
      split
      · rfl
      · simpa using ih

@[simp] theorem Tab.get_put_same {α : Type} [DecidableEq α] (t : Tab α) (d : α) (k : Nat) (v : α) :
    Tab.get (Tab.put t d k v) d k = v := by
  unfold Tab.put
  split
  · rename_i e; simp [Tab.get, Tab.find_del_same, e]
  · simp

theorem Tab.get_put_other {α : Type} [DecidableEq α] (t : Tab α) (d e : α) (k j : Nat) (v : α) (h : j ≠ k) :
    Tab.get (Tab.put t d k v) e j = Tab.get t e j := by
  unfold Tab.put
  split
  · simp [Tab.get, Tab.find_del_other t k j h]
  · exact Tab.get_set_other t e k j v h

@[simp] theorem Tab.get_upd_same {α : Type} (t : Tab α) (d : α) (k : Nat) (f : α → α) :
    Tab.get (Tab.upd t d k f) d k = f (Tab.get t d k) := by simp [Tab.upd]

theorem Tab.get_upd_other {α : Type} (t : Tab α) (d : α) (k j : Nat) (f : α → α) (h : j ≠ k) :
    Tab.get (Tab.upd t d k f) d j = Tab.get t d j := Tab.get_set_other t d k j _ h

/-! ## The canonical form -/

/-- Keys strictly rising, as a relation between neighbours. -/
theorem Tab.sorted_iff {α : Type} (t : Tab α) : Tab.sorted t = true ↔ t.Pairwise (fun a b => a.1 < b.1) := by
  induction t with
  | nil => simp [Tab.sorted]
  | cons c r ih =>
    cases r with
    | nil => simp [Tab.sorted]
    | cons b r =>
      simp only [Tab.sorted, Bool.and_eq_true, decide_eq_true_eq, ih]
      constructor
      · rintro ⟨h1, h2⟩
        refine List.pairwise_cons.2 ⟨?_, h2⟩
        intro x hx
        rcases List.mem_cons.1 hx with e | e
        · subst e; exact h1
        · exact lt_trans h1 ((List.pairwise_cons.1 h2).1 x e)
      · intro h
        exact ⟨(List.pairwise_cons.1 h).1 b (by simp), (List.pairwise_cons.1 h).2⟩

/-- The keys of a table with an entry set are those of the table and the new one. -/
theorem Tab.mem_set {α : Type} (t : Tab α) (k : Nat) (v : α) (x : Nat × α) (h : x ∈ Tab.set t k v) :
    x = (k, v) ∨ x ∈ t := by
  induction t with
  | nil => simp [Tab.set] at h; exact .inl h
  | cons c r ih =>
    obtain ⟨a, y⟩ := c
    simp only [Tab.set] at h
    split at h
    · rcases List.mem_cons.1 h with e | e
      · exact .inl e
      · exact .inr (List.mem_cons_of_mem _ e)
    · split at h
      · rcases List.mem_cons.1 h with e | e
        · exact .inl e
        · exact .inr e
      · rcases List.mem_cons.1 h with e | e
        · exact .inr (by simp [e])
        · rcases ih e with e | e
          · exact .inl e
          · exact .inr (List.mem_cons_of_mem _ e)

theorem Tab.sorted_set {α : Type} (t : Tab α) (k : Nat) (v : α) (h : Tab.sorted t = true) : Tab.sorted (Tab.set t k v) = true := by
  rw [Tab.sorted_iff] at *
  induction t with
  | nil => simp [Tab.set]
  | cons c r ih =>
    obtain ⟨a, y⟩ := c
    obtain ⟨h1, h2⟩ := List.pairwise_cons.1 h
    simp only [Tab.set]
    split
    · rename_i e; subst e
      exact List.pairwise_cons.2 ⟨h1, h2⟩
    · split
      · rename_i hlt
        refine List.pairwise_cons.2 ⟨?_, h⟩
        intro x hx
        rcases List.mem_cons.1 hx with e | e
        · subst e; exact hlt
        · exact lt_trans hlt (h1 x e)
      · refine List.pairwise_cons.2 ⟨?_, ih h2⟩
        intro x hx
        rcases Tab.mem_set r k v x hx with e | e
        · subst e; show a < k; omega
        · exact h1 x e

theorem Tab.sorted_del {α : Type} (t : Tab α) (k : Nat) (h : Tab.sorted t = true) : Tab.sorted (Tab.del t k) = true := by
  rw [Tab.sorted_iff] at *
  exact h.filter _

theorem Tab.sorted_put {α : Type} [DecidableEq α] (t : Tab α) (d : α) (k : Nat) (v : α) (h : Tab.sorted t = true) :
    Tab.sorted (Tab.put t d k v) = true := by
  unfold Tab.put
  split
  · exact Tab.sorted_del t k h
  · exact Tab.sorted_set t k v h

/-! ## Byte memories -/

theorem Mem.wf_iff (fill : Byte) (m : Mem) :
    Mem.wf fill m = true ↔ Tab.sorted m = true ∧ ∀ c ∈ m, c.2 ≠ fill := by
  simp [Mem.wf, Bool.and_eq_true]

@[simp] theorem Mem.wf_nil (fill : Byte) : Mem.wf fill [] = true := rfl

/-- A write of one byte keeps the canonical form. -/
theorem Mem.wf_write (fill : Byte) (m : Mem) (a : Nat) (b : Byte) (h : Mem.wf fill m = true) :
    Mem.wf fill (Mem.write fill m a b) = true := by
  rw [Mem.wf_iff] at *
  refine ⟨Tab.sorted_put m fill a b h.1, ?_⟩
  intro c hc
  unfold Mem.write Tab.put at hc
  split at hc
  · exact h.2 c (List.mem_of_mem_filter hc)
  · rcases Tab.mem_set m a b c hc with e | e
    · subst e; assumption
    · exact h.2 c e

@[simp] theorem Mem.read_write_same (fill : Byte) (m : Mem) (a : Nat) (b : Byte) :
    Mem.read fill (Mem.write fill m a b) a = b := by simp [Mem.read, Mem.write]

theorem Mem.read_write_other (fill : Byte) (m : Mem) (a c : Nat) (b : Byte) (h : c ≠ a) :
    Mem.read fill (Mem.write fill m a b) c = Mem.read fill m c := Tab.get_put_other m fill fill a c b h

/-- Every operation on a byte memory keeps its canonical form. -/
theorem Mem.wf_writeN (fill : Byte) (l : List Nat) : ∀ (m : Mem) (a : Nat), Mem.wf fill m = true →
    Mem.wf fill (Mem.writeN fill m a l) = true := by
  induction l with
  | nil => intro m a h; exact h
  | cons b r ih => intro m a h; exact ih _ _ (Mem.wf_write fill m a _ h)

theorem Mem.wf_programN (l : List Nat) : ∀ (m : Mem) (a : Nat), Mem.wf 0xFF m = true →
    Mem.wf 0xFF (Mem.programN m a l) = true := by
  induction l with
  | nil => intro m a h; exact h
  | cons b r ih => intro m a h; exact ih _ _ (Mem.wf_write 0xFF m a _ h)

theorem Mem.wf_erase (fill : Byte) (m : Mem) (a n : Nat) (h : Mem.wf fill m = true) : Mem.wf fill (Mem.erase m a n) = true := by
  rw [Mem.wf_iff, Tab.sorted_iff] at *
  exact ⟨h.1.filter _, fun c hc => h.2 c (List.mem_of_mem_filter hc)⟩

/-- A byte outside the bytes written reads as before. -/
theorem Mem.read_writeN_outside (fill : Byte) (l : List Nat) : ∀ (m : Mem) (a c : Nat), (c < a ∨ a + l.length ≤ c) →
    Mem.read fill (Mem.writeN fill m a l) c = Mem.read fill m c := by
  induction l with
  | nil => intro m a c _; rfl
  | cons b r ih =>
    intro m a c h
    simp only [List.length_cons] at h
    rw [Mem.writeN, ih _ _ _ (by omega), Mem.read_write_other _ _ _ _ _ (by omega)]

theorem Mem.read_programN_outside (l : List Nat) : ∀ (m : Mem) (a c : Nat), (c < a ∨ a + l.length ≤ c) →
    Mem.read 0xFF (Mem.programN m a l) c = Mem.read 0xFF m c := by
  induction l with
  | nil => intro m a c _; rfl
  | cons b r ih =>
    intro m a c h
    simp only [List.length_cons] at h
    rw [Mem.programN, ih _ _ _ (by omega), Mem.read_write_other _ _ _ _ _ (by omega)]

/-- A byte written reads back. -/
theorem Mem.read_writeN_inside (fill : Byte) (l : List Nat) : ∀ (m : Mem) (a i : Nat) (h : i < l.length),
    Mem.read fill (Mem.writeN fill m a l) (a + i) = BitVec.ofNat 8 l[i] := by
  induction l with
  | nil => intro m a i h; simp at h
  | cons b r ih =>
    intro m a i h
    cases i with
    | zero =>
      rw [Mem.writeN, Mem.read_writeN_outside _ _ _ _ _ (by omega)]
      simp
    | succ i =>
      rw [Mem.writeN, show a + (i + 1) = a + 1 + i by omega, ih _ _ _ (by simpa using h)]
      simp

end Sys2Proof.Machine
end

