-- ==== Sys2Proof/Laws/Calibration.lean ====
section
/-! SUPPORT. What a program leaves in erased memory, and that an entry stored in an erased calibration sector reads back valid (R336). -/

namespace Sys2Proof.Machine

theorem length_leBytes (n : Nat) : ∀ x, (leBytes n x).length = n := by
  induction n with
  | zero => intro x; rfl
  | succ n ih => intro x; simp [leBytes, ih]

theorem leBytes_lt (n : Nat) : ∀ x, ∀ b, b ∈ leBytes n x → b < 256 := by
  induction n with
  | zero => intro x b h; simp [leBytes] at h
  | succ n ih =>
    intro x b h
    rcases List.mem_cons.1 h with rfl | h
    · exact Nat.mod_lt _ (by decide)
    · exact ih _ _ h

theorem leNat_leBytes (n : Nat) : ∀ x, x < 256 ^ n → leNat (leBytes n x) = x := by
  induction n with
  | zero => intro x h; simp at h; simp [leBytes, leNat, h]
  | succ n ih =>
    intro x h
    rw [leBytes, leNat, ih _ (by rw [Nat.div_lt_iff_lt_mul (by decide)]; rw [Nat.pow_succ] at h; exact h)]
    omega

theorem reflect_lt (n : Nat) : ∀ x, reflect n x < 2 ^ n := by
  induction n with
  | zero => intro x; simp [reflect]
  | succ n ih =>
    intro x
    have h := ih (x / 2)
    have : x % 2 * 2 ^ n ≤ 1 * 2 ^ n := Nat.mul_le_mul_right _ (by omega)
    rw [reflect, Nat.pow_succ]
    omega

theorem crc32c_lt (l : List Nat) : crcOf crc32c l < 2 ^ 32 :=
  Nat.xor_lt_two_pow (reflect_lt 32 _) (by decide)

/-- A byte programmed where the memory is erased reads back. -/
theorem Mem.readN_programN (l : List Nat) : ∀ (m : Mem) (a : Nat), (∀ b, b ∈ l → b < 256) →
    (∀ c, a ≤ c → c < a + l.length → Mem.read 0xFF m c = 0xFF) → Mem.readN 0xFF (Mem.programN m a l) a l.length = l := by
  induction l with
  | nil => intro m a _ _; rfl
  | cons b r ih =>
    intro m a hb h
    simp only [List.length_cons] at h ⊢
    have hb0 : b < 256 := hb b (by simp)
    rw [Mem.readN, Mem.programN, Mem.read_programN_outside _ _ _ _ (by omega), ih _ _ (fun x hx => hb x (by simp [hx])) ?_]
    · rw [Mem.read_write_same, h a (by omega) (by omega)]
      have : (0xFF : Byte) &&& BitVec.ofNat 8 b = BitVec.ofNat 8 b := by
        rw [show (0xFF : Byte) = BitVec.allOnes 8 from rfl, BitVec.allOnes_and]
      rw [this, BitVec.toNat_ofNat, Nat.mod_eq_of_lt hb0]
    · intro c h1 h2
      rw [Mem.read_write_other _ _ _ _ _ (by omega)]
      exact h c (by omega) (by omega)

/-- Bytes read outside those programmed are as before. -/
theorem Mem.readN_programN_outside (l : List Nat) (m : Mem) (a : Nat) : ∀ (n c : Nat), (c + n ≤ a ∨ a + l.length ≤ c) →
    Mem.readN 0xFF (Mem.programN m a l) c n = Mem.readN 0xFF m c n := by
  intro n
  induction n with
  | zero => intro c _; rfl
  | succ n ih =>
    intro c h
    rw [Mem.readN, Mem.readN, Mem.read_programN_outside _ _ _ _ (by omega), ih _ (by omega)]

theorem Mem.length_readN (m : Mem) (n : Nat) : ∀ a, (Mem.readN 0xFF m a n).length = n := by
  induction n with
  | zero => intro a; rfl
  | succ n ih => intro a; rw [Mem.readN, List.length_cons, ih]

theorem Mem.readN_lt (m : Mem) (n : Nat) : ∀ a b, b ∈ Mem.readN 0xFF m a n → b < 256 := by
  induction n with
  | zero => intro a b h; simp [Mem.readN] at h
  | succ n ih =>
    intro a b h
    rcases List.mem_cons.1 h with rfl | h
    · exact BitVec.isLt _
    · exact ih _ _ h

/-- A part of the bytes read. -/
theorem Mem.readN_drop_take (m : Mem) (n : Nat) : ∀ (a i k : Nat), i + k ≤ n →
    ((Mem.readN 0xFF m a n).drop i).take k = Mem.readN 0xFF m (a + i) k := by
  induction n with
  | zero => intro a i k h; simp [show i = 0 by omega, show k = 0 by omega, Mem.readN]
  | succ n ih =>
    intro a i k h
    cases i with
    | succ i => rw [Mem.readN, List.drop_succ_cons, ih _ _ _ (by omega)]; congr 1; omega
    | zero =>
      cases k with
      | zero => rfl
      | succ k =>
        rw [Mem.readN, List.drop_zero, List.take_succ_cons, ← List.drop_zero (l := Mem.readN 0xFF m (a + 1) n), ih _ _ _ (by omega)]
        rfl

/-- The current sector of a pair is one of its two. -/
theorem State.calCurrent_eq (s : State) (q c : Nat) (h : s.calCurrent q = some c) : c = 1 + 2 * q ∨ c = 2 + 2 * q := by
  unfold State.calCurrent at h
  dsimp only at h
  split at h <;> simp at h
  · split at h <;> omega
  · omega
  · omega

/-- A pair's spare sector is one of its two, none of which is sector 0. -/
theorem State.calSpare_pos (s : State) (q : Nat) : 1 ≤ s.calSpare q := by
  unfold State.calSpare
  split
  · rename_i c h
    have := s.calCurrent_eq q c h
    omega
  · omega

theorem State.calImage_spec (s : State) (ain : Nat) (entry : List Nat) (hl : entry.length = 32) (hb : ∀ b, b ∈ entry → b < 256) :
    (s.calImage ain entry).1.length = 2048 ∧ (∀ b, b ∈ (s.calImage ain entry).1 → b < 256) ∧
    (((s.calImage ain entry).1.drop (32 * (ain % 64))).take 32 = entry) ∧
    ∃ g, (s.calImage ain entry).2 = le4 g ++ le4 (crcOf crc32c ((s.calImage ain entry).1 ++ le4 g)) := by
  have key : ∀ old : List Nat, old.length = 2048 → (∀ b, b ∈ old → b < 256) →
      (old.take (32 * (ain % 64)) ++ entry ++ old.drop (32 * (ain % 64) + 32)).length = 2048 ∧
      (∀ b, b ∈ old.take (32 * (ain % 64)) ++ entry ++ old.drop (32 * (ain % 64) + 32) → b < 256) ∧
      ((old.take (32 * (ain % 64)) ++ entry ++ old.drop (32 * (ain % 64) + 32)).drop (32 * (ain % 64))).take 32 = entry := by
    intro old ho hob
    have h64 : ain % 64 < 64 := Nat.mod_lt _ (by decide)
    refine ⟨by simp [ho, hl]; omega, ?_, ?_⟩
    · intro b hm
      simp only [List.mem_append] at hm
      rcases hm with (h | h) | h
      · exact hob _ (List.mem_of_mem_take h)
      · exact hb _ h
      · exact hob _ (List.mem_of_mem_drop h)
    · rw [List.append_assoc, List.drop_append_of_le_length (by simp [ho]; omega)]
      rw [List.drop_eq_nil_of_le (by simp), List.nil_append, List.take_append_of_le_length (by omega), List.take_of_length_le (by omega)]
  unfold State.calImage
  dsimp only
  split
  · rename_i c hc
    have h1 := s.calCurrent_eq _ _ hc
    have e : s.evRead (4096 * c) 2048 = Mem.readN 0xFF s.evNvm (4096 * c) 2048 := by rw [State.evRead, if_pos (by omega)]
    obtain ⟨k1, k2, k3⟩ := key (s.evRead (4096 * c) 2048) (by rw [e]; exact Mem.length_readN _ _ _)
      (fun b hb => Mem.readN_lt _ _ _ b (e ▸ hb))
    exact ⟨k1, k2, k3, s.calGen c + 1, rfl⟩
  · obtain ⟨k1, k2, k3⟩ := key (List.replicate 2048 0xFF) List.length_replicate
      (fun b hb => by rw [List.eq_of_mem_replicate hb]; decide)
    exact ⟨k1, k2, k3, 1, rfl⟩

/-- A storage into an erased spare reads back: the sector is valid and holds the entry. -/
theorem State.calHolds_of_ready (s : State) (ain : Nat) (entry : List Nat) (h : s.calReady (ain / 64) = true)
    (hl : entry.length = 32) (hb : ∀ b, b ∈ entry → b < 256) :
    (s.calStore ain entry).calHolds (s.calSpare (ain / 64)) ain entry = true := by
  obtain ⟨k1, k2, k3, g, k4⟩ := s.calImage_spec ain entry hl hb
  have hsp := s.calSpare_pos (ain / 64)
  generalize hb' : (s.calImage ain entry).1 = body at *
  generalize hsp' : s.calSpare (ain / 64) = sp at *
  have hfree : ∀ c, 4096 * sp ≤ c → c < 4096 * sp + 4096 → Mem.read 0xFF s.evNvm c = 0xFF := by
    intro c h1 h2
    unfold State.calReady at h
    rw [hsp'] at h
    simp only [Bool.and_eq_true, List.all_eq_true, Bool.or_eq_true, decide_eq_true_eq] at h
    unfold Mem.read Tab.get
    rw [show Tab.find s.evNvm c = none from ?_]
    · rfl
    · have h := h.2
      generalize s.evNvm = m at h
      induction m with
      | nil => rfl
      | cons x r ih =>
        have hx := h x (by simp)
        rw [Tab.find, if_neg (by omega)]
        exact ih (fun y hy => h y (by simp [hy]))
  have e : (s.calStore ain entry).evNvm = Mem.programN (Mem.programN (Mem.programN s.evNvm (4096 * sp) body) (4096 * sp + 4032)
      (le4 g ++ le4 (crcOf crc32c (body ++ le4 g)))) (4096 * sp + 4095) [0xA5] := by
    unfold State.calStore
    rw [hsp']
    have : s.calImage ain entry = (body, le4 g ++ le4 (crcOf crc32c (body ++ le4 g))) := Prod.ext hb' k4
    rw [this]
    dsimp only
    split <;> rfl
  have l4 : ∀ x, (le4 x).length = 4 := fun x => length_leBytes 4 x
  have rd : ∀ a n, 4096 ≤ a → (s.calStore ain entry).evRead a n = Mem.readN 0xFF (s.calStore ain entry).evNvm a n := by
    intro a n ha; rw [State.evRead, if_pos ha]
  have r1 : Mem.readN 0xFF (s.calStore ain entry).evNvm (4096 * sp + 4095) 1 = [0xA5] := by
    rw [e]
    exact Mem.readN_programN [0xA5] _ _ (by simp) (fun c h1 h2 => by
      simp only [List.length_cons, List.length_nil] at h2
      rw [Mem.read_programN_outside _ _ _ _ (by simp [l4]; omega), Mem.read_programN_outside _ _ _ _ (by omega)]
      exact hfree c (by omega) (by omega))
  have r2 : Mem.readN 0xFF (s.calStore ain entry).evNvm (4096 * sp) 2048 = body := by
    rw [e, Mem.readN_programN_outside _ _ _ _ _ (by simp), Mem.readN_programN_outside _ _ _ _ _ (by simp [l4]), ← k1]
    exact Mem.readN_programN body _ _ k2 (fun c h1 h2 => hfree c (by omega) (by omega))
  have r3 : Mem.readN 0xFF (s.calStore ain entry).evNvm (4096 * sp + 4032) 8 = le4 g ++ le4 (crcOf crc32c (body ++ le4 g)) := by
    rw [e, Mem.readN_programN_outside _ _ _ _ _ (by simp)]
    have := Mem.readN_programN (le4 g ++ le4 (crcOf crc32c (body ++ le4 g))) (Mem.programN s.evNvm (4096 * sp) body) (4096 * sp + 4032)
      (fun b hm => by rcases List.mem_append.1 hm with h | h <;> exact leBytes_lt 4 _ _ h)
      (fun c h1 h2 => by
        simp [l4] at h2
        rw [Mem.read_programN_outside _ _ _ _ (by omega)]
        exact hfree c (by omega) (by omega))
    simpa [l4] using this
  have r4 := Mem.readN_drop_take (s.calStore ain entry).evNvm 8 (4096 * sp + 4032) 0 4 (by omega)
  have r5 := Mem.readN_drop_take (s.calStore ain entry).evNvm 8 (4096 * sp + 4032) 4 4 (by omega)
  have r6 := Mem.readN_drop_take (s.calStore ain entry).evNvm 2048 (4096 * sp) (32 * (ain % 64)) 32 (by omega)
  rw [r3] at r4 r5
  rw [List.drop_zero, List.take_append_of_le_length (by simp [l4]), List.take_of_length_le (by simp [l4])] at r4
  rw [List.drop_append_of_le_length (by simp [l4]), List.drop_eq_nil_of_le (by simp [l4]), List.nil_append,
    List.take_of_length_le (by simp [l4])] at r5
  rw [r2, k3] at r6
  unfold State.calHolds State.calValid
  dsimp only
  rw [rd _ _ (by omega), rd _ _ (by omega), rd _ _ (by omega), rd _ _ (by omega), rd _ _ (by omega), r1, r2, ← r6,
    show 4096 * sp + 4032 + 4 = 4096 * sp + 4036 from rfl] at *
  rw [← r5, show 4096 * sp + 4032 = 4096 * sp + 4032 + 0 from rfl, ← r4, show leNat (le4 (crcOf crc32c (body ++ le4 g))) = _ from
    leNat_leBytes 4 _ (crc32c_lt _)]
  simp

end Sys2Proof.Machine
end

