-- ==== Sys2Proof/Laws/State.lean ====
section
/-! SUPPORT. Each update of the state, field by field: what it sets and what it leaves. -/

namespace Sys2Proof.Machine

variable (s : State)

/-! ## Fields that an update leaves, and the one it sets -/

@[simp] theorem State.setF_pending (f : Fld) (i v j : Nat) : (s.setF f i v j).pending = s.pending := rfl
@[simp] theorem State.setF_now (f : Fld) (i v j : Nat) : (s.setF f i v j).now = s.now := rfl
@[simp] theorem State.setF_free (f : Fld) (i v j : Nat) : (s.setF f i v j).free = s.free := rfl
@[simp] theorem State.setF_cfg (f : Fld) (i v j : Nat) : (s.setF f i v j).cfg = s.cfg := rfl
@[simp] theorem State.setF_oldCfg (f : Fld) (i v j : Nat) : (s.setF f i v j).oldCfg = s.oldCfg := rfl
@[simp] theorem State.setF_pins (f : Fld) (i v j : Nat) : (s.setF f i v j).pins = s.pins := rfl
@[simp] theorem State.setF_dev (f : Fld) (i v j : Nat) : (s.setF f i v j).dev = s.dev := rfl
@[simp] theorem State.setF_secs (f : Fld) (i v j : Nat) : (s.setF f i v j).secs = s.secs := rfl
@[simp] theorem State.setF_convs (f : Fld) (i v j : Nat) : (s.setF f i v j).convs = s.convs := rfl
@[simp] theorem State.setF_chains (f : Fld) (i v j : Nat) : (s.setF f i v j).chains = s.chains := rfl
@[simp] theorem State.setF_refs (f : Fld) (i v j : Nat) : (s.setF f i v j).refs = s.refs := rfl
@[simp] theorem State.setF_feeders (f : Fld) (i v j : Nat) : (s.setF f i v j).feeders = s.feeders := rfl
@[simp] theorem State.setF_engines (f : Fld) (i v j : Nat) : (s.setF f i v j).engines = s.engines := rfl
@[simp] theorem State.setF_plies (f : Fld) (i v j : Nat) : (s.setF f i v j).plies = s.plies := rfl
@[simp] theorem State.setF_sigs (f : Fld) (i v j : Nat) : (s.setF f i v j).sigs = s.sigs := rfl
@[simp] theorem State.setF_hidden (f : Fld) (i v j : Nat) : (s.setF f i v j).hidden = s.hidden := rfl
@[simp] theorem State.setF_forces (f : Fld) (i v j : Nat) : (s.setF f i v j).forces = s.forces := rfl
@[simp] theorem State.setF_cores (f : Fld) (i v j : Nat) : (s.setF f i v j).cores = s.cores := rfl
@[simp] theorem State.setF_lanes (f : Fld) (i v j : Nat) : (s.setF f i v j).lanes = s.lanes := rfl
@[simp] theorem State.setF_tiles (f : Fld) (i v j : Nat) : (s.setF f i v j).tiles = s.tiles := rfl
@[simp] theorem State.setF_tbs (f : Fld) (i v j : Nat) : (s.setF f i v j).tbs = s.tbs := rfl
@[simp] theorem State.setF_pubs (f : Fld) (i v j : Nat) : (s.setF f i v j).pubs = s.pubs := rfl
@[simp] theorem State.setF_svOuts (f : Fld) (i v j : Nat) : (s.setF f i v j).svOuts = s.svOuts := rfl
@[simp] theorem State.setF_subs (f : Fld) (i v j : Nat) : (s.setF f i v j).subs = s.subs := rfl
@[simp] theorem State.setF_pair (f : Fld) (i v j : Nat) : (s.setF f i v j).pair = s.pair := rfl
@[simp] theorem State.setF_log (f : Fld) (i v j : Nat) : (s.setF f i v j).log = s.log := rfl
@[simp] theorem State.setF_recs (f : Fld) (i v j : Nat) : (s.setF f i v j).recs = s.recs := rfl
@[simp] theorem State.setF_cks (f : Fld) (i v j : Nat) : (s.setF f i v j).cks = s.cks := rfl
@[simp] theorem State.setF_partners (f : Fld) (i v j : Nat) : (s.setF f i v j).partners = s.partners := rfl
@[simp] theorem State.setF_resps (f : Fld) (i v j : Nat) : (s.setF f i v j).resps = s.resps := rfl
@[simp] theorem State.setF_session (f : Fld) (i v j : Nat) : (s.setF f i v j).session = s.session := rfl
@[simp] theorem State.setF_change (f : Fld) (i v j : Nat) : (s.setF f i v j).change = s.change := rfl
@[simp] theorem State.setF_snaps (f : Fld) (i v j : Nat) : (s.setF f i v j).snaps = s.snaps := rfl
@[simp] theorem State.setF_cfgNvm (f : Fld) (i v j : Nat) : (s.setF f i v j).cfgNvm = s.cfgNvm := rfl
@[simp] theorem State.setF_evNvm (f : Fld) (i v j : Nat) : (s.setF f i v j).evNvm = s.evNvm := rfl
@[simp] theorem State.setF_ckBuf (f : Fld) (i v j : Nat) : (s.setF f i v j).ckBuf = s.ckBuf := rfl
@[simp] theorem State.setF_pkgBuf (f : Fld) (i v j : Nat) : (s.setF f i v j).pkgBuf = s.pkgBuf := rfl

@[simp] theorem State.updSec_pending (k : Nat) (f : SecSt → SecSt) : (s.updSec k f).pending = s.pending := rfl
@[simp] theorem State.updSec_now (k : Nat) (f : SecSt → SecSt) : (s.updSec k f).now = s.now := rfl
@[simp] theorem State.updSec_free (k : Nat) (f : SecSt → SecSt) : (s.updSec k f).free = s.free := rfl
@[simp] theorem State.updSec_regs (k : Nat) (f : SecSt → SecSt) : (s.updSec k f).regs = s.regs := rfl
@[simp] theorem State.updSec_cfg (k : Nat) (f : SecSt → SecSt) : (s.updSec k f).cfg = s.cfg := rfl
@[simp] theorem State.updSec_oldCfg (k : Nat) (f : SecSt → SecSt) : (s.updSec k f).oldCfg = s.oldCfg := rfl
@[simp] theorem State.updSec_pins (k : Nat) (f : SecSt → SecSt) : (s.updSec k f).pins = s.pins := rfl
@[simp] theorem State.updSec_dev (k : Nat) (f : SecSt → SecSt) : (s.updSec k f).dev = s.dev := rfl
@[simp] theorem State.updSec_convs (k : Nat) (f : SecSt → SecSt) : (s.updSec k f).convs = s.convs := rfl
@[simp] theorem State.updSec_chains (k : Nat) (f : SecSt → SecSt) : (s.updSec k f).chains = s.chains := rfl
@[simp] theorem State.updSec_refs (k : Nat) (f : SecSt → SecSt) : (s.updSec k f).refs = s.refs := rfl
@[simp] theorem State.updSec_feeders (k : Nat) (f : SecSt → SecSt) : (s.updSec k f).feeders = s.feeders := rfl
@[simp] theorem State.updSec_engines (k : Nat) (f : SecSt → SecSt) : (s.updSec k f).engines = s.engines := rfl
@[simp] theorem State.updSec_plies (k : Nat) (f : SecSt → SecSt) : (s.updSec k f).plies = s.plies := rfl
@[simp] theorem State.updSec_sigs (k : Nat) (f : SecSt → SecSt) : (s.updSec k f).sigs = s.sigs := rfl
@[simp] theorem State.updSec_hidden (k : Nat) (f : SecSt → SecSt) : (s.updSec k f).hidden = s.hidden := rfl
@[simp] theorem State.updSec_forces (k : Nat) (f : SecSt → SecSt) : (s.updSec k f).forces = s.forces := rfl
@[simp] theorem State.updSec_cores (k : Nat) (f : SecSt → SecSt) : (s.updSec k f).cores = s.cores := rfl
@[simp] theorem State.updSec_lanes (k : Nat) (f : SecSt → SecSt) : (s.updSec k f).lanes = s.lanes := rfl
@[simp] theorem State.updSec_tiles (k : Nat) (f : SecSt → SecSt) : (s.updSec k f).tiles = s.tiles := rfl
@[simp] theorem State.updSec_tbs (k : Nat) (f : SecSt → SecSt) : (s.updSec k f).tbs = s.tbs := rfl
@[simp] theorem State.updSec_pubs (k : Nat) (f : SecSt → SecSt) : (s.updSec k f).pubs = s.pubs := rfl
@[simp] theorem State.updSec_svOuts (k : Nat) (f : SecSt → SecSt) : (s.updSec k f).svOuts = s.svOuts := rfl
@[simp] theorem State.updSec_subs (k : Nat) (f : SecSt → SecSt) : (s.updSec k f).subs = s.subs := rfl
@[simp] theorem State.updSec_pair (k : Nat) (f : SecSt → SecSt) : (s.updSec k f).pair = s.pair := rfl
@[simp] theorem State.updSec_log (k : Nat) (f : SecSt → SecSt) : (s.updSec k f).log = s.log := rfl
@[simp] theorem State.updSec_recs (k : Nat) (f : SecSt → SecSt) : (s.updSec k f).recs = s.recs := rfl
@[simp] theorem State.updSec_cks (k : Nat) (f : SecSt → SecSt) : (s.updSec k f).cks = s.cks := rfl
@[simp] theorem State.updSec_partners (k : Nat) (f : SecSt → SecSt) : (s.updSec k f).partners = s.partners := rfl
@[simp] theorem State.updSec_resps (k : Nat) (f : SecSt → SecSt) : (s.updSec k f).resps = s.resps := rfl
@[simp] theorem State.updSec_session (k : Nat) (f : SecSt → SecSt) : (s.updSec k f).session = s.session := rfl
@[simp] theorem State.updSec_change (k : Nat) (f : SecSt → SecSt) : (s.updSec k f).change = s.change := rfl
@[simp] theorem State.updSec_snaps (k : Nat) (f : SecSt → SecSt) : (s.updSec k f).snaps = s.snaps := rfl
@[simp] theorem State.updSec_cfgNvm (k : Nat) (f : SecSt → SecSt) : (s.updSec k f).cfgNvm = s.cfgNvm := rfl
@[simp] theorem State.updSec_evNvm (k : Nat) (f : SecSt → SecSt) : (s.updSec k f).evNvm = s.evNvm := rfl
@[simp] theorem State.updSec_w1c (k : Nat) (f : SecSt → SecSt) : (s.updSec k f).w1c = s.w1c := rfl
@[simp] theorem State.updSec_ckBuf (k : Nat) (f : SecSt → SecSt) : (s.updSec k f).ckBuf = s.ckBuf := rfl
@[simp] theorem State.updSec_pkgBuf (k : Nat) (f : SecSt → SecSt) : (s.updSec k f).pkgBuf = s.pkgBuf := rfl

@[simp] theorem State.updConv_pending (k : Nat) (f : ConvSt → ConvSt) : (s.updConv k f).pending = s.pending := rfl
@[simp] theorem State.updConv_now (k : Nat) (f : ConvSt → ConvSt) : (s.updConv k f).now = s.now := rfl
@[simp] theorem State.updConv_free (k : Nat) (f : ConvSt → ConvSt) : (s.updConv k f).free = s.free := rfl
@[simp] theorem State.updConv_regs (k : Nat) (f : ConvSt → ConvSt) : (s.updConv k f).regs = s.regs := rfl
@[simp] theorem State.updConv_cfg (k : Nat) (f : ConvSt → ConvSt) : (s.updConv k f).cfg = s.cfg := rfl
@[simp] theorem State.updConv_oldCfg (k : Nat) (f : ConvSt → ConvSt) : (s.updConv k f).oldCfg = s.oldCfg := rfl
@[simp] theorem State.updConv_pins (k : Nat) (f : ConvSt → ConvSt) : (s.updConv k f).pins = s.pins := rfl
@[simp] theorem State.updConv_dev (k : Nat) (f : ConvSt → ConvSt) : (s.updConv k f).dev = s.dev := rfl
@[simp] theorem State.updConv_secs (k : Nat) (f : ConvSt → ConvSt) : (s.updConv k f).secs = s.secs := rfl
@[simp] theorem State.updConv_chains (k : Nat) (f : ConvSt → ConvSt) : (s.updConv k f).chains = s.chains := rfl
@[simp] theorem State.updConv_refs (k : Nat) (f : ConvSt → ConvSt) : (s.updConv k f).refs = s.refs := rfl
@[simp] theorem State.updConv_feeders (k : Nat) (f : ConvSt → ConvSt) : (s.updConv k f).feeders = s.feeders := rfl
@[simp] theorem State.updConv_engines (k : Nat) (f : ConvSt → ConvSt) : (s.updConv k f).engines = s.engines := rfl
@[simp] theorem State.updConv_plies (k : Nat) (f : ConvSt → ConvSt) : (s.updConv k f).plies = s.plies := rfl
@[simp] theorem State.updConv_sigs (k : Nat) (f : ConvSt → ConvSt) : (s.updConv k f).sigs = s.sigs := rfl
@[simp] theorem State.updConv_hidden (k : Nat) (f : ConvSt → ConvSt) : (s.updConv k f).hidden = s.hidden := rfl
@[simp] theorem State.updConv_forces (k : Nat) (f : ConvSt → ConvSt) : (s.updConv k f).forces = s.forces := rfl
@[simp] theorem State.updConv_cores (k : Nat) (f : ConvSt → ConvSt) : (s.updConv k f).cores = s.cores := rfl
@[simp] theorem State.updConv_lanes (k : Nat) (f : ConvSt → ConvSt) : (s.updConv k f).lanes = s.lanes := rfl
@[simp] theorem State.updConv_tiles (k : Nat) (f : ConvSt → ConvSt) : (s.updConv k f).tiles = s.tiles := rfl
@[simp] theorem State.updConv_tbs (k : Nat) (f : ConvSt → ConvSt) : (s.updConv k f).tbs = s.tbs := rfl
@[simp] theorem State.updConv_pubs (k : Nat) (f : ConvSt → ConvSt) : (s.updConv k f).pubs = s.pubs := rfl
@[simp] theorem State.updConv_svOuts (k : Nat) (f : ConvSt → ConvSt) : (s.updConv k f).svOuts = s.svOuts := rfl
@[simp] theorem State.updConv_subs (k : Nat) (f : ConvSt → ConvSt) : (s.updConv k f).subs = s.subs := rfl
@[simp] theorem State.updConv_pair (k : Nat) (f : ConvSt → ConvSt) : (s.updConv k f).pair = s.pair := rfl
@[simp] theorem State.updConv_log (k : Nat) (f : ConvSt → ConvSt) : (s.updConv k f).log = s.log := rfl
@[simp] theorem State.updConv_recs (k : Nat) (f : ConvSt → ConvSt) : (s.updConv k f).recs = s.recs := rfl
@[simp] theorem State.updConv_cks (k : Nat) (f : ConvSt → ConvSt) : (s.updConv k f).cks = s.cks := rfl
@[simp] theorem State.updConv_partners (k : Nat) (f : ConvSt → ConvSt) : (s.updConv k f).partners = s.partners := rfl
@[simp] theorem State.updConv_resps (k : Nat) (f : ConvSt → ConvSt) : (s.updConv k f).resps = s.resps := rfl
@[simp] theorem State.updConv_session (k : Nat) (f : ConvSt → ConvSt) : (s.updConv k f).session = s.session := rfl
@[simp] theorem State.updConv_change (k : Nat) (f : ConvSt → ConvSt) : (s.updConv k f).change = s.change := rfl
@[simp] theorem State.updConv_snaps (k : Nat) (f : ConvSt → ConvSt) : (s.updConv k f).snaps = s.snaps := rfl
@[simp] theorem State.updConv_cfgNvm (k : Nat) (f : ConvSt → ConvSt) : (s.updConv k f).cfgNvm = s.cfgNvm := rfl
@[simp] theorem State.updConv_evNvm (k : Nat) (f : ConvSt → ConvSt) : (s.updConv k f).evNvm = s.evNvm := rfl
@[simp] theorem State.updConv_w1c (k : Nat) (f : ConvSt → ConvSt) : (s.updConv k f).w1c = s.w1c := rfl
@[simp] theorem State.updConv_ckBuf (k : Nat) (f : ConvSt → ConvSt) : (s.updConv k f).ckBuf = s.ckBuf := rfl
@[simp] theorem State.updConv_pkgBuf (k : Nat) (f : ConvSt → ConvSt) : (s.updConv k f).pkgBuf = s.pkgBuf := rfl

@[simp] theorem State.updChain_pending (k : Nat) (f : ChainSt → ChainSt) : (s.updChain k f).pending = s.pending := rfl
@[simp] theorem State.updChain_now (k : Nat) (f : ChainSt → ChainSt) : (s.updChain k f).now = s.now := rfl
@[simp] theorem State.updChain_free (k : Nat) (f : ChainSt → ChainSt) : (s.updChain k f).free = s.free := rfl
@[simp] theorem State.updChain_regs (k : Nat) (f : ChainSt → ChainSt) : (s.updChain k f).regs = s.regs := rfl
@[simp] theorem State.updChain_cfg (k : Nat) (f : ChainSt → ChainSt) : (s.updChain k f).cfg = s.cfg := rfl
@[simp] theorem State.updChain_oldCfg (k : Nat) (f : ChainSt → ChainSt) : (s.updChain k f).oldCfg = s.oldCfg := rfl
@[simp] theorem State.updChain_pins (k : Nat) (f : ChainSt → ChainSt) : (s.updChain k f).pins = s.pins := rfl
@[simp] theorem State.updChain_dev (k : Nat) (f : ChainSt → ChainSt) : (s.updChain k f).dev = s.dev := rfl
@[simp] theorem State.updChain_secs (k : Nat) (f : ChainSt → ChainSt) : (s.updChain k f).secs = s.secs := rfl
@[simp] theorem State.updChain_convs (k : Nat) (f : ChainSt → ChainSt) : (s.updChain k f).convs = s.convs := rfl
@[simp] theorem State.updChain_refs (k : Nat) (f : ChainSt → ChainSt) : (s.updChain k f).refs = s.refs := rfl
@[simp] theorem State.updChain_feeders (k : Nat) (f : ChainSt → ChainSt) : (s.updChain k f).feeders = s.feeders := rfl
@[simp] theorem State.updChain_engines (k : Nat) (f : ChainSt → ChainSt) : (s.updChain k f).engines = s.engines := rfl
@[simp] theorem State.updChain_plies (k : Nat) (f : ChainSt → ChainSt) : (s.updChain k f).plies = s.plies := rfl
@[simp] theorem State.updChain_sigs (k : Nat) (f : ChainSt → ChainSt) : (s.updChain k f).sigs = s.sigs := rfl
@[simp] theorem State.updChain_hidden (k : Nat) (f : ChainSt → ChainSt) : (s.updChain k f).hidden = s.hidden := rfl
@[simp] theorem State.updChain_forces (k : Nat) (f : ChainSt → ChainSt) : (s.updChain k f).forces = s.forces := rfl
@[simp] theorem State.updChain_cores (k : Nat) (f : ChainSt → ChainSt) : (s.updChain k f).cores = s.cores := rfl
@[simp] theorem State.updChain_lanes (k : Nat) (f : ChainSt → ChainSt) : (s.updChain k f).lanes = s.lanes := rfl
@[simp] theorem State.updChain_tiles (k : Nat) (f : ChainSt → ChainSt) : (s.updChain k f).tiles = s.tiles := rfl
@[simp] theorem State.updChain_tbs (k : Nat) (f : ChainSt → ChainSt) : (s.updChain k f).tbs = s.tbs := rfl
@[simp] theorem State.updChain_pubs (k : Nat) (f : ChainSt → ChainSt) : (s.updChain k f).pubs = s.pubs := rfl
@[simp] theorem State.updChain_svOuts (k : Nat) (f : ChainSt → ChainSt) : (s.updChain k f).svOuts = s.svOuts := rfl
@[simp] theorem State.updChain_subs (k : Nat) (f : ChainSt → ChainSt) : (s.updChain k f).subs = s.subs := rfl
@[simp] theorem State.updChain_pair (k : Nat) (f : ChainSt → ChainSt) : (s.updChain k f).pair = s.pair := rfl
@[simp] theorem State.updChain_log (k : Nat) (f : ChainSt → ChainSt) : (s.updChain k f).log = s.log := rfl
@[simp] theorem State.updChain_recs (k : Nat) (f : ChainSt → ChainSt) : (s.updChain k f).recs = s.recs := rfl
@[simp] theorem State.updChain_cks (k : Nat) (f : ChainSt → ChainSt) : (s.updChain k f).cks = s.cks := rfl
@[simp] theorem State.updChain_partners (k : Nat) (f : ChainSt → ChainSt) : (s.updChain k f).partners = s.partners := rfl
@[simp] theorem State.updChain_resps (k : Nat) (f : ChainSt → ChainSt) : (s.updChain k f).resps = s.resps := rfl
@[simp] theorem State.updChain_session (k : Nat) (f : ChainSt → ChainSt) : (s.updChain k f).session = s.session := rfl
@[simp] theorem State.updChain_change (k : Nat) (f : ChainSt → ChainSt) : (s.updChain k f).change = s.change := rfl
@[simp] theorem State.updChain_snaps (k : Nat) (f : ChainSt → ChainSt) : (s.updChain k f).snaps = s.snaps := rfl
@[simp] theorem State.updChain_cfgNvm (k : Nat) (f : ChainSt → ChainSt) : (s.updChain k f).cfgNvm = s.cfgNvm := rfl
@[simp] theorem State.updChain_evNvm (k : Nat) (f : ChainSt → ChainSt) : (s.updChain k f).evNvm = s.evNvm := rfl
@[simp] theorem State.updChain_w1c (k : Nat) (f : ChainSt → ChainSt) : (s.updChain k f).w1c = s.w1c := rfl
@[simp] theorem State.updChain_ckBuf (k : Nat) (f : ChainSt → ChainSt) : (s.updChain k f).ckBuf = s.ckBuf := rfl
@[simp] theorem State.updChain_pkgBuf (k : Nat) (f : ChainSt → ChainSt) : (s.updChain k f).pkgBuf = s.pkgBuf := rfl

@[simp] theorem State.updRef_pending (k : Nat) (f : RefSt → RefSt) : (s.updRef k f).pending = s.pending := rfl
@[simp] theorem State.updRef_now (k : Nat) (f : RefSt → RefSt) : (s.updRef k f).now = s.now := rfl
@[simp] theorem State.updRef_free (k : Nat) (f : RefSt → RefSt) : (s.updRef k f).free = s.free := rfl
@[simp] theorem State.updRef_regs (k : Nat) (f : RefSt → RefSt) : (s.updRef k f).regs = s.regs := rfl
@[simp] theorem State.updRef_cfg (k : Nat) (f : RefSt → RefSt) : (s.updRef k f).cfg = s.cfg := rfl
@[simp] theorem State.updRef_oldCfg (k : Nat) (f : RefSt → RefSt) : (s.updRef k f).oldCfg = s.oldCfg := rfl
@[simp] theorem State.updRef_pins (k : Nat) (f : RefSt → RefSt) : (s.updRef k f).pins = s.pins := rfl
@[simp] theorem State.updRef_dev (k : Nat) (f : RefSt → RefSt) : (s.updRef k f).dev = s.dev := rfl
@[simp] theorem State.updRef_secs (k : Nat) (f : RefSt → RefSt) : (s.updRef k f).secs = s.secs := rfl
@[simp] theorem State.updRef_convs (k : Nat) (f : RefSt → RefSt) : (s.updRef k f).convs = s.convs := rfl
@[simp] theorem State.updRef_chains (k : Nat) (f : RefSt → RefSt) : (s.updRef k f).chains = s.chains := rfl
@[simp] theorem State.updRef_feeders (k : Nat) (f : RefSt → RefSt) : (s.updRef k f).feeders = s.feeders := rfl
@[simp] theorem State.updRef_engines (k : Nat) (f : RefSt → RefSt) : (s.updRef k f).engines = s.engines := rfl
@[simp] theorem State.updRef_plies (k : Nat) (f : RefSt → RefSt) : (s.updRef k f).plies = s.plies := rfl
@[simp] theorem State.updRef_sigs (k : Nat) (f : RefSt → RefSt) : (s.updRef k f).sigs = s.sigs := rfl
@[simp] theorem State.updRef_hidden (k : Nat) (f : RefSt → RefSt) : (s.updRef k f).hidden = s.hidden := rfl
@[simp] theorem State.updRef_forces (k : Nat) (f : RefSt → RefSt) : (s.updRef k f).forces = s.forces := rfl
@[simp] theorem State.updRef_cores (k : Nat) (f : RefSt → RefSt) : (s.updRef k f).cores = s.cores := rfl
@[simp] theorem State.updRef_lanes (k : Nat) (f : RefSt → RefSt) : (s.updRef k f).lanes = s.lanes := rfl
@[simp] theorem State.updRef_tiles (k : Nat) (f : RefSt → RefSt) : (s.updRef k f).tiles = s.tiles := rfl
@[simp] theorem State.updRef_tbs (k : Nat) (f : RefSt → RefSt) : (s.updRef k f).tbs = s.tbs := rfl
@[simp] theorem State.updRef_pubs (k : Nat) (f : RefSt → RefSt) : (s.updRef k f).pubs = s.pubs := rfl
@[simp] theorem State.updRef_svOuts (k : Nat) (f : RefSt → RefSt) : (s.updRef k f).svOuts = s.svOuts := rfl
@[simp] theorem State.updRef_subs (k : Nat) (f : RefSt → RefSt) : (s.updRef k f).subs = s.subs := rfl
@[simp] theorem State.updRef_pair (k : Nat) (f : RefSt → RefSt) : (s.updRef k f).pair = s.pair := rfl
@[simp] theorem State.updRef_log (k : Nat) (f : RefSt → RefSt) : (s.updRef k f).log = s.log := rfl
@[simp] theorem State.updRef_recs (k : Nat) (f : RefSt → RefSt) : (s.updRef k f).recs = s.recs := rfl
@[simp] theorem State.updRef_cks (k : Nat) (f : RefSt → RefSt) : (s.updRef k f).cks = s.cks := rfl
@[simp] theorem State.updRef_partners (k : Nat) (f : RefSt → RefSt) : (s.updRef k f).partners = s.partners := rfl
@[simp] theorem State.updRef_resps (k : Nat) (f : RefSt → RefSt) : (s.updRef k f).resps = s.resps := rfl
@[simp] theorem State.updRef_session (k : Nat) (f : RefSt → RefSt) : (s.updRef k f).session = s.session := rfl
@[simp] theorem State.updRef_change (k : Nat) (f : RefSt → RefSt) : (s.updRef k f).change = s.change := rfl
@[simp] theorem State.updRef_snaps (k : Nat) (f : RefSt → RefSt) : (s.updRef k f).snaps = s.snaps := rfl
@[simp] theorem State.updRef_cfgNvm (k : Nat) (f : RefSt → RefSt) : (s.updRef k f).cfgNvm = s.cfgNvm := rfl
@[simp] theorem State.updRef_evNvm (k : Nat) (f : RefSt → RefSt) : (s.updRef k f).evNvm = s.evNvm := rfl
@[simp] theorem State.updRef_w1c (k : Nat) (f : RefSt → RefSt) : (s.updRef k f).w1c = s.w1c := rfl
@[simp] theorem State.updRef_ckBuf (k : Nat) (f : RefSt → RefSt) : (s.updRef k f).ckBuf = s.ckBuf := rfl
@[simp] theorem State.updRef_pkgBuf (k : Nat) (f : RefSt → RefSt) : (s.updRef k f).pkgBuf = s.pkgBuf := rfl

@[simp] theorem State.updFeeder_pending (k : Nat) (f : FeederSt → FeederSt) : (s.updFeeder k f).pending = s.pending := rfl
@[simp] theorem State.updFeeder_now (k : Nat) (f : FeederSt → FeederSt) : (s.updFeeder k f).now = s.now := rfl
@[simp] theorem State.updFeeder_free (k : Nat) (f : FeederSt → FeederSt) : (s.updFeeder k f).free = s.free := rfl
@[simp] theorem State.updFeeder_regs (k : Nat) (f : FeederSt → FeederSt) : (s.updFeeder k f).regs = s.regs := rfl
@[simp] theorem State.updFeeder_cfg (k : Nat) (f : FeederSt → FeederSt) : (s.updFeeder k f).cfg = s.cfg := rfl
@[simp] theorem State.updFeeder_oldCfg (k : Nat) (f : FeederSt → FeederSt) : (s.updFeeder k f).oldCfg = s.oldCfg := rfl
@[simp] theorem State.updFeeder_pins (k : Nat) (f : FeederSt → FeederSt) : (s.updFeeder k f).pins = s.pins := rfl
@[simp] theorem State.updFeeder_dev (k : Nat) (f : FeederSt → FeederSt) : (s.updFeeder k f).dev = s.dev := rfl
@[simp] theorem State.updFeeder_secs (k : Nat) (f : FeederSt → FeederSt) : (s.updFeeder k f).secs = s.secs := rfl
@[simp] theorem State.updFeeder_convs (k : Nat) (f : FeederSt → FeederSt) : (s.updFeeder k f).convs = s.convs := rfl
@[simp] theorem State.updFeeder_chains (k : Nat) (f : FeederSt → FeederSt) : (s.updFeeder k f).chains = s.chains := rfl
@[simp] theorem State.updFeeder_refs (k : Nat) (f : FeederSt → FeederSt) : (s.updFeeder k f).refs = s.refs := rfl
@[simp] theorem State.updFeeder_engines (k : Nat) (f : FeederSt → FeederSt) : (s.updFeeder k f).engines = s.engines := rfl
@[simp] theorem State.updFeeder_plies (k : Nat) (f : FeederSt → FeederSt) : (s.updFeeder k f).plies = s.plies := rfl
@[simp] theorem State.updFeeder_sigs (k : Nat) (f : FeederSt → FeederSt) : (s.updFeeder k f).sigs = s.sigs := rfl
@[simp] theorem State.updFeeder_hidden (k : Nat) (f : FeederSt → FeederSt) : (s.updFeeder k f).hidden = s.hidden := rfl
@[simp] theorem State.updFeeder_forces (k : Nat) (f : FeederSt → FeederSt) : (s.updFeeder k f).forces = s.forces := rfl
@[simp] theorem State.updFeeder_cores (k : Nat) (f : FeederSt → FeederSt) : (s.updFeeder k f).cores = s.cores := rfl
@[simp] theorem State.updFeeder_lanes (k : Nat) (f : FeederSt → FeederSt) : (s.updFeeder k f).lanes = s.lanes := rfl
@[simp] theorem State.updFeeder_tiles (k : Nat) (f : FeederSt → FeederSt) : (s.updFeeder k f).tiles = s.tiles := rfl
@[simp] theorem State.updFeeder_tbs (k : Nat) (f : FeederSt → FeederSt) : (s.updFeeder k f).tbs = s.tbs := rfl
@[simp] theorem State.updFeeder_pubs (k : Nat) (f : FeederSt → FeederSt) : (s.updFeeder k f).pubs = s.pubs := rfl
@[simp] theorem State.updFeeder_svOuts (k : Nat) (f : FeederSt → FeederSt) : (s.updFeeder k f).svOuts = s.svOuts := rfl
@[simp] theorem State.updFeeder_subs (k : Nat) (f : FeederSt → FeederSt) : (s.updFeeder k f).subs = s.subs := rfl
@[simp] theorem State.updFeeder_pair (k : Nat) (f : FeederSt → FeederSt) : (s.updFeeder k f).pair = s.pair := rfl
@[simp] theorem State.updFeeder_log (k : Nat) (f : FeederSt → FeederSt) : (s.updFeeder k f).log = s.log := rfl
@[simp] theorem State.updFeeder_recs (k : Nat) (f : FeederSt → FeederSt) : (s.updFeeder k f).recs = s.recs := rfl
@[simp] theorem State.updFeeder_cks (k : Nat) (f : FeederSt → FeederSt) : (s.updFeeder k f).cks = s.cks := rfl
@[simp] theorem State.updFeeder_partners (k : Nat) (f : FeederSt → FeederSt) : (s.updFeeder k f).partners = s.partners := rfl
@[simp] theorem State.updFeeder_resps (k : Nat) (f : FeederSt → FeederSt) : (s.updFeeder k f).resps = s.resps := rfl
@[simp] theorem State.updFeeder_session (k : Nat) (f : FeederSt → FeederSt) : (s.updFeeder k f).session = s.session := rfl
@[simp] theorem State.updFeeder_change (k : Nat) (f : FeederSt → FeederSt) : (s.updFeeder k f).change = s.change := rfl
@[simp] theorem State.updFeeder_snaps (k : Nat) (f : FeederSt → FeederSt) : (s.updFeeder k f).snaps = s.snaps := rfl
@[simp] theorem State.updFeeder_cfgNvm (k : Nat) (f : FeederSt → FeederSt) : (s.updFeeder k f).cfgNvm = s.cfgNvm := rfl
@[simp] theorem State.updFeeder_evNvm (k : Nat) (f : FeederSt → FeederSt) : (s.updFeeder k f).evNvm = s.evNvm := rfl
@[simp] theorem State.updFeeder_w1c (k : Nat) (f : FeederSt → FeederSt) : (s.updFeeder k f).w1c = s.w1c := rfl
@[simp] theorem State.updFeeder_ckBuf (k : Nat) (f : FeederSt → FeederSt) : (s.updFeeder k f).ckBuf = s.ckBuf := rfl
@[simp] theorem State.updFeeder_pkgBuf (k : Nat) (f : FeederSt → FeederSt) : (s.updFeeder k f).pkgBuf = s.pkgBuf := rfl

@[simp] theorem State.updEngine_pending (k : Nat) (f : EngSt → EngSt) : (s.updEngine k f).pending = s.pending := rfl
@[simp] theorem State.updEngine_now (k : Nat) (f : EngSt → EngSt) : (s.updEngine k f).now = s.now := rfl
@[simp] theorem State.updEngine_free (k : Nat) (f : EngSt → EngSt) : (s.updEngine k f).free = s.free := rfl
@[simp] theorem State.updEngine_regs (k : Nat) (f : EngSt → EngSt) : (s.updEngine k f).regs = s.regs := rfl
@[simp] theorem State.updEngine_cfg (k : Nat) (f : EngSt → EngSt) : (s.updEngine k f).cfg = s.cfg := rfl
@[simp] theorem State.updEngine_oldCfg (k : Nat) (f : EngSt → EngSt) : (s.updEngine k f).oldCfg = s.oldCfg := rfl
@[simp] theorem State.updEngine_pins (k : Nat) (f : EngSt → EngSt) : (s.updEngine k f).pins = s.pins := rfl
@[simp] theorem State.updEngine_dev (k : Nat) (f : EngSt → EngSt) : (s.updEngine k f).dev = s.dev := rfl
@[simp] theorem State.updEngine_secs (k : Nat) (f : EngSt → EngSt) : (s.updEngine k f).secs = s.secs := rfl
@[simp] theorem State.updEngine_convs (k : Nat) (f : EngSt → EngSt) : (s.updEngine k f).convs = s.convs := rfl
@[simp] theorem State.updEngine_chains (k : Nat) (f : EngSt → EngSt) : (s.updEngine k f).chains = s.chains := rfl
@[simp] theorem State.updEngine_refs (k : Nat) (f : EngSt → EngSt) : (s.updEngine k f).refs = s.refs := rfl
@[simp] theorem State.updEngine_feeders (k : Nat) (f : EngSt → EngSt) : (s.updEngine k f).feeders = s.feeders := rfl
@[simp] theorem State.updEngine_plies (k : Nat) (f : EngSt → EngSt) : (s.updEngine k f).plies = s.plies := rfl
@[simp] theorem State.updEngine_sigs (k : Nat) (f : EngSt → EngSt) : (s.updEngine k f).sigs = s.sigs := rfl
@[simp] theorem State.updEngine_hidden (k : Nat) (f : EngSt → EngSt) : (s.updEngine k f).hidden = s.hidden := rfl
@[simp] theorem State.updEngine_forces (k : Nat) (f : EngSt → EngSt) : (s.updEngine k f).forces = s.forces := rfl
@[simp] theorem State.updEngine_cores (k : Nat) (f : EngSt → EngSt) : (s.updEngine k f).cores = s.cores := rfl
@[simp] theorem State.updEngine_lanes (k : Nat) (f : EngSt → EngSt) : (s.updEngine k f).lanes = s.lanes := rfl
@[simp] theorem State.updEngine_tiles (k : Nat) (f : EngSt → EngSt) : (s.updEngine k f).tiles = s.tiles := rfl
@[simp] theorem State.updEngine_tbs (k : Nat) (f : EngSt → EngSt) : (s.updEngine k f).tbs = s.tbs := rfl
@[simp] theorem State.updEngine_pubs (k : Nat) (f : EngSt → EngSt) : (s.updEngine k f).pubs = s.pubs := rfl
@[simp] theorem State.updEngine_svOuts (k : Nat) (f : EngSt → EngSt) : (s.updEngine k f).svOuts = s.svOuts := rfl
@[simp] theorem State.updEngine_subs (k : Nat) (f : EngSt → EngSt) : (s.updEngine k f).subs = s.subs := rfl
@[simp] theorem State.updEngine_pair (k : Nat) (f : EngSt → EngSt) : (s.updEngine k f).pair = s.pair := rfl
@[simp] theorem State.updEngine_log (k : Nat) (f : EngSt → EngSt) : (s.updEngine k f).log = s.log := rfl
@[simp] theorem State.updEngine_recs (k : Nat) (f : EngSt → EngSt) : (s.updEngine k f).recs = s.recs := rfl
@[simp] theorem State.updEngine_cks (k : Nat) (f : EngSt → EngSt) : (s.updEngine k f).cks = s.cks := rfl
@[simp] theorem State.updEngine_partners (k : Nat) (f : EngSt → EngSt) : (s.updEngine k f).partners = s.partners := rfl
@[simp] theorem State.updEngine_resps (k : Nat) (f : EngSt → EngSt) : (s.updEngine k f).resps = s.resps := rfl
@[simp] theorem State.updEngine_session (k : Nat) (f : EngSt → EngSt) : (s.updEngine k f).session = s.session := rfl
@[simp] theorem State.updEngine_change (k : Nat) (f : EngSt → EngSt) : (s.updEngine k f).change = s.change := rfl
@[simp] theorem State.updEngine_snaps (k : Nat) (f : EngSt → EngSt) : (s.updEngine k f).snaps = s.snaps := rfl
@[simp] theorem State.updEngine_cfgNvm (k : Nat) (f : EngSt → EngSt) : (s.updEngine k f).cfgNvm = s.cfgNvm := rfl
@[simp] theorem State.updEngine_evNvm (k : Nat) (f : EngSt → EngSt) : (s.updEngine k f).evNvm = s.evNvm := rfl
@[simp] theorem State.updEngine_w1c (k : Nat) (f : EngSt → EngSt) : (s.updEngine k f).w1c = s.w1c := rfl
@[simp] theorem State.updEngine_ckBuf (k : Nat) (f : EngSt → EngSt) : (s.updEngine k f).ckBuf = s.ckBuf := rfl
@[simp] theorem State.updEngine_pkgBuf (k : Nat) (f : EngSt → EngSt) : (s.updEngine k f).pkgBuf = s.pkgBuf := rfl

@[simp] theorem State.updCore_pending (k : Nat) (f : CoreSt → CoreSt) : (s.updCore k f).pending = s.pending := rfl
@[simp] theorem State.updCore_now (k : Nat) (f : CoreSt → CoreSt) : (s.updCore k f).now = s.now := rfl
@[simp] theorem State.updCore_free (k : Nat) (f : CoreSt → CoreSt) : (s.updCore k f).free = s.free := rfl
@[simp] theorem State.updCore_regs (k : Nat) (f : CoreSt → CoreSt) : (s.updCore k f).regs = s.regs := rfl
@[simp] theorem State.updCore_cfg (k : Nat) (f : CoreSt → CoreSt) : (s.updCore k f).cfg = s.cfg := rfl
@[simp] theorem State.updCore_oldCfg (k : Nat) (f : CoreSt → CoreSt) : (s.updCore k f).oldCfg = s.oldCfg := rfl
@[simp] theorem State.updCore_pins (k : Nat) (f : CoreSt → CoreSt) : (s.updCore k f).pins = s.pins := rfl
@[simp] theorem State.updCore_dev (k : Nat) (f : CoreSt → CoreSt) : (s.updCore k f).dev = s.dev := rfl
@[simp] theorem State.updCore_secs (k : Nat) (f : CoreSt → CoreSt) : (s.updCore k f).secs = s.secs := rfl
@[simp] theorem State.updCore_convs (k : Nat) (f : CoreSt → CoreSt) : (s.updCore k f).convs = s.convs := rfl
@[simp] theorem State.updCore_chains (k : Nat) (f : CoreSt → CoreSt) : (s.updCore k f).chains = s.chains := rfl
@[simp] theorem State.updCore_refs (k : Nat) (f : CoreSt → CoreSt) : (s.updCore k f).refs = s.refs := rfl
@[simp] theorem State.updCore_feeders (k : Nat) (f : CoreSt → CoreSt) : (s.updCore k f).feeders = s.feeders := rfl
@[simp] theorem State.updCore_engines (k : Nat) (f : CoreSt → CoreSt) : (s.updCore k f).engines = s.engines := rfl
@[simp] theorem State.updCore_plies (k : Nat) (f : CoreSt → CoreSt) : (s.updCore k f).plies = s.plies := rfl
@[simp] theorem State.updCore_sigs (k : Nat) (f : CoreSt → CoreSt) : (s.updCore k f).sigs = s.sigs := rfl
@[simp] theorem State.updCore_hidden (k : Nat) (f : CoreSt → CoreSt) : (s.updCore k f).hidden = s.hidden := rfl
@[simp] theorem State.updCore_forces (k : Nat) (f : CoreSt → CoreSt) : (s.updCore k f).forces = s.forces := rfl
@[simp] theorem State.updCore_lanes (k : Nat) (f : CoreSt → CoreSt) : (s.updCore k f).lanes = s.lanes := rfl
@[simp] theorem State.updCore_tiles (k : Nat) (f : CoreSt → CoreSt) : (s.updCore k f).tiles = s.tiles := rfl
@[simp] theorem State.updCore_tbs (k : Nat) (f : CoreSt → CoreSt) : (s.updCore k f).tbs = s.tbs := rfl
@[simp] theorem State.updCore_pubs (k : Nat) (f : CoreSt → CoreSt) : (s.updCore k f).pubs = s.pubs := rfl
@[simp] theorem State.updCore_svOuts (k : Nat) (f : CoreSt → CoreSt) : (s.updCore k f).svOuts = s.svOuts := rfl
@[simp] theorem State.updCore_subs (k : Nat) (f : CoreSt → CoreSt) : (s.updCore k f).subs = s.subs := rfl
@[simp] theorem State.updCore_pair (k : Nat) (f : CoreSt → CoreSt) : (s.updCore k f).pair = s.pair := rfl
@[simp] theorem State.updCore_log (k : Nat) (f : CoreSt → CoreSt) : (s.updCore k f).log = s.log := rfl
@[simp] theorem State.updCore_recs (k : Nat) (f : CoreSt → CoreSt) : (s.updCore k f).recs = s.recs := rfl
@[simp] theorem State.updCore_cks (k : Nat) (f : CoreSt → CoreSt) : (s.updCore k f).cks = s.cks := rfl
@[simp] theorem State.updCore_partners (k : Nat) (f : CoreSt → CoreSt) : (s.updCore k f).partners = s.partners := rfl
@[simp] theorem State.updCore_resps (k : Nat) (f : CoreSt → CoreSt) : (s.updCore k f).resps = s.resps := rfl
@[simp] theorem State.updCore_session (k : Nat) (f : CoreSt → CoreSt) : (s.updCore k f).session = s.session := rfl
@[simp] theorem State.updCore_change (k : Nat) (f : CoreSt → CoreSt) : (s.updCore k f).change = s.change := rfl
@[simp] theorem State.updCore_snaps (k : Nat) (f : CoreSt → CoreSt) : (s.updCore k f).snaps = s.snaps := rfl
@[simp] theorem State.updCore_cfgNvm (k : Nat) (f : CoreSt → CoreSt) : (s.updCore k f).cfgNvm = s.cfgNvm := rfl
@[simp] theorem State.updCore_evNvm (k : Nat) (f : CoreSt → CoreSt) : (s.updCore k f).evNvm = s.evNvm := rfl
@[simp] theorem State.updCore_w1c (k : Nat) (f : CoreSt → CoreSt) : (s.updCore k f).w1c = s.w1c := rfl
@[simp] theorem State.updCore_ckBuf (k : Nat) (f : CoreSt → CoreSt) : (s.updCore k f).ckBuf = s.ckBuf := rfl
@[simp] theorem State.updCore_pkgBuf (k : Nat) (f : CoreSt → CoreSt) : (s.updCore k f).pkgBuf = s.pkgBuf := rfl

@[simp] theorem State.updLane_pending (k : Nat) (f : LaneSt → LaneSt) : (s.updLane k f).pending = s.pending := rfl
@[simp] theorem State.updLane_now (k : Nat) (f : LaneSt → LaneSt) : (s.updLane k f).now = s.now := rfl
@[simp] theorem State.updLane_free (k : Nat) (f : LaneSt → LaneSt) : (s.updLane k f).free = s.free := rfl
@[simp] theorem State.updLane_regs (k : Nat) (f : LaneSt → LaneSt) : (s.updLane k f).regs = s.regs := rfl
@[simp] theorem State.updLane_cfg (k : Nat) (f : LaneSt → LaneSt) : (s.updLane k f).cfg = s.cfg := rfl
@[simp] theorem State.updLane_oldCfg (k : Nat) (f : LaneSt → LaneSt) : (s.updLane k f).oldCfg = s.oldCfg := rfl
@[simp] theorem State.updLane_pins (k : Nat) (f : LaneSt → LaneSt) : (s.updLane k f).pins = s.pins := rfl
@[simp] theorem State.updLane_dev (k : Nat) (f : LaneSt → LaneSt) : (s.updLane k f).dev = s.dev := rfl
@[simp] theorem State.updLane_secs (k : Nat) (f : LaneSt → LaneSt) : (s.updLane k f).secs = s.secs := rfl
@[simp] theorem State.updLane_convs (k : Nat) (f : LaneSt → LaneSt) : (s.updLane k f).convs = s.convs := rfl
@[simp] theorem State.updLane_chains (k : Nat) (f : LaneSt → LaneSt) : (s.updLane k f).chains = s.chains := rfl
@[simp] theorem State.updLane_refs (k : Nat) (f : LaneSt → LaneSt) : (s.updLane k f).refs = s.refs := rfl
@[simp] theorem State.updLane_feeders (k : Nat) (f : LaneSt → LaneSt) : (s.updLane k f).feeders = s.feeders := rfl
@[simp] theorem State.updLane_engines (k : Nat) (f : LaneSt → LaneSt) : (s.updLane k f).engines = s.engines := rfl
@[simp] theorem State.updLane_plies (k : Nat) (f : LaneSt → LaneSt) : (s.updLane k f).plies = s.plies := rfl
@[simp] theorem State.updLane_sigs (k : Nat) (f : LaneSt → LaneSt) : (s.updLane k f).sigs = s.sigs := rfl
@[simp] theorem State.updLane_hidden (k : Nat) (f : LaneSt → LaneSt) : (s.updLane k f).hidden = s.hidden := rfl
@[simp] theorem State.updLane_forces (k : Nat) (f : LaneSt → LaneSt) : (s.updLane k f).forces = s.forces := rfl
@[simp] theorem State.updLane_cores (k : Nat) (f : LaneSt → LaneSt) : (s.updLane k f).cores = s.cores := rfl
@[simp] theorem State.updLane_tiles (k : Nat) (f : LaneSt → LaneSt) : (s.updLane k f).tiles = s.tiles := rfl
@[simp] theorem State.updLane_tbs (k : Nat) (f : LaneSt → LaneSt) : (s.updLane k f).tbs = s.tbs := rfl
@[simp] theorem State.updLane_pubs (k : Nat) (f : LaneSt → LaneSt) : (s.updLane k f).pubs = s.pubs := rfl
@[simp] theorem State.updLane_svOuts (k : Nat) (f : LaneSt → LaneSt) : (s.updLane k f).svOuts = s.svOuts := rfl
@[simp] theorem State.updLane_subs (k : Nat) (f : LaneSt → LaneSt) : (s.updLane k f).subs = s.subs := rfl
@[simp] theorem State.updLane_pair (k : Nat) (f : LaneSt → LaneSt) : (s.updLane k f).pair = s.pair := rfl
@[simp] theorem State.updLane_log (k : Nat) (f : LaneSt → LaneSt) : (s.updLane k f).log = s.log := rfl
@[simp] theorem State.updLane_recs (k : Nat) (f : LaneSt → LaneSt) : (s.updLane k f).recs = s.recs := rfl
@[simp] theorem State.updLane_cks (k : Nat) (f : LaneSt → LaneSt) : (s.updLane k f).cks = s.cks := rfl
@[simp] theorem State.updLane_partners (k : Nat) (f : LaneSt → LaneSt) : (s.updLane k f).partners = s.partners := rfl
@[simp] theorem State.updLane_resps (k : Nat) (f : LaneSt → LaneSt) : (s.updLane k f).resps = s.resps := rfl
@[simp] theorem State.updLane_session (k : Nat) (f : LaneSt → LaneSt) : (s.updLane k f).session = s.session := rfl
@[simp] theorem State.updLane_change (k : Nat) (f : LaneSt → LaneSt) : (s.updLane k f).change = s.change := rfl
@[simp] theorem State.updLane_snaps (k : Nat) (f : LaneSt → LaneSt) : (s.updLane k f).snaps = s.snaps := rfl
@[simp] theorem State.updLane_cfgNvm (k : Nat) (f : LaneSt → LaneSt) : (s.updLane k f).cfgNvm = s.cfgNvm := rfl
@[simp] theorem State.updLane_evNvm (k : Nat) (f : LaneSt → LaneSt) : (s.updLane k f).evNvm = s.evNvm := rfl
@[simp] theorem State.updLane_w1c (k : Nat) (f : LaneSt → LaneSt) : (s.updLane k f).w1c = s.w1c := rfl
@[simp] theorem State.updLane_ckBuf (k : Nat) (f : LaneSt → LaneSt) : (s.updLane k f).ckBuf = s.ckBuf := rfl
@[simp] theorem State.updLane_pkgBuf (k : Nat) (f : LaneSt → LaneSt) : (s.updLane k f).pkgBuf = s.pkgBuf := rfl

@[simp] theorem State.updTb_pending (k : Nat) (f : TbSt → TbSt) : (s.updTb k f).pending = s.pending := rfl
@[simp] theorem State.updTb_now (k : Nat) (f : TbSt → TbSt) : (s.updTb k f).now = s.now := rfl
@[simp] theorem State.updTb_free (k : Nat) (f : TbSt → TbSt) : (s.updTb k f).free = s.free := rfl
@[simp] theorem State.updTb_regs (k : Nat) (f : TbSt → TbSt) : (s.updTb k f).regs = s.regs := rfl
@[simp] theorem State.updTb_cfg (k : Nat) (f : TbSt → TbSt) : (s.updTb k f).cfg = s.cfg := rfl
@[simp] theorem State.updTb_oldCfg (k : Nat) (f : TbSt → TbSt) : (s.updTb k f).oldCfg = s.oldCfg := rfl
@[simp] theorem State.updTb_pins (k : Nat) (f : TbSt → TbSt) : (s.updTb k f).pins = s.pins := rfl
@[simp] theorem State.updTb_dev (k : Nat) (f : TbSt → TbSt) : (s.updTb k f).dev = s.dev := rfl
@[simp] theorem State.updTb_secs (k : Nat) (f : TbSt → TbSt) : (s.updTb k f).secs = s.secs := rfl
@[simp] theorem State.updTb_convs (k : Nat) (f : TbSt → TbSt) : (s.updTb k f).convs = s.convs := rfl
@[simp] theorem State.updTb_chains (k : Nat) (f : TbSt → TbSt) : (s.updTb k f).chains = s.chains := rfl
@[simp] theorem State.updTb_refs (k : Nat) (f : TbSt → TbSt) : (s.updTb k f).refs = s.refs := rfl
@[simp] theorem State.updTb_feeders (k : Nat) (f : TbSt → TbSt) : (s.updTb k f).feeders = s.feeders := rfl
@[simp] theorem State.updTb_engines (k : Nat) (f : TbSt → TbSt) : (s.updTb k f).engines = s.engines := rfl
@[simp] theorem State.updTb_plies (k : Nat) (f : TbSt → TbSt) : (s.updTb k f).plies = s.plies := rfl
@[simp] theorem State.updTb_sigs (k : Nat) (f : TbSt → TbSt) : (s.updTb k f).sigs = s.sigs := rfl
@[simp] theorem State.updTb_hidden (k : Nat) (f : TbSt → TbSt) : (s.updTb k f).hidden = s.hidden := rfl
@[simp] theorem State.updTb_forces (k : Nat) (f : TbSt → TbSt) : (s.updTb k f).forces = s.forces := rfl
@[simp] theorem State.updTb_cores (k : Nat) (f : TbSt → TbSt) : (s.updTb k f).cores = s.cores := rfl
@[simp] theorem State.updTb_lanes (k : Nat) (f : TbSt → TbSt) : (s.updTb k f).lanes = s.lanes := rfl
@[simp] theorem State.updTb_tiles (k : Nat) (f : TbSt → TbSt) : (s.updTb k f).tiles = s.tiles := rfl
@[simp] theorem State.updTb_pubs (k : Nat) (f : TbSt → TbSt) : (s.updTb k f).pubs = s.pubs := rfl
@[simp] theorem State.updTb_svOuts (k : Nat) (f : TbSt → TbSt) : (s.updTb k f).svOuts = s.svOuts := rfl
@[simp] theorem State.updTb_subs (k : Nat) (f : TbSt → TbSt) : (s.updTb k f).subs = s.subs := rfl
@[simp] theorem State.updTb_pair (k : Nat) (f : TbSt → TbSt) : (s.updTb k f).pair = s.pair := rfl
@[simp] theorem State.updTb_log (k : Nat) (f : TbSt → TbSt) : (s.updTb k f).log = s.log := rfl
@[simp] theorem State.updTb_recs (k : Nat) (f : TbSt → TbSt) : (s.updTb k f).recs = s.recs := rfl
@[simp] theorem State.updTb_cks (k : Nat) (f : TbSt → TbSt) : (s.updTb k f).cks = s.cks := rfl
@[simp] theorem State.updTb_partners (k : Nat) (f : TbSt → TbSt) : (s.updTb k f).partners = s.partners := rfl
@[simp] theorem State.updTb_resps (k : Nat) (f : TbSt → TbSt) : (s.updTb k f).resps = s.resps := rfl
@[simp] theorem State.updTb_session (k : Nat) (f : TbSt → TbSt) : (s.updTb k f).session = s.session := rfl
@[simp] theorem State.updTb_change (k : Nat) (f : TbSt → TbSt) : (s.updTb k f).change = s.change := rfl
@[simp] theorem State.updTb_snaps (k : Nat) (f : TbSt → TbSt) : (s.updTb k f).snaps = s.snaps := rfl
@[simp] theorem State.updTb_cfgNvm (k : Nat) (f : TbSt → TbSt) : (s.updTb k f).cfgNvm = s.cfgNvm := rfl
@[simp] theorem State.updTb_evNvm (k : Nat) (f : TbSt → TbSt) : (s.updTb k f).evNvm = s.evNvm := rfl
@[simp] theorem State.updTb_w1c (k : Nat) (f : TbSt → TbSt) : (s.updTb k f).w1c = s.w1c := rfl
@[simp] theorem State.updTb_ckBuf (k : Nat) (f : TbSt → TbSt) : (s.updTb k f).ckBuf = s.ckBuf := rfl
@[simp] theorem State.updTb_pkgBuf (k : Nat) (f : TbSt → TbSt) : (s.updTb k f).pkgBuf = s.pkgBuf := rfl

@[simp] theorem State.updTile_pending (k p : Nat) (f : TileSt → TileSt) : (s.updTile k p f).pending = s.pending := rfl
@[simp] theorem State.updTile_now (k p : Nat) (f : TileSt → TileSt) : (s.updTile k p f).now = s.now := rfl
@[simp] theorem State.updTile_free (k p : Nat) (f : TileSt → TileSt) : (s.updTile k p f).free = s.free := rfl
@[simp] theorem State.updTile_regs (k p : Nat) (f : TileSt → TileSt) : (s.updTile k p f).regs = s.regs := rfl
@[simp] theorem State.updTile_cfg (k p : Nat) (f : TileSt → TileSt) : (s.updTile k p f).cfg = s.cfg := rfl
@[simp] theorem State.updTile_oldCfg (k p : Nat) (f : TileSt → TileSt) : (s.updTile k p f).oldCfg = s.oldCfg := rfl
@[simp] theorem State.updTile_pins (k p : Nat) (f : TileSt → TileSt) : (s.updTile k p f).pins = s.pins := rfl
@[simp] theorem State.updTile_dev (k p : Nat) (f : TileSt → TileSt) : (s.updTile k p f).dev = s.dev := rfl
@[simp] theorem State.updTile_secs (k p : Nat) (f : TileSt → TileSt) : (s.updTile k p f).secs = s.secs := rfl
@[simp] theorem State.updTile_convs (k p : Nat) (f : TileSt → TileSt) : (s.updTile k p f).convs = s.convs := rfl
@[simp] theorem State.updTile_chains (k p : Nat) (f : TileSt → TileSt) : (s.updTile k p f).chains = s.chains := rfl
@[simp] theorem State.updTile_refs (k p : Nat) (f : TileSt → TileSt) : (s.updTile k p f).refs = s.refs := rfl
@[simp] theorem State.updTile_feeders (k p : Nat) (f : TileSt → TileSt) : (s.updTile k p f).feeders = s.feeders := rfl
@[simp] theorem State.updTile_engines (k p : Nat) (f : TileSt → TileSt) : (s.updTile k p f).engines = s.engines := rfl
@[simp] theorem State.updTile_plies (k p : Nat) (f : TileSt → TileSt) : (s.updTile k p f).plies = s.plies := rfl
@[simp] theorem State.updTile_sigs (k p : Nat) (f : TileSt → TileSt) : (s.updTile k p f).sigs = s.sigs := rfl
@[simp] theorem State.updTile_hidden (k p : Nat) (f : TileSt → TileSt) : (s.updTile k p f).hidden = s.hidden := rfl
@[simp] theorem State.updTile_forces (k p : Nat) (f : TileSt → TileSt) : (s.updTile k p f).forces = s.forces := rfl
@[simp] theorem State.updTile_cores (k p : Nat) (f : TileSt → TileSt) : (s.updTile k p f).cores = s.cores := rfl
@[simp] theorem State.updTile_lanes (k p : Nat) (f : TileSt → TileSt) : (s.updTile k p f).lanes = s.lanes := rfl
@[simp] theorem State.updTile_tbs (k p : Nat) (f : TileSt → TileSt) : (s.updTile k p f).tbs = s.tbs := rfl
@[simp] theorem State.updTile_pubs (k p : Nat) (f : TileSt → TileSt) : (s.updTile k p f).pubs = s.pubs := rfl
@[simp] theorem State.updTile_svOuts (k p : Nat) (f : TileSt → TileSt) : (s.updTile k p f).svOuts = s.svOuts := rfl
@[simp] theorem State.updTile_subs (k p : Nat) (f : TileSt → TileSt) : (s.updTile k p f).subs = s.subs := rfl
@[simp] theorem State.updTile_pair (k p : Nat) (f : TileSt → TileSt) : (s.updTile k p f).pair = s.pair := rfl
@[simp] theorem State.updTile_log (k p : Nat) (f : TileSt → TileSt) : (s.updTile k p f).log = s.log := rfl
@[simp] theorem State.updTile_recs (k p : Nat) (f : TileSt → TileSt) : (s.updTile k p f).recs = s.recs := rfl
@[simp] theorem State.updTile_cks (k p : Nat) (f : TileSt → TileSt) : (s.updTile k p f).cks = s.cks := rfl
@[simp] theorem State.updTile_partners (k p : Nat) (f : TileSt → TileSt) : (s.updTile k p f).partners = s.partners := rfl
@[simp] theorem State.updTile_resps (k p : Nat) (f : TileSt → TileSt) : (s.updTile k p f).resps = s.resps := rfl
@[simp] theorem State.updTile_session (k p : Nat) (f : TileSt → TileSt) : (s.updTile k p f).session = s.session := rfl
@[simp] theorem State.updTile_change (k p : Nat) (f : TileSt → TileSt) : (s.updTile k p f).change = s.change := rfl
@[simp] theorem State.updTile_snaps (k p : Nat) (f : TileSt → TileSt) : (s.updTile k p f).snaps = s.snaps := rfl
@[simp] theorem State.updTile_cfgNvm (k p : Nat) (f : TileSt → TileSt) : (s.updTile k p f).cfgNvm = s.cfgNvm := rfl
@[simp] theorem State.updTile_evNvm (k p : Nat) (f : TileSt → TileSt) : (s.updTile k p f).evNvm = s.evNvm := rfl
@[simp] theorem State.updTile_w1c (k p : Nat) (f : TileSt → TileSt) : (s.updTile k p f).w1c = s.w1c := rfl
@[simp] theorem State.updTile_ckBuf (k p : Nat) (f : TileSt → TileSt) : (s.updTile k p f).ckBuf = s.ckBuf := rfl
@[simp] theorem State.updTile_pkgBuf (k p : Nat) (f : TileSt → TileSt) : (s.updTile k p f).pkgBuf = s.pkgBuf := rfl

@[simp] theorem State.updLog_pending (f : LogSt → LogSt) : (s.updLog f).pending = s.pending := rfl
@[simp] theorem State.updLog_now (f : LogSt → LogSt) : (s.updLog f).now = s.now := rfl
@[simp] theorem State.updLog_free (f : LogSt → LogSt) : (s.updLog f).free = s.free := rfl
@[simp] theorem State.updLog_regs (f : LogSt → LogSt) : (s.updLog f).regs = s.regs := rfl
@[simp] theorem State.updLog_cfg (f : LogSt → LogSt) : (s.updLog f).cfg = s.cfg := rfl
@[simp] theorem State.updLog_oldCfg (f : LogSt → LogSt) : (s.updLog f).oldCfg = s.oldCfg := rfl
@[simp] theorem State.updLog_pins (f : LogSt → LogSt) : (s.updLog f).pins = s.pins := rfl
@[simp] theorem State.updLog_dev (f : LogSt → LogSt) : (s.updLog f).dev = s.dev := rfl
@[simp] theorem State.updLog_secs (f : LogSt → LogSt) : (s.updLog f).secs = s.secs := rfl
@[simp] theorem State.updLog_convs (f : LogSt → LogSt) : (s.updLog f).convs = s.convs := rfl
@[simp] theorem State.updLog_chains (f : LogSt → LogSt) : (s.updLog f).chains = s.chains := rfl
@[simp] theorem State.updLog_refs (f : LogSt → LogSt) : (s.updLog f).refs = s.refs := rfl
@[simp] theorem State.updLog_feeders (f : LogSt → LogSt) : (s.updLog f).feeders = s.feeders := rfl
@[simp] theorem State.updLog_engines (f : LogSt → LogSt) : (s.updLog f).engines = s.engines := rfl
@[simp] theorem State.updLog_plies (f : LogSt → LogSt) : (s.updLog f).plies = s.plies := rfl
@[simp] theorem State.updLog_sigs (f : LogSt → LogSt) : (s.updLog f).sigs = s.sigs := rfl
@[simp] theorem State.updLog_hidden (f : LogSt → LogSt) : (s.updLog f).hidden = s.hidden := rfl
@[simp] theorem State.updLog_forces (f : LogSt → LogSt) : (s.updLog f).forces = s.forces := rfl
@[simp] theorem State.updLog_cores (f : LogSt → LogSt) : (s.updLog f).cores = s.cores := rfl
@[simp] theorem State.updLog_lanes (f : LogSt → LogSt) : (s.updLog f).lanes = s.lanes := rfl
@[simp] theorem State.updLog_tiles (f : LogSt → LogSt) : (s.updLog f).tiles = s.tiles := rfl
@[simp] theorem State.updLog_tbs (f : LogSt → LogSt) : (s.updLog f).tbs = s.tbs := rfl
@[simp] theorem State.updLog_pubs (f : LogSt → LogSt) : (s.updLog f).pubs = s.pubs := rfl
@[simp] theorem State.updLog_svOuts (f : LogSt → LogSt) : (s.updLog f).svOuts = s.svOuts := rfl
@[simp] theorem State.updLog_subs (f : LogSt → LogSt) : (s.updLog f).subs = s.subs := rfl
@[simp] theorem State.updLog_pair (f : LogSt → LogSt) : (s.updLog f).pair = s.pair := rfl
@[simp] theorem State.updLog_recs (f : LogSt → LogSt) : (s.updLog f).recs = s.recs := rfl
@[simp] theorem State.updLog_cks (f : LogSt → LogSt) : (s.updLog f).cks = s.cks := rfl
@[simp] theorem State.updLog_partners (f : LogSt → LogSt) : (s.updLog f).partners = s.partners := rfl
@[simp] theorem State.updLog_resps (f : LogSt → LogSt) : (s.updLog f).resps = s.resps := rfl
@[simp] theorem State.updLog_session (f : LogSt → LogSt) : (s.updLog f).session = s.session := rfl
@[simp] theorem State.updLog_change (f : LogSt → LogSt) : (s.updLog f).change = s.change := rfl
@[simp] theorem State.updLog_snaps (f : LogSt → LogSt) : (s.updLog f).snaps = s.snaps := rfl
@[simp] theorem State.updLog_cfgNvm (f : LogSt → LogSt) : (s.updLog f).cfgNvm = s.cfgNvm := rfl
@[simp] theorem State.updLog_evNvm (f : LogSt → LogSt) : (s.updLog f).evNvm = s.evNvm := rfl
@[simp] theorem State.updLog_w1c (f : LogSt → LogSt) : (s.updLog f).w1c = s.w1c := rfl
@[simp] theorem State.updLog_ckBuf (f : LogSt → LogSt) : (s.updLog f).ckBuf = s.ckBuf := rfl
@[simp] theorem State.updLog_pkgBuf (f : LogSt → LogSt) : (s.updLog f).pkgBuf = s.pkgBuf := rfl
@[simp] theorem State.updLog_log (f : LogSt → LogSt) : (s.updLog f).log = f s.log := rfl

@[simp] theorem State.updPair_pending (f : PairSt → PairSt) : (s.updPair f).pending = s.pending := rfl
@[simp] theorem State.updPair_now (f : PairSt → PairSt) : (s.updPair f).now = s.now := rfl
@[simp] theorem State.updPair_free (f : PairSt → PairSt) : (s.updPair f).free = s.free := rfl
@[simp] theorem State.updPair_regs (f : PairSt → PairSt) : (s.updPair f).regs = s.regs := rfl
@[simp] theorem State.updPair_cfg (f : PairSt → PairSt) : (s.updPair f).cfg = s.cfg := rfl
@[simp] theorem State.updPair_oldCfg (f : PairSt → PairSt) : (s.updPair f).oldCfg = s.oldCfg := rfl
@[simp] theorem State.updPair_pins (f : PairSt → PairSt) : (s.updPair f).pins = s.pins := rfl
@[simp] theorem State.updPair_dev (f : PairSt → PairSt) : (s.updPair f).dev = s.dev := rfl
@[simp] theorem State.updPair_secs (f : PairSt → PairSt) : (s.updPair f).secs = s.secs := rfl
@[simp] theorem State.updPair_convs (f : PairSt → PairSt) : (s.updPair f).convs = s.convs := rfl
@[simp] theorem State.updPair_chains (f : PairSt → PairSt) : (s.updPair f).chains = s.chains := rfl
@[simp] theorem State.updPair_refs (f : PairSt → PairSt) : (s.updPair f).refs = s.refs := rfl
@[simp] theorem State.updPair_feeders (f : PairSt → PairSt) : (s.updPair f).feeders = s.feeders := rfl
@[simp] theorem State.updPair_engines (f : PairSt → PairSt) : (s.updPair f).engines = s.engines := rfl
@[simp] theorem State.updPair_plies (f : PairSt → PairSt) : (s.updPair f).plies = s.plies := rfl
@[simp] theorem State.updPair_sigs (f : PairSt → PairSt) : (s.updPair f).sigs = s.sigs := rfl
@[simp] theorem State.updPair_hidden (f : PairSt → PairSt) : (s.updPair f).hidden = s.hidden := rfl
@[simp] theorem State.updPair_forces (f : PairSt → PairSt) : (s.updPair f).forces = s.forces := rfl
@[simp] theorem State.updPair_cores (f : PairSt → PairSt) : (s.updPair f).cores = s.cores := rfl
@[simp] theorem State.updPair_lanes (f : PairSt → PairSt) : (s.updPair f).lanes = s.lanes := rfl
@[simp] theorem State.updPair_tiles (f : PairSt → PairSt) : (s.updPair f).tiles = s.tiles := rfl
@[simp] theorem State.updPair_tbs (f : PairSt → PairSt) : (s.updPair f).tbs = s.tbs := rfl
@[simp] theorem State.updPair_pubs (f : PairSt → PairSt) : (s.updPair f).pubs = s.pubs := rfl
@[simp] theorem State.updPair_svOuts (f : PairSt → PairSt) : (s.updPair f).svOuts = s.svOuts := rfl
@[simp] theorem State.updPair_subs (f : PairSt → PairSt) : (s.updPair f).subs = s.subs := rfl
@[simp] theorem State.updPair_log (f : PairSt → PairSt) : (s.updPair f).log = s.log := rfl
@[simp] theorem State.updPair_recs (f : PairSt → PairSt) : (s.updPair f).recs = s.recs := rfl
@[simp] theorem State.updPair_cks (f : PairSt → PairSt) : (s.updPair f).cks = s.cks := rfl
@[simp] theorem State.updPair_partners (f : PairSt → PairSt) : (s.updPair f).partners = s.partners := rfl
@[simp] theorem State.updPair_resps (f : PairSt → PairSt) : (s.updPair f).resps = s.resps := rfl
@[simp] theorem State.updPair_session (f : PairSt → PairSt) : (s.updPair f).session = s.session := rfl
@[simp] theorem State.updPair_change (f : PairSt → PairSt) : (s.updPair f).change = s.change := rfl
@[simp] theorem State.updPair_snaps (f : PairSt → PairSt) : (s.updPair f).snaps = s.snaps := rfl
@[simp] theorem State.updPair_cfgNvm (f : PairSt → PairSt) : (s.updPair f).cfgNvm = s.cfgNvm := rfl
@[simp] theorem State.updPair_evNvm (f : PairSt → PairSt) : (s.updPair f).evNvm = s.evNvm := rfl
@[simp] theorem State.updPair_w1c (f : PairSt → PairSt) : (s.updPair f).w1c = s.w1c := rfl
@[simp] theorem State.updPair_ckBuf (f : PairSt → PairSt) : (s.updPair f).ckBuf = s.ckBuf := rfl
@[simp] theorem State.updPair_pkgBuf (f : PairSt → PairSt) : (s.updPair f).pkgBuf = s.pkgBuf := rfl
@[simp] theorem State.updPair_pair (f : PairSt → PairSt) : (s.updPair f).pair = f s.pair := rfl

@[simp] theorem State.updPins_pending (f : Pins → Pins) : (s.updPins f).pending = s.pending := rfl
@[simp] theorem State.updPins_now (f : Pins → Pins) : (s.updPins f).now = s.now := rfl
@[simp] theorem State.updPins_free (f : Pins → Pins) : (s.updPins f).free = s.free := rfl
@[simp] theorem State.updPins_regs (f : Pins → Pins) : (s.updPins f).regs = s.regs := rfl
@[simp] theorem State.updPins_cfg (f : Pins → Pins) : (s.updPins f).cfg = s.cfg := rfl
@[simp] theorem State.updPins_oldCfg (f : Pins → Pins) : (s.updPins f).oldCfg = s.oldCfg := rfl
@[simp] theorem State.updPins_dev (f : Pins → Pins) : (s.updPins f).dev = s.dev := rfl
@[simp] theorem State.updPins_secs (f : Pins → Pins) : (s.updPins f).secs = s.secs := rfl
@[simp] theorem State.updPins_convs (f : Pins → Pins) : (s.updPins f).convs = s.convs := rfl
@[simp] theorem State.updPins_chains (f : Pins → Pins) : (s.updPins f).chains = s.chains := rfl
@[simp] theorem State.updPins_refs (f : Pins → Pins) : (s.updPins f).refs = s.refs := rfl
@[simp] theorem State.updPins_feeders (f : Pins → Pins) : (s.updPins f).feeders = s.feeders := rfl
@[simp] theorem State.updPins_engines (f : Pins → Pins) : (s.updPins f).engines = s.engines := rfl
@[simp] theorem State.updPins_plies (f : Pins → Pins) : (s.updPins f).plies = s.plies := rfl
@[simp] theorem State.updPins_sigs (f : Pins → Pins) : (s.updPins f).sigs = s.sigs := rfl
@[simp] theorem State.updPins_hidden (f : Pins → Pins) : (s.updPins f).hidden = s.hidden := rfl
@[simp] theorem State.updPins_forces (f : Pins → Pins) : (s.updPins f).forces = s.forces := rfl
@[simp] theorem State.updPins_cores (f : Pins → Pins) : (s.updPins f).cores = s.cores := rfl
@[simp] theorem State.updPins_lanes (f : Pins → Pins) : (s.updPins f).lanes = s.lanes := rfl
@[simp] theorem State.updPins_tiles (f : Pins → Pins) : (s.updPins f).tiles = s.tiles := rfl
@[simp] theorem State.updPins_tbs (f : Pins → Pins) : (s.updPins f).tbs = s.tbs := rfl
@[simp] theorem State.updPins_pubs (f : Pins → Pins) : (s.updPins f).pubs = s.pubs := rfl
@[simp] theorem State.updPins_svOuts (f : Pins → Pins) : (s.updPins f).svOuts = s.svOuts := rfl
@[simp] theorem State.updPins_subs (f : Pins → Pins) : (s.updPins f).subs = s.subs := rfl
@[simp] theorem State.updPins_pair (f : Pins → Pins) : (s.updPins f).pair = s.pair := rfl
@[simp] theorem State.updPins_log (f : Pins → Pins) : (s.updPins f).log = s.log := rfl
@[simp] theorem State.updPins_recs (f : Pins → Pins) : (s.updPins f).recs = s.recs := rfl
@[simp] theorem State.updPins_cks (f : Pins → Pins) : (s.updPins f).cks = s.cks := rfl
@[simp] theorem State.updPins_partners (f : Pins → Pins) : (s.updPins f).partners = s.partners := rfl
@[simp] theorem State.updPins_resps (f : Pins → Pins) : (s.updPins f).resps = s.resps := rfl
@[simp] theorem State.updPins_session (f : Pins → Pins) : (s.updPins f).session = s.session := rfl
@[simp] theorem State.updPins_change (f : Pins → Pins) : (s.updPins f).change = s.change := rfl
@[simp] theorem State.updPins_snaps (f : Pins → Pins) : (s.updPins f).snaps = s.snaps := rfl
@[simp] theorem State.updPins_cfgNvm (f : Pins → Pins) : (s.updPins f).cfgNvm = s.cfgNvm := rfl
@[simp] theorem State.updPins_evNvm (f : Pins → Pins) : (s.updPins f).evNvm = s.evNvm := rfl
@[simp] theorem State.updPins_w1c (f : Pins → Pins) : (s.updPins f).w1c = s.w1c := rfl
@[simp] theorem State.updPins_ckBuf (f : Pins → Pins) : (s.updPins f).ckBuf = s.ckBuf := rfl
@[simp] theorem State.updPins_pkgBuf (f : Pins → Pins) : (s.updPins f).pkgBuf = s.pkgBuf := rfl
@[simp] theorem State.updPins_pins (f : Pins → Pins) : (s.updPins f).pins = f s.pins := rfl

@[simp] theorem State.updDev_pending (f : DevSt → DevSt) : (s.updDev f).pending = s.pending := rfl
@[simp] theorem State.updDev_now (f : DevSt → DevSt) : (s.updDev f).now = s.now := rfl
@[simp] theorem State.updDev_free (f : DevSt → DevSt) : (s.updDev f).free = s.free := rfl
@[simp] theorem State.updDev_regs (f : DevSt → DevSt) : (s.updDev f).regs = s.regs := rfl
@[simp] theorem State.updDev_cfg (f : DevSt → DevSt) : (s.updDev f).cfg = s.cfg := rfl
@[simp] theorem State.updDev_oldCfg (f : DevSt → DevSt) : (s.updDev f).oldCfg = s.oldCfg := rfl
@[simp] theorem State.updDev_pins (f : DevSt → DevSt) : (s.updDev f).pins = s.pins := rfl
@[simp] theorem State.updDev_secs (f : DevSt → DevSt) : (s.updDev f).secs = s.secs := rfl
@[simp] theorem State.updDev_convs (f : DevSt → DevSt) : (s.updDev f).convs = s.convs := rfl
@[simp] theorem State.updDev_chains (f : DevSt → DevSt) : (s.updDev f).chains = s.chains := rfl
@[simp] theorem State.updDev_refs (f : DevSt → DevSt) : (s.updDev f).refs = s.refs := rfl
@[simp] theorem State.updDev_feeders (f : DevSt → DevSt) : (s.updDev f).feeders = s.feeders := rfl
@[simp] theorem State.updDev_engines (f : DevSt → DevSt) : (s.updDev f).engines = s.engines := rfl
@[simp] theorem State.updDev_plies (f : DevSt → DevSt) : (s.updDev f).plies = s.plies := rfl
@[simp] theorem State.updDev_sigs (f : DevSt → DevSt) : (s.updDev f).sigs = s.sigs := rfl
@[simp] theorem State.updDev_hidden (f : DevSt → DevSt) : (s.updDev f).hidden = s.hidden := rfl
@[simp] theorem State.updDev_forces (f : DevSt → DevSt) : (s.updDev f).forces = s.forces := rfl
@[simp] theorem State.updDev_cores (f : DevSt → DevSt) : (s.updDev f).cores = s.cores := rfl
@[simp] theorem State.updDev_lanes (f : DevSt → DevSt) : (s.updDev f).lanes = s.lanes := rfl
@[simp] theorem State.updDev_tiles (f : DevSt → DevSt) : (s.updDev f).tiles = s.tiles := rfl
@[simp] theorem State.updDev_tbs (f : DevSt → DevSt) : (s.updDev f).tbs = s.tbs := rfl
@[simp] theorem State.updDev_pubs (f : DevSt → DevSt) : (s.updDev f).pubs = s.pubs := rfl
@[simp] theorem State.updDev_svOuts (f : DevSt → DevSt) : (s.updDev f).svOuts = s.svOuts := rfl
@[simp] theorem State.updDev_subs (f : DevSt → DevSt) : (s.updDev f).subs = s.subs := rfl
@[simp] theorem State.updDev_pair (f : DevSt → DevSt) : (s.updDev f).pair = s.pair := rfl
@[simp] theorem State.updDev_log (f : DevSt → DevSt) : (s.updDev f).log = s.log := rfl
@[simp] theorem State.updDev_recs (f : DevSt → DevSt) : (s.updDev f).recs = s.recs := rfl
@[simp] theorem State.updDev_cks (f : DevSt → DevSt) : (s.updDev f).cks = s.cks := rfl
@[simp] theorem State.updDev_partners (f : DevSt → DevSt) : (s.updDev f).partners = s.partners := rfl
@[simp] theorem State.updDev_resps (f : DevSt → DevSt) : (s.updDev f).resps = s.resps := rfl
@[simp] theorem State.updDev_session (f : DevSt → DevSt) : (s.updDev f).session = s.session := rfl
@[simp] theorem State.updDev_change (f : DevSt → DevSt) : (s.updDev f).change = s.change := rfl
@[simp] theorem State.updDev_snaps (f : DevSt → DevSt) : (s.updDev f).snaps = s.snaps := rfl
@[simp] theorem State.updDev_cfgNvm (f : DevSt → DevSt) : (s.updDev f).cfgNvm = s.cfgNvm := rfl
@[simp] theorem State.updDev_evNvm (f : DevSt → DevSt) : (s.updDev f).evNvm = s.evNvm := rfl
@[simp] theorem State.updDev_w1c (f : DevSt → DevSt) : (s.updDev f).w1c = s.w1c := rfl
@[simp] theorem State.updDev_ckBuf (f : DevSt → DevSt) : (s.updDev f).ckBuf = s.ckBuf := rfl
@[simp] theorem State.updDev_pkgBuf (f : DevSt → DevSt) : (s.updDev f).pkgBuf = s.pkgBuf := rfl
@[simp] theorem State.updDev_dev (f : DevSt → DevSt) : (s.updDev f).dev = f s.dev := rfl

@[simp] theorem State.advanceTo_pending (t : Nat) : (s.advanceTo t).pending = s.pending := rfl
@[simp] theorem State.advanceTo_free (t : Nat) : (s.advanceTo t).free = s.free := rfl
@[simp] theorem State.advanceTo_regs (t : Nat) : (s.advanceTo t).regs = s.regs := rfl
@[simp] theorem State.advanceTo_cfg (t : Nat) : (s.advanceTo t).cfg = s.cfg := rfl
@[simp] theorem State.advanceTo_oldCfg (t : Nat) : (s.advanceTo t).oldCfg = s.oldCfg := rfl
@[simp] theorem State.advanceTo_pins (t : Nat) : (s.advanceTo t).pins = s.pins := rfl
@[simp] theorem State.advanceTo_dev (t : Nat) : (s.advanceTo t).dev = s.dev := rfl
@[simp] theorem State.advanceTo_secs (t : Nat) : (s.advanceTo t).secs = s.secs := rfl
@[simp] theorem State.advanceTo_convs (t : Nat) : (s.advanceTo t).convs = s.convs := rfl
@[simp] theorem State.advanceTo_chains (t : Nat) : (s.advanceTo t).chains = s.chains := rfl
@[simp] theorem State.advanceTo_refs (t : Nat) : (s.advanceTo t).refs = s.refs := rfl
@[simp] theorem State.advanceTo_feeders (t : Nat) : (s.advanceTo t).feeders = s.feeders := rfl
@[simp] theorem State.advanceTo_engines (t : Nat) : (s.advanceTo t).engines = s.engines := rfl
@[simp] theorem State.advanceTo_plies (t : Nat) : (s.advanceTo t).plies = s.plies := rfl
@[simp] theorem State.advanceTo_sigs (t : Nat) : (s.advanceTo t).sigs = s.sigs := rfl
@[simp] theorem State.advanceTo_hidden (t : Nat) : (s.advanceTo t).hidden = s.hidden := rfl
@[simp] theorem State.advanceTo_forces (t : Nat) : (s.advanceTo t).forces = s.forces := rfl
@[simp] theorem State.advanceTo_cores (t : Nat) : (s.advanceTo t).cores = s.cores := rfl
@[simp] theorem State.advanceTo_lanes (t : Nat) : (s.advanceTo t).lanes = s.lanes := rfl
@[simp] theorem State.advanceTo_tiles (t : Nat) : (s.advanceTo t).tiles = s.tiles := rfl
@[simp] theorem State.advanceTo_tbs (t : Nat) : (s.advanceTo t).tbs = s.tbs := rfl
@[simp] theorem State.advanceTo_pubs (t : Nat) : (s.advanceTo t).pubs = s.pubs := rfl
@[simp] theorem State.advanceTo_svOuts (t : Nat) : (s.advanceTo t).svOuts = s.svOuts := rfl
@[simp] theorem State.advanceTo_subs (t : Nat) : (s.advanceTo t).subs = s.subs := rfl
@[simp] theorem State.advanceTo_pair (t : Nat) : (s.advanceTo t).pair = s.pair := rfl
@[simp] theorem State.advanceTo_log (t : Nat) : (s.advanceTo t).log = s.log := rfl
@[simp] theorem State.advanceTo_recs (t : Nat) : (s.advanceTo t).recs = s.recs := rfl
@[simp] theorem State.advanceTo_cks (t : Nat) : (s.advanceTo t).cks = s.cks := rfl
@[simp] theorem State.advanceTo_partners (t : Nat) : (s.advanceTo t).partners = s.partners := rfl
@[simp] theorem State.advanceTo_resps (t : Nat) : (s.advanceTo t).resps = s.resps := rfl
@[simp] theorem State.advanceTo_session (t : Nat) : (s.advanceTo t).session = s.session := rfl
@[simp] theorem State.advanceTo_change (t : Nat) : (s.advanceTo t).change = s.change := rfl
@[simp] theorem State.advanceTo_snaps (t : Nat) : (s.advanceTo t).snaps = s.snaps := rfl
@[simp] theorem State.advanceTo_cfgNvm (t : Nat) : (s.advanceTo t).cfgNvm = s.cfgNvm := rfl
@[simp] theorem State.advanceTo_evNvm (t : Nat) : (s.advanceTo t).evNvm = s.evNvm := rfl
@[simp] theorem State.advanceTo_w1c (t : Nat) : (s.advanceTo t).w1c = s.w1c := rfl
@[simp] theorem State.advanceTo_ckBuf (t : Nat) : (s.advanceTo t).ckBuf = s.ckBuf := rfl
@[simp] theorem State.advanceTo_pkgBuf (t : Nat) : (s.advanceTo t).pkgBuf = s.pkgBuf := rfl
@[simp] theorem State.advanceTo_now (t : Nat) : (s.advanceTo t).now = max s.now t := rfl

/-! ## Parts that an update leaves -/

@[simp] theorem State.setF_sec (f : Fld) (i v j : Nat) (m : Nat) : (s.setF f i v j).sec m = s.sec m := rfl
@[simp] theorem State.setF_conv (f : Fld) (i v j : Nat) (m : Nat) : (s.setF f i v j).conv m = s.conv m := rfl
@[simp] theorem State.setF_chain (f : Fld) (i v j : Nat) (m : Nat) : (s.setF f i v j).chain m = s.chain m := rfl
@[simp] theorem State.setF_ref (f : Fld) (i v j : Nat) (m : Nat) : (s.setF f i v j).ref m = s.ref m := rfl
@[simp] theorem State.setF_feeder (f : Fld) (i v j : Nat) (m : Nat) : (s.setF f i v j).feeder m = s.feeder m := rfl
@[simp] theorem State.setF_engine (f : Fld) (i v j : Nat) (m : Nat) : (s.setF f i v j).engine m = s.engine m := rfl
@[simp] theorem State.setF_core (f : Fld) (i v j : Nat) (m : Nat) : (s.setF f i v j).core m = s.core m := rfl
@[simp] theorem State.setF_lane (f : Fld) (i v j : Nat) (m : Nat) : (s.setF f i v j).lane m = s.lane m := rfl
@[simp] theorem State.setF_tb (f : Fld) (i v j : Nat) (m : Nat) : (s.setF f i v j).tb m = s.tb m := rfl
@[simp] theorem State.setF_tile (f : Fld) (i v j : Nat) (m q : Nat) : (s.setF f i v j).tile m q = s.tile m q := rfl
@[simp] theorem State.setF_img (f : Fld) (i v j : Nat) : (s.setF f i v j).img = s.img := rfl

@[simp] theorem State.updSec_conv (k : Nat) (f : SecSt → SecSt) (m : Nat) : (s.updSec k f).conv m = s.conv m := rfl
@[simp] theorem State.updSec_chain (k : Nat) (f : SecSt → SecSt) (m : Nat) : (s.updSec k f).chain m = s.chain m := rfl
@[simp] theorem State.updSec_ref (k : Nat) (f : SecSt → SecSt) (m : Nat) : (s.updSec k f).ref m = s.ref m := rfl
@[simp] theorem State.updSec_feeder (k : Nat) (f : SecSt → SecSt) (m : Nat) : (s.updSec k f).feeder m = s.feeder m := rfl
@[simp] theorem State.updSec_engine (k : Nat) (f : SecSt → SecSt) (m : Nat) : (s.updSec k f).engine m = s.engine m := rfl
@[simp] theorem State.updSec_core (k : Nat) (f : SecSt → SecSt) (m : Nat) : (s.updSec k f).core m = s.core m := rfl
@[simp] theorem State.updSec_lane (k : Nat) (f : SecSt → SecSt) (m : Nat) : (s.updSec k f).lane m = s.lane m := rfl
@[simp] theorem State.updSec_tb (k : Nat) (f : SecSt → SecSt) (m : Nat) : (s.updSec k f).tb m = s.tb m := rfl
@[simp] theorem State.updSec_getF (k : Nat) (f : SecSt → SecSt) (g : Fld) (m o : Nat) : (s.updSec k f).getF g m o = s.getF g m o := rfl
@[simp] theorem State.updSec_flag (k : Nat) (f : SecSt → SecSt) (g : Fld) (m o : Nat) : (s.updSec k f).flag g m o = s.flag g m o := rfl
@[simp] theorem State.updSec_tile (k : Nat) (f : SecSt → SecSt) (m q : Nat) : (s.updSec k f).tile m q = s.tile m q := rfl
@[simp] theorem State.updSec_img (k : Nat) (f : SecSt → SecSt) : (s.updSec k f).img = s.img := rfl

@[simp] theorem State.updConv_sec (k : Nat) (f : ConvSt → ConvSt) (m : Nat) : (s.updConv k f).sec m = s.sec m := rfl
@[simp] theorem State.updConv_chain (k : Nat) (f : ConvSt → ConvSt) (m : Nat) : (s.updConv k f).chain m = s.chain m := rfl
@[simp] theorem State.updConv_ref (k : Nat) (f : ConvSt → ConvSt) (m : Nat) : (s.updConv k f).ref m = s.ref m := rfl
@[simp] theorem State.updConv_feeder (k : Nat) (f : ConvSt → ConvSt) (m : Nat) : (s.updConv k f).feeder m = s.feeder m := rfl
@[simp] theorem State.updConv_engine (k : Nat) (f : ConvSt → ConvSt) (m : Nat) : (s.updConv k f).engine m = s.engine m := rfl
@[simp] theorem State.updConv_core (k : Nat) (f : ConvSt → ConvSt) (m : Nat) : (s.updConv k f).core m = s.core m := rfl
@[simp] theorem State.updConv_lane (k : Nat) (f : ConvSt → ConvSt) (m : Nat) : (s.updConv k f).lane m = s.lane m := rfl
@[simp] theorem State.updConv_tb (k : Nat) (f : ConvSt → ConvSt) (m : Nat) : (s.updConv k f).tb m = s.tb m := rfl
@[simp] theorem State.updConv_getF (k : Nat) (f : ConvSt → ConvSt) (g : Fld) (m o : Nat) : (s.updConv k f).getF g m o = s.getF g m o := rfl
@[simp] theorem State.updConv_flag (k : Nat) (f : ConvSt → ConvSt) (g : Fld) (m o : Nat) : (s.updConv k f).flag g m o = s.flag g m o := rfl
@[simp] theorem State.updConv_tile (k : Nat) (f : ConvSt → ConvSt) (m q : Nat) : (s.updConv k f).tile m q = s.tile m q := rfl
@[simp] theorem State.updConv_img (k : Nat) (f : ConvSt → ConvSt) : (s.updConv k f).img = s.img := rfl

@[simp] theorem State.updChain_sec (k : Nat) (f : ChainSt → ChainSt) (m : Nat) : (s.updChain k f).sec m = s.sec m := rfl
@[simp] theorem State.updChain_conv (k : Nat) (f : ChainSt → ChainSt) (m : Nat) : (s.updChain k f).conv m = s.conv m := rfl
@[simp] theorem State.updChain_ref (k : Nat) (f : ChainSt → ChainSt) (m : Nat) : (s.updChain k f).ref m = s.ref m := rfl
@[simp] theorem State.updChain_feeder (k : Nat) (f : ChainSt → ChainSt) (m : Nat) : (s.updChain k f).feeder m = s.feeder m := rfl
@[simp] theorem State.updChain_engine (k : Nat) (f : ChainSt → ChainSt) (m : Nat) : (s.updChain k f).engine m = s.engine m := rfl
@[simp] theorem State.updChain_core (k : Nat) (f : ChainSt → ChainSt) (m : Nat) : (s.updChain k f).core m = s.core m := rfl
@[simp] theorem State.updChain_lane (k : Nat) (f : ChainSt → ChainSt) (m : Nat) : (s.updChain k f).lane m = s.lane m := rfl
@[simp] theorem State.updChain_tb (k : Nat) (f : ChainSt → ChainSt) (m : Nat) : (s.updChain k f).tb m = s.tb m := rfl
@[simp] theorem State.updChain_getF (k : Nat) (f : ChainSt → ChainSt) (g : Fld) (m o : Nat) : (s.updChain k f).getF g m o = s.getF g m o := rfl
@[simp] theorem State.updChain_flag (k : Nat) (f : ChainSt → ChainSt) (g : Fld) (m o : Nat) : (s.updChain k f).flag g m o = s.flag g m o := rfl
@[simp] theorem State.updChain_tile (k : Nat) (f : ChainSt → ChainSt) (m q : Nat) : (s.updChain k f).tile m q = s.tile m q := rfl
@[simp] theorem State.updChain_img (k : Nat) (f : ChainSt → ChainSt) : (s.updChain k f).img = s.img := rfl

@[simp] theorem State.updRef_sec (k : Nat) (f : RefSt → RefSt) (m : Nat) : (s.updRef k f).sec m = s.sec m := rfl
@[simp] theorem State.updRef_conv (k : Nat) (f : RefSt → RefSt) (m : Nat) : (s.updRef k f).conv m = s.conv m := rfl
@[simp] theorem State.updRef_chain (k : Nat) (f : RefSt → RefSt) (m : Nat) : (s.updRef k f).chain m = s.chain m := rfl
@[simp] theorem State.updRef_feeder (k : Nat) (f : RefSt → RefSt) (m : Nat) : (s.updRef k f).feeder m = s.feeder m := rfl
@[simp] theorem State.updRef_engine (k : Nat) (f : RefSt → RefSt) (m : Nat) : (s.updRef k f).engine m = s.engine m := rfl
@[simp] theorem State.updRef_core (k : Nat) (f : RefSt → RefSt) (m : Nat) : (s.updRef k f).core m = s.core m := rfl
@[simp] theorem State.updRef_lane (k : Nat) (f : RefSt → RefSt) (m : Nat) : (s.updRef k f).lane m = s.lane m := rfl
@[simp] theorem State.updRef_tb (k : Nat) (f : RefSt → RefSt) (m : Nat) : (s.updRef k f).tb m = s.tb m := rfl
@[simp] theorem State.updRef_getF (k : Nat) (f : RefSt → RefSt) (g : Fld) (m o : Nat) : (s.updRef k f).getF g m o = s.getF g m o := rfl
@[simp] theorem State.updRef_flag (k : Nat) (f : RefSt → RefSt) (g : Fld) (m o : Nat) : (s.updRef k f).flag g m o = s.flag g m o := rfl
@[simp] theorem State.updRef_tile (k : Nat) (f : RefSt → RefSt) (m q : Nat) : (s.updRef k f).tile m q = s.tile m q := rfl
@[simp] theorem State.updRef_img (k : Nat) (f : RefSt → RefSt) : (s.updRef k f).img = s.img := rfl

@[simp] theorem State.updFeeder_sec (k : Nat) (f : FeederSt → FeederSt) (m : Nat) : (s.updFeeder k f).sec m = s.sec m := rfl
@[simp] theorem State.updFeeder_conv (k : Nat) (f : FeederSt → FeederSt) (m : Nat) : (s.updFeeder k f).conv m = s.conv m := rfl
@[simp] theorem State.updFeeder_chain (k : Nat) (f : FeederSt → FeederSt) (m : Nat) : (s.updFeeder k f).chain m = s.chain m := rfl
@[simp] theorem State.updFeeder_ref (k : Nat) (f : FeederSt → FeederSt) (m : Nat) : (s.updFeeder k f).ref m = s.ref m := rfl
@[simp] theorem State.updFeeder_engine (k : Nat) (f : FeederSt → FeederSt) (m : Nat) : (s.updFeeder k f).engine m = s.engine m := rfl
@[simp] theorem State.updFeeder_core (k : Nat) (f : FeederSt → FeederSt) (m : Nat) : (s.updFeeder k f).core m = s.core m := rfl
@[simp] theorem State.updFeeder_lane (k : Nat) (f : FeederSt → FeederSt) (m : Nat) : (s.updFeeder k f).lane m = s.lane m := rfl
@[simp] theorem State.updFeeder_tb (k : Nat) (f : FeederSt → FeederSt) (m : Nat) : (s.updFeeder k f).tb m = s.tb m := rfl
@[simp] theorem State.updFeeder_getF (k : Nat) (f : FeederSt → FeederSt) (g : Fld) (m o : Nat) : (s.updFeeder k f).getF g m o = s.getF g m o := rfl
@[simp] theorem State.updFeeder_flag (k : Nat) (f : FeederSt → FeederSt) (g : Fld) (m o : Nat) : (s.updFeeder k f).flag g m o = s.flag g m o := rfl
@[simp] theorem State.updFeeder_tile (k : Nat) (f : FeederSt → FeederSt) (m q : Nat) : (s.updFeeder k f).tile m q = s.tile m q := rfl
@[simp] theorem State.updFeeder_img (k : Nat) (f : FeederSt → FeederSt) : (s.updFeeder k f).img = s.img := rfl

@[simp] theorem State.updEngine_sec (k : Nat) (f : EngSt → EngSt) (m : Nat) : (s.updEngine k f).sec m = s.sec m := rfl
@[simp] theorem State.updEngine_conv (k : Nat) (f : EngSt → EngSt) (m : Nat) : (s.updEngine k f).conv m = s.conv m := rfl
@[simp] theorem State.updEngine_chain (k : Nat) (f : EngSt → EngSt) (m : Nat) : (s.updEngine k f).chain m = s.chain m := rfl
@[simp] theorem State.updEngine_ref (k : Nat) (f : EngSt → EngSt) (m : Nat) : (s.updEngine k f).ref m = s.ref m := rfl
@[simp] theorem State.updEngine_feeder (k : Nat) (f : EngSt → EngSt) (m : Nat) : (s.updEngine k f).feeder m = s.feeder m := rfl
@[simp] theorem State.updEngine_core (k : Nat) (f : EngSt → EngSt) (m : Nat) : (s.updEngine k f).core m = s.core m := rfl
@[simp] theorem State.updEngine_lane (k : Nat) (f : EngSt → EngSt) (m : Nat) : (s.updEngine k f).lane m = s.lane m := rfl
@[simp] theorem State.updEngine_tb (k : Nat) (f : EngSt → EngSt) (m : Nat) : (s.updEngine k f).tb m = s.tb m := rfl
@[simp] theorem State.updEngine_getF (k : Nat) (f : EngSt → EngSt) (g : Fld) (m o : Nat) : (s.updEngine k f).getF g m o = s.getF g m o := rfl
@[simp] theorem State.updEngine_flag (k : Nat) (f : EngSt → EngSt) (g : Fld) (m o : Nat) : (s.updEngine k f).flag g m o = s.flag g m o := rfl
@[simp] theorem State.updEngine_tile (k : Nat) (f : EngSt → EngSt) (m q : Nat) : (s.updEngine k f).tile m q = s.tile m q := rfl
@[simp] theorem State.updEngine_img (k : Nat) (f : EngSt → EngSt) : (s.updEngine k f).img = s.img := rfl

@[simp] theorem State.updCore_sec (k : Nat) (f : CoreSt → CoreSt) (m : Nat) : (s.updCore k f).sec m = s.sec m := rfl
@[simp] theorem State.updCore_conv (k : Nat) (f : CoreSt → CoreSt) (m : Nat) : (s.updCore k f).conv m = s.conv m := rfl
@[simp] theorem State.updCore_chain (k : Nat) (f : CoreSt → CoreSt) (m : Nat) : (s.updCore k f).chain m = s.chain m := rfl
@[simp] theorem State.updCore_ref (k : Nat) (f : CoreSt → CoreSt) (m : Nat) : (s.updCore k f).ref m = s.ref m := rfl
@[simp] theorem State.updCore_feeder (k : Nat) (f : CoreSt → CoreSt) (m : Nat) : (s.updCore k f).feeder m = s.feeder m := rfl
@[simp] theorem State.updCore_engine (k : Nat) (f : CoreSt → CoreSt) (m : Nat) : (s.updCore k f).engine m = s.engine m := rfl
@[simp] theorem State.updCore_lane (k : Nat) (f : CoreSt → CoreSt) (m : Nat) : (s.updCore k f).lane m = s.lane m := rfl
@[simp] theorem State.updCore_tb (k : Nat) (f : CoreSt → CoreSt) (m : Nat) : (s.updCore k f).tb m = s.tb m := rfl
@[simp] theorem State.updCore_getF (k : Nat) (f : CoreSt → CoreSt) (g : Fld) (m o : Nat) : (s.updCore k f).getF g m o = s.getF g m o := rfl
@[simp] theorem State.updCore_flag (k : Nat) (f : CoreSt → CoreSt) (g : Fld) (m o : Nat) : (s.updCore k f).flag g m o = s.flag g m o := rfl
@[simp] theorem State.updCore_tile (k : Nat) (f : CoreSt → CoreSt) (m q : Nat) : (s.updCore k f).tile m q = s.tile m q := rfl
@[simp] theorem State.updCore_img (k : Nat) (f : CoreSt → CoreSt) : (s.updCore k f).img = s.img := rfl

@[simp] theorem State.updLane_sec (k : Nat) (f : LaneSt → LaneSt) (m : Nat) : (s.updLane k f).sec m = s.sec m := rfl
@[simp] theorem State.updLane_conv (k : Nat) (f : LaneSt → LaneSt) (m : Nat) : (s.updLane k f).conv m = s.conv m := rfl
@[simp] theorem State.updLane_chain (k : Nat) (f : LaneSt → LaneSt) (m : Nat) : (s.updLane k f).chain m = s.chain m := rfl
@[simp] theorem State.updLane_ref (k : Nat) (f : LaneSt → LaneSt) (m : Nat) : (s.updLane k f).ref m = s.ref m := rfl
@[simp] theorem State.updLane_feeder (k : Nat) (f : LaneSt → LaneSt) (m : Nat) : (s.updLane k f).feeder m = s.feeder m := rfl
@[simp] theorem State.updLane_engine (k : Nat) (f : LaneSt → LaneSt) (m : Nat) : (s.updLane k f).engine m = s.engine m := rfl
@[simp] theorem State.updLane_core (k : Nat) (f : LaneSt → LaneSt) (m : Nat) : (s.updLane k f).core m = s.core m := rfl
@[simp] theorem State.updLane_tb (k : Nat) (f : LaneSt → LaneSt) (m : Nat) : (s.updLane k f).tb m = s.tb m := rfl
@[simp] theorem State.updLane_getF (k : Nat) (f : LaneSt → LaneSt) (g : Fld) (m o : Nat) : (s.updLane k f).getF g m o = s.getF g m o := rfl
@[simp] theorem State.updLane_flag (k : Nat) (f : LaneSt → LaneSt) (g : Fld) (m o : Nat) : (s.updLane k f).flag g m o = s.flag g m o := rfl
@[simp] theorem State.updLane_tile (k : Nat) (f : LaneSt → LaneSt) (m q : Nat) : (s.updLane k f).tile m q = s.tile m q := rfl
@[simp] theorem State.updLane_img (k : Nat) (f : LaneSt → LaneSt) : (s.updLane k f).img = s.img := rfl

@[simp] theorem State.updTb_sec (k : Nat) (f : TbSt → TbSt) (m : Nat) : (s.updTb k f).sec m = s.sec m := rfl
@[simp] theorem State.updTb_conv (k : Nat) (f : TbSt → TbSt) (m : Nat) : (s.updTb k f).conv m = s.conv m := rfl
@[simp] theorem State.updTb_chain (k : Nat) (f : TbSt → TbSt) (m : Nat) : (s.updTb k f).chain m = s.chain m := rfl
@[simp] theorem State.updTb_ref (k : Nat) (f : TbSt → TbSt) (m : Nat) : (s.updTb k f).ref m = s.ref m := rfl
@[simp] theorem State.updTb_feeder (k : Nat) (f : TbSt → TbSt) (m : Nat) : (s.updTb k f).feeder m = s.feeder m := rfl
@[simp] theorem State.updTb_engine (k : Nat) (f : TbSt → TbSt) (m : Nat) : (s.updTb k f).engine m = s.engine m := rfl
@[simp] theorem State.updTb_core (k : Nat) (f : TbSt → TbSt) (m : Nat) : (s.updTb k f).core m = s.core m := rfl
@[simp] theorem State.updTb_lane (k : Nat) (f : TbSt → TbSt) (m : Nat) : (s.updTb k f).lane m = s.lane m := rfl
@[simp] theorem State.updTb_getF (k : Nat) (f : TbSt → TbSt) (g : Fld) (m o : Nat) : (s.updTb k f).getF g m o = s.getF g m o := rfl
@[simp] theorem State.updTb_flag (k : Nat) (f : TbSt → TbSt) (g : Fld) (m o : Nat) : (s.updTb k f).flag g m o = s.flag g m o := rfl
@[simp] theorem State.updTb_tile (k : Nat) (f : TbSt → TbSt) (m q : Nat) : (s.updTb k f).tile m q = s.tile m q := rfl
@[simp] theorem State.updTb_img (k : Nat) (f : TbSt → TbSt) : (s.updTb k f).img = s.img := rfl

@[simp] theorem State.updTile_sec (k p : Nat) (f : TileSt → TileSt) (m : Nat) : (s.updTile k p f).sec m = s.sec m := rfl
@[simp] theorem State.updTile_conv (k p : Nat) (f : TileSt → TileSt) (m : Nat) : (s.updTile k p f).conv m = s.conv m := rfl
@[simp] theorem State.updTile_chain (k p : Nat) (f : TileSt → TileSt) (m : Nat) : (s.updTile k p f).chain m = s.chain m := rfl
@[simp] theorem State.updTile_ref (k p : Nat) (f : TileSt → TileSt) (m : Nat) : (s.updTile k p f).ref m = s.ref m := rfl
@[simp] theorem State.updTile_feeder (k p : Nat) (f : TileSt → TileSt) (m : Nat) : (s.updTile k p f).feeder m = s.feeder m := rfl
@[simp] theorem State.updTile_engine (k p : Nat) (f : TileSt → TileSt) (m : Nat) : (s.updTile k p f).engine m = s.engine m := rfl
@[simp] theorem State.updTile_core (k p : Nat) (f : TileSt → TileSt) (m : Nat) : (s.updTile k p f).core m = s.core m := rfl
@[simp] theorem State.updTile_lane (k p : Nat) (f : TileSt → TileSt) (m : Nat) : (s.updTile k p f).lane m = s.lane m := rfl
@[simp] theorem State.updTile_tb (k p : Nat) (f : TileSt → TileSt) (m : Nat) : (s.updTile k p f).tb m = s.tb m := rfl
@[simp] theorem State.updTile_getF (k p : Nat) (f : TileSt → TileSt) (g : Fld) (m o : Nat) : (s.updTile k p f).getF g m o = s.getF g m o := rfl
@[simp] theorem State.updTile_flag (k p : Nat) (f : TileSt → TileSt) (g : Fld) (m o : Nat) : (s.updTile k p f).flag g m o = s.flag g m o := rfl
@[simp] theorem State.updTile_img (k p : Nat) (f : TileSt → TileSt) : (s.updTile k p f).img = s.img := rfl

@[simp] theorem State.updLog_sec (f : LogSt → LogSt) (m : Nat) : (s.updLog f).sec m = s.sec m := rfl
@[simp] theorem State.updLog_conv (f : LogSt → LogSt) (m : Nat) : (s.updLog f).conv m = s.conv m := rfl
@[simp] theorem State.updLog_chain (f : LogSt → LogSt) (m : Nat) : (s.updLog f).chain m = s.chain m := rfl
@[simp] theorem State.updLog_ref (f : LogSt → LogSt) (m : Nat) : (s.updLog f).ref m = s.ref m := rfl
@[simp] theorem State.updLog_feeder (f : LogSt → LogSt) (m : Nat) : (s.updLog f).feeder m = s.feeder m := rfl
@[simp] theorem State.updLog_engine (f : LogSt → LogSt) (m : Nat) : (s.updLog f).engine m = s.engine m := rfl
@[simp] theorem State.updLog_core (f : LogSt → LogSt) (m : Nat) : (s.updLog f).core m = s.core m := rfl
@[simp] theorem State.updLog_lane (f : LogSt → LogSt) (m : Nat) : (s.updLog f).lane m = s.lane m := rfl
@[simp] theorem State.updLog_tb (f : LogSt → LogSt) (m : Nat) : (s.updLog f).tb m = s.tb m := rfl
@[simp] theorem State.updLog_getF (f : LogSt → LogSt) (g : Fld) (m o : Nat) : (s.updLog f).getF g m o = s.getF g m o := rfl
@[simp] theorem State.updLog_flag (f : LogSt → LogSt) (g : Fld) (m o : Nat) : (s.updLog f).flag g m o = s.flag g m o := rfl
@[simp] theorem State.updLog_tile (f : LogSt → LogSt) (m q : Nat) : (s.updLog f).tile m q = s.tile m q := rfl
@[simp] theorem State.updLog_img (f : LogSt → LogSt) : (s.updLog f).img = s.img := rfl

@[simp] theorem State.updPair_sec (f : PairSt → PairSt) (m : Nat) : (s.updPair f).sec m = s.sec m := rfl
@[simp] theorem State.updPair_conv (f : PairSt → PairSt) (m : Nat) : (s.updPair f).conv m = s.conv m := rfl
@[simp] theorem State.updPair_chain (f : PairSt → PairSt) (m : Nat) : (s.updPair f).chain m = s.chain m := rfl
@[simp] theorem State.updPair_ref (f : PairSt → PairSt) (m : Nat) : (s.updPair f).ref m = s.ref m := rfl
@[simp] theorem State.updPair_feeder (f : PairSt → PairSt) (m : Nat) : (s.updPair f).feeder m = s.feeder m := rfl
@[simp] theorem State.updPair_engine (f : PairSt → PairSt) (m : Nat) : (s.updPair f).engine m = s.engine m := rfl
@[simp] theorem State.updPair_core (f : PairSt → PairSt) (m : Nat) : (s.updPair f).core m = s.core m := rfl
@[simp] theorem State.updPair_lane (f : PairSt → PairSt) (m : Nat) : (s.updPair f).lane m = s.lane m := rfl
@[simp] theorem State.updPair_tb (f : PairSt → PairSt) (m : Nat) : (s.updPair f).tb m = s.tb m := rfl
@[simp] theorem State.updPair_getF (f : PairSt → PairSt) (g : Fld) (m o : Nat) : (s.updPair f).getF g m o = s.getF g m o := rfl
@[simp] theorem State.updPair_flag (f : PairSt → PairSt) (g : Fld) (m o : Nat) : (s.updPair f).flag g m o = s.flag g m o := rfl
@[simp] theorem State.updPair_tile (f : PairSt → PairSt) (m q : Nat) : (s.updPair f).tile m q = s.tile m q := rfl
@[simp] theorem State.updPair_img (f : PairSt → PairSt) : (s.updPair f).img = s.img := rfl

@[simp] theorem State.updPins_sec (f : Pins → Pins) (m : Nat) : (s.updPins f).sec m = s.sec m := rfl
@[simp] theorem State.updPins_conv (f : Pins → Pins) (m : Nat) : (s.updPins f).conv m = s.conv m := rfl
@[simp] theorem State.updPins_chain (f : Pins → Pins) (m : Nat) : (s.updPins f).chain m = s.chain m := rfl
@[simp] theorem State.updPins_ref (f : Pins → Pins) (m : Nat) : (s.updPins f).ref m = s.ref m := rfl
@[simp] theorem State.updPins_feeder (f : Pins → Pins) (m : Nat) : (s.updPins f).feeder m = s.feeder m := rfl
@[simp] theorem State.updPins_engine (f : Pins → Pins) (m : Nat) : (s.updPins f).engine m = s.engine m := rfl
@[simp] theorem State.updPins_core (f : Pins → Pins) (m : Nat) : (s.updPins f).core m = s.core m := rfl
@[simp] theorem State.updPins_lane (f : Pins → Pins) (m : Nat) : (s.updPins f).lane m = s.lane m := rfl
@[simp] theorem State.updPins_tb (f : Pins → Pins) (m : Nat) : (s.updPins f).tb m = s.tb m := rfl
@[simp] theorem State.updPins_getF (f : Pins → Pins) (g : Fld) (m o : Nat) : (s.updPins f).getF g m o = s.getF g m o := rfl
@[simp] theorem State.updPins_flag (f : Pins → Pins) (g : Fld) (m o : Nat) : (s.updPins f).flag g m o = s.flag g m o := rfl
@[simp] theorem State.updPins_tile (f : Pins → Pins) (m q : Nat) : (s.updPins f).tile m q = s.tile m q := rfl
@[simp] theorem State.updPins_img (f : Pins → Pins) : (s.updPins f).img = s.img := rfl

@[simp] theorem State.updDev_sec (f : DevSt → DevSt) (m : Nat) : (s.updDev f).sec m = s.sec m := rfl
@[simp] theorem State.updDev_conv (f : DevSt → DevSt) (m : Nat) : (s.updDev f).conv m = s.conv m := rfl
@[simp] theorem State.updDev_chain (f : DevSt → DevSt) (m : Nat) : (s.updDev f).chain m = s.chain m := rfl
@[simp] theorem State.updDev_ref (f : DevSt → DevSt) (m : Nat) : (s.updDev f).ref m = s.ref m := rfl
@[simp] theorem State.updDev_feeder (f : DevSt → DevSt) (m : Nat) : (s.updDev f).feeder m = s.feeder m := rfl
@[simp] theorem State.updDev_engine (f : DevSt → DevSt) (m : Nat) : (s.updDev f).engine m = s.engine m := rfl
@[simp] theorem State.updDev_core (f : DevSt → DevSt) (m : Nat) : (s.updDev f).core m = s.core m := rfl
@[simp] theorem State.updDev_lane (f : DevSt → DevSt) (m : Nat) : (s.updDev f).lane m = s.lane m := rfl
@[simp] theorem State.updDev_tb (f : DevSt → DevSt) (m : Nat) : (s.updDev f).tb m = s.tb m := rfl
@[simp] theorem State.updDev_getF (f : DevSt → DevSt) (g : Fld) (m o : Nat) : (s.updDev f).getF g m o = s.getF g m o := rfl
@[simp] theorem State.updDev_flag (f : DevSt → DevSt) (g : Fld) (m o : Nat) : (s.updDev f).flag g m o = s.flag g m o := rfl
@[simp] theorem State.updDev_tile (f : DevSt → DevSt) (m q : Nat) : (s.updDev f).tile m q = s.tile m q := rfl
@[simp] theorem State.updDev_img (f : DevSt → DevSt) : (s.updDev f).img = s.img := rfl

@[simp] theorem State.advanceTo_sec (t : Nat) (m : Nat) : (s.advanceTo t).sec m = s.sec m := rfl
@[simp] theorem State.advanceTo_conv (t : Nat) (m : Nat) : (s.advanceTo t).conv m = s.conv m := rfl
@[simp] theorem State.advanceTo_chain (t : Nat) (m : Nat) : (s.advanceTo t).chain m = s.chain m := rfl
@[simp] theorem State.advanceTo_ref (t : Nat) (m : Nat) : (s.advanceTo t).ref m = s.ref m := rfl
@[simp] theorem State.advanceTo_feeder (t : Nat) (m : Nat) : (s.advanceTo t).feeder m = s.feeder m := rfl
@[simp] theorem State.advanceTo_engine (t : Nat) (m : Nat) : (s.advanceTo t).engine m = s.engine m := rfl
@[simp] theorem State.advanceTo_core (t : Nat) (m : Nat) : (s.advanceTo t).core m = s.core m := rfl
@[simp] theorem State.advanceTo_lane (t : Nat) (m : Nat) : (s.advanceTo t).lane m = s.lane m := rfl
@[simp] theorem State.advanceTo_tb (t : Nat) (m : Nat) : (s.advanceTo t).tb m = s.tb m := rfl
@[simp] theorem State.advanceTo_getF (t : Nat) (g : Fld) (m o : Nat) : (s.advanceTo t).getF g m o = s.getF g m o := rfl
@[simp] theorem State.advanceTo_flag (t : Nat) (g : Fld) (m o : Nat) : (s.advanceTo t).flag g m o = s.flag g m o := rfl
@[simp] theorem State.advanceTo_tile (t : Nat) (m q : Nat) : (s.advanceTo t).tile m q = s.tile m q := rfl
@[simp] theorem State.advanceTo_img (t : Nat) : (s.advanceTo t).img = s.img := rfl

/-! ## The part that an update changes -/

@[simp] theorem State.sec_updSec (k : Nat) (f : SecSt → SecSt) : (s.updSec k f).sec k = f (s.sec k) := Tab.get_upd_same _ _ _ _
theorem State.sec_updSec_other (k : Nat) (f : SecSt → SecSt) (m : Nat) (h : m ≠ k) : (s.updSec k f).sec m = s.sec m :=
  Tab.get_upd_other _ _ _ _ _ h
@[simp] theorem State.conv_updConv (k : Nat) (f : ConvSt → ConvSt) : (s.updConv k f).conv k = f (s.conv k) := Tab.get_upd_same _ _ _ _
theorem State.conv_updConv_other (k : Nat) (f : ConvSt → ConvSt) (m : Nat) (h : m ≠ k) : (s.updConv k f).conv m = s.conv m :=
  Tab.get_upd_other _ _ _ _ _ h
@[simp] theorem State.chain_updChain (k : Nat) (f : ChainSt → ChainSt) : (s.updChain k f).chain k = f (s.chain k) := Tab.get_upd_same _ _ _ _
theorem State.chain_updChain_other (k : Nat) (f : ChainSt → ChainSt) (m : Nat) (h : m ≠ k) : (s.updChain k f).chain m = s.chain m :=
  Tab.get_upd_other _ _ _ _ _ h
@[simp] theorem State.ref_updRef (k : Nat) (f : RefSt → RefSt) : (s.updRef k f).ref k = f (s.ref k) := Tab.get_upd_same _ _ _ _
theorem State.ref_updRef_other (k : Nat) (f : RefSt → RefSt) (m : Nat) (h : m ≠ k) : (s.updRef k f).ref m = s.ref m :=
  Tab.get_upd_other _ _ _ _ _ h
@[simp] theorem State.feeder_updFeeder (k : Nat) (f : FeederSt → FeederSt) : (s.updFeeder k f).feeder k = f (s.feeder k) := Tab.get_upd_same _ _ _ _
theorem State.feeder_updFeeder_other (k : Nat) (f : FeederSt → FeederSt) (m : Nat) (h : m ≠ k) : (s.updFeeder k f).feeder m = s.feeder m :=
  Tab.get_upd_other _ _ _ _ _ h
@[simp] theorem State.engine_updEngine (k : Nat) (f : EngSt → EngSt) : (s.updEngine k f).engine k = f (s.engine k) := Tab.get_upd_same _ _ _ _
theorem State.engine_updEngine_other (k : Nat) (f : EngSt → EngSt) (m : Nat) (h : m ≠ k) : (s.updEngine k f).engine m = s.engine m :=
  Tab.get_upd_other _ _ _ _ _ h
@[simp] theorem State.core_updCore (k : Nat) (f : CoreSt → CoreSt) : (s.updCore k f).core k = f (s.core k) := Tab.get_upd_same _ _ _ _
theorem State.core_updCore_other (k : Nat) (f : CoreSt → CoreSt) (m : Nat) (h : m ≠ k) : (s.updCore k f).core m = s.core m :=
  Tab.get_upd_other _ _ _ _ _ h
@[simp] theorem State.lane_updLane (k : Nat) (f : LaneSt → LaneSt) : (s.updLane k f).lane k = f (s.lane k) := Tab.get_upd_same _ _ _ _
theorem State.lane_updLane_other (k : Nat) (f : LaneSt → LaneSt) (m : Nat) (h : m ≠ k) : (s.updLane k f).lane m = s.lane m :=
  Tab.get_upd_other _ _ _ _ _ h
@[simp] theorem State.tb_updTb (k : Nat) (f : TbSt → TbSt) : (s.updTb k f).tb k = f (s.tb k) := Tab.get_upd_same _ _ _ _
theorem State.tb_updTb_other (k : Nat) (f : TbSt → TbSt) (m : Nat) (h : m ≠ k) : (s.updTb k f).tb m = s.tb m :=
  Tab.get_upd_other _ _ _ _ _ h
@[simp] theorem State.tile_updTile (k p : Nat) (f : TileSt → TileSt) : (s.updTile k p f).tile k p = f (s.tile k p) :=
  Tab.get_upd_same _ _ _ _
theorem State.tile_updTile_other (k p m q : Nat) (f : TileSt → TileSt) (h : 64 * m + q ≠ 64 * k + p) :
    (s.updTile k p f).tile m q = s.tile m q := Tab.get_upd_other _ _ _ _ _ h

/-! ## Register fields -/

/-- A field read back after a write is the value cut to its width. -/
@[simp] theorem State.getF_setF_same (f : Fld) (i v j : Nat) : (s.setF f i v j).getF f i j = v % 2 ^ f.width :=
  Tab.get_put_same _ _ _ _

/-- A field of another place keeps its value. -/
theorem State.getF_setF_other (f g : Fld) (i v j m o : Nat) (h : g.key m o ≠ f.key i j) :
    (s.setF f i v j).getF g m o = s.getF g m o := Tab.get_put_other _ _ _ _ _ _ h

/-- Fields of registers at different addresses, or at different bits of one register, have different places. -/
theorem Fld.key_ne_of_addr (f g : Fld) (i j m o : Nat) (hf : f.lo < 32) (hg : g.lo < 32) (h : g.addr m o ≠ f.addr i j) :
    g.key m o ≠ f.key i j := by unfold Fld.key; omega

theorem Fld.key_ne_of_lo (f g : Fld) (i j m o : Nat) (hf : f.lo < 32) (hg : g.lo < 32) (h : g.lo ≠ f.lo) :
    g.key m o ≠ f.key i j := by unfold Fld.key; omega

/-- Counters: a saturating one and a wrapping one. -/
@[simp] theorem State.getF_incF_same (f : Fld) (i n j : Nat) :
    (s.incF f i n j).getF f i j = satAdd f.width (s.getF f i j) n % 2 ^ f.width := State.getF_setF_same _ _ _ _ _
@[simp] theorem State.getF_bumpF_same (f : Fld) (i n j : Nat) :
    (s.bumpF f i n j).getF f i j = (s.getF f i j + n) % 2 ^ f.width := State.getF_setF_same _ _ _ _ _
theorem State.getF_incF_other (f g : Fld) (i n j m o : Nat) (h : g.key m o ≠ f.key i j) :
    (s.incF f i n j).getF g m o = s.getF g m o := State.getF_setF_other _ _ _ _ _ _ _ _ h
theorem State.getF_bumpF_other (f g : Fld) (i n j m o : Nat) (h : g.key m o ≠ f.key i j) :
    (s.bumpF f i n j).getF g m o = s.getF g m o := State.getF_setF_other _ _ _ _ _ _ _ _ h

/-- A flag is its field's value 1. -/
theorem State.flag_eq_true (f : Fld) (i j : Nat) : s.flag f i j = true ↔ s.getF f i j = 1 := by simp [State.flag]
theorem State.flag_setF_one (f : Fld) (i j : Nat) (h : 1 ≤ f.width) : (s.setF f i 1 j).flag f i j = true := by
  have : 1 % 2 ^ f.width = 1 := Nat.mod_eq_of_lt (Nat.one_lt_two_pow (by omega))
  simp [State.flag, this]
@[simp] theorem State.flag_setF_zero (f : Fld) (i j : Nat) : (s.setF f i 0 j).flag f i j = false := by simp [State.flag]

/-! ## Signals and free values -/

/-- A signal written and not forced reads as written, any other keeps its entry. -/
theorem State.sigBelow_putSig_same (id : Nat) (e : Entry) (h : ¬(123648 ≤ id ∧ id < 123904)) :
    (s.putSig id e).sigBelow id = e := by
  unfold State.putSig
  split <;> rename_i hf
  · have : ({ s with hidden := Tab.put s.hidden Entry.absent id e } : State).forcedSig id = true := hf
    simp [State.sigBelow, this]
  · have : ({ s with sigs := Tab.put s.sigs Entry.absent id e } : State).forcedSig id = false :=
      (by simpa using hf : s.forcedSig id = false)
    simp [State.sigBelow, this, State.sig, h]

@[simp] theorem State.putSig_pending (id : Nat) (e : Entry) : (s.putSig id e).pending = s.pending := by unfold State.putSig; split <;> rfl
@[simp] theorem State.putSig_now (id : Nat) (e : Entry) : (s.putSig id e).now = s.now := by unfold State.putSig; split <;> rfl
@[simp] theorem State.putSig_free (id : Nat) (e : Entry) : (s.putSig id e).free = s.free := by unfold State.putSig; split <;> rfl
@[simp] theorem State.putSig_regs (id : Nat) (e : Entry) : (s.putSig id e).regs = s.regs := by unfold State.putSig; split <;> rfl
@[simp] theorem State.putSig_cfg (id : Nat) (e : Entry) : (s.putSig id e).cfg = s.cfg := by unfold State.putSig; split <;> rfl
@[simp] theorem State.putSig_oldCfg (id : Nat) (e : Entry) : (s.putSig id e).oldCfg = s.oldCfg := by unfold State.putSig; split <;> rfl
@[simp] theorem State.putSig_pins (id : Nat) (e : Entry) : (s.putSig id e).pins = s.pins := by unfold State.putSig; split <;> rfl
@[simp] theorem State.putSig_dev (id : Nat) (e : Entry) : (s.putSig id e).dev = s.dev := by unfold State.putSig; split <;> rfl
@[simp] theorem State.putSig_secs (id : Nat) (e : Entry) : (s.putSig id e).secs = s.secs := by unfold State.putSig; split <;> rfl
@[simp] theorem State.putSig_convs (id : Nat) (e : Entry) : (s.putSig id e).convs = s.convs := by unfold State.putSig; split <;> rfl
@[simp] theorem State.putSig_chains (id : Nat) (e : Entry) : (s.putSig id e).chains = s.chains := by unfold State.putSig; split <;> rfl
@[simp] theorem State.putSig_refs (id : Nat) (e : Entry) : (s.putSig id e).refs = s.refs := by unfold State.putSig; split <;> rfl
@[simp] theorem State.putSig_feeders (id : Nat) (e : Entry) : (s.putSig id e).feeders = s.feeders := by unfold State.putSig; split <;> rfl
@[simp] theorem State.putSig_engines (id : Nat) (e : Entry) : (s.putSig id e).engines = s.engines := by unfold State.putSig; split <;> rfl
@[simp] theorem State.putSig_plies (id : Nat) (e : Entry) : (s.putSig id e).plies = s.plies := by unfold State.putSig; split <;> rfl
@[simp] theorem State.putSig_forces (id : Nat) (e : Entry) : (s.putSig id e).forces = s.forces := by unfold State.putSig; split <;> rfl
@[simp] theorem State.putSig_cores (id : Nat) (e : Entry) : (s.putSig id e).cores = s.cores := by unfold State.putSig; split <;> rfl
@[simp] theorem State.putSig_lanes (id : Nat) (e : Entry) : (s.putSig id e).lanes = s.lanes := by unfold State.putSig; split <;> rfl
@[simp] theorem State.putSig_tiles (id : Nat) (e : Entry) : (s.putSig id e).tiles = s.tiles := by unfold State.putSig; split <;> rfl
@[simp] theorem State.putSig_tbs (id : Nat) (e : Entry) : (s.putSig id e).tbs = s.tbs := by unfold State.putSig; split <;> rfl
@[simp] theorem State.putSig_pubs (id : Nat) (e : Entry) : (s.putSig id e).pubs = s.pubs := by unfold State.putSig; split <;> rfl
@[simp] theorem State.putSig_svOuts (id : Nat) (e : Entry) : (s.putSig id e).svOuts = s.svOuts := by unfold State.putSig; split <;> rfl
@[simp] theorem State.putSig_subs (id : Nat) (e : Entry) : (s.putSig id e).subs = s.subs := by unfold State.putSig; split <;> rfl
@[simp] theorem State.putSig_pair (id : Nat) (e : Entry) : (s.putSig id e).pair = s.pair := by unfold State.putSig; split <;> rfl
@[simp] theorem State.putSig_log (id : Nat) (e : Entry) : (s.putSig id e).log = s.log := by unfold State.putSig; split <;> rfl
@[simp] theorem State.putSig_recs (id : Nat) (e : Entry) : (s.putSig id e).recs = s.recs := by unfold State.putSig; split <;> rfl
@[simp] theorem State.putSig_cks (id : Nat) (e : Entry) : (s.putSig id e).cks = s.cks := by unfold State.putSig; split <;> rfl
@[simp] theorem State.putSig_partners (id : Nat) (e : Entry) : (s.putSig id e).partners = s.partners := by unfold State.putSig; split <;> rfl
@[simp] theorem State.putSig_resps (id : Nat) (e : Entry) : (s.putSig id e).resps = s.resps := by unfold State.putSig; split <;> rfl
@[simp] theorem State.putSig_session (id : Nat) (e : Entry) : (s.putSig id e).session = s.session := by unfold State.putSig; split <;> rfl
@[simp] theorem State.putSig_change (id : Nat) (e : Entry) : (s.putSig id e).change = s.change := by unfold State.putSig; split <;> rfl
@[simp] theorem State.putSig_snaps (id : Nat) (e : Entry) : (s.putSig id e).snaps = s.snaps := by unfold State.putSig; split <;> rfl
@[simp] theorem State.putSig_cfgNvm (id : Nat) (e : Entry) : (s.putSig id e).cfgNvm = s.cfgNvm := by unfold State.putSig; split <;> rfl
@[simp] theorem State.putSig_evNvm (id : Nat) (e : Entry) : (s.putSig id e).evNvm = s.evNvm := by unfold State.putSig; split <;> rfl
@[simp] theorem State.putSig_w1c (id : Nat) (e : Entry) : (s.putSig id e).w1c = s.w1c := by unfold State.putSig; split <;> rfl
@[simp] theorem State.putSig_ckBuf (id : Nat) (e : Entry) : (s.putSig id e).ckBuf = s.ckBuf := by unfold State.putSig; split <;> rfl
@[simp] theorem State.putSig_pkgBuf (id : Nat) (e : Entry) : (s.putSig id e).pkgBuf = s.pkgBuf := by unfold State.putSig; split <;> rfl

/-- A write of a signal touches no register and no other signal. -/
@[simp] theorem State.putSig_getF (id : Nat) (e : Entry) (g : Fld) (m o : Nat) : (s.putSig id e).getF g m o = s.getF g m o := by
  simp [State.getF]
theorem State.putSig_sig_other (id k : Nat) (e : Entry) (h : k ≠ id) : (s.putSig id e).sig k = s.sig k := by
  have hd : (s.putSig id e).deviceSig (k - 123648) = s.deviceSig (k - 123648) := by
    simp [State.deviceSig, State.forcing, State.isActive, State.flag]
  have hs : Tab.get (s.putSig id e).sigs Entry.absent k = Tab.get s.sigs Entry.absent k := by
    unfold State.putSig
    split
    · rfl
    · exact Tab.get_put_other _ _ _ _ _ _ h
  unfold State.sig
  rw [hd, hs]

/-- A free value lies below its bound, and taking one advances the count alone. -/
theorem State.fresh_lt (w : Nat) : (s.fresh w).1 < 2 ^ w := Nat.mod_lt _ (Nat.two_pow_pos w)
@[simp] theorem State.fresh_state (w : Nat) : (s.fresh w).2 = { s with free := s.free + 1 } := rfl

end Sys2Proof.Machine
end

