-- ==== Sys2Proof/Laws/Event.lean ====
section
/-! SUPPORT. What an event record touches: the log, the event NVM, and six register fields of the log. -/

namespace Sys2Proof.Machine

/-- The register fields that an event may change. -/
def logFields : List Fld :=
  [F.EL_FULLCNT_COUNT, F.EL_UNLOG_COUNT, F.EL_STAT_QOVF, F.DEV_BRIM1_EVENT, F.EL_CAP_RETIRED, F.EL_CAP_FREE]

/-- `s` differs from `r` in the log, the event NVM and the log's register fields alone. -/
structure State.LogOnly (r s : State) : Prop where
  rest : ∃ regs w1c log nvm, s = { r with regs := regs, w1c := w1c, log := log, evNvm := nvm }
  get : ∀ (g : Fld) (m o : Nat), (∀ f, f ∈ logFields → g.key m o ≠ f.key 0 0) → s.getF g m o = r.getF g m o

theorem State.LogOnly.refl (s : State) : s.LogOnly s := ⟨⟨s.regs, s.w1c, s.log, s.evNvm, rfl⟩, fun _ _ _ _ => rfl⟩

theorem State.LogOnly.trans {a b c : State} (h : a.LogOnly b) (g : b.LogOnly c) : a.LogOnly c := by
  obtain ⟨r1, w1, l1, n1, rfl⟩ := h.rest
  obtain ⟨r2, w2, l2, n2, rfl⟩ := g.rest
  exact ⟨⟨r2, w2, l2, n2, rfl⟩, fun f m o x => (g.get f m o x).trans (h.get f m o x)⟩

theorem State.LogOnly.updLog {r s : State} (h : r.LogOnly s) (f : LogSt → LogSt) : r.LogOnly (s.updLog f) :=
  h.trans ⟨⟨s.regs, s.w1c, f s.log, s.evNvm, rfl⟩, fun _ _ _ _ => rfl⟩

theorem State.LogOnly.nvm {r s : State} (h : r.LogOnly s) (m : Mem) : r.LogOnly { s with evNvm := m } :=
  h.trans ⟨⟨s.regs, s.w1c, s.log, m, rfl⟩, fun _ _ _ _ => rfl⟩

theorem State.LogOnly.setF {r s : State} (h : r.LogOnly s) (f : Fld) (v : Nat) (hf : f ∈ logFields) :
    r.LogOnly (s.setF f 0 v 0) :=
  h.trans ⟨⟨(s.setF f 0 v 0).regs, (s.setF f 0 v 0).w1c, s.log, s.evNvm, rfl⟩, fun _ _ _ x => State.getF_setF_other _ _ _ _ _ _ _ _ (x f hf)⟩

theorem State.LogOnly.evProgram {r s : State} (h : r.LogOnly s) (a : Nat) (l : List Nat) : r.LogOnly (s.evProgram a l) :=
  h.trans ⟨⟨s.regs, s.w1c, (s.evProgram a l).log, (s.evProgram a l).evNvm, rfl⟩, fun _ _ _ _ => rfl⟩

/-! ## The operations of an event -/

theorem State.LogOnly.syncCap {r s : State} (h : r.LogOnly s) : r.LogOnly s.syncCap :=
  (h.setF F.EL_CAP_RETIRED _ (by simp [logFields])).setF F.EL_CAP_FREE _ (by simp [logFields])

theorem State.LogOnly.enqueue {r s : State} (h : r.LogOnly s) (x : EvRec) : r.LogOnly (s.enqueue x) := by
  unfold State.enqueue
  split
  · exact h
  split
  · exact h.setF _ _ (by simp [logFields])
  split
  · exact h.updLog _
  split
  · have h1 : r.LogOnly ((s.incF F.EL_UNLOG_COUNT).setF F.EL_STAT_QOVF 0 1) :=
      (h.setF F.EL_UNLOG_COUNT _ (by simp [logFields])).setF F.EL_STAT_QOVF 1 (by simp [logFields])
    dsimp only
    split
    · exact h1.updLog _
    · exact h1.updLog _
  · exact (h.setF F.DEV_BRIM1_EVENT _ (by simp [logFields])).updLog _

theorem State.LogOnly.closeRun {r s : State} (h : r.LogOnly s) (code : Nat) : r.LogOnly (s.closeRun code) := by
  unfold State.closeRun
  split
  · exact h
  · dsimp only
    refine State.LogOnly.updLog ?_ _
    split
    · split
      · exact h
      · exact h.evProgram _ _
    · split
      · exact h
      · exact h.updLog _

theorem State.LogOnly.openSector {r s : State} (h : r.LogOnly s) (seq : Nat) : r.LogOnly (s.openSector seq) := by
  unfold State.openSector
  exact ((h.evProgram _ _).evProgram _ _).evProgram _ _

theorem State.LogOnly.startWrite {r s : State} (h : r.LogOnly s) : r.LogOnly s.startWrite := by
  unfold State.startWrite
  split
  · exact h
  dsimp only
  split
  · exact h.updLog _
  split
  · exact h
  · refine (State.LogOnly.updLog ?_ _).syncCap
    split
    · exact h.openSector _
    · exact h

theorem State.LogOnly.post {r s : State} (h : r.LogOnly s) (code subj sub2 : Nat) (sec : EvEpoch) (data : List Nat) :
    r.LogOnly (s.post code subj sub2 sec data) := by
  unfold State.post
  dsimp only
  generalize s.mkRec code subj sub2 _ data = rec
  split
  · exact h.enqueue _
  split
  · exact h.enqueue _
  · rename_i w _
    generalize (Tab.get s.log.flood {} code).repeat rec s.now w = p
    obtain ⟨wr, x⟩ := p
    have h1 : ∀ f, r.LogOnly ((if (wr && (Tab.get s.log.flood {} code).open_ && (Tab.get s.log.flood {} code).used) = true then
        s.closeRun code else s).updLog f) := by
      intro f
      refine State.LogOnly.updLog ?_ _
      split
      · exact h.closeRun _
      · exact h
    dsimp only
    split
    · exact h.enqueue _
    · split
      · exact (h1 _).enqueue _
      · split
        · exact h1 _
        · exact ((h1 _).updLog _).closeRun _
  · split
    · exact h.updLog _
    · split
      · exact h.enqueue _
      · exact (h.updLog _).enqueue _

/-- An event changes the log, the event NVM and the log's register fields alone. -/
theorem State.event_logOnly (s : State) (code subj sub2 : Nat) (sec : EvEpoch) (data : List Nat) :
    s.LogOnly (s.event code subj sub2 sec data) :=
  ((State.LogOnly.refl s).post code subj sub2 sec data).startWrite

/-- A register field beside those keeps its value. -/
theorem State.event_getF (s : State) (code subj sub2 : Nat) (sec : EvEpoch) (data : List Nat) (g : Fld) (m o : Nat)
    (h : ∀ f, f ∈ logFields → g.key m o ≠ f.key 0 0) : (s.event code subj sub2 sec data).getF g m o = s.getF g m o :=
  (s.event_logOnly code subj sub2 sec data).get g m o h

section
variable (s : State) (code subj sub2 : Nat) (sec : EvEpoch) (data : List Nat)
@[simp] theorem State.event_pending : (s.event code subj sub2 sec data).pending = s.pending := by
  obtain ⟨_, _, _, _, h⟩ := (s.event_logOnly code subj sub2 sec data).rest; rw [h]
@[simp] theorem State.event_now : (s.event code subj sub2 sec data).now = s.now := by
  obtain ⟨_, _, _, _, h⟩ := (s.event_logOnly code subj sub2 sec data).rest; rw [h]
@[simp] theorem State.event_free : (s.event code subj sub2 sec data).free = s.free := by
  obtain ⟨_, _, _, _, h⟩ := (s.event_logOnly code subj sub2 sec data).rest; rw [h]
@[simp] theorem State.event_cfg : (s.event code subj sub2 sec data).cfg = s.cfg := by
  obtain ⟨_, _, _, _, h⟩ := (s.event_logOnly code subj sub2 sec data).rest; rw [h]
@[simp] theorem State.event_oldCfg : (s.event code subj sub2 sec data).oldCfg = s.oldCfg := by
  obtain ⟨_, _, _, _, h⟩ := (s.event_logOnly code subj sub2 sec data).rest; rw [h]
@[simp] theorem State.event_pins : (s.event code subj sub2 sec data).pins = s.pins := by
  obtain ⟨_, _, _, _, h⟩ := (s.event_logOnly code subj sub2 sec data).rest; rw [h]
@[simp] theorem State.event_dev : (s.event code subj sub2 sec data).dev = s.dev := by
  obtain ⟨_, _, _, _, h⟩ := (s.event_logOnly code subj sub2 sec data).rest; rw [h]
@[simp] theorem State.event_secs : (s.event code subj sub2 sec data).secs = s.secs := by
  obtain ⟨_, _, _, _, h⟩ := (s.event_logOnly code subj sub2 sec data).rest; rw [h]
@[simp] theorem State.event_convs : (s.event code subj sub2 sec data).convs = s.convs := by
  obtain ⟨_, _, _, _, h⟩ := (s.event_logOnly code subj sub2 sec data).rest; rw [h]
@[simp] theorem State.event_chains : (s.event code subj sub2 sec data).chains = s.chains := by
  obtain ⟨_, _, _, _, h⟩ := (s.event_logOnly code subj sub2 sec data).rest; rw [h]
@[simp] theorem State.event_refs : (s.event code subj sub2 sec data).refs = s.refs := by
  obtain ⟨_, _, _, _, h⟩ := (s.event_logOnly code subj sub2 sec data).rest; rw [h]
@[simp] theorem State.event_feeders : (s.event code subj sub2 sec data).feeders = s.feeders := by
  obtain ⟨_, _, _, _, h⟩ := (s.event_logOnly code subj sub2 sec data).rest; rw [h]
@[simp] theorem State.event_engines : (s.event code subj sub2 sec data).engines = s.engines := by
  obtain ⟨_, _, _, _, h⟩ := (s.event_logOnly code subj sub2 sec data).rest; rw [h]
@[simp] theorem State.event_plies : (s.event code subj sub2 sec data).plies = s.plies := by
  obtain ⟨_, _, _, _, h⟩ := (s.event_logOnly code subj sub2 sec data).rest; rw [h]
@[simp] theorem State.event_sigs : (s.event code subj sub2 sec data).sigs = s.sigs := by
  obtain ⟨_, _, _, _, h⟩ := (s.event_logOnly code subj sub2 sec data).rest; rw [h]
@[simp] theorem State.event_hidden : (s.event code subj sub2 sec data).hidden = s.hidden := by
  obtain ⟨_, _, _, _, h⟩ := (s.event_logOnly code subj sub2 sec data).rest; rw [h]
@[simp] theorem State.event_forces : (s.event code subj sub2 sec data).forces = s.forces := by
  obtain ⟨_, _, _, _, h⟩ := (s.event_logOnly code subj sub2 sec data).rest; rw [h]
@[simp] theorem State.event_cores : (s.event code subj sub2 sec data).cores = s.cores := by
  obtain ⟨_, _, _, _, h⟩ := (s.event_logOnly code subj sub2 sec data).rest; rw [h]
@[simp] theorem State.event_lanes : (s.event code subj sub2 sec data).lanes = s.lanes := by
  obtain ⟨_, _, _, _, h⟩ := (s.event_logOnly code subj sub2 sec data).rest; rw [h]
@[simp] theorem State.event_tiles : (s.event code subj sub2 sec data).tiles = s.tiles := by
  obtain ⟨_, _, _, _, h⟩ := (s.event_logOnly code subj sub2 sec data).rest; rw [h]
@[simp] theorem State.event_tbs : (s.event code subj sub2 sec data).tbs = s.tbs := by
  obtain ⟨_, _, _, _, h⟩ := (s.event_logOnly code subj sub2 sec data).rest; rw [h]
@[simp] theorem State.event_pubs : (s.event code subj sub2 sec data).pubs = s.pubs := by
  obtain ⟨_, _, _, _, h⟩ := (s.event_logOnly code subj sub2 sec data).rest; rw [h]
@[simp] theorem State.event_svOuts : (s.event code subj sub2 sec data).svOuts = s.svOuts := by
  obtain ⟨_, _, _, _, h⟩ := (s.event_logOnly code subj sub2 sec data).rest; rw [h]
@[simp] theorem State.event_subs : (s.event code subj sub2 sec data).subs = s.subs := by
  obtain ⟨_, _, _, _, h⟩ := (s.event_logOnly code subj sub2 sec data).rest; rw [h]
@[simp] theorem State.event_pair : (s.event code subj sub2 sec data).pair = s.pair := by
  obtain ⟨_, _, _, _, h⟩ := (s.event_logOnly code subj sub2 sec data).rest; rw [h]
@[simp] theorem State.event_recs : (s.event code subj sub2 sec data).recs = s.recs := by
  obtain ⟨_, _, _, _, h⟩ := (s.event_logOnly code subj sub2 sec data).rest; rw [h]
@[simp] theorem State.event_cks : (s.event code subj sub2 sec data).cks = s.cks := by
  obtain ⟨_, _, _, _, h⟩ := (s.event_logOnly code subj sub2 sec data).rest; rw [h]
@[simp] theorem State.event_partners : (s.event code subj sub2 sec data).partners = s.partners := by
  obtain ⟨_, _, _, _, h⟩ := (s.event_logOnly code subj sub2 sec data).rest; rw [h]
@[simp] theorem State.event_resps : (s.event code subj sub2 sec data).resps = s.resps := by
  obtain ⟨_, _, _, _, h⟩ := (s.event_logOnly code subj sub2 sec data).rest; rw [h]
@[simp] theorem State.event_session : (s.event code subj sub2 sec data).session = s.session := by
  obtain ⟨_, _, _, _, h⟩ := (s.event_logOnly code subj sub2 sec data).rest; rw [h]
@[simp] theorem State.event_change : (s.event code subj sub2 sec data).change = s.change := by
  obtain ⟨_, _, _, _, h⟩ := (s.event_logOnly code subj sub2 sec data).rest; rw [h]
@[simp] theorem State.event_snaps : (s.event code subj sub2 sec data).snaps = s.snaps := by
  obtain ⟨_, _, _, _, h⟩ := (s.event_logOnly code subj sub2 sec data).rest; rw [h]
@[simp] theorem State.event_cfgNvm : (s.event code subj sub2 sec data).cfgNvm = s.cfgNvm := by
  obtain ⟨_, _, _, _, h⟩ := (s.event_logOnly code subj sub2 sec data).rest; rw [h]
@[simp] theorem State.event_ckBuf : (s.event code subj sub2 sec data).ckBuf = s.ckBuf := by
  obtain ⟨_, _, _, _, h⟩ := (s.event_logOnly code subj sub2 sec data).rest; rw [h]
@[simp] theorem State.event_pkgBuf : (s.event code subj sub2 sec data).pkgBuf = s.pkgBuf := by
  obtain ⟨_, _, _, _, h⟩ := (s.event_logOnly code subj sub2 sec data).rest; rw [h]
@[simp] theorem State.event_sec (m : Nat) : (s.event code subj sub2 sec data).sec m = s.sec m := by
  unfold State.sec; rw [State.event_secs]
@[simp] theorem State.event_conv (m : Nat) : (s.event code subj sub2 sec data).conv m = s.conv m := by
  unfold State.conv; rw [State.event_convs]
@[simp] theorem State.event_chain (m : Nat) : (s.event code subj sub2 sec data).chain m = s.chain m := by
  unfold State.chain; rw [State.event_chains]
@[simp] theorem State.event_ref (m : Nat) : (s.event code subj sub2 sec data).ref m = s.ref m := by
  unfold State.ref; rw [State.event_refs]
@[simp] theorem State.event_feeder (m : Nat) : (s.event code subj sub2 sec data).feeder m = s.feeder m := by
  unfold State.feeder; rw [State.event_feeders]
@[simp] theorem State.event_engine (m : Nat) : (s.event code subj sub2 sec data).engine m = s.engine m := by
  unfold State.engine; rw [State.event_engines]
@[simp] theorem State.event_core (m : Nat) : (s.event code subj sub2 sec data).core m = s.core m := by
  unfold State.core; rw [State.event_cores]
@[simp] theorem State.event_lane (m : Nat) : (s.event code subj sub2 sec data).lane m = s.lane m := by
  unfold State.lane; rw [State.event_lanes]
@[simp] theorem State.event_tb (m : Nat) : (s.event code subj sub2 sec data).tb m = s.tb m := by
  unfold State.tb; rw [State.event_tbs]
@[simp] theorem State.event_tile (m q : Nat) : (s.event code subj sub2 sec data).tile m q = s.tile m q := by
  unfold State.tile; rw [State.event_tiles]
@[simp] theorem State.event_img : (s.event code subj sub2 sec data).img = s.img := by
  unfold State.img; rw [State.event_cfg]
end

end Sys2Proof.Machine
end

