-- ==== Sys2Proof/Tests/Slice0.lean ====
section
/-! SUPPORT. Small tests with values from the spec's examples, an ill-formed term for each check of WellFormed, and for every
statement with hypotheses states and operands that meet the hypotheses of each of its clauses. -/

set_option Elab.async false

namespace Sys2Proof.Tests

open Sys2Proof Sys2Proof.Machine

/-! ## Values that the spec's examples give -/

/-- Example after R410: SEC_FREQ of SEC5 lies at 0x0001_5008; what a read of it at 50.0000 Hz drives, with its CRC. -/
theorem test_sec_freq_address : F.SEC_FREQ_FREQ.addr 5 0 = 0x15008 := by decide
theorem test_sec_freq_read_crc :
    beBytes 4 500000 ++ [0] ++ spiCrc (beBytes 4 500000 ++ [0]) = [0x00, 0x07, 0xA1, 0x20, 0x00, 0xCC, 0x6B] := by decide +kernel

/-- Example of chapter 16: CRC-32C of the characters 1 to 9. -/
theorem test_crc32c : crcOf crc32c [0x31, 0x32, 0x33, 0x34, 0x35, 0x36, 0x37, 0x38, 0x39] = 0xE3069283 := by decide +kernel

/-- Example of chapter 10: words of the auto-reclose program on core 1. -/
theorem test_ld : logicInstr 1 0x080D7021 = some (.ld 1 { addr := 27521, bit := 1 }) := by decide +kernel
theorem test_or : logicInstr 1 0x180D7061 = some (.or 1 { addr := 27523, bit := 1 }) := by decide +kernel
theorem test_re : logicInstr 1 0x60400020 = some (.re 1 { sp := true, addr := 1 }) := by decide +kernel
theorem test_st : logicInstr 1 0x484000A0 = some (.st 1 { sp := true, addr := 5 }) := by decide +kernel
theorem test_and_not : logicInstr 1 0x14400080 = some (.and 1 { n := true, sp := true, addr := 4 }) := by decide +kernel
theorem test_set : logicInstr 1 0x50400040 = some (.set 1 { sp := true, addr := 2 }) := by decide +kernel
theorem test_and_quality : logicInstr 1 0x140D763C = some (.and 1 { n := true, addr := 27569, bit := 28 }) := by decide +kernel
theorem test_ldk : logicInstr 1 0xC007A120 = some (.ldk 1 false 500000) := by decide +kernel
theorem test_ton : logicInstr 1 0x70000000 = some (.ton 1 0) := by decide +kernel
theorem test_rst : logicInstr 1 0x58400060 = some (.rst 1 { sp := true, addr := 3 }) := by decide +kernel
theorem test_tp : logicInstr 1 0x80000001 = some (.tp 1 1) := by decide +kernel
theorem test_st_signal : logicInstr 1 0x483E8020 = some (.st 1 { addr := 128001 }) := by decide +kernel
theorem test_end : logicInstr 1 0xF8000000 = some (.end_ 1) := by decide +kernel

/-- The program as a whole passes the check of an image for core 1 and not for core 0, whose signals it does not write. -/
def reclose : List Nat :=
  [0x080D7021, 0x180D7061, 0x60400020, 0x484000A0, 0x08400080, 0x18400040, 0x104000A0, 0x50400040, 0x084000A0, 0x14400080,
   0x14400040, 0x50400060, 0x08400060, 0x100D7620, 0x140D763C, 0xC007A120, 0x70000000, 0x58400060, 0xC0030D40, 0x80000001,
   0x483E8000, 0xC0989680, 0x80000002, 0x48400080, 0x08400040, 0x483E8020, 0xF8000000]
theorem test_reclose_program : programOk 1 reclose = true := by decide +kernel
theorem test_reclose_elsewhere : programOk 0 reclose = false := by decide +kernel

/-- Example of chapter 17: a bank whose lines are stuck low fails with NOHDR and block 0. -/
def stuckLow : State :=
  { State.reset.updDev (fun d => { d with cfgSize := some 2 }) with cfgNvm := Mem.writeN 0xFF [] 0 (List.replicate 64 0) }
theorem test_bank_nohdr : (stuckLow.readBank 0 {}).fault = some (1, 0) := by decide +kernel

/-- R214: NOT inverts B; R218: a scan ends with B = 0. -/
theorem test_not : (match exec (.not 0) (State.reset.setF F.LC_STAT_STATE 0 2) with
    | .next t => (t.core 0).b | _ => false) = true := by decide +kernel

/-! ## Well-formed commands: one that passes, and one that each check refuses -/

theorem test_wf : (Instr.epochSample 23 0).wf = true := by decide
theorem test_illformed_section : (Instr.cycleWrap 24).wf = false := by decide +kernel
theorem test_illformed_lane : (Instr.lnStart 32).wf = false := by decide +kernel
theorem test_illformed_converter : (Instr.slotInstant 32).wf = false := by decide +kernel
theorem test_illformed_feeder : (Instr.missRunInvalid 1536).wf = false := by decide +kernel
theorem test_illformed_instance : (Instr.memoryExpiry 0 48).wf = false := by decide +kernel
theorem test_illformed_engine : (Instr.evac 192).wf = false := by decide +kernel
theorem test_illformed_position : (Instr.tileLost 0 64).wf = false := by decide +kernel
theorem test_illformed_page : (Instr.snEpochRead 25).wf = false := by decide +kernel
theorem test_illformed_group : (Instr.refrdySet 4).wf = false := by decide +kernel
theorem test_illformed_input : (Instr.openWireInterval 0 8).wf = false := by decide +kernel
theorem test_illformed_source : (Instr.sourceLost 0 8).wf = false := by decide +kernel
theorem test_illformed_calibration_pair : (Instr.calibrationEraseComplete 4).wf = false := by decide +kernel
theorem test_illformed_entry : (Instr.dynamicEntryExpiry 4096).wf = false := by decide +kernel
theorem test_illformed_timer : (Instr.ton 0 1024).wf = false := by decide +kernel
theorem test_illformed_jump_zero : (Instr.jmp 0 0).wf = false := by decide +kernel
theorem test_illformed_jump_far : (Instr.jmp 0 65536).wf = false := by decide +kernel
theorem test_illformed_word_address : (Instr.rcRead 0x15009).wf = false := by decide +kernel
theorem test_illformed_wide_address : (Instr.rcRead 0x100000000).wf = false := by decide +kernel
theorem test_illformed_characters : (Instr.tripFrame 0 0 false [512]).wf = false := by decide +kernel
theorem test_illformed_u16 : (Instr.ingressArrival 0 65536).wf = false := by decide +kernel
theorem test_illformed_u32 : (Instr.drAck 0x100000000).wf = false := by decide +kernel
theorem test_illformed_u48 : (Instr.basePairWrite 1 281474976710656 0).wf = false := by decide +kernel
theorem test_illformed_nanoseconds : (Instr.basePairWrite 1 0 1000000000).wf = false := by decide +kernel
theorem test_illformed_requester : (Instr.urgentRequest 0 0 (.engine 192)).wf = false := by decide +kernel
theorem test_illformed_timer_ref : (Instr.elementDelayExpiry (.differential 0 3)).wf = false := by decide +kernel
theorem test_illformed_feeder_timer_ref : (Instr.elementDelayExpiry (.feeder 0 0 4)).wf = false := by decide +kernel
theorem test_illformed_up_frame : (Instr.statusUpFrame 0 0 [512]).wf = false := by decide +kernel
theorem test_illformed_configuration_response : (Instr.configurationResponse 0 0 (some [512])).wf = false := by decide +kernel
theorem test_illformed_peer_header : (Instr.digest { blocks := [(4, 0)] }).wf = false := by decide +kernel
theorem test_illformed_scrambler : (Instr.standbyDataFeed 0 (2 ^ 58) []).wf = false := by decide +kernel
theorem test_illformed_sender : (Instr.svFrame 0 { snd := { mac := 281474976710656 } }).wf = false := by decide +kernel
theorem test_illformed_sv_frame : (Instr.svFrame 0 { asdus := [(65536, 2, [])] }).wf = false := by decide +kernel
theorem test_illformed_goose : (Instr.gooseMessage 0 { stNum := 0x100000000 }).wf = false := by decide +kernel
theorem test_illformed_ptp : (Instr.sync 0 { domain := 256 }).wf = false := by decide +kernel
theorem test_illformed_management : (Instr.page { code := 2 }).wf = false := by decide +kernel
theorem test_illformed_datagram : (Instr.chgdata { code := 7, payload := List.replicate 1449 0 }).wf = false := by decide +kernel
theorem test_illformed_unknown_request : (Instr.unknownRequest { code := 10 }).wf = false := by decide +kernel
theorem test_illformed_package : (Instr.pornRelease true none (some 8)).wf = false := by decide +kernel
theorem test_illformed_capacity : (Instr.pornRelease true (some 9) none).wf = false := by decide +kernel
theorem test_illformed_zone : (Instr.afOpHoldExpiry 0 8).wf = false := by decide +kernel
theorem test_illformed_phase : (Instr.integratorFull 0 0 4).wf = false := by decide +kernel
theorem test_illformed_constant : (Instr.ldk 0 false 33554432).wf = false := by decide +kernel
theorem test_illformed_logic_bit : (Instr.st 0 { bit := 24, sp := true }).wf = false := by decide +kernel
theorem test_illformed_logic_n : (Instr.set 0 { n := true, sp := true }).wf = false := by decide +kernel
theorem test_illformed_logic_edge : (Instr.re 0 { addr := 5 }).wf = false := by decide +kernel
theorem test_illformed_crossing : (Instr.crossingWord 0 0 true (some {})).wf = false := by decide +kernel
theorem test_illformed_debounce : (Instr.inputDebounce 0 0 16).wf = false := by decide +kernel
theorem test_illformed_adaptation : (Instr.adaptationUpdate 0 [] 0 0).wf = false := by decide +kernel
theorem test_illformed_equaliser : (Instr.ctleDfeWrite 0 6 0).wf = false := by decide +kernel
theorem test_illformed_nvm_read : (Instr.nvmRead 2).wf = false := by decide +kernel
theorem test_illformed_nvm_program : (Instr.nvmProgram 1).wf = false := by decide +kernel
theorem test_illformed_nvm_erase : (Instr.eraseSector 0).wf = false := by decide +kernel
theorem test_illformed_port_bytes : (Instr.writeFrame [256]).wf = false := by decide +kernel

/-! ## States that meet the hypotheses of the statements -/

/-- The block with PORn high, and small changes of it. -/
def W : State := State.reset.updPins (fun p => { p with porn := true })
def wOnes : Word := 0xFFFFFFFF
def rec9 : EvRec := { code := 9 }
def openRun : FloodSt := { open_ := true }
def noSave : SaveSet := {}
def noBank : BankView := {}
def at_ (n : Nat) (s : State) : State := { s with now := n }
def load (m : Image) (s : State) : State := { s with cfg := some m }
def withLog (f : LogSt → LogSt) : State := (W.updLog f).setF F.EL_STAT_READY 0 1
def frozen : State := (W.updLog (fun l => { l with present := true })).setF F.EL_STAT_FROZEN 0 1
def writingAt (n : Nat) : State := withLog (fun l => { l with writing := some (rec9, 1025, n) })
def armed : State := at_ (1000 * msClk) (withLog (fun l => { l with armedAt := some 0 }))
def erasing : State := withLog (fun l => { l with slot := 1026 })
def flooding : State := withLog (fun l => { l with flood := [(3, openRun)] })
def active3 : State := (withLog id).setF F.DEV_STAT_STATE 0 3
def fdr : FeederCfg := { chans := [some { src := .conv 0 1 }], elems := [(0, { kind := .thr .oc {} })] }
def oneFeeder : State := load { feeders := [(0, fdr)], secs := [(0, {})] } W
def forceIdle : State := { oneFeeder with forces := [(0, { def_ := 0, val := 1 })] }
def forceNone : State := { oneFeeder with forces := [(0, { def_ := 47, val := 1 })] }
def forceOn : State := { oneFeeder with forces := [(0, { def_ := 47, val := 1, active := true, target := 123647 })] }
def heldUp : State := W.updPins (fun p => { p with holdup := true })
def heldLog : State := { (withLog (fun l => { l with saveSet := some noSave })).setF F.EL_STAT_HOLD 0 1 with pins := heldUp.pins }
def stateIs (n : Nat) : State := W.setF F.DEV_STAT_STATE 0 n
/-- 64 bytes that sign anything under a key of 32 zeros, a point of small order: the point 0 and the number 0. -/
def nullSig : List Nat := 1 :: List.replicate 63 0
/-- The blocks of the smallest image that passes the check: a device, microcode, firmware and every section. -/
def blockDir : List DirEntry := [{ type := 1, index := 0 }, { type := 8, index := 0, offset := 496, length := 64, crc := crcOf crc32c nullSig },
    { type := 9, index := 0, offset := 560, length := 64, crc := crcOf crc32c nullSig }] ++
  (List.range 24).map (fun k => { type := 2, index := k })
def bareImage : Image := { secs := (List.range 24).map (fun k => (k, {})) }
def sealedHead (h : ImgHead) (dir : List DirEntry) : ImgHead := { h with hcrc := crcOf crc32c (h.front ++ dir.flatMap DirEntry.bytes) }
def bareHead : ImgHead :=
  sealedHead { magic := imageMagic, layout := 1, nblk := 27, length := 624, version := 1, flags := 2, commit := 0xA5 } blockDir
def bytesOf (h : ImgHead) (dir : List DirEntry) : List Nat := h.front ++ le4 h.hcrc ++ [h.commit, 0, 0, 0] ++ dir.flatMap DirEntry.bytes
/-- A store that holds the bytes `l` from 0 on, all else being `fill`. -/
def memOf (fill : Nat) (l : List Nat) : Mem :=
  (l.zip (List.range l.length)).filterMap (fun p => if p.1 = fill then none else some (p.2, BitVec.ofNat 8 p.1))
/-- The smallest image stands in bank 0. -/
def bareBytes : List Nat := bytesOf bareHead blockDir ++ nullSig ++ nullSig
def banked (s : State) : State := { s.updDev (fun d => { d with cfgSize := some 2 }) with cfgNvm := memOf 0xFF bareBytes }
/-- The same image in bank 1. -/
def bankedHigh (s : State) : State :=
  { banked s with cfgNvm := (memOf 0xFF bareBytes).map (fun p => (p.1 + 2097152, p.2)) }
def goodBank : BankView := { image := bareImage }
def allRun : State := (List.range 24).foldl (fun s k => s.updSec k (fun x => { x with running := true })) (stateIs 2)
def saving : State := withLog (fun l => { l with saving := true, saveErased := true, newest := some 1, saveSet := some noSave })
/-- Section 0 runs at 50 Hz; its states by change. -/
def secS (f : SecSt → SecSt) : State := W.updSec 0 (fun x => f { x with running := true, rate := 50, slew := 1 })
def failing : State := secS (fun x => { x with entries := modAt x.entries 3 (fun y => { y with failRun := 16 }) })
def settled : State := secS (fun x => { x with entries := modAt x.entries 3 (fun y => { y with validRun := 256 }) })
def gliding : State := (secS (fun x => { x with rate := 501 / 10, glideE := -1000, slew := 100 })).setF F.SEC_REF_STAT_GLIDE 0 1
def clamps : State := { gliding with secs := gliding.secs.map (fun p => (p.1, { p.2 with clamped := true, slew := 1, glideE := -30000 })) }
def glideZ : Nat := ((gliding.sec 0).glideZero ((gliding.sec 0).entry (gliding.target 0)).hz).getD 0
def sampleS : State := secS (fun x => { x with nextSample := 1 })
def dueS : State := load { secs := [(0, {})] } (secS (fun x => { x with nextDue := 1, nextSample := 18 }))
def ckS (st mode len : Nat) : State := ((W.setF F.CK_STAT_STATE 7 st).setF F.CK_CFG_MODE 7 mode).setF F.CK_LEN_LEN 7 len
def aConv : Conversion := { inp := 7 }
def qEnt : QEnt := { word := 5 }
/-- Converter 31 with input 7 in its first slot. -/
def convS (f : ConvSt → ConvSt) : State :=
  ((((((secS id).setF F.CV_STAT_PD 31 0).setF F.CV_SLOT_EN0 31 1).setF F.CV_SLOT_CH0 31 7).setF F.CV_CFG_OWEN 31 128).setF
    F.CV_CFG_INUSE 31 128).updConv 31 f
def convRun : State := convS (fun x => { x with cur := some aConv })
def convQ : State := convS (fun x => { x with queue := [qEnt] })
def convUrg : State := convS (fun x => { x with lastUrg := some 0 })
def convPend : State := convS (fun x => { x with pendUrg := some (7, []) })
def convOther : State := ((convS (fun x => { x with pendUrg := some (6, []) })).setF F.CV_SLOT_EN1 31 1).setF F.CV_SLOT_CH1 31 6
def convBoth : State := convS (fun x => { x with pendUrg := some (7, []), lastUrg := some 0 })
def owS (o : OwSt) (t : Nat) : State := convS (fun x => { x with slotTick := t, ow := modAt x.ow 7 (fun _ => o) })
def owDue : State := owS {} 0
def owPull (n : Nat) : State := owS { pull := some (0, 5), attempts := n } 64
def refS (b : Bool) : State := { W with refs := [(3, { powered := true, out := if b then [] else [W.groupSource 3] })] }
def calSt (n : Nat) : CalSt := { inp := 7, zero := some 0, count := n }
def calAll : CalSt := { inp := 7, zero := some 0, count := 4096, sum := 4096 * 65536 }
def calNew : CalSt := { inp := 7, newCoef := some (-4096, 5) }
def calS (c : Option CalSt) (st : Nat) : State :=
  ((((convS (fun x => { x with cal := c })).updLog (fun l => { l with present := true })).setF F.CV_STAT_REFRDY 31 1).setF F.CV_CALSTAT_STATE 31 st).setF F.CV_CALVAL_EXPECT 31 131071
def calOld : State := (W.evProgram 8191 [0xA5]).updLog (fun l => { l with calErasing := [0] })
def fcS (n : Nat) (f : ChainSt → ChainSt) : State := ((convS id).setF F.FC_STAT_STATE 31 n).updChain 31 f
def fcWait : State := fcS 1 (fun c => { c with startWait := true })
def fcDue : State := fcS 1 (fun c => { c with due := [(7, 0)], coefs := [1] })
def w1080 : Word := 0x1080
def convDefault : ConvCfg := { section_ := 0 }
/-- Section 0 with stream 0, which lane 31 carries. -/
def svImage : Image := { svSubs := [(0, { lane := 31 })], lanes := [(31, { mode := .eth1g, sb := true })]
                         svPubs := [(0, { both := true })], feeders := [(0, fdr)] }
def svSub0 : SvSub := { lane := 31 }
def svPub0 : SvPub := { both := true }
def ethS (s : State) : State := (load svImage s).setF F.LN_STAT_UP 31 1
def epoch0 : EpochRec := {}
def svDue : State := ethS (secS (fun x => { x with epochs := [epoch0] }))
def partner0 (kind key : Nat) : Partner := { kind := kind, lane := 31, key := key, pinned := true, capFrames := 9, capBytes := 9999, ftok := 9, btok := 9999 }
def svOpen : State := { ethS W with partners := [(0, partner0 0 0)] }
def svFrame0 : SvFrame := { asdus := [(0, 2, List.replicate 8 (-1, 0))] }
def svOn : State := at_ 1200000000 (ethS (secS id))
/-- Feeder 0 with the given elements, its evaluation of epoch `e` open, all currents at `v`. -/
def fdrOf (l : Tab ElemCfg) : FeederCfg := { chans := (List.range 8).map (fun n => some { src := .conv n 1 }), inA := 1, vnV := 100, elems := l }
def measAt (v : Rat) (q : Quality) : Meas := {
  models := List.replicate 8 { y := List.replicate 9 ⟨v, 0⟩ }, half := List.replicate 8 ⟨v, 0⟩
  qFull := List.replicate 8 q, qHalf := List.replicate 8 q }
def evalS (l : Tab ElemCfg) (e : Nat) (m : Meas) (el : Tab ElemSt) : State :=
  { load { feeders := [(0, fdrOf l)], secs := [(0, {})] } W with
    feeders := [(0, { evalOpen := some e, meas := m, dt := 1 / 6400, elems := el })] }
def ocDefK : ThrCfg := { reset := .definite }
def ocDef : ElemCfg := { kind := .thr .oc ocDefK }
def ocInvK : ThrCfg := { curve := .iecSi }
def ocInv : ElemCfg := { kind := .thr .oc ocInvK }
def inrK : InrCfg := { cross := true }
def inrX : ElemCfg := { kind := .inr inrK }
def bfCfg : BfCfg := { inits := [], t1 := 0, t2 := 0 }
def bfX : ElemCfg := { kind := .bf bfCfg }
def flK : FlCfg := { inits := [0] }
def flX : ElemCfg := { kind := .fl flK }
def evOc : State := evalS [(0, ocDef)] 0 (measAt 10 Quality.ok) [(0, { ph := List.replicate 3 { started := true } })]
def evInv : State := evalS [(0, ocInv)] 0 (measAt 10 Quality.ok) [(0, { ph := [{ started := true, g := 1 }] })]
def evDrop : State := evalS [(0, ocDef)] 0 (measAt 0 Quality.ok) [(0, { ph := [{ t := 1 }] })]
def evHold : State := evalS [(0, ocDef)] 0 (measAt 0 Quality.bad) [(0, { blocked := true, hold := 1, bits := 2 })]
def evCross : State := evalS [(0, inrX)] 0 (measAt 0 Quality.ok) [(0, { crossT := some (1 / 10) })]
def evBfHeld : State := { evalS [(0, bfX)] 0 (measAt 10 Quality.ok) [] with feeders := [(0, { evalOpen := some 0, meas := measAt 10 Quality.ok, dt := 1 / 6400, wins := List.replicate 8 [{ v := 9 }], elems := [(0, { active := true, check := true })] })] }
def evBfOff : State := evalS [(0, bfX)] 0 (measAt 0 Quality.ok) [(0, { check := true, bits := 6 })]
def evFl (e : Nat) : State := (evalS [(0, ocDef), (1, flX)] e (measAt 10 Quality.ok) [(0, { bits := 1 }), (1, { fl := { es := some 0, any := true } })]).updFeeder 0 (fun x => { x with evalNext := 1 })
def memV : C × Rat × Nat × Nat := (⟨1, 0⟩, 50, 0, 0)
def evMem : State := evalS [(0, ocDef)] 1025 (measAt 0 Quality.ok) [(0, { mem := some memV })]
def satS : State := { W with feeders := [(0, { measOpen := some 0, satRun := [some 129] })] }
/-- Section 0 with feeder 0 in both zones and arc zone 0, evaluating epoch 1. -/
def arc0 : ArcCfg := { lights := [(0, 0)], checks := some [0] }
def secCfg : SectionCfg := { ibase := 1, bd := { enabled := true }, arcs := [arc0] }
def partOf (v : Rat) : MeasPart := {
  samples := List.replicate 4 (v, Quality.ok), full := List.replicate 4 ⟨v, 0⟩, half := List.replicate 4 ⟨v, 0⟩
  q := List.replicate 4 Quality.ok, qHalf := List.replicate 4 Quality.ok }
def litPart : ElemPart := { lights := [(0, true, Quality.ok)] }
def secEv (v : Rat) (m : MasterSt) : State :=
  load { feeders := [(0, fdrOf [])], secs := [(0, secCfg)] } (secS (fun x => { x with
    evalOpen := some 1, mst := m, pages := [(0, { epoch := 0, elem := [(0, litPart)] }), (1, { epoch := 1, meas := [(0, partOf v)] })] }))
def bdS : State := secEv 10 { bdRun := [true, true, true] }
def alarmS : State := secEv (1 / 2) { alarmT := [some 5, none, none] }
def lightS : State := secEv 0 { arcs := [{ lightT := some 2 }] }
def afS : State := (secEv 0 { arcs := [{ op := true }] }).updSec 0 (fun x => { x with pages := [(1, { epoch := 1, meas := [(0, partOf 0)] })] })
def burst0 : IngressItem := .burst 0 0 0 []
def ingS (due : Nat) : State := load { feeders := [(0, fdr)], secs := [(0, {})] } (secS (fun x => { x with toIngress := [burst0], nextDue := due }))
def partS (late : Nat) : State := { secS id with feeders := [(0, { measOpen := some 0, lateParts := late })] }
def cutS : State := load { feeders := [(0, fdr)], secs := [(0, {})] } (secS (fun x => { x with evalOpen := some 0 }))
def lostS : State := { oneFeeder with feeders := [(0, { srcs := [{ missRun := 16 }, {}] })] }
def dueNow : State := load { feeders := [(0, fdr)], secs := [(0, {})] } (secS (fun x => { x with nextSample := 16 }))
def missS : State := { oneFeeder with feeders := [(0, { missRun := 128, evalOpen := some 0 })] }
def secDone : State := secEv 0 {}
def onS (k r : Nat) : State := (W.setF F.PE_STAT_STATE (8 * k + r) 2).updSec k (fun x => { x with running := true, rate := 50 })
def rot7 : Rotation := { h := 0, req := 7, cause := 0 }
def rotS : State := (onS 23 7).updSec 23 (fun x => { x with rotReq := some rot7 })
def plyS : State := (((onS 0 1).updEngine 1 (fun g => { g with roundDue := true })).updSec 0 (fun x => { x with nextDue := 1 }))
def confirmedPly : Ply := { engine := 1, confirmed := true }
def sectionPly : Ply := { confirmedPly with sec := some 0, targets := [0] }
def newPly : Ply := { engine := 1, gates := [(31, 0, 2)] }
/-- Lane 31 is ON. -/
def stageS : State := (load { feeders := [(0, fdr)], secs := [(0, {})] } W).setF F.LN_STAT_STATE 31 2
/-- The board holds 256 parts of epoch 0. -/
def boardFull : State := (partS 0).updSec 0 (fun x => { x with pages := [(0, { meas := (List.range 256).map (fun n => (n + 1, MeasPart.substituted)) })] })
def grantSec : State := { load { feeders := [(0, fdr)], secs := [(0, {})] } W with plies := [(3, sectionPly)] }
def grantS : State := { load { feeders := [(0, fdr)], secs := [(0, {})] } W with plies := [(3, confirmedPly)] }
/-- Core 3 scans. -/
def coreS (f : CoreSt → CoreSt) : State := load { cores := [(3, { asec := 0 })] } ((W.setF F.LC_STAT_STATE 3 2).updCore 3 f)
def core0 : State := coreS id
def stack1 : List (Bool × Quality) := [(true, Quality.ok)]
def stack8 : List (Bool × Quality) := List.replicate 8 (true, Quality.ok)
def coreFull : State := coreS (fun c => { c with stack := stack8 })
def coreOne : State := coreS (fun c => { c with stack := stack1 })
def opV : SOp := { n := true, sp := true, addr := 1023, bit := 23 }
def opX : SOp := { bit := 23, addr := 5 }
def coreT (b r : Bool) : State := at_ 120000 (coreS (fun c => { c with b := b, a := 10, timers := [(5, { e := 3, inp := true, running := r, fresh := false })] }))
def coreC (b : Bool) : State := coreS (fun c => { c with b := b, a := 10, ctrs := [(5, { n := 9 })] })
def stopped : State := core0.setF F.LC_STAT_STATE 3 0
def evacS : State := { (onS 0 1).setF F.PE_STAT_STATE 2 2 with feeders := [(0, { engine := 1 })] }
def evacNo : State := { onS 0 1 with feeders := [(0, { engine := 1 })] }
def engOff : State := load {} ((W.setF F.PE_STAT_STATE 191 0))
def katS : State := ((W.setF F.PE_STAT_STATE 191 1).updEngine 191 (fun g => { g with testing := true }))
def rollS : State := (W.setF F.PE_STAT_STATE 191 0).updEngine 191 (fun g => { g with rollout := true })
def migS : State := secS (fun x => { x with nextDue := 1, cfgFrom := 9 })
/-- Lane 31 as a tile lane in `st`, of a chain of one tile of feeder 0. -/
def tileCfg0 : TileCfg := { feeder := 0, outs := [{ minOnMs := 1000 }] }
def tileImage : Image := { feeders := [(0, fdr)], secs := [(0, {})], chains := [(31, { tiles := [tileCfg0] })], lanes := [(31, { mode := .tile })] }
def laneS (mode st : Nat) (f : LaneSt → LaneSt) : State := ((load tileImage W).setF F.LN_CFG_MODE 31 mode).setF F.LN_STAT_STATE 31 st |>.updLane 31 f
def tl (f : LaneSt → LaneSt) : State := ((laneS 1 2 f).setF F.DEV_STAT_STATE 0 3).setF F.LN_STAT_UP 31 1
def withTile (x : TileSt) : State := (laneS 1 2 id).updTile 31 0 (fun _ => x)
def devS (d : DevTile) : State := tl (fun l => { l with tiles := [(0, d)] })
def onTile : TileSt := { powered := true, configured := true, addr := some 0, safe := false, west := { claim := 9 } }
def badCmd : DownFrame := { ncmd := 0 }
def goodCmd : DownFrame := { claim := 0x8000, cmd := 0xFF, ncmd := 0, seq := 65535 }
def badChars : TileChars := downChars badCmd
def goodChars : TileChars := downChars goodCmd
def rawTile : TileSt := { powered := true }
def confTile : TileSt := { powered := true, addr := some 0, conf := List.range 36, items := 3, stage := List.range 36, stageTag := 500 }
def fullItem : List Nat := List.replicate 12 7
def enumChars : TileChars := downChars { type := 5, addr := 0xFF, hop := 0, item := 1 }
def itemChars (n : Nat) : TileChars := downChars { type := 6, item := n, len := if n < 3 then 12 else 2, data := fullItem }
def readChars : TileChars := downChars { type := 7, item := 3 }
def drivingTile : TileSt := { onTile with cmd := 255, fcmd := 255, conf := [0, 0, 0, 0, 255, 255] }
def bounceTile : TileSt := { powered := true, cand := List.replicate 16 (some (2, 0)) }
def tileOn : State := withTile onTile
def tileRaw : State := withTile rawTile
def tileConf : State := withTile confTile
def tileLast : State := withTile { confTile with items := 11 }
def tileDrives : State := withTile drivingTile
def tileBounces : State := withTile bounceTile
def tileOff : State := withTile {}
def downMax : DownFrame := { type := 7, addr := 255, hop := 255, claim := 65535, seq := 65535, cmd := 255, ncmd := 0, ctag := 65535, flags := 255, feeder := 2047, item := 255, len := 12, data := List.replicate 12 255 }
def upMax (b : Bool) : UpFrame := { type := if b then 0x82 else 0x81, addr := 255, stat := 255, aclaim := 65535, eseq := 65535, inp := 65535, wb := 65535, rb := 255, data := if b then List.replicate 16 255 else [] }
def bitMax : SigBit := { id := 131071, bit := 31 }
def tlIdle : State := tl id
def gate0 : Gate := { ply := 0, addr := 0, bits := 1, open_ := true }
def tlGate : State := tl (fun l => { l with gates := [gate0] })
def tlChange : State := tl (fun l => { l with changeQ := [0] })
def tlRefresh : State := tl (fun l => { l with refreshQ := [0] })
def tlConf : State := tl (fun l => { l with confQ := [(6, 0, 3)] })
def up0 : UpFrame := {}
def up0Chars : TileChars := upChars up0
def upBad : TileChars := List.replicate 16 0
def respChars : TileChars := upChars { type := 0x82, data := List.replicate 16 0 }
def tlStep : State := tl (fun l => { l with confAt := some 0, tiles := [(0, { step := 3 })] })
def tlWait : State := devS { enumWait := true }
def losingS : State := devS { missRun := 4, answers := true }
def rbS : State := devS { rbSince := some 0, up := some up0 }
def roseS : State := devS { rose := [some (0, true)] }
def lnOff : State := laneS 3 0 id
def lnIs (n : Nat) : State := laneS 3 n id
def lnPend : State := (lnIs 3).setF F.LN_STAT_PENDING 31 1
def sigS (up : Nat) : State := (((lnIs 2).setF F.LN_STAT_SIGDET 31 1).setF F.LN_STAT_UP 31 up).setF F.LN_STAT_LOCK 31 up
def up10g : State := (sigS 1).setF F.LN_CFG_MODE 31 4
def lockS : State := (lnIs 1).setF F.LN_STAT_LOCK 31 1
def eqW : Word := 0x0A0B0C0D
def eqBad : Word := 0x007F0081
def forcedEq : State := (lnIs 2).setF F.LN_EQCTRL_FORCE 31 1
def genW : Word := 1
def chkS (locked : Nat) : State := (((lnIs 2).updLane 31 (fun l => { l with chk := { fill := 31, reg := 5 } })).setF F.LN_PRBSCTRL_CEN 31 1).setF F.LN_PRBSSTAT_LOCKED 31 locked
/-- Sync headers of received blocks. -/
def headers (n h : Nat) : List Nat := List.replicate n h
def injW : Word := BitVec.ofNat 32 (2 ^ F.LN_INJ_KIND.lo)
/-- Ethernet lane 31 is ON and up. -/
def ethOn (f : LaneSt → LaneSt) : State :=
  (((load svImage (secS id)).setF F.LN_STAT_UP 31 1).setF F.LN_STAT_STATE 31 2).setF F.LN_CFG_MODE 31 3 |>.updLane 31 f
def timed : EthFrame := { cls := 2, timeTgt := some (0, 1000) }
def angled : EthFrame := { cls := 3, angleTgt := some (0, 1000) }
def farSec (x : SecSt) : SecSt := { x with nextSample := 1000, nextDeadline := 1000 }
def readyF : EthFrame := { cls := 4, ready := true }
def bigF : EthFrame := { cls := 4, len := 1500, ready := true }
def heldTime (free : Nat) : State := ethOn (fun l => { l with ethQ := [timed], txFree := free })
def heldAngle (free : Nat) : State := (ethOn (fun l => { l with ethQ := [angled], txFree := free })).updSec 0 farSec
def freeS : State := ethOn (fun l => { l with ethQ := [readyF] })
def resvS : State := ethOn (fun l => { l with ethQ := [bigF, timed], resv := true })
def stampS : State := ethOn (fun l => { l with tsq := [(5, 6)] })
def goPub0 : GoPub := { lanes := [31], both := true }
def goSub0 : GoSub := { lane := 31, types := [(1, true)], map := [(0, 124928)] }
def goImage : Image := { goPubs := [(0, goPub0)], goSubs := [(0, goSub0)], lanes := [(31, { mode := .eth1g })] }
def goS : State := { (load goImage W).setF F.LN_STAT_UP 31 1 with partners := [(0, partner0 1 0)], pubs := [(0, { nextAt := some 5, interval := 2 })], subs := [(0, { last := some (1, 0) })] }
def goMsg : GooseMsg := { sqNum := 1, nEntries := 2, members := [(1, -8388608, some 0)] }
def goBadMsg : GooseMsg := { members := [] }
def goNew : State := { goS with subs := [] }
/-- Lane 31 as a PTP port of time base 0, alone or paired with lane 30. -/
def ptpImage (pair : Option Nat) : Image := { lanes := [(31, { mode := .eth1g, ptpTb := some 0, pairLane := pair })] }
def ptpS (pair : Option Nat) (p : PtpSt) : State :=
  { (((load (ptpImage pair) W).setF F.LN_STAT_UP 31 1).setF F.LN_STAT_STATE 31 2).updLane 31 (fun l => { l with ptp := p }) with
    partners := [(0, partner0 3 31)] }
def fromMst : PtpSt := { master := some 0, syncSeq := some 9, pdelayAsked := true, pdelaySeq := some 9 }
def ptpMst : State := ptpS none fromMst
def ptpPair : State := ptpS (some 30) fromMst
def ptp1 : PtpMsg := { twoStep := false, seqId := 9 }
def ptp2 : PtpMsg := { seqId := 7 }
def held0 : Nat × Nat × Int × Nat := (9, 0, 80, 0)
def ptpHolds : State := ptpS (some 30) { fromMst with held := [held0] }
def ptpOther : PtpMsg := { source := 70000 }
def entryS (pinned : Bool) : State := { goS with partners := [(0, { pinned := pinned })] }
def pt0 (pinned : Bool) : Partner := { pinned := pinned }
def tbS (f : TbSt → TbSt) : State := W.updTb 3 f
def tbStep : State := (tbS (fun x => { x with lastUpd := some 0 })).setF F.TB_STAT_EN 3 1
def tbLocked : State := (tbS (fun x => { x with lastUpd := some 0 })).setF F.TB_STAT_LOCK 3 1
def tbPps : State := W.setF F.TB_CFG_PPSOUT 3 1
def tbHigh : State := (tbS (fun x => { x with ppsHigh := some 0 })).updPins (fun p => { p with ppsOut := 8 })
def tbSrc : State := W.setF F.TB_CFG_SRC 3 1
def tbDone : State := W.setF F.TB_STAT_STEPPED 3 1
/-- A paired device with chain 31 of section 0 and pair lane 30. -/
def pairImage : Image := { tileImage with pair := { en := true, lanes := [30] } }
def pairS (f : PairSt → PairSt) : State :=
  ((((((((load pairImage (secS (fun x => { x with nextDue := 1, nextSample := 9 }))).setF F.PR_CFG_EN 0 1).setF F.LN_STAT_UP 30 1).setF
    F.LN_CFG_MODE 30 2).setF F.LN_STAT_STATE 30 2).setF F.LN_STAT_LOCK 30 1).setF F.LN_CFG_MODE 31 1).setF F.LN_STAT_UP 31 1).updPair f
/-- A frame arrives whole on lane 30. -/
def rxOf (f : PeerFrame) : PeerRx := { lane := 30, before := 5, blocks := scrambleAll 5 (peerBlocks f) }
def recF (r : PeerRec) : PeerFrame := { chan := 0, seq := r.seq, payload := peerRecBytes r }
def rx (r : PeerRec) : PeerRx := rxOf (recF r)
def got (s : State) (r : PeerRec) : State := (s.peerArrives (rx r)).2
def after (s : State) (r : PeerRec) : State := ((got s r).takeRec r).getD s
def feedF : PeerFrame := { chan := 1, payload := feedBytes 0 5 [{}] }
def frameMax : PeerFrame := { chan := 1, seq := 65535, payload := List.replicate 16 255 }
def recMax : PeerRec := { type := 255, section_ := 255, seq := 65535, sideB := true, contest := true, epoch := 4294967295, stamp := 4294967295, data := 4294967295, cver := 4294967295, pairId := 65535, claim := 65535, g := 65535 }
def feedMax : FeedTile := { inp := 65535, wb := 65535, rb := 255, stat := 255, q := 255 }
def partnerFrame : DownFrame := { type := 3, flags := 1, claim := 65535 }
def partnerChars : TileChars := downChars partnerFrame
def aligned : State := (pairS (fun p => { p with delta := [(0, 0)] })).setF F.PR_ALIGN_ALIGNED 0 (2 ^ 24 - 1)
def unaligned : State := pairS id
def rec5 : PeerRec := { seq := 1, epoch := 5, data := 1 }
def res5 : PeerRec := { rec5 with type := 3 }
def req5 : PeerRec := { rec5 with type := 4 }
def recBad : PeerRec := { pairId := 1 }
def contest0 : Contest := { sec := 0, c := 5, ranks := 1 }
def inContest : State := pairS (fun p => { p with contest := some contest0 })
def contestRun (act res pres : Nat) : State := ((inContest.setF F.PR_STAT_ACTIVE 0 act).setF F.PR_CONTEST_RES 0 res).setF F.PR_CONTEST_PRES 0 pres
def listening (heard : Bool) : State := pairS (fun p => { p with listenAt := some 0, sawActive := if heard then some 3 else none })
def listenB : State := (listening false).setF F.PR_CFG_SIDE 0 1
def leading (f : LaneSt → LaneSt) : State := ((pairS id).setF F.PR_STAT_ACTIVE 0 1).updLane 31 f
def yields : State := leading (fun l => { l with highRun := 4 })
def standbyS : State := (pairS id).setF F.DEV_STAT_STATE 0 3
def ringOn : State := leading (fun l => { l with ringSvc := true, seenRun := 8 })
def lowPin : State := (pairS id).updPins (fun p => { p with demoteIn := false })
def tookS (c : Nat) : State := pairS (fun p => { p with took := some (0, 5), tookSeen := c })
def pulsing : State := pairS (fun p => { p with pulseAt := some 0 })
def demLow : State := pairS (fun p => { p with demLowAt := some 0 })
def castleS : State := aligned.setF F.PR_STAT_ACTIVE 0 1
def castling (c : Castling) : State := aligned.updPair (fun p => { p with castling := some c })
def asked : Castling := { x := 100, newG := 3 }
def granted : Castling := { x := 100, newG := 3, accepted := true, taker := true }
def lowers : Castling := { granted with taker := false }
def switched : Castling := { granted with switched := true }
def answer0 : PeerRec := { type := 5, seq := 1, data := 0 }
def answer7 : PeerRec := { type := 5, seq := 1, data := 7 }
/-- Lane 31 is a station port whose clients may do everything. -/
def mgmtImage : Image := { bareImage with hasKey := true, rules := [{ priv := 7, key := some 0 }], lanes := [(31, { mode := .eth1g, sb := true, ipv4 := 77, mac := 0x020000000001 })] }
def rec0 : DrRec := { sec := 0, open_ := false, stop := 1, parts := [(0, [7])], rows := [{ grp := 0, row := 0, at_ := 0, chan := 7, word := 5 }] }
def mgS : State := { (load mgmtImage W).setF F.LN_STAT_UP 31 1 with recs := [(5, rec0)] }
def served (s : State) (m : MgmtMsg) : State := let u := (s.judgeMgmt m).2; u.brim F.DEV_BRIM2_MGMT (u.mgmtFill + 1)
def sealMsg (code : Nat) (m : MgmtMsg) : MgmtMsg := { m with code := code, crc := mgmtCrc (headOf m code) m.payload }
def rawAsk (a b : Nat) (l : List Nat) : MgmtMsg :=
  { lane := 31, ip := 9, port := 8, toIp := 77, reqId := 4, arg0 := a, arg1 := b, len := l.length, payload := l }
def ask (code a b : Nat) : MgmtMsg := sealMsg code (rawAsk a b [])
def send (a n : Nat) : MgmtMsg := sealMsg 7 (rawAsk a 0 (List.replicate n 0xAB))
def askNone : MgmtMsg := sealMsg 99 (rawAsk 0 0 [])
def logS : State := (mgS.setF F.EL_FIRST_FIRST 0 1).setF F.EL_HEAD_HEAD 0 1
def session0 : Session := { client := (31, 9, 8), len := 1024 }
def sesS : State := { mgS with session := some session0 }
/-- mgS knows the client. -/
def mgKnown : State := (mgS.judgeMgmt (ask 1 0 0)).2
/-- The device is ACTIVE on the smallest image with a key, and stores; the package adds an empty text block, touches the sections of
`sch`, and fails the first check that `f` breaks. -/
def stored0 : State := let s := (banked (stateIs 3)); { s with cfg := some (mgmtImage.under bareHead blockDir []), dev := { s.dev with storing := true, image := bareBytes } }
def pkgDir : List DirEntry := [{ type := 12, index := 0 }]
def schedule0 : List Nat := [0, 0, 0, 0] ++ le4 16
def pkgHead (gen : Nat) : ImgHead := sealedHead { magic := packageMagic, layout := 1, nblk := 1, length := 152, version := 2, gen := gen, flags := 1 } pkgDir
def pkgMem (h : ImgHead) : Mem := memOf 0 (bytesOf h pkgDir ++ schedule0 ++ nullSig)
def storing (h : ImgHead) : State := { stored0 with pkgBuf := pkgMem h }
def storingOk : State := storing (pkgHead 0)
def storingBad : State := storing { pkgHead 0 with hcrc := 1 }
def pkgView : PackageView := { image := mgmtImage }
def changeOf (started : Bool) (l : List Nat) : Change := { image := mgmtImage, version := 2, started := started, left := l }
def changing (started : Bool) (l : List Nat) : State := { load mgmtImage (secS (fun x => { x with nextSample := 1 })) with change := some (changeOf started l) }
def drS (o : Bool) : State := { W with recs := [(5, { rec0 with open_ := o, blocks := 3 })] }
def drR (o : Bool) : DrRec := { rec0 with open_ := o, blocks := 3 }
def snapS (b : Bool) : State := ((W.setF F.SN_LATCH_HELD1 24 (b2n b)).setF F.SN_LATCH_HELD0 24 1) |> fun s => { s with snaps := [(24, { latch := some (true, 0) })] }
/-- A write frame of one word to LC_FSEL, and a read frame of it. -/
def withCrc (l : List Nat) : SpiFrame := l ++ spiCrc l
def wrHead : List Nat := [2, 0, 0, 0, 0, 1]
def wrFrame : SpiFrame := withCrc (wrHead ++ [1, 2, 3, 4])
def wrCut : SpiFrame := [2, 0, 0]
def rdFrame : SpiFrame := withCrc [11, 0, 0, 0, 0, 1] ++ List.replicate 9 0
def wrHole : SpiFrame := withCrc ([2, 0xFF, 0xFF, 0xFC, 0, 1] ++ [1, 2, 3, 4])
def rdHole : SpiFrame := withCrc [11, 0xFF, 0xFF, 0xFC, 0, 1] ++ List.replicate 9 0
def nvmW : Word := 0x00400000
def nvmEvW : Word := 0x00400010
def nvmDone (cmd : Nat) (event : Bool) : NvmCmd := { cmd := cmd, event := event, addr := 256, len := 2, data := [0x0F, 0xF0] }
def nvmS (cmd : Nat) (event : Bool) : State := W.updDev (fun d => { d with nvm := some (nvmDone cmd event) })
def clearW : Word := 0x21
def prEvt : State := (W.setF F.PR_STAT_ROLEEVT 0 1).setF F.PR_STAT_CASTEVT 0 1
/-- The events lie before the write. -/
def prLater : State := at_ 5 prEvt
def hole : Nat := 0xFFFFFC
def sized : State := W.updDev (fun d => { d with cfgSize := some 2 })

/-- What a served request asks for, from what the judgement of its frame answers. -/
theorem serves_of (s : State) (m : MgmtMsg) (c : Nat) (p : Option Nat) (n : Nat) (h : (s.judgeMgmt m).1 = some n ∧ headOk m c = true ∧
    ((s.judgeMgmt m).2.outstanding n).contains m.reqId = false ∧
    ((s.judgeMgmt m).2.outstanding n).length < ((s.judgeMgmt m).2.partner n).capOut ∧ (s.judgeMgmt m).2.mgmtFill < 256 ∧
    (p.all (fun b => bitOf ((served s m).partner n).priv b)) = true) : s.Serves m c p n (served s m) := by
  obtain ⟨a, b, c, d, e, g⟩ := h
  refine ⟨_, Prod.ext a rfl, b, c, d, e, rfl, ?_⟩
  rintro k rfl
  simpa using g

/-! ## For each statement, its clauses' hypotheses at those states -/

theorem witness_LogControlCommandsComplete :
    ((W.flag F.EL_STAT_FROZEN = false)) ∧
    ((armed.log.armedAt = some 0)) ∧
    ((frozen.flag F.EL_STAT_FROZEN = true) ∧ (frozen.flag F.EL_STAT_FULL = false) ∧
      (frozen.flag F.EL_STAT_HOLD = false) ∧ (frozen.log.present = true)) ∧
    ((frozen.flag F.EL_STAT_FROZEN = true)) := by
  refine ⟨?_, ?_, ?_, ?_⟩ <;> decide +kernel
theorem witness_RecordWritesInThreeStages :
    (((writingAt 0).log.writing = some (rec9, 1025, 0)) ∧ (∀ x ∈ [45], x ≤ (writingAt 0).img.slowUs)) ∧
    (((writingAt 1).log.writing = some (rec9, 1025, 1)) ∧ (∀ x ∈ [45], x ≤ (writingAt 1).img.slowUs)) ∧
    (((writingAt 2).log.writing = some (rec9, 1025, 2)) ∧ (∀ x ∈ [45], x ≤ (writingAt 2).img.slowUs)) := by
  refine ⟨?_, ?_, ?_⟩ <;> decide +kernel
theorem witness_LogErasesRunsCloseAndCorrelates :
    ((armed.log.armedAt = some 0) ∧ (armed.now ≤ 0 + 1000 * msClk) ∧ (armed.flag F.EL_STAT_READY = true)) ∧
    ((erasing.flag F.EL_STAT_READY = true) ∧ (erasing.eraseTarget = some 17) ∧ (erasing.waitsErase = false) ∧
      (4294967295 = leNat (erasing.evRead (4096 * 17 + 4) 4))) ∧
    ((flooding.floodMode 3 = FloodMode.rep) ∧ (flooding.log.flood.find 3 = some openRun) ∧ (openRun.open_ = true) ∧
      (flooding.logHeld = false)) ∧
    ((active3.flag F.EL_STAT_READY = true) ∧ (active3.calendar = false)) := by
  refine ⟨?_, ?_, ?_, ?_⟩ <;> decide +kernel
theorem witness_ForcesApplyAndRelease :
    (((forceIdle.force forceIdle.selForce).active = false) ∧
      (bitOf (forceIdle.force forceIdle.selForce).def_ 30 = false) ∧
      (forceIdle.forceRefused forceIdle.selForce false ((forceIdle.force forceIdle.selForce).def_ % 2 ^ 17) = false)) ∧
    (((forceNone.force forceNone.selForce).active = false) ∧
      (bitOf (forceNone.force forceNone.selForce).def_ 30 = false) ∧
      (forceNone.forceRefused forceNone.selForce false ((forceNone.force forceNone.selForce).def_ % 2 ^ 17) = true)) ∧
    (((forceOn.force forceOn.selForce).active = true) ∧ ((forceOn.force forceOn.selForce).output = false) ∧
      (¬(123648 ≤ (forceOn.force forceOn.selForce).target ∧ (forceOn.force forceOn.selForce).target < 123904))) := by
  refine ⟨?_, ?_, ?_⟩ <;> decide +kernel
theorem witness_PowerAndStartCommandsComplete_high :
    (((bankedHigh (stateIs 1)).pins.porn = true) ∧ ((bankedHigh (stateIs 1)).getF F.DEV_STAT_STATE = 1) ∧
      (((bankedHigh (stateIs 1)).readBank 1 goodBank).fault = none) ∧
      (((bankedHigh (stateIs 1)).readBank 0 noBank).fault = none → ((bankedHigh (stateIs 1)).readBank 0 noBank).gen < ((bankedHigh (stateIs 1)).readBank 1 goodBank).gen)) := by decide +kernel
theorem witness_PowerAndStartCommandsComplete :
    ((State.reset.pins.porn = false)) ∧
    ((W.pins.porn = true)) ∧
    ((W.pins.porn = true) ∧ (W.pins.holdup = false) ∧ (W.flag F.EL_STAT_HOLD = false)) ∧
    (((W.updPins fun p => Pins.mk p.porn true p.holdup p.ccsN p.ecsN p.crstN p.erstN p.demoteIn p.demoteOutLow p.pairOkIn p.testmode p.forcedN p.ppsOut p.lanesIdle).pins.porn = true) ∧
      ((W.updPins fun p => Pins.mk p.porn true p.holdup p.ccsN p.ecsN p.crstN p.erstN p.demoteIn p.demoteOutLow p.pairOkIn p.testmode p.forcedN p.ppsOut p.lanesIdle).pins.holdup = false) ∧
      ((W.updPins fun p => Pins.mk p.porn true p.holdup p.ccsN p.ecsN p.crstN p.erstN p.demoteIn p.demoteOutLow p.pairOkIn p.testmode p.forcedN p.ppsOut p.lanesIdle).pins.pwrgood = true) ∧
      ((W.updPins fun p => Pins.mk p.porn true p.holdup p.ccsN p.ecsN p.crstN p.erstN p.demoteIn p.demoteOutLow p.pairOkIn p.testmode p.forcedN p.ppsOut p.lanesIdle).flag F.EL_STAT_HOLD = false)) ∧
    ((heldUp.pins.holdup = true)) ∧
    ((heldLog.pins.porn = true) ∧ (heldLog.flag F.EL_STAT_HOLD = true) ∧
      (((heldLog.saveDone.updPins fun p => Pins.mk p.porn true false p.ccsN p.ecsN p.crstN p.erstN p.demoteIn p.demoteOutLow p.pairOkIn p.testmode p.forcedN p.ppsOut p.lanesIdle).setF F.EL_STAT_HOLD 0 0).flag F.EL_STAT_READY = true) ∧
      (((heldLog.saveDone.updPins fun p => Pins.mk p.porn true false p.ccsN p.ecsN p.crstN p.erstN p.demoteIn p.demoteOutLow p.pairOkIn p.testmode p.forcedN p.ppsOut p.lanesIdle).setF F.EL_STAT_HOLD 0 0).flag F.EL_STAT_FULL = false)) ∧
    ((State.reset.pins.porn = false) ∧ (State.reset.pins.pwrgood = false)) ∧
    (((stateIs 1).pins.porn = true) ∧ ((stateIs 1).getF F.DEV_STAT_STATE = 1) ∧
      (((stateIs 1).readBank 0 noBank).fault ≠ none) ∧ (((stateIs 1).readBank 1 noBank).fault ≠ none)) ∧
    (((banked (stateIs 1)).pins.porn = true) ∧ ((banked (stateIs 1)).getF F.DEV_STAT_STATE = 1) ∧
      (((banked (stateIs 1)).readBank 0 goodBank).fault = none) ∧
      (((banked (stateIs 1)).readBank 1 noBank).fault = none → ((banked (stateIs 1)).readBank 1 noBank).gen ≤ ((banked (stateIs 1)).readBank 0 goodBank).gen)) ∧
    (((stateIs 2).getF F.DEV_STAT_STATE = 2) ∧ (((stateIs 2).sec 0).running = false)) ∧
    ((allRun.getF F.DEV_STAT_STATE = 2) ∧ (allRun.mayProtect = true)) ∧
    (((stateIs 4).getF F.DEV_STAT_STATE = 4)) := by
  refine ⟨?_, ?_, ?_, ?_, ?_, ?_, ?_, ?_, ?_, ?_, ?_, ?_⟩ <;> decide +kernel
theorem witness_SaveSetStaysInItsSlot :
    ((saving.log.saving = true) ∧ (saving.log.saveSet = some noSave)) ∧
    (((withLog id).flag F.EL_STAT_READY = true) ∧ ((withLog id).log.saveErased = false) ∧
      ((withLog id).log.saving = false)) := by
  refine ⟨?_, ?_⟩ <;> decide +kernel
theorem witness_SectionClockCommandsComplete :
    ((23 < 24)) ∧
    (((failing.sec 0).running = true) ∧ (3 < 4) ∧ (16 ≤ ((failing.sec 0).entry 3).failRun) ∧
      (((failing.sec 0).entry 3).lost = false)) ∧
    (((settled.sec 0).running = true) ∧ (3 < 4) ∧
      (128 * settled.getF F.SEC_ANGLE_CFG_Q ≤ ((settled.sec 0).entry 3).validRun)) ∧
    ((gliding.flag F.SEC_REF_STAT_GLIDE = true) ∧
      ((gliding.sec 0).glideZero ((gliding.sec 0).entry (gliding.target 0)).hz = some glideZ)) ∧
    ((clamps.flag F.SEC_REF_STAT_GLIDE = true) ∧ ((clamps.sec 0).clamped = true) ∧ (clamps.glideEnds 0 = false)) ∧
    ((((secS id).sec 0).running = true)) ∧
    (((sampleS.sec 0).running = true) ∧ (0 < (sampleS.sec 0).nextSample)) ∧
    (((dueS.sec 0).running = true) ∧ ((dueS.sec 0).nextDeadline < (dueS.sec 0).nextDue) ∧
      ((dueS.sec 0).nextDeadline + dueS.delayOf 0 (dueS.sec 0).nextDeadline + 2 ≤ (dueS.sec 0).nextSample)) := by
  refine ⟨?_, ?_, ?_, ?_, ?_, ?_, ?_, ?_⟩ <;> decide +kernel
theorem witness_CheckUnitCommandsComplete :
    ((7 < 8) ∧ ((ckS 0 0 4).ckOwned 7 = false) ∧ ((ckS 0 0 4).getF F.CK_STAT_STATE 7 ≠ 1) ∧
      ((ckS 0 0 4).ckShowAll.ckRefusal 7 false = none)) ∧
    ((7 < 8) ∧ ((ckS 0 0 4).ckOwned 7 = false) ∧ ((ckS 0 0 4).getF F.CK_STAT_STATE 7 ≠ 1) ∧
      ((ckS 0 0 4).ckShowAll.ckRefusal 7 true = none)) ∧
    ((7 < 8) ∧ ((ckS 0 3 4).ckOwned 7 = false) ∧ ((ckS 0 3 4).getF F.CK_STAT_STATE 7 ≠ 1) ∧
      ((ckS 0 3 4).ckShowAll.ckRefusal 7 false = some 3)) ∧
    ((7 < 8) ∧ ((ckS 1 0 4).ckOwned 7 = false) ∧ ((ckS 1 0 4).getF F.CK_STAT_STATE 7 = 1) ∧
      ((ckS 1 0 4).getF F.CK_CFG_SSPACE 7 = 0) ∧
      (4 * ((ckS 1 0 4).now - ((ckS 1 0 4).ck 7).startAt) < (ckS 1 0 4).getF F.CK_LEN_LEN 7)) ∧
    ((7 < 8) ∧ ((ckS 2 0 4).ckOwned 7 = false) ∧ ((ckS 2 0 4).getF F.CK_STAT_STATE 7 = 2)) ∧
    ((7 < 8) ∧ ((ckS 1 0 4).getF F.CK_STAT_STATE 7 = 1) ∧ (((ckS 1 0 4).ck 7).stored = []) ∧
      (((ckS 1 0 4).ck 7).page = []) ∧ ((ckS 1 0 4).getF F.CK_CFG_MODE 7 = 0)) ∧
    ((7 < 8) ∧ ((ckS 1 1 4).getF F.CK_STAT_STATE 7 = 1) ∧ (((ckS 1 1 4).ck 7).stored = []) ∧
      (((ckS 1 1 4).ck 7).page = []) ∧ ((ckS 1 1 4).getF F.CK_CFG_MODE 7 = 1) ∧
      ((ckS 1 1 4).getF F.CK_DST_DST 7 + (ckS 1 1 4).getF F.CK_LEN_LEN 7 < 2 ^ 32)) ∧
    ((7 < 8) ∧ ((ckS 1 2 5).getF F.CK_STAT_STATE 7 = 1) ∧ (((ckS 1 2 5).ck 7).stored = []) ∧
      (((ckS 1 2 5).ck 7).page = []) ∧ ((ckS 1 2 5).getF F.CK_CFG_MODE 7 = 2) ∧
      (((ckS 1 2 5).ckParam 7).bytes < (ckS 1 2 5).getF F.CK_LEN_LEN 7)) := by
  refine ⟨?_, ?_, ?_, ?_, ?_, ?_, ?_, ?_⟩ <;> decide +kernel
theorem witness_ConversionsRunInOrder :
    (((convS id).slotsRun 31 = true) ∧ ((convS id).flag (slotEnF (((convS id).conv 31).slotTick % 16 / 2)) 31 = true) ∧
      (((convS id).conv 31).cur = none)) ∧
    ((31 < 32) ∧ ((convRun.conv 31).cur = some aConv)) ∧
    (((convQ.conv 31).queue = [qEnt]) ∧ (∀ (d : QEnt), [].head? = some d → d.dropped = false)) ∧
    ((31 < 32) ∧ (((convS id).slotOfInput 31 7).isSome = true) ∧ ((convS id).slotsRun 31 = true) ∧
      ((convS id).urgHeld 31 = none) ∧ ((convS id).urgFree 31 = true)) ∧
    ((31 < 32) ∧ ((convUrg.slotOfInput 31 7).isSome = true) ∧ (convUrg.slotsRun 31 = true) ∧
      (convUrg.urgHeld 31 = none) ∧ (convUrg.urgFree 31 = false)) ∧
    ((31 < 32) ∧ ((convPend.slotOfInput 31 7).isSome = true) ∧ (convPend.slotsRun 31 = true) ∧
      ((convPend.conv 31).pendUrg = some (7, []))) ∧
    ((31 < 32) ∧ ((convOther.slotOfInput 31 7).isSome = true) ∧ (convOther.slotsRun 31 = true) ∧
      ((convOther.conv 31).pendUrg = some (6, [])) ∧ (6 ≠ 7) ∧ (convOther.tookNow 31 = none)) ∧
    (((convBoth.conv 31).pendUrg = some (7, [])) ∧ ((convBoth.conv 31).lastUrg = some 0)) := by
  refine ⟨?_, ?_, ?_, ?_, ?_, ?_, ?_, ?_⟩ <;> decide +kernel
theorem witness_OpenWireTestsAndReferencesRun :
    ((owDue.slotsRun 31 = true) ∧ (7 < 8) ∧ (bitOf (owDue.getF F.CV_CFG_OWEN 31) 7 = true) ∧
      ((owDue.ow 31 7).due = false) ∧ ((owDue.ow 31 7).pull = none) ∧ ((owDue.conv 31).underCal 7 = false)) ∧
    ((((owPull 7).ow 31 7).pull = some (0, 5)) ∧ (((owPull 7).conv 31).testing 7 = false) ∧
      (((owPull 7).ow 31 7).attempts < 8) ∧ (((owPull 7).conv 31).cur = none) ∧
      (((owPull 7).advanceTo (0 + 1800)).roomForTest 31 = true)) ∧
    ((((owPull 8).ow 31 7).pull = some (0, 5)) ∧ (((owPull 8).conv 31).testing 7 = false) ∧
      (8 ≤ ((owPull 8).ow 31 7).attempts)) ∧
    ((((owPull 0).ow 31 7).pull = some (0, 5)) ∧ ((owPull 0).nextSlotOf 31 7 = some 64) ∧
      (((owPull 0).conv 31).started 7 = false)) ∧
    ((3 < 4) ∧ (((refS true).ref 3).powered = true) ∧ ((refS true).refInRange 3 = true)) ∧
    ((3 < 4) ∧ (((refS false).ref 3).powered = true) ∧ ((refS false).refInRange 3 = false)) ∧
    (((refS true).groupSource 3 ≠ RefSource.external) ∧ (((refS true).ref 3).out.contains RefSource.external = false)) := by
  refine ⟨?_, ?_, ?_, ?_, ?_, ?_, ?_⟩ <;> decide +kernel
theorem witness_CalibrationSessionCommandsComplete :
    ((31 < 32) ∧ (7 < 8) ∧ ((calS none 0).inUse 31 7 = true) ∧ ((calS none 0).flag F.CV_STAT_REFRDY 31 = true) ∧
      (bitOf ((calS none 0).getF F.CV_OWSTAT_FLAG 31) 7 = false) ∧ ((calS none 0).getF F.CV_CALSTAT_STATE 31 ≠ 1) ∧
      ((calS none 0).getF F.CV_CALSTAT_STATE 31 ≠ 3) ∧ (∀ (c : CalSt), ((calS none 0).conv 31).cal = some c → c.inp = 7)) ∧
    ((31 < 32) ∧ (7 < 8) ∧ ((calS (some (calSt 0)) 2).inUse 31 7 = true) ∧
      ((calS (some (calSt 0)) 2).flag F.CV_STAT_REFRDY 31 = true) ∧
      (bitOf ((calS (some (calSt 0)) 2).getF F.CV_OWSTAT_FLAG 31) 7 = false) ∧
      ((calS (some (calSt 0)) 2).getF F.CV_CALSTAT_STATE 31 ≠ 1) ∧
      ((calS (some (calSt 0)) 2).getF F.CV_CALSTAT_STATE 31 ≠ 3) ∧
      (∀ (c : CalSt), ((calS (some (calSt 0)) 2).conv 31).cal = some c → c.inp = 7) ∧
      (((calS (some (calSt 0)) 2).conv 31).cal = some (calSt 0)) ∧ ((calSt 0).zero = some 0) ∧
      (32768 ≤ (calS (some (calSt 0)) 2).getF F.CV_CALVAL_EXPECT 31) ∧
      ((calS (some (calSt 0)) 2).getF F.CV_CALVAL_EXPECT 31 ≤ 131071)) ∧
    ((31 < 32) ∧ (((calS (some (calSt 0)) 2).conv 31).cal = some (calSt 0)) ∧
      ((calS (some (calSt 0)) 2).inUse 31 (calSt 0).inp = true)) ∧
    ((31 < 32) ∧ (((calS (some (calSt 0)) 2).conv 31).cal = some (calSt 0))) ∧
    ((31 < 32) ∧ (((calS (some (calSt 4096)) 1).conv 31).cal = some (calSt 4096)) ∧ (4096 ≤ (calSt 4096).count) ∧
      ((calSt 4096).newCoef = none) ∧ ((calSt 4096).ovr = false) ∧
      ((calS (some (calSt 4096)) 1).getF F.CV_CALSTAT_STATE 31 = 1) ∧ (-4096 ≤ (↑(calSt 4096).sum : ℚ) / 4096) ∧
      ((↑(calSt 4096).sum : ℚ) / 4096 ≤ 4096)) ∧
    ((31 < 32) ∧ ((((calS (some calAll) 3).setF F.CV_CALVAL_EXPECT 31 65536).conv 31).cal = some calAll) ∧
      (4096 ≤ calAll.count) ∧ (calAll.newCoef = none) ∧ (calAll.ovr = false) ∧
      (((calS (some calAll) 3).setF F.CV_CALVAL_EXPECT 31 65536).getF F.CV_CALSTAT_STATE 31 = 3) ∧
      (calAll.zero = some 0) ∧ ((↑calAll.sum : ℚ) / 4096 ≠ 0) ∧
      (9 / 10 ≤ (↑(((calS (some calAll) 3).setF F.CV_CALVAL_EXPECT 31 65536).getF F.CV_CALVAL_EXPECT 31) : ℚ) / ((↑calAll.sum : ℚ) / 4096 - 0)) ∧
      ((↑(((calS (some calAll) 3).setF F.CV_CALVAL_EXPECT 31 65536).getF F.CV_CALVAL_EXPECT 31) : ℚ) / ((↑calAll.sum : ℚ) / 4096 - 0) ≤ 11 / 10)) ∧
    ((31 < 32) ∧ (((calS (some calNew) 3).conv 31).cal = some calNew) ∧ (calNew.newCoef = some (-4096, 5)) ∧
      ((calS (some calNew) 3).log.present = true) ∧ ((calS (some calNew) 3).calReady ((8 * 31 + calNew.inp) / 64) = true)) ∧
    ((calOld.log.calErasing.contains 0 = true)) := by
  refine ⟨?_, ?_, ?_, ?_, ?_, ?_, ?_, ?_⟩ <;> decide +kernel
theorem witness_FilterChainCommandsComplete :
    ((31 < 32) ∧ ((fcS 1 id).getF F.FC_STAT_STATE 31 = 1) ∧ (((fcS 1 id).chain 31).startWait = false)) ∧
    ((31 < 32) ∧ (fcDue.getF F.FC_STAT_STATE 31 = 1) ∧ ((fcDue.chain 31).startWait = false)) ∧
    (((fcS 2 id).getF F.FC_STAT_STATE 31 = 2) ∧ ((fcS 2 id).flag F.FC_STAT_PENDING 31 = false)) ∧
    ((31 < 32) ∧ ((fcS 0 id).getF F.FC_STAT_STATE 31 = 0)) ∧
    (((fcWait.chain 31).startWait = true) ∧ ((fcWait.sec (fcWait.convSec 31)).running = true) ∧
      ((fcWait.chain 31).pendOff = false)) ∧
    ((List.find? (fun d => d.1 == 7) (fcDue.chain 31).due = some (7, 0)) ∧ (fcDue.slotOfInput 31 7 = some 0) ∧
      (7 < (fcDue.chain 31).inps.length)) ∧
    (((fcS 0 id).getF F.FC_STAT_STATE 31 = 0) ∧ ((fcS 0 id).getF F.FC_COEFADDR_TAP 31 < 64)) ∧
    (((fcS 0 id).getF F.FC_STAT_STATE 31 = 0) ∧ (-3968 ≤ sext 13 (BitVec.toNat w1080)) ∧
      (sext 13 (BitVec.toNat w1080) ≤ 3968)) ∧
    (((fcS 1 id).getF F.FC_STAT_STATE 31 ≠ 0)) ∧
    ((convDefault.coefs = [])) := by
  refine ⟨?_, ?_, ?_, ?_, ?_, ?_, ?_, ?_, ?_, ?_⟩ <;> decide +kernel
theorem witness_SampledValueCommandsComplete :
    (((List.map (fun p => (svDue.sec 0).svNext.get 0 p.1) (List.filter (fun p => p.2.section_ == 0) svDue.img.svSubs)).min? = some 0) ∧
      ((svDue.sec 0).epochRec 0 = some epoch0)) ∧
    ((31 < 32) ∧ (svSub0.section_ < 24) ∧ (svOpen.ethRx 31 = true) ∧ (frameLenOk svFrame0.snd.len = true) ∧
      (svOpen.img.svSubOf 31 svFrame0 = some (0, svSub0)) ∧
      ((svOpen.captureRx 31).judgePinned 31 0 0 svSub0.srcMac svFrame0.snd = (some 0, ((svOpen.captureRx 31).judgePinned 31 0 0 none svFrame0.snd).2)) ∧
      (svSub0.passes svFrame0 = true)) ∧
    ((svOn.img.svPubs.find 0 = some svPub0) ∧ (svOn.img.feeder svPub0.feeder = some fdr) ∧
      (svDate (svOn.extNs (svOn.img.sec (svPub0.feeder / 64)).stampTb) 4800 4799 = some 4799) ∧
      (svOn.svPublishes svPub0 = true) ∧ ((svOn.sec (svPub0.feeder / 64)).running = true) ∧ (4799 < 4800)) := by
  refine ⟨?_, ?_, ?_⟩ <;> decide +kernel
theorem witness_EvaluationEventsComplete :
    ((evOc.evaluating 0 = some (fdrOf [(0, ocDef)], 0)) ∧
      (List.findIdx? (fun j => j == 0) (fdrOf [(0, ocDef)]).order = some (evOc.feeder 0).evalNext) ∧
      ((fdrOf [(0, ocDef)]).elems.find 0 = some ocDef) ∧ (ocDef.kind = ElemKind.thr ThrKind.oc ocDefK) ∧
      (2 < if ThrKind.oc = ThrKind.oc then 3 else 1) ∧
      (((evOc.feeder 0).clearSat.ctx (fdrOf [(0, ocDef)]) 0 evOc.now).missing (ocDefK.chans ThrKind.oc (fdrOf [(0, ocDef)]) ++ ((evOc.feeder 0).clearSat.ctx (fdrOf [(0, ocDef)]) 0 evOc.now).linkChans ocDefK ++ ((evOc.feeder 0).clearSat.ctx (fdrOf [(0, ocDef)]) 0 evOc.now).inrushChans ocDefK) = false) ∧
      (ocDefK.curve = Curve.definite) ∧
      (blocks ocDef.blockOnQuest (((((evOc.feeder 0).clearSat.ctx (fdrOf [(0, ocDef)]) 0 evOc.now).thrQual ThrKind.oc ocDefK).join (((evOc.feeder 0).clearSat.ctx (fdrOf [(0, ocDef)]) 0 evOc.now).dirQual ocDefK)).join (((evOc.feeder 0).clearSat.ctx (fdrOf [(0, ocDef)]) 0 evOc.now).inrushQual ocDefK)) = false) ∧
      (((evOc.feeder 0).elem 0).blocked = false) ∧
      ((((evOc.feeder 0).elem 0).ph.getD 2 (PhSt.mk false false 0 0 0 0 false false false)).started = true) ∧
      ((((evOc.feeder 0).elem 0).ph.getD 2 (PhSt.mk false false 0 0 0 0 false false false)).op = false) ∧
      (((evOc.feeder 0).clearSat.ctx (fdrOf [(0, ocDef)]) 0 evOc.now).direction ocDefK (decide (ThrKind.oc = ThrKind.oc)) 2 = true) ∧
      (((evOc.feeder 0).clearSat.ctx (fdrOf [(0, ocDef)]) 0 evOc.now).inrush ocDefK (ocDefK.inrBit ThrKind.oc (fdrOf [(0, ocDef)]) 2) = false) ∧
      (((evOc.feeder 0).clearSat.ctx (fdrOf [(0, ocDef)]) 0 evOc.now).blockIn ocDefK.block = false) ∧
      (((evOc.feeder 0).clearSat.ctx (fdrOf [(0, ocDef)]) 0 evOc.now).thrGate ThrKind.oc ocDefK = true) ∧
      (ThrKind.oc = ThrKind.oc → (fdrOf [(0, ocDef)]).has 2 = true) ∧
      (ocDefK.r * ((evOc.feeder 0).clearSat.ctx (fdrOf [(0, ocDef)]) 0 evOc.now).thrStart ThrKind.oc ocDefK ≤ (((evOc.feeder 0).clearSat.ctx (fdrOf [(0, ocDef)]) 0 evOc.now).thrQty ThrKind.oc ocDefK 2).lo) ∧
      ((ocDefK.delayOf ThrKind.oc).limit ≤ (((evOc.feeder 0).elem 0).ph.getD 2 (PhSt.mk false false 0 0 0 0 false false false)).t + (ocDefK.delayOf ThrKind.oc).step ((evOc.feeder 0).clearSat.ctx (fdrOf [(0, ocDef)]) 0 evOc.now).dt)) ∧
    ((evInv.evaluating 0 = some (fdrOf [(0, ocInv)], 0)) ∧
      (List.findIdx? (fun j => j == 0) (fdrOf [(0, ocInv)]).order = some (evInv.feeder 0).evalNext) ∧
      ((fdrOf [(0, ocInv)]).elems.find 0 = some ocInv) ∧ (ocInv.kind = ElemKind.thr ThrKind.oc ocInvK) ∧
      (0 < if ThrKind.oc = ThrKind.oc then 3 else 1) ∧
      (((evInv.feeder 0).clearSat.ctx (fdrOf [(0, ocInv)]) 0 evInv.now).missing (ocInvK.chans ThrKind.oc (fdrOf [(0, ocInv)]) ++ ((evInv.feeder 0).clearSat.ctx (fdrOf [(0, ocInv)]) 0 evInv.now).linkChans ocInvK ++ ((evInv.feeder 0).clearSat.ctx (fdrOf [(0, ocInv)]) 0 evInv.now).inrushChans ocInvK) = false) ∧
      (ocInvK.curve ≠ Curve.definite) ∧
      (blocks ocInv.blockOnQuest (((((evInv.feeder 0).clearSat.ctx (fdrOf [(0, ocInv)]) 0 evInv.now).thrQual ThrKind.oc ocInvK).join (((evInv.feeder 0).clearSat.ctx (fdrOf [(0, ocInv)]) 0 evInv.now).dirQual ocInvK)).join (((evInv.feeder 0).clearSat.ctx (fdrOf [(0, ocInv)]) 0 evInv.now).inrushQual ocInvK)) = false) ∧
      (((evInv.feeder 0).elem 0).blocked = false) ∧
      ((((evInv.feeder 0).elem 0).ph.getD 0 (PhSt.mk false false 0 0 0 0 false false false)).started = true) ∧
      ((((evInv.feeder 0).elem 0).ph.getD 0 (PhSt.mk false false 0 0 0 0 false false false)).op = false) ∧
      (((evInv.feeder 0).clearSat.ctx (fdrOf [(0, ocInv)]) 0 evInv.now).direction ocInvK (decide (ThrKind.oc = ThrKind.oc)) 0 = true) ∧
      (((evInv.feeder 0).clearSat.ctx (fdrOf [(0, ocInv)]) 0 evInv.now).inrush ocInvK (ocInvK.inrBit ThrKind.oc (fdrOf [(0, ocInv)]) 0) = false) ∧
      (((evInv.feeder 0).clearSat.ctx (fdrOf [(0, ocInv)]) 0 evInv.now).blockIn ocInvK.block = false) ∧
      (((evInv.feeder 0).clearSat.ctx (fdrOf [(0, ocInv)]) 0 evInv.now).thrGate ThrKind.oc ocInvK = true) ∧
      (ThrKind.oc = ThrKind.oc → (fdrOf [(0, ocInv)]).has 0 = true) ∧
      (ocInvK.r * ((evInv.feeder 0).clearSat.ctx (fdrOf [(0, ocInv)]) 0 evInv.now).thrStart ThrKind.oc ocInvK ≤ (((evInv.feeder 0).clearSat.ctx (fdrOf [(0, ocInv)]) 0 evInv.now).thrQty ThrKind.oc ocInvK 0).lo) ∧
      (1 ≤ if 1 < minQ ((((evInv.feeder 0).clearSat.ctx (fdrOf [(0, ocInv)]) 0 evInv.now).thrQty ThrKind.oc ocInvK 0).lo / (ocInvK.isOf ThrKind.oc * ((evInv.feeder 0).clearSat.ctx (fdrOf [(0, ocInv)]) 0 evInv.now).thrUnit ThrKind.oc)) ocInvK.mmax then minQ 1 ((((evInv.feeder 0).elem 0).ph.getD 0 (PhSt.mk false false 0 0 0 0 false false false)).g + rnd (((evInv.feeder 0).clearSat.ctx (fdrOf [(0, ocInv)]) 0 evInv.now).dt / (ocInvK.kt * ocInvK.curve.time (minQ ((((evInv.feeder 0).clearSat.ctx (fdrOf [(0, ocInv)]) 0 evInv.now).thrQty ThrKind.oc ocInvK 0).lo / (ocInvK.isOf ThrKind.oc * ((evInv.feeder 0).clearSat.ctx (fdrOf [(0, ocInv)]) 0 evInv.now).thrUnit ThrKind.oc)) ocInvK.mmax)))) else (((evInv.feeder 0).elem 0).ph.getD 0 (PhSt.mk false false 0 0 0 0 false false false)).g) ∧
      (ocInvK.tmin ≤ (((evInv.feeder 0).elem 0).ph.getD 0 (PhSt.mk false false 0 0 0 0 false false false)).u + ((evInv.feeder 0).clearSat.ctx (fdrOf [(0, ocInv)]) 0 evInv.now).dt)) ∧
    ((evDrop.evaluating 0 = some (fdrOf [(0, ocDef)], 0)) ∧
      (List.findIdx? (fun j => j == 0) (fdrOf [(0, ocDef)]).order = some (evDrop.feeder 0).evalNext) ∧
      ((fdrOf [(0, ocDef)]).elems.find 0 = some ocDef) ∧ (ocDef.kind = ElemKind.thr ThrKind.oc ocDefK) ∧
      (0 < if ThrKind.oc = ThrKind.oc then 3 else 1) ∧
      (((evDrop.feeder 0).clearSat.ctx (fdrOf [(0, ocDef)]) 0 evDrop.now).missing (ocDefK.chans ThrKind.oc (fdrOf [(0, ocDef)]) ++ ((evDrop.feeder 0).clearSat.ctx (fdrOf [(0, ocDef)]) 0 evDrop.now).linkChans ocDefK ++ ((evDrop.feeder 0).clearSat.ctx (fdrOf [(0, ocDef)]) 0 evDrop.now).inrushChans ocDefK) = false) ∧
      (ocDefK.curve = Curve.definite) ∧ (ocDefK.reset = ResetMode.definite) ∧
      (blocks ocDef.blockOnQuest (((((evDrop.feeder 0).clearSat.ctx (fdrOf [(0, ocDef)]) 0 evDrop.now).thrQual ThrKind.oc ocDefK).join (((evDrop.feeder 0).clearSat.ctx (fdrOf [(0, ocDef)]) 0 evDrop.now).dirQual ocDefK)).join (((evDrop.feeder 0).clearSat.ctx (fdrOf [(0, ocDef)]) 0 evDrop.now).inrushQual ocDefK)) = false) ∧
      (((evDrop.feeder 0).elem 0).blocked = false) ∧
      ((((evDrop.feeder 0).elem 0).ph.getD 0 (PhSt.mk false false 0 0 0 0 false false false)).started = false) ∧
      ((((evDrop.feeder 0).clearSat.ctx (fdrOf [(0, ocDef)]) 0 evDrop.now).thrQty ThrKind.oc ocDefK 0).lo < ((evDrop.feeder 0).clearSat.ctx (fdrOf [(0, ocDef)]) 0 evDrop.now).thrStart ThrKind.oc ocDefK) ∧
      ((((evDrop.feeder 0).elem 0).ph.getD 0 (PhSt.mk false false 0 0 0 0 false false false)).t ≠ 0) ∧
      (ocDefK.tdr ≤ (((evDrop.feeder 0).elem 0).ph.getD 0 (PhSt.mk false false 0 0 0 0 false false false)).w + ((evDrop.feeder 0).clearSat.ctx (fdrOf [(0, ocDef)]) 0 evDrop.now).dtOff)) ∧
    ((evHold.evaluating 0 = some (fdrOf [(0, ocDef)], 0)) ∧
      (List.findIdx? (fun j => j == 0) (fdrOf [(0, ocDef)]).order = some (evHold.feeder 0).evalNext) ∧
      ((fdrOf [(0, ocDef)]).elems.find 0 = some ocDef) ∧ (ocDef.kind = ElemKind.thr ThrKind.oc ocDefK) ∧
      (0 < if ThrKind.oc = ThrKind.oc then 3 else 1) ∧
      (((evHold.feeder 0).clearSat.ctx (fdrOf [(0, ocDef)]) 0 evHold.now).missing (ocDefK.chans ThrKind.oc (fdrOf [(0, ocDef)]) ++ ((evHold.feeder 0).clearSat.ctx (fdrOf [(0, ocDef)]) 0 evHold.now).linkChans ocDefK ++ ((evHold.feeder 0).clearSat.ctx (fdrOf [(0, ocDef)]) 0 evHold.now).inrushChans ocDefK) = false) ∧
      (blocks ocDef.blockOnQuest (((((evHold.feeder 0).clearSat.ctx (fdrOf [(0, ocDef)]) 0 evHold.now).thrQual ThrKind.oc ocDefK).join (((evHold.feeder 0).clearSat.ctx (fdrOf [(0, ocDef)]) 0 evHold.now).dirQual ocDefK)).join (((evHold.feeder 0).clearSat.ctx (fdrOf [(0, ocDef)]) 0 evHold.now).inrushQual ocDefK)) = true) ∧
      (((evHold.feeder 0).elem 0).blocked = true) ∧ (((evHold.feeder 0).elem 0).hold = 1)) ∧
    ((evCross.evaluating 0 = some (fdrOf [(0, inrX)], 0)) ∧
      (List.findIdx? (fun j => j == 0) (fdrOf [(0, inrX)]).order = some (evCross.feeder 0).evalNext) ∧
      ((fdrOf [(0, inrX)]).elems.find 0 = some inrX) ∧ (inrX.kind = ElemKind.inr inrK) ∧
      (((evCross.feeder 0).clearSat.ctx (fdrOf [(0, inrX)]) 0 evCross.now).missing ((fdrOf [(0, inrX)]).inrChans inrK) = false) ∧
      (((evCross.feeder 0).elem 0).rst = 0) ∧ (((evCross.feeder 0).elem 0).crossT = some (1 / 10)) ∧
      (∀ n < 4, ((evCross.feeder 0).clearSat.ctx (fdrOf [(0, inrX)]) 0 evCross.now).restrained inrK false (((evCross.feeder 0).clearSat.ctx (fdrOf [(0, inrX)]) 0 evCross.now).full n) (((evCross.feeder 0).clearSat.ctx (fdrOf [(0, inrX)]) 0 evCross.now).second n) = false) ∧
      (((evCross.feeder 0).clearSat.ctx (fdrOf [(0, inrX)]) 0 evCross.now).restrained inrK false (sum3 ((evCross.feeder 0).clearSat.ctx (fdrOf [(0, inrX)]) 0 evCross.now).full 0) (sum3 ((evCross.feeder 0).clearSat.ctx (fdrOf [(0, inrX)]) 0 evCross.now).second 0) = false) ∧
      (inrK.hold ≤ 1 / 10 + ((evCross.feeder 0).clearSat.ctx (fdrOf [(0, inrX)]) 0 evCross.now).dt)) ∧
    ((evBfHeld.evaluating 0 = some (fdrOf [(0, bfX)], 0)) ∧
      (List.findIdx? (fun j => j == 0) (fdrOf [(0, bfX)]).order = some (evBfHeld.feeder 0).evalNext) ∧
      ((fdrOf [(0, bfX)]).elems.find 0 = some bfX) ∧ (bfX.kind = ElemKind.bf bfCfg) ∧
      (((evBfHeld.feeder 0).clearSat.ctx (fdrOf [(0, bfX)]) 0 evBfHeld.now).missing (List.filter (fdrOf [(0, bfX)]).has [0, 1, 2] ++ bfCfg.resChans (fdrOf [(0, bfX)])) = false) ∧
      (blocks bfX.blockOnQuest (((evBfHeld.feeder 0).clearSat.ctx (fdrOf [(0, bfX)]) 0 evBfHeld.now).m.qHalfOf (List.filter (fdrOf [(0, bfX)]).has [0, 1, 2] ++ bfCfg.resChans (fdrOf [(0, bfX)]))) = false) ∧
      (((evBfHeld.feeder 0).elem 0).blocked = false) ∧ (((evBfHeld.feeder 0).elem 0).active = true) ∧
      (((evBfHeld.feeder 0).clearSat.ctx (fdrOf [(0, bfX)]) 0 evBfHeld.now).bfCheck bfCfg ((evBfHeld.feeder 0).elem 0).check = true) ∧
      (bfCfg.sealIn = true ∨ ((evBfHeld.feeder 0).clearSat.ctx (fdrOf [(0, bfX)]) 0 evBfHeld.now).bfInit bfCfg = true) ∧
      (bfCfg.retrip = true) ∧
      (bfCfg.t1 ≤ ((evBfHeld.feeder 0).elem 0).bfT + ((evBfHeld.feeder 0).clearSat.ctx (fdrOf [(0, bfX)]) 0 evBfHeld.now).dt) ∧
      (bitOf ((evBfHeld.feeder 0).elem 0).bits 1 = false)) ∧
    ((evBfHeld.evaluating 0 = some (fdrOf [(0, bfX)], 0)) ∧
      (List.findIdx? (fun j => j == 0) (fdrOf [(0, bfX)]).order = some (evBfHeld.feeder 0).evalNext) ∧
      ((fdrOf [(0, bfX)]).elems.find 0 = some bfX) ∧ (bfX.kind = ElemKind.bf bfCfg) ∧
      (((evBfHeld.feeder 0).clearSat.ctx (fdrOf [(0, bfX)]) 0 evBfHeld.now).missing (List.filter (fdrOf [(0, bfX)]).has [0, 1, 2] ++ bfCfg.resChans (fdrOf [(0, bfX)])) = false) ∧
      (blocks bfX.blockOnQuest (((evBfHeld.feeder 0).clearSat.ctx (fdrOf [(0, bfX)]) 0 evBfHeld.now).m.qHalfOf (List.filter (fdrOf [(0, bfX)]).has [0, 1, 2] ++ bfCfg.resChans (fdrOf [(0, bfX)]))) = false) ∧
      (((evBfHeld.feeder 0).elem 0).blocked = false) ∧ (((evBfHeld.feeder 0).elem 0).active = true) ∧
      (((evBfHeld.feeder 0).clearSat.ctx (fdrOf [(0, bfX)]) 0 evBfHeld.now).bfCheck bfCfg ((evBfHeld.feeder 0).elem 0).check = true) ∧
      (bfCfg.sealIn = true ∨ ((evBfHeld.feeder 0).clearSat.ctx (fdrOf [(0, bfX)]) 0 evBfHeld.now).bfInit bfCfg = true) ∧
      (bfCfg.t2 ≤ ((evBfHeld.feeder 0).elem 0).bfT + ((evBfHeld.feeder 0).clearSat.ctx (fdrOf [(0, bfX)]) 0 evBfHeld.now).dt) ∧
      (bitOf ((evBfHeld.feeder 0).elem 0).bits 2 = false)) ∧
    ((evBfOff.evaluating 0 = some (fdrOf [(0, bfX)], 0)) ∧
      (List.findIdx? (fun j => j == 0) (fdrOf [(0, bfX)]).order = some (evBfOff.feeder 0).evalNext) ∧
      ((fdrOf [(0, bfX)]).elems.find 0 = some bfX) ∧ (bfX.kind = ElemKind.bf bfCfg) ∧
      (((evBfOff.feeder 0).clearSat.ctx (fdrOf [(0, bfX)]) 0 evBfOff.now).missing (List.filter (fdrOf [(0, bfX)]).has [0, 1, 2] ++ bfCfg.resChans (fdrOf [(0, bfX)])) = false) ∧
      (((evBfOff.feeder 0).elem 0).check = true) ∧
      (((evBfOff.feeder 0).clearSat.ctx (fdrOf [(0, bfX)]) 0 evBfOff.now).bfQuiet bfCfg = true)) ∧
    (((evFl 64).evaluating 0 = some (fdrOf [(0, ocDef), (1, flX)], 64)) ∧
      (List.findIdx? (fun j => j == 1) (fdrOf [(0, ocDef), (1, flX)]).order = some ((evFl 64).feeder 0).evalNext) ∧
      ((fdrOf [(0, ocDef), (1, flX)]).elems.find 1 = some flX) ∧ (flX.kind = ElemKind.fl flK) ∧
      ((((evFl 64).feeder 0).clearSat.ctx (fdrOf [(0, ocDef), (1, flX)]) 64 (evFl 64).now).missing ([0, 1, 2, 4, 5, 6] ++ if (fdrOf [(0, ocDef), (1, flX)]).has 3 = true then [3] else []) = false) ∧
      (blocks flX.blockOnQuest ((((evFl 64).feeder 0).clearSat.ctx (fdrOf [(0, ocDef), (1, flX)]) 64 (evFl 64).now).m.qOf ([0, 1, 2, 4, 5, 6] ++ if (fdrOf [(0, ocDef), (1, flX)]).has 3 = true then [3] else [])) = false) ∧
      ((flK.inits.any fun i => bitOf ((((evFl 64).feeder 0).clearSat.ctx (fdrOf [(0, ocDef), (1, flX)]) 64 (evFl 64).now).elem i).bits 0) = true) ∧
      ((((evFl 64).feeder 0).elem 1).fl.any = true) ∧ ((((evFl 64).feeder 0).elem 1).fl.es = some 0) ∧ (64 = 0 + 64) ∧
      ((((evFl 64).feeder 0).elem 1).fl.halfCap = none)) ∧
    (((evFl 128).evaluating 0 = some (fdrOf [(0, ocDef), (1, flX)], 128)) ∧
      (List.findIdx? (fun j => j == 1) (fdrOf [(0, ocDef), (1, flX)]).order = some ((evFl 128).feeder 0).evalNext) ∧
      ((fdrOf [(0, ocDef), (1, flX)]).elems.find 1 = some flX) ∧ (flX.kind = ElemKind.fl flK) ∧
      ((((evFl 128).feeder 0).clearSat.ctx (fdrOf [(0, ocDef), (1, flX)]) 128 (evFl 128).now).missing ([0, 1, 2, 4, 5, 6] ++ if (fdrOf [(0, ocDef), (1, flX)]).has 3 = true then [3] else []) = false) ∧
      (blocks flX.blockOnQuest ((((evFl 128).feeder 0).clearSat.ctx (fdrOf [(0, ocDef), (1, flX)]) 128 (evFl 128).now).m.qOf ([0, 1, 2, 4, 5, 6] ++ if (fdrOf [(0, ocDef), (1, flX)]).has 3 = true then [3] else [])) = false) ∧
      ((flK.inits.any fun i => bitOf ((((evFl 128).feeder 0).clearSat.ctx (fdrOf [(0, ocDef), (1, flX)]) 128 (evFl 128).now).elem i).bits 0) = true) ∧
      ((((evFl 128).feeder 0).elem 1).fl.any = true) ∧ ((((evFl 128).feeder 0).elem 1).fl.es = some 0) ∧ (128 = 0 + 128) ∧
      ((((evFl 128).feeder 0).elem 1).fl.fullCap = none)) := by
  refine ⟨?_, ?_, ?_, ?_, ?_, ?_, ?_, ?_, ?_, ?_⟩ <;> decide +kernel
theorem witness_SectionEventsAndExpiriesComplete :
    ((evBfOff.evaluating 0 = some (fdrOf [(0, bfX)], 0)) ∧
      (List.findIdx? (fun j => j == 0) (fdrOf [(0, bfX)]).order = some (evBfOff.feeder 0).evalNext) ∧
      ((fdrOf [(0, bfX)]).elems.find 0 = some bfX) ∧ (bfX.kind = ElemKind.bf bfCfg) ∧
      (((evBfOff.feeder 0).clearSat.ctx (fdrOf [(0, bfX)]) 0 (max evBfOff.now ((if true = true then ((evBfOff.feeder 0).elem 0).taB else ((evBfOff.feeder 0).elem 0).taR) + (bfCfg.tp * 1200000000).floor.toNat))).missing (List.filter (fdrOf [(0, bfX)]).has [0, 1, 2] ++ bfCfg.resChans (fdrOf [(0, bfX)])) = false) ∧
      (blocks bfX.blockOnQuest (((evBfOff.feeder 0).clearSat.ctx (fdrOf [(0, bfX)]) 0 (max evBfOff.now ((if true = true then ((evBfOff.feeder 0).elem 0).taB else ((evBfOff.feeder 0).elem 0).taR) + (bfCfg.tp * 1200000000).floor.toNat))).m.qHalfOf (List.filter (fdrOf [(0, bfX)]).has [0, 1, 2] ++ bfCfg.resChans (fdrOf [(0, bfX)]))) = false) ∧
      (((evBfOff.feeder 0).elem 0).blocked = false) ∧ (bfCfg.cbMode = false) ∧
      (((evBfOff.feeder 0).clearSat.ctx (fdrOf [(0, bfX)]) 0 (max evBfOff.now ((if true = true then ((evBfOff.feeder 0).elem 0).taB else ((evBfOff.feeder 0).elem 0).taR) + (bfCfg.tp * 1200000000).floor.toNat))).bfCheck bfCfg ((evBfOff.feeder 0).elem 0).check = false) ∧
      (bitOf ((evBfOff.feeder 0).elem 0).bits (if true = true then 2 else 1) = true)) ∧
    ((evMem.evaluating 0 = some (fdrOf [(0, ocDef)], 1025)) ∧
      (∀ (m : C × ℚ × ℕ × ℕ), ((evMem.feeder 0).elem 0).mem = some m → m.2.2.1 + 1024 < 1025) ∧
      (((evMem.feeder 0).elem 0).mem ≠ none)) ∧
    (((satS.feeder 0).measOpen.isSome = true) ∧ (satDue ((satS.feeder 0).satRun.getD 0 none) = true)) ∧
    (((bdS.sec 0).evalOpen = some 1) ∧ ((bdS.sec 0).evald = false) ∧
      (∀ p ∈ (bdS.imgAt 0 1).feedersOf 0, (((bdS.sec 0).page 1).meas.find p.1).isSome = true) ∧ (2 < 3) ∧
      ((bdS.secCtx 0 1).c.bd.enabled = true) ∧ ((bdS.secCtx 0 1).mainBlocked 2 = false) ∧
      ((bdS.secCtx 0 1).checkBlocked 2 = false) ∧ ((bdS.secCtx 0 1).bdStart (bdS.sec 0).mst 2 = true) ∧
      ((bdS.secCtx 0 1).czStart (bdS.sec 0).mst 2 = true) ∧ ((bdS.sec 0).mst.bdRun.getD 2 false = true) ∧
      ((bdS.sec 0).mst.bdOp.getD 2 false = false) ∧
      ((bdS.secCtx 0 1).c.bd.delay ≤ (bdS.sec 0).mst.bdT.getD 2 0 + (bdS.secCtx 0 1).dt)) ∧
    (((alarmS.sec 0).evalOpen = some 1) ∧ ((alarmS.sec 0).evald = false) ∧
      (∀ p ∈ (alarmS.imgAt 0 1).feedersOf 0, (((alarmS.sec 0).page 1).meas.find p.1).isSome = true) ∧ (0 < 3) ∧
      ((alarmS.secCtx 0 1).c.bd.enabled = true) ∧ ((alarmS.secCtx 0 1).mainBlocked 0 = false) ∧
      ((alarmS.secCtx 0 1).bdStart (alarmS.sec 0).mst 0 = false) ∧
      ((alarmS.secCtx 0 1).c.bd.ialarm * (alarmS.secCtx 0 1).c.ibase ≤ ((alarmS.secCtx 0 1).diff (alarmS.secCtx 0 1).main 0).lo) ∧
      ((alarmS.sec 0).mst.alarmT.getD 0 none = some 5) ∧ ((alarmS.sec 0).mst.alarm = false) ∧
      ((alarmS.secCtx 0 1).c.bd.alarmDelay ≤ 5 + (alarmS.secCtx 0 1).dt)) ∧
    (((lightS.sec 0).evalOpen = some 1) ∧ ((lightS.sec 0).evald = false) ∧
      (∀ p ∈ (lightS.imgAt 0 1).feedersOf 0, (((lightS.sec 0).page 1).meas.find p.1).isSome = true) ∧
      ((lightS.secCtx 0 1).c.arcs[0]? = some arc0) ∧
      ((lightS.secCtx 0 1).m.arcChecks 0 arc0 = [] ∨ ((lightS.secCtx 0 1).m.arcChecks 0 arc0).all (lightS.secCtx 0 1).checkBad = false) ∧
      (((List.map (lightS.secCtx 0 1).light arc0.lights).any fun l => l.1 && l.2.usable) = true) ∧
      (((lightS.secCtx 0 1).m.arcChecks 0 arc0).any ((lightS.secCtx 0 1).passes arc0.iaf) = false) ∧
      (((lightS.sec 0).mst.arcs.getD 0 (ArcSt.mk false 0 false 0 (Quality.mk Validity.good false false) false none false)).lightT = some 2) ∧
      (((lightS.sec 0).mst.arcs.getD 0 (ArcSt.mk false 0 false 0 (Quality.mk Validity.good false false) false none false)).lwc = false) ∧
      (arc0.lwcDelay ≤ 2 + (lightS.secCtx 0 1).dt)) ∧
    (((afS.sec 0).evalOpen = some 1) ∧ ((afS.sec 0).evald = false) ∧
      (∀ p ∈ (afS.imgAt 0 1).feedersOf 0, (((afS.sec 0).page 1).meas.find p.1).isSome = true) ∧
      ((afS.secCtx 0 1).c.arcs[0]? = some arc0) ∧
      ((afS.secCtx 0 1).m.arcChecks 0 arc0 = [] ∨ ((afS.secCtx 0 1).m.arcChecks 0 arc0).all (afS.secCtx 0 1).checkBad = false) ∧
      (((List.map (afS.secCtx 0 1).light arc0.lights).any fun l => l.1 && l.2.usable) = false) ∧
      (((afS.sec 0).mst.arcs.getD 0 (ArcSt.mk false 0 false 0 (Quality.mk Validity.good false false) false none false)).op = true)) := by
  refine ⟨?_, ?_, ?_, ?_, ?_, ?_, ?_⟩ <;> decide +kernel
theorem witness_IngressAndBoardCommandsComplete :
    ((((ingS 0).sec 0).toIngress[0]? = some (IngressItem.burst 0 0 0 [])) ∧ (((ingS 0).sec 0).nextDue ≤ 0) ∧
      ((ingS 0).arrived 0 ((ingS 0).dueAngle 0 0) = false) ∧ ((ingS 0).heldBursts 0 < 2048)) ∧
    ((((ingS 1).sec 0).toIngress[0]? = some (IngressItem.burst 0 0 0 [])) ∧
      (0 < ((ingS 1).sec 0).nextDue ∨ (ingS 1).arrived 0 ((ingS 1).dueAngle 0 0) = true)) ∧
    ((((partS 0).feeder 0).measOpen = some 0) ∧ ((partS 0).partLate (0 / 64) 0 0 = false) ∧
      ((partS 0).boardRoom (0 / 64) = true)) ∧
    (((partS 1).lateFeeder 0 = some 0)) ∧
    (((cutS.sec 0).evalOpen = some 0)) ∧
    ((lostS.img.feeder 0 = some fdr) ∧ (fdr.sources[0]? = some (false, 0)) ∧ (16 ≤ ((lostS.feeder 0).src 0).missRun) ∧
      (((lostS.feeder 0).src 0).lost = false)) ∧
    (((boardFull.feeder 0).measOpen = some 0) ∧ (boardFull.partLate (0 / 64) 0 0 = false) ∧
      (boardFull.boardRoom (0 / 64) = false)) := by
  refine ⟨?_, ?_, ?_, ?_, ?_, ?_, ?_⟩ <;> decide +kernel
theorem witness_EvaluationsOpenAndComplete :
    (((dueNow.sec 0).running = true) ∧ ((dueNow.sec 0).nextDeadline = (dueNow.sec 0).nextDue) ∧
      ((dueNow.sec 0).nextDue + dueNow.delayOf 0 (dueNow.sec 0).nextDue ≤ (dueNow.sec 0).nextSample)) ∧
    ((evOc.evaluating 0 = some (fdrOf [(0, ocDef)], 0)) ∧ (evOc.past (0 / 64) (evOc.deadlineAngle (0 / 64) 0) = false)) ∧
    (((secDone.sec 0).evalOpen = some 1) ∧ (secDone.past 0 (secDone.deadlineAngle 0 1) = false) ∧
      (secDone.secReady 0 1 = true)) ∧
    ((missS.img.feeder 0 = some fdr) ∧ (128 ≤ (missS.feeder 0).missRun)) ∧
    ((((onS 23 7).sec 23).running = true) ∧ ((onS 23 7).getF F.SEC_MASTER_CUR 23 ≠ 7) ∧
      ((onS 23 7).eligible 23 7 = true) ∧ (7 < 8)) ∧
    ((23 < 24) ∧ ((rotS.sec 23).rotEvac = none) ∧ ((rotS.sec 23).rotReq = some rot7) ∧ (rot7.h ≤ (rotS.sec 23).nextDue) ∧
      (rot7.req < 8) ∧ (rotS.eligible 23 rot7.req = true) ∧ (rotS.getF F.SEC_MASTER_CUR 23 ≠ rot7.req)) := by
  refine ⟨?_, ?_, ?_, ?_, ?_, ?_⟩ <;> decide +kernel
theorem witness_PliesStageAndCommit :
    (((plyS.engine 1).roundDue = true) ∧ (plyS.plyActive 1 = true) ∧ (plyS.idleEngine 1 = true) ∧
      ((plyS.sec (1 / 8)).nextDue ≠ 0)) ∧
    ((stageS.gatesUsed (newPly.engine / 8) + newPly.gates.length ≤ 128) ∧
      (∀ g ∈ newPly.gates, stageS.getF F.LN_STAT_STATE g.1 = 2) ∧ (stageS.plies.freeKey 4096 = some 0) ∧
      (stageS.freeSlot newPly.engine = some 0) ∧ (newPly.urgent = false) ∧
      (∀ d ∈ newPly.deps, ∀ x ∈ d.wait, ∀ (c : FeederCfg), stageS.img.feeder d.feeder = some c → (stageS.feeder d.feeder).burst (c.srcOf d.ch) x = none)) ∧
    ((stageS.gatesUsed (newPly.engine / 8) + newPly.gates.length ≤ 128) ∧
      (∀ g ∈ newPly.gates, stageS.getF F.LN_STAT_STATE g.1 = 2) ∧ (stageS.plies.freeKey 4096 = some 0) ∧
      (stageS.freeSlot newPly.engine = some 0) ∧ (newPly.urgent = false) ∧
      (∀ d ∈ newPly.deps, ∀ x ∈ d.wait, ∀ (c : FeederCfg), stageS.img.feeder d.feeder = some c → (stageS.feeder d.feeder).burst (c.srcOf d.ch) x = none) ∧
      ((31, 0, 2) ∈ newPly.gates)) ∧
    ((grantS.grantOrder ≠ [])) ∧
    ((grantS.grantOrder = [3]) ∧ (grantS.plies.find 3 = some confirmedPly) ∧ (confirmedPly.engine < 192) ∧
      (confirmedPly.sec = none) ∧ (feederSig confirmedPly.feeder confirmedPly.inst < 123648) ∧
      (grantS.forcedSig (feederSig confirmedPly.feeder confirmedPly.inst) = false)) ∧
    ((grantSec.grantOrder = [3]) ∧ (grantSec.plies.find 3 = some sectionPly) ∧ (sectionPly.engine < 192) ∧
      (sectionPly.sec = some 0) ∧ (0 < 24) ∧ (sectionPly.inst ≤ 8) ∧
      (grantSec.forcedSig (sectionSig 0 (if sectionPly.inst = 0 then 13 else 15 + sectionPly.inst)) = false)) := by
  refine ⟨?_, ?_, ?_, ?_, ?_, ?_⟩ <;> decide +kernel
theorem witness_BitInstructionsComplete :
    ((core0.scanning 3 = true)) ∧
    ((core0.scanning 3 = true) ∧ ((core0.core 3).stack.length < 8)) ∧
    ((coreFull.scanning 3 = true) ∧ (8 ≤ (coreFull.core 3).stack.length)) ∧
    ((coreOne.scanning 3 = true) ∧ ((coreOne.core 3).stack = [(true, Quality.ok)])) ∧
    ((opV.bit < 24) ∧ (opV.sp = true)) ∧
    ((opX.bit < 24) ∧ (opX.sp = false) ∧ (¬(coreBase 3 ≤ opX.addr ∧ opX.addr < coreBase (3 + 1)))) ∧
    ((opX.bit < 24)) := by
  refine ⟨?_, ?_, ?_, ?_, ?_, ?_, ?_⟩ <;> decide +kernel
theorem witness_NumberAndJumpInstructionsComplete :
    ((core0.scanning 3 = true)) ∧
    (((coreT true true).scanning 3 = true)) ∧
    (((coreC true).scanning 3 = true)) := by
  refine ⟨?_, ?_, ?_⟩ <;> decide +kernel
theorem witness_TimerInstructionsComplete :
    (((coreT true false).scanning 3 = true)) ∧
    (((coreT false false).scanning 3 = true)) ∧
    (((coreT true true).scanning 3 = true)) := by
  refine ⟨?_, ?_, ?_⟩ <;> decide +kernel
theorem witness_CounterInstructionsComplete :
    (((coreC true).scanning 3 = true)) ∧
    (((coreC true).scanning 3 = true) ∧ (((coreC true).core 3).b = true)) ∧
    (((coreC false).scanning 3 = true) ∧ (((coreC false).core 3).b = false)) := by
  refine ⟨?_, ?_, ?_⟩ <;> decide +kernel
theorem witness_ScansAndRestartsComplete :
    ((3 < 4) ∧ (core0.getF F.LC_STAT_STATE 3 = 2) ∧ ((core0.core 3).pend = 0) ∧ ((core0.core 3).overrun = false) ∧
      (core0.now - (core0.core 3).scanAt ≤ (core0.coreCfg 3).deadline * 10 * usClk) ∧
      ((core0.core 3).writes.sorted = true)) ∧
    ((core0.scanning 3 = true) ∧ ((core0.core 3).overrun = false)) ∧
    ((stopped.hasProgram 3 = true) ∧ (stopped.getF F.LC_STAT_STATE 3 = 0)) ∧
    ((core0.hasProgram 3 = true) ∧ (core0.getF F.LC_STAT_STATE 3 = 2)) ∧
    ((3 < 4) ∧ (core0.getF F.LC_STAT_STATE 3 = 2)) := by
  refine ⟨?_, ?_, ?_, ?_, ?_⟩ <;> decide +kernel
theorem witness_StackEndsSetStk :
    ((core0.scanning 3 = true)) ∧
    ((coreFull.scanning 3 = true) ∧ (8 ≤ (coreFull.core 3).stack.length)) ∧
    ((core0.scanning 3 = true) ∧ ((core0.core 3).stack = [])) := by
  refine ⟨?_, ?_, ?_⟩ <;> decide +kernel
theorem witness_EngineCommandsComplete :
    ((1 < 192) ∧ (evacS.engState 1 = 2) ∧ (evacS.mayEvacuate 1 = true) ∧ (evacS.held 1 ≠ [])) ∧
    ((1 < 192) ∧ (evacNo.engState 1 = 2) ∧ (evacNo.mayEvacuate 1 = false)) ∧
    ((191 < 192) ∧ (engOff.cfg.isSome = true) ∧ (engOff.engState 191 = 0)) ∧
    (((katS.engine 191).testing = true) ∧ (katS.engState 191 = 1)) ∧
    ((rollS.engState 191 = 0) ∧ ((rollS.engine 191).rollout = true)) ∧
    ((0 < 24) ∧ ((migS.sec 0).nextDue ≠ 0) ∧ (migS.switchEpoch 0 ((migS.sec 0).nextDue - 1) = false)) := by
  refine ⟨?_, ?_, ?_, ?_, ?_, ?_⟩ <;> decide +kernel
theorem witness_CommandFramesActAtTheTile :
    ((tileOn.tileReached 31 0 true = true) ∧ (((tileOn.tile 31 0).catchUp tileOn.now).items = 0) ∧
      (frameOk 32 goodChars = true) ∧ (((tileOn.tile 31 0).catchUp tileOn.now).valid true (downRead goodChars) = true) ∧
      ((((tileOn.tile 31 0).catchUp tileOn.now).updPort true fun p => PortSt.mk (downRead goodChars).claim (some (downRead goodChars).seq) tileOn.now p.ferr p.grpmm p.lightSeen).arbitrate.accepted = some true)) ∧
    ((tileOn.tileReached 31 0 false = true) ∧ (((tileOn.tile 31 0).catchUp tileOn.now).items = 0) ∧
      ((frameOk 32 badChars && ((tileOn.tile 31 0).catchUp tileOn.now).valid false (downRead badChars)) = false) ∧
      (((tileOn.tile 31 0).catchUp tileOn.now).addr = some (downRead badChars).addr)) ∧
    ((tileOn.tileReached 31 0 false = true) ∧ (((tileOn.tile 31 0).catchUp tileOn.now).items = 0) ∧
      ((frameOk 32 upBad && ((tileOn.tile 31 0).catchUp tileOn.now).valid false (downRead upBad)) = false) ∧
      (((tileOn.tile 31 0).catchUp tileOn.now).addr = some (downRead upBad).addr)) := by
  refine ⟨?_, ?_, ?_⟩ <;> decide +kernel
theorem witness_TileConfigurationFramesAct :
    ((tileRaw.tileReached 31 0 true = true) ∧ (frameOk 32 (hopped enumChars) = true) ∧
      (hopped enumChars = forwarded 1 enumChars) ∧ ((downRead (hopped enumChars)).type = 5) ∧
      ((tileRaw.tile 31 0).configured = false)) ∧
    ((tileConf.tileReached 31 0 true = true) ∧ (frameOk 32 (itemChars 2) = true) ∧ ((downRead (itemChars 2)).type = 6) ∧
      ((tileConf.tile 31 0).addr = some (downRead (itemChars 2)).addr) ∧ ((downRead (itemChars 2)).item < 4) ∧
      ((downRead (itemChars 2)).len = if (downRead (itemChars 2)).item < 3 then 12 else 2)) ∧
    ((tileLast.tileReached 31 0 false = true) ∧ (frameOk 32 (itemChars 2) = true) ∧ ((downRead (itemChars 2)).type = 6) ∧
      ((tileLast.tile 31 0).addr = some (downRead (itemChars 2)).addr) ∧ ((downRead (itemChars 2)).item < 4) ∧
      ((downRead (itemChars 2)).len = if (downRead (itemChars 2)).item < 3 then 12 else 2)) ∧
    ((tileConf.tileReached 31 0 false = true) ∧ (frameOk 32 (itemChars 3) = true) ∧ ((downRead (itemChars 3)).type = 6) ∧
      ((tileConf.tile 31 0).addr = some (downRead (itemChars 3)).addr) ∧ ((downRead (itemChars 3)).item < 4) ∧
      ((downRead (itemChars 3)).len = if (downRead (itemChars 3)).item < 3 then 12 else 2)) ∧
    ((tileConf.tileReached 31 0 true = true) ∧ (frameOk 32 readChars = true) ∧ ((downRead readChars).type = 7) ∧
      ((tileConf.tile 31 0).addr = some (downRead readChars).addr)) := by
  refine ⟨?_, ?_, ?_, ?_, ?_⟩ <;> decide +kernel
theorem witness_TileFramesReadBack :
    ((downMax.type < 256) ∧ (downMax.addr < 256) ∧ (downMax.hop < 256) ∧ (downMax.claim < 65536) ∧
      (downMax.seq < 65536) ∧ (downMax.cmd < 256) ∧ (downMax.ncmd < 256) ∧ (downMax.ctag < 65536) ∧
      (downMax.flags < 256) ∧ (downMax.feeder < 2048) ∧ (downMax.item < 256) ∧ (downMax.len < 256) ∧
      (downMax.data.length = 12) ∧ (∀ b ∈ downMax.data, b < 256)) ∧
    (((upMax true).addr < 256) ∧ ((upMax true).stat < 256) ∧ ((upMax true).aclaim < 65536) ∧
      ((upMax true).eseq < 65536) ∧ ((upMax true).inp < 65536) ∧ ((upMax true).wb < 65536) ∧ ((upMax true).rb < 256) ∧
      ((upMax true).type = 129 ∧ (upMax true).data = [] ∨ (upMax true).type = 130 ∧ (upMax true).data.length = 16) ∧
      (∀ b ∈ (upMax true).data, b < 256)) ∧
    (((upMax false).addr < 256) ∧ ((upMax false).stat < 256) ∧ ((upMax false).aclaim < 65536) ∧
      ((upMax false).eseq < 65536) ∧ ((upMax false).inp < 65536) ∧ ((upMax false).wb < 65536) ∧ ((upMax false).rb < 256) ∧
      ((upMax false).type = 129 ∧ (upMax false).data = [] ∨ (upMax false).type = 130 ∧ (upMax false).data.length = 16) ∧
      (∀ b ∈ (upMax false).data, b < 256)) ∧
    ((frameOk 32 enumChars = true)) ∧
    ((bitMax.id < 131072) ∧ (bitMax.bit < 32)) := by
  refine ⟨?_, ?_, ?_, ?_, ?_⟩ <;> decide +kernel
theorem witness_TileEventsComplete :
    (((tileOn.tile 31 0).powered = true) ∧ (((tileOn.tile 31 0).port false).claim ≠ 0)) ∧
    (((tileOn.tile 31 0).powered = true) ∧ ((tileOn.tile 31 0).configured = true) ∧ ((tileOn.tile 31 0).safe = false)) ∧
    (((tileOn.tile 31 0).powered = true)) ∧
    (((tileDrives.tile 31 0).powered = true) ∧ (7 < 8) ∧
      (bitOf ((tileDrives.tile 31 0).catchUp tileDrives.now).drive 7 = true)) ∧
    ((15 < 16) ∧ (2 ≤ 2) ∧ ((tileBounces.tile 31 0).powered = true) ∧
      ((tileBounces.tile 31 0).cand.getD 15 none = some (2, 0)) ∧ ((tileBounces.tile 31 0).isLight 15 = false)) ∧
    (((tileOff.tile 31 0).powered = false)) := by
  refine ⟨?_, ?_, ?_, ?_, ?_, ?_⟩ <;> decide +kernel
theorem witness_TileLaneCommandsComplete :
    ((tlIdle.refreshes 31 = true)) ∧
    ((tlGate.laneOn 31 = true) ∧ (tlGate.tileLane 31 = true) ∧
      (List.find? (fun g => g.open_) (((tlGate.trimRange 31).advanceTo (tlGate.lane 31).txFree).lane 31).gates = some gate0)) ∧
    ((tlChange.laneOn 31 = true) ∧ (tlChange.tileLane 31 = true) ∧
      (List.find? (fun g => g.open_) (((tlChange.trimRange 31).advanceTo (tlChange.lane 31).txFree).lane 31).gates = none) ∧
      ((((tlChange.trimRange 31).advanceTo (tlChange.lane 31).txFree).lane 31).changeQ = [0])) ∧
    ((tlRefresh.laneOn 31 = true) ∧ (tlRefresh.tileLane 31 = true) ∧
      (List.find? (fun g => g.open_) (((tlRefresh.trimRange 31).advanceTo (tlRefresh.lane 31).txFree).lane 31).gates = none) ∧
      ((((tlRefresh.trimRange 31).advanceTo (tlRefresh.lane 31).txFree).lane 31).changeQ = []) ∧
      ((((tlRefresh.trimRange 31).advanceTo (tlRefresh.lane 31).txFree).lane 31).refreshQ = [0])) ∧
    ((tlConf.laneOn 31 = true) ∧ (tlConf.tileLane 31 = true) ∧
      (List.find? (fun g => g.open_) (((tlConf.trimRange 31).advanceTo (tlConf.lane 31).txFree).lane 31).gates = none) ∧
      ((((tlConf.trimRange 31).advanceTo (tlConf.lane 31).txFree).lane 31).changeQ = []) ∧
      ((((tlConf.trimRange 31).advanceTo (tlConf.lane 31).txFree).lane 31).refreshQ = []) ∧
      ((((tlConf.trimRange 31).advanceTo (tlConf.lane 31).txFree).lane 31).confQ = [(6, 0, 3)])) ∧
    ((tlIdle.tileLane 31 = true) ∧ (tlIdle.flag F.LN_STAT_UP 31 = true) ∧ (upOk up0Chars = true) ∧
      ((upRead up0Chars).type = 129) ∧ ((upRead up0Chars).addr < tlIdle.chainN 31)) ∧
    ((tlIdle.tileLane 31 = true) ∧ (tlIdle.flag F.LN_STAT_UP 31 = true) ∧ (upOk upBad = false)) ∧
    ((31 < 32) ∧ (tlStep.tileCfg 31 0 = some tileCfg0) ∧ (tlStep.tileLane 31 = true) ∧
      (tlStep.flag F.LN_STAT_UP 31 = true) ∧ (upOk respChars = true) ∧ ((upRead respChars).type = 130) ∧
      ((tlStep.devTile 31 0).enumWait = false) ∧ ((tlStep.lane 31).confAt = some 0) ∧ ((tlStep.devTile 31 0).step < 4)) ∧
    ((31 < 32) ∧ (tlWait.tileCfg 31 0 = some tileCfg0) ∧ (tlWait.tileLane 31 = true) ∧
      ((tlWait.devTile 31 0).enumWait = true)) ∧
    (((losingS.devTile 31 0).losing = true) ∧ (losingS.inRange 31 0 = true) ∧ (0 < losingS.chainN 31)) ∧
    (((rbS.devTile 31 0).rbSince = some 0) ∧ ((rbS.devTile 31 0).rbSaid = false) ∧ ((rbS.devTile 31 0).up = some up0) ∧
      (rbS.tileCfg 31 0 = some tileCfg0)) ∧
    (((roseS.devTile 31 0).rose.getD 0 none = some (0, true)) ∧ (roseS.tileCfg 31 0 = some tileCfg0)) ∧
    ((tlIdle.tileLane 31 = true) ∧ (tlIdle.laneOn 31 = true)) ∧
    ((tlIdle.tileLane 31 = true) ∧ (tlIdle.laneOn 31 = true) ∧ (tlIdle.getF F.LN_TCSEL_ADDR 31 < tlIdle.chainN 31)) := by
  refine ⟨?_, ?_, ?_, ?_, ?_, ?_, ?_, ?_, ?_, ?_, ?_, ?_, ?_, ?_⟩ <;> decide +kernel
theorem witness_LaneServiceStatesComplete :
    ((31 < 32) ∧ (lnOff.laneMode 31 ≠ 0) ∧ (lnOff.laneState 31 = 0)) ∧
    (((lnIs 3).laneMode 31 ≠ 0) ∧ ((lnIs 3).laneState 31 = 3)) ∧
    ((W.laneMode 31 = 0)) ∧
    ((31 < 32) ∧ ((lnIs 2).laneState 31 = 2) ∧ ((lnIs 2).tileLane 31 = false)) ∧
    (((lnIs 1).laneState 31 = 1)) ∧
    (((lnIs 1).laneState 31 = 1) ∧ ((lnIs 1).flag F.LN_STAT_UP 31 = false)) ∧
    ((31 < 32) ∧ ((lnIs 3).laneState 31 = 3) ∧ ((lnIs 3).flag F.LN_STAT_PENDING 31 = false)) ∧
    ((31 < 32) ∧ (lnPend.laneState 31 = 3) ∧ (lnPend.flag F.LN_STAT_PENDING 31 = true)) := by
  refine ⟨?_, ?_, ?_, ?_, ?_, ?_, ?_, ?_⟩ <;> decide +kernel
theorem witness_LinkCommandsComplete :
    ((31 < 32) ∧ ((lnIs 2).laneMode 31 ≠ 0) ∧ ((lnIs 2).laneState 31 ≠ 0)) ∧
    ((31 < 32) ∧ ((sigS 1).laneMode 31 ≠ 0) ∧ ((sigS 1).laneState 31 ≠ 0)) ∧
    ((31 < 32) ∧ ((sigS 0).laneMode 31 ≠ 0) ∧ ((sigS 0).laneState 31 ≠ 0) ∧ (-2000 ≤ -2000) ∧ (-2000 ≤ 2000) ∧
      ((sigS 0).flag F.LN_STAT_SIGDET 31 = true) ∧ ((sigS 0).flag F.LN_STAT_LOCK 31 = false)) ∧
    ((31 < 32) ∧ ((sigS 1).laneMode 31 ≠ 0) ∧ ((sigS 1).laneState 31 ≠ 0) ∧ (-2000 ≤ 2000) ∧ (2000 ≤ 2000) ∧
      ((sigS 1).flag F.LN_STAT_SIGDET 31 = true) ∧ ((sigS 1).flag F.LN_STAT_LOCK 31 = true)) ∧
    ((31 < 32) ∧ ((sigS 1).laneMode 31 ≠ 0) ∧ ((sigS 1).laneState 31 ≠ 0) ∧ ((sigS 1).flag F.LN_STAT_LOCK 31 = true)) ∧
    ((31 < 32) ∧ ((lockS.setF F.LN_CFG_MODE 31 4).laneMode 31 ≠ 0) ∧ ((lockS.setF F.LN_CFG_MODE 31 4).laneState 31 ≠ 0) ∧
      (((lockS.setF F.LN_CFG_MODE 31 4).blockOks 31 (headers 64 1)).1 = List.replicate (headers 64 1).length true) ∧
      ((lockS.setF F.LN_CFG_MODE 31 4).flag F.LN_STAT_LOCK 31 = true) ∧
      ((lockS.setF F.LN_CFG_MODE 31 4).flag F.LN_PRBSCTRL_CEN 31 = false) ∧
      ((lockS.setF F.LN_CFG_MODE 31 4).flag F.LN_STAT_UP 31 = false) ∧
      ((lockS.setF F.LN_CFG_MODE 31 4).tileLane 31 = false) ∧
      (((lockS.setF F.LN_CFG_MODE 31 4).lane 31).pendOff = false) ∧ (64 ≤ (headers 64 1).length)) ∧
    ((31 < 32) ∧ (up10g.laneMode 31 ≠ 0) ∧ (up10g.laneState 31 ≠ 0) ∧ (up10g.flag F.LN_STAT_UP 31 = true) ∧
      (up10g.flag F.LN_STAT_LOCK 31 = true) ∧ (up10g.flag F.LN_PRBSCTRL_CEN 31 = false) ∧
      ((up10g.blockOks 31 (headers 16 0)).1 = List.replicate 16 false)) ∧
    ((31 < 32) ∧ (up10g.laneMode 31 ≠ 0) ∧ (up10g.laneState 31 ≠ 0) ∧ (up10g.flag F.LN_STAT_UP 31 = true) ∧
      (up10g.flag F.LN_STAT_LOCK 31 = true) ∧ (up10g.flag F.LN_PRBSCTRL_CEN 31 = false) ∧ (up10g.laneMode 31 = 4) ∧
      (up10g.laneState 31 = 2)) ∧
    ((31 < 32) ∧ ((sigS 1).laneMode 31 ≠ 0) ∧ ((sigS 1).laneState 31 ≠ 0) ∧
      ((sigS 1).laneState 31 = 1 ∨ (sigS 1).laneState 31 = 2)) := by
  refine ⟨?_, ?_, ?_, ?_, ?_, ?_, ?_, ?_, ?_⟩ <;> decide +kernel
theorem witness_EqualiserCommandsComplete :
    ((31 < 32) ∧ ((lnIs 2).receives 31 = true)) ∧
    ((31 < 32) ∧ (forcedEq.receives 31 = true)) ∧
    ((0 < 5) ∧ (5 < 6)) ∧
    ((0 < 1) ∧ (1 < 6)) := by
  refine ⟨?_, ?_, ?_, ?_⟩ <;> decide +kernel
theorem witness_PatternCommandsComplete :
    ((31 < 32) ∧ (lnOff.laneState 31 = 0)) ∧
    ((31 < 32) ∧ ((lnIs 2).laneState 31 ≠ 0) ∧ (bitOf (BitVec.toNat genW) 0 = true)) ∧
    (((chkS 0).laneMode 31 ≠ 0) ∧ ((chkS 0).flag F.LN_PRBSCTRL_CEN 31 = true) ∧
      ((chkS 0).flag F.LN_PRBSSTAT_LOCKED 31 = false) ∧ (31 < 32) ∧
      ((prbsTaps ((chkS 0).getF F.LN_PRBSCTRL_CPOLY 31)).1 ≤ ((chkS 0).lane 31).chk.fill)) ∧
    ((31 < 32) ∧ ((chkS 1).laneMode 31 ≠ 0) ∧ ((chkS 1).flag F.LN_PRBSCTRL_CEN 31 = true) ∧
      ((chkS 1).flag F.LN_PRBSSTAT_LOCKED 31 = true) ∧ (((chkS 1).lane 31).chk.win.all id = true)) ∧
    ((31 < 32) ∧ ((lnIs 2).transmits 31 = true) ∧ (((lnIs 2).lane 31).injAt = none) ∧
      (fieldOf (BitVec.toNat injW) F.LN_INJ_KIND.lo F.LN_INJ_KIND.width = 1)) := by
  refine ⟨?_, ?_, ?_, ?_, ?_⟩ <;> decide +kernel
theorem witness_EthernetTransmissionCompletes :
    ((((heldTime 0).firstHeld 31 fun f => f.timeTgt.isSome) = some timed) ∧
      (max ((heldTime 0).heldDue timed) ((heldTime 0).lane 31).txFree ≤ (heldTime 0).heldDue timed + 2 * usClk)) ∧
    ((((heldTime 100000).firstHeld 31 fun f => f.timeTgt.isSome) = some timed) ∧
      ((heldTime 100000).heldDue timed + 2 * usClk < max ((heldTime 100000).heldDue timed) ((heldTime 100000).lane 31).txFree)) ∧
    ((((heldAngle 0).firstHeld 31 fun f => f.timeTgt.isNone && f.angleTgt.isSome) = some angled) ∧
      ((heldAngle 0).launchTurn angled = true) ∧
      (max ((heldAngle 0).heldDue angled) ((heldAngle 0).lane 31).txFree ≤ (heldAngle 0).heldDue angled + 2 * usClk)) ∧
    ((((heldAngle 100000000).firstHeld 31 fun f => f.timeTgt.isNone && f.angleTgt.isSome) = some angled) ∧
      ((heldAngle 100000000).launchTurn angled = true) ∧
      ((heldAngle 100000000).heldDue angled + 2 * usClk < max ((heldAngle 100000000).heldDue angled) ((heldAngle 100000000).lane 31).txFree)) ∧
    ((((heldTime 0).firstHeld 31 fun _ => true) = some timed)) ∧
    ((((freeS.takeStamps 31).firstHeld 31 fun f => decide ((freeS.takeStamps 31).heldDue f ≤ (freeS.takeStamps 31).now)) = none) ∧
      (((freeS.takeStamps 31).lane 31).nextEth = some readyF) ∧ (((freeS.takeStamps 31).lane 31).resv = false) ∧
      (∀ (h : EthFrame), ((freeS.takeStamps 31).firstHeld 31 fun _ => true) = some h → max (freeS.takeStamps 31).now ((freeS.takeStamps 31).lane 31).txFree + windowClk ((freeS.takeStamps 31).is10g 31) < (freeS.takeStamps 31).heldDue h)) ∧
    ((((resvS.takeStamps 31).firstHeld 31 fun f => decide ((resvS.takeStamps 31).heldDue f ≤ (resvS.takeStamps 31).now)) = none) ∧
      (((resvS.takeStamps 31).lane 31).nextEth = some bigF) ∧ (((resvS.takeStamps 31).lane 31).resv = true) ∧
      (((resvS.takeStamps 31).firstHeld 31 fun _ => true) = some timed) ∧
      ((resvS.takeStamps 31).heldDue timed < max (resvS.takeStamps 31).now ((resvS.takeStamps 31).lane 31).txFree + frameClk ((resvS.takeStamps 31).is10g 31) bigF.len)) ∧
    (((stampS.lane 31).tsq = [(5, 6)])) := by
  refine ⟨?_, ?_, ?_, ?_, ?_, ?_, ?_, ?_⟩ <;> decide +kernel
theorem witness_GooseCommandsComplete :
    ((goS.img.goPubs.find 0 = some goPub0) ∧ ((goS.pubs.get (PubSt.mk 0 0 [] 0 none 0 false) 0).nextAt = some 5) ∧
      (goS.publishes goPub0 = true)) ∧
    ((goNew.ethRx 31 = true) ∧ (64 ≤ goMsg.snd.len) ∧ (goMsg.snd.len ≤ 1522) ∧
      (goNew.img.goSubOf 31 goMsg = some (0, goSub0)) ∧
      ((goNew.captureRx 31).judgePinned 31 1 0 goSub0.srcMac goMsg.snd = (some 0, ((goNew.captureRx 31).judgePinned 31 1 0 none goMsg.snd).2)) ∧
      (goSub0.passes goMsg = true) ∧
      ((((goNew.captureRx 31).judgePinned 31 1 0 none goMsg.snd).2.subs.get (SubSt.mk none 0 false) 0).stale goMsg.stNum goMsg.sqNum = false)) ∧
    ((goS.ethRx 31 = true) ∧ (64 ≤ goMsg.snd.len) ∧ (goMsg.snd.len ≤ 1522) ∧
      (goS.img.goSubOf 31 goMsg = some (0, goSub0)) ∧
      ((goS.captureRx 31).judgePinned 31 1 0 goSub0.srcMac goMsg.snd = (some 0, ((goS.captureRx 31).judgePinned 31 1 0 none goMsg.snd).2)) ∧
      (goSub0.passes goMsg = true) ∧
      ((((goS.captureRx 31).judgePinned 31 1 0 none goMsg.snd).2.subs.get (SubSt.mk none 0 false) 0).stale goMsg.stNum goMsg.sqNum = false)) ∧
    ((goS.ethRx 31 = true) ∧ (64 ≤ goBadMsg.snd.len) ∧ (goBadMsg.snd.len ≤ 1522) ∧
      (goS.img.goSubOf 31 goBadMsg = some (0, goSub0)) ∧
      ((goS.captureRx 31).judgePinned 31 1 0 goSub0.srcMac goBadMsg.snd = (some 0, ((goS.captureRx 31).judgePinned 31 1 0 none goBadMsg.snd).2)) ∧
      (goSub0.passes goBadMsg = false)) ∧
    ((goS.img.goSubs.find 0 = some goSub0) ∧ ((goS.subs.get (SubSt.mk none 0 false) 0).last = some (1, 0)) ∧
      ((goS.subs.get (SubSt.mk none 0 false) 0).expired = false)) := by
  refine ⟨?_, ?_, ?_, ?_, ?_⟩ <;> decide +kernel
theorem witness_PtpCommandsComplete :
    ((ptpMst.judgePtp 31 2 ptp1 = (some 1, (ptpMst.judgePtp 31 2 ptp1).2)) ∧
      (((if (ptpMst.judgePtp 31 2 ptp1).2.fromMaster 31 ptp1 = false then (ptpMst.judgePtp 31 2 ptp1).2 else if ptp1.twoStep = true then (ptpMst.judgePtp 31 2 ptp1).2.updPtp 31 fun p => PtpSt.mk p.master p.announceAt p.linkDelay p.held p.listening p.nextId (some ptp1.seqId) p.pdelayAsked p.pdelaySeq p.nextAt else (ptpMst.judgePtp 31 2 ptp1).2.ptpUpdate 31 ptp1).img.lane 31).pairLane = none)) ∧
    ((ptpPair.judgePtp 31 2 ptp1 = (some 1, (ptpPair.judgePtp 31 2 ptp1).2)) ∧
      (((if (ptpPair.judgePtp 31 2 ptp1).2.fromMaster 31 ptp1 = false then (ptpPair.judgePtp 31 2 ptp1).2 else if ptp1.twoStep = true then (ptpPair.judgePtp 31 2 ptp1).2.updPtp 31 fun p => PtpSt.mk p.master p.announceAt p.linkDelay p.held p.listening p.nextId (some ptp1.seqId) p.pdelayAsked p.pdelaySeq p.nextAt else (ptpPair.judgePtp 31 2 ptp1).2.ptpUpdate 31 ptp1).img.lane 31).pairLane = some 30) ∧
      (ptp1.twoStep = false)) ∧
    ((ptpPair.judgePtp 31 2 ptp2 = (some 1, (ptpPair.judgePtp 31 2 ptp2).2)) ∧
      (((if (ptpPair.judgePtp 31 2 ptp2).2.fromMaster 31 ptp2 = false then (ptpPair.judgePtp 31 2 ptp2).2 else if ptp2.twoStep = true then (ptpPair.judgePtp 31 2 ptp2).2.updPtp 31 fun p => PtpSt.mk p.master p.announceAt p.linkDelay p.held p.listening p.nextId (some ptp2.seqId) p.pdelayAsked p.pdelaySeq p.nextAt else (ptpPair.judgePtp 31 2 ptp2).2.ptpUpdate 31 ptp2).img.lane 31).pairLane = some 30) ∧
      (ptp2.twoStep = true) ∧
      (((if (ptpPair.judgePtp 31 2 ptp2).2.fromMaster 31 ptp2 = false then (ptpPair.judgePtp 31 2 ptp2).2 else if ptp2.twoStep = true then (ptpPair.judgePtp 31 2 ptp2).2.updPtp 31 fun p => PtpSt.mk p.master p.announceAt p.linkDelay p.held p.listening p.nextId (some ptp2.seqId) p.pdelayAsked p.pdelaySeq p.nextAt else (ptpPair.judgePtp 31 2 ptp2).2.ptpUpdate 31 ptp2).heldSums 31).length < 8)) ∧
    ((ptpMst.judgePtp 31 2 ptp1 = (some 1, (ptpMst.judgePtp 31 2 ptp1).2)) ∧
      (((if ((ptpMst.judgePtp 31 2 ptp1).2.fromMaster 31 ptp1 && ((ptpMst.judgePtp 31 2 ptp1).2.lane 31).ptp.syncSeq == some ptp1.seqId) = true then ((ptpMst.judgePtp 31 2 ptp1).2.updPtp 31 fun p => PtpSt.mk p.master p.announceAt p.linkDelay p.held p.listening p.nextId none p.pdelayAsked p.pdelaySeq p.nextAt).ptpUpdate 31 ptp1 else (ptpMst.judgePtp 31 2 ptp1).2).img.lane 31).pairLane = none)) ∧
    ((ptpPair.judgePtp 31 2 ptp1 = (some 1, (ptpPair.judgePtp 31 2 ptp1).2)) ∧
      (((if ((ptpPair.judgePtp 31 2 ptp1).2.fromMaster 31 ptp1 && ((ptpPair.judgePtp 31 2 ptp1).2.lane 31).ptp.syncSeq == some ptp1.seqId) = true then ((ptpPair.judgePtp 31 2 ptp1).2.updPtp 31 fun p => PtpSt.mk p.master p.announceAt p.linkDelay p.held p.listening p.nextId none p.pdelayAsked p.pdelaySeq p.nextAt).ptpUpdate 31 ptp1 else (ptpPair.judgePtp 31 2 ptp1).2).img.lane 31).pairLane = some 30) ∧
      (none = List.find? (fun h => h.1 == ptp1.seqId && h.2.1 == ptp1.source) ((if ((ptpPair.judgePtp 31 2 ptp1).2.fromMaster 31 ptp1 && ((ptpPair.judgePtp 31 2 ptp1).2.lane 31).ptp.syncSeq == some ptp1.seqId) = true then ((ptpPair.judgePtp 31 2 ptp1).2.updPtp 31 fun p => PtpSt.mk p.master p.announceAt p.linkDelay p.held p.listening p.nextId none p.pdelayAsked p.pdelaySeq p.nextAt).ptpUpdate 31 ptp1 else (ptpPair.judgePtp 31 2 ptp1).2).heldSums 31))) ∧
    ((ptpHolds.judgePtp 31 2 ptp1 = (some 1, (ptpHolds.judgePtp 31 2 ptp1).2)) ∧
      (((if ((ptpHolds.judgePtp 31 2 ptp1).2.fromMaster 31 ptp1 && ((ptpHolds.judgePtp 31 2 ptp1).2.lane 31).ptp.syncSeq == some ptp1.seqId) = true then ((ptpHolds.judgePtp 31 2 ptp1).2.updPtp 31 fun p => PtpSt.mk p.master p.announceAt p.linkDelay p.held p.listening p.nextId none p.pdelayAsked p.pdelaySeq p.nextAt).ptpUpdate 31 ptp1 else (ptpHolds.judgePtp 31 2 ptp1).2).img.lane 31).pairLane = some 30) ∧
      (some held0 = List.find? (fun h => h.1 == ptp1.seqId && h.2.1 == ptp1.source) ((if ((ptpHolds.judgePtp 31 2 ptp1).2.fromMaster 31 ptp1 && ((ptpHolds.judgePtp 31 2 ptp1).2.lane 31).ptp.syncSeq == some ptp1.seqId) = true then ((ptpHolds.judgePtp 31 2 ptp1).2.updPtp 31 fun p => PtpSt.mk p.master p.announceAt p.linkDelay p.held p.listening p.nextId none p.pdelayAsked p.pdelaySeq p.nextAt).ptpUpdate 31 ptp1 else (ptpHolds.judgePtp 31 2 ptp1).2).heldSums 31))) ∧
    ((ptpMst.judgePtp 31 3 ptp1 = (some 0, (ptpMst.judgePtp 31 3 ptp1).2))) ∧
    ((ptpMst.judgePtp 31 3 ptp1 = (some 0, (ptpMst.judgePtp 31 3 ptp1).2)) ∧
      (((ptpMst.judgePtp 31 3 ptp1).2.lane 31).ptp.pdelayAsked = true)) ∧
    ((ptpMst.judgePtp 31 3 ptp1 = (some 0, (ptpMst.judgePtp 31 3 ptp1).2)) ∧
      (((ptpMst.judgePtp 31 3 ptp1).2.lane 31).ptp.pdelaySeq = some ptp1.seqId)) ∧
    ((ptpMst.judgePtp 31 2 ptpOther = (some 1, (ptpMst.judgePtp 31 2 ptpOther).2)) ∧
      ((ptpMst.judgePtp 31 2 ptpOther).2.fromMaster 31 ptpOther = false)) ∧
    ((ptpMst.judgePtp 31 2 ptp1 = (some 1, (ptpMst.judgePtp 31 2 ptp1).2)) ∧
      (((ptpMst.judgePtp 31 2 ptp1).2.img.lane 31).pairLane = none) ∧
      ((ptpMst.judgePtp 31 2 ptp1).2.fromMaster 31 ptp1 = true)) ∧
    ((ptpMst.judgePtp 31 2 ptpOther = (some 1, (ptpMst.judgePtp 31 2 ptpOther).2)) ∧
      (((ptpMst.judgePtp 31 2 ptpOther).2.img.lane 31).pairLane = none) ∧
      ((ptpMst.judgePtp 31 2 ptpOther).2.fromMaster 31 ptpOther = false)) ∧
    (((ptpMst.lane 31).ptp.master = some 0)) ∧
    ((ptpPair.judgePtp 31 2 ptp1 = (some 1, (ptpPair.judgePtp 31 2 ptp1).2)) ∧
      (((ptpPair.judgePtp 31 2 ptp1).2.img.lane 31).pairLane = some 30)) ∧
    ((ptpMst.portTb 31 = some 0) ∧ (ptpMst.laneOn 31 = true) ∧ ((ptpMst.lane 31).ptp.master = some 0)) ∧
    (((ptpS none (PtpSt.mk none 0 0 [] false 0 none false none 0)).portTb 31 = some 0) ∧
      ((ptpS none (PtpSt.mk none 0 0 [] false 0 none false none 0)).laneOn 31 = true) ∧
      (((ptpS none (PtpSt.mk none 0 0 [] false 0 none false none 0)).lane 31).ptp.master = none) ∧
      (((ptpS none (PtpSt.mk none 0 0 [] false 0 none false none 0)).lane 31).ptp.listening = false) ∧
      (((ptpS none (PtpSt.mk none 0 0 [] false 0 none false none 0)).img.tb 0).slaveOnly = false)) := by
  refine ⟨?_, ?_, ?_, ?_, ?_, ?_, ?_, ?_, ?_, ?_, ?_, ?_, ?_, ?_, ?_, ?_⟩ <;> decide +kernel
theorem witness_PartnerCommandsComplete :
    (((entryS false).partners.find 0 = some (pt0 false)) ∧ ((pt0 false).pinned = false) ∧
      ((entryS false).outstanding 0 = [])) ∧
    (((entryS true).partners.find 0 = some (pt0 true)) ∧ ((pt0 true).pinned = true)) ∧
    ((goS.ethRx 31 = true) ∧ (64 ≤ 1522) ∧ (1522 ≤ 1522)) ∧
    ((goS.ethRx 31 = true)) ∧
    ((goS.findPartner 1 31 0 = some 0) ∧ (1 ≤ ((goS.partner 0).refill goS.now).ftok) ∧
      ((↑(Sender.mk 0 64).len : ℚ) ≤ ((goS.partner 0).refill goS.now).btok) ∧
      (∀ (m : ℕ), none = some m → m = (Sender.mk 0 64).mac)) ∧
    ((goS.findPartner 1 31 0 = some 0) ∧ (1 ≤ ((goS.partner 0).refill goS.now).ftok) ∧
      ((↑(Sender.mk 0 64).len : ℚ) ≤ ((goS.partner 0).refill goS.now).btok) ∧
      ((goS.img.admits (1 == 4) 31 0).isSome = true)) := by
  refine ⟨?_, ?_, ?_, ?_, ?_, ?_⟩ <;> decide +kernel
theorem witness_TimeBaseCommandsComplete :
    ((3 < 4) ∧ (tbStep.flag F.TB_STAT_EN 3 = true) ∧ (tbStep.flag F.TB_STAT_STEPPED 3 = false) ∧
      ((tbStep.tb 3).lastUpd.isSome = true)) ∧
    ((3 < 4) ∧ (W.flag F.TB_STAT_EN 3 = false) ∧ (W.getF F.TB_CFG_SRC 3 = 0)) ∧
    ((3 < 4) ∧ ((W.setF F.TB_CFG_SRC 3 1).flag F.TB_STAT_EN 3 = false) ∧
      ((W.setF F.TB_CFG_SRC 3 1).getF F.TB_CFG_SRC 3 ≠ 0)) ∧
    ((3 < 4)) ∧
    ((3 < 4) ∧ (tbLocked.flag F.TB_STAT_LOCK 3 = true) ∧ ((tbLocked.tb 3).lastUpd = some 0)) ∧
    ((3 < 4) ∧ (true ≠ W.flag F.TB_CFG_PPSPOL 3) ∧ (W.getF F.TB_CFG_SRC 3 ≠ 2)) ∧
    ((3 < 4) ∧ (tbPps.tbDue 3 (tbPps.getF F.TB_PPSAT_AT 3) = some 0) ∧ (tbPps.getF F.TB_CFG_PPSOUT 3 = 1)) ∧
    ((3 < 4) ∧ ((tbHigh.tb 3).ppsHigh = some 0)) ∧
    ((3 < 4) ∧ (tbLocked.flag F.TB_STAT_LOCK 3 = true) ∧ (3 ≠ 0)) ∧
    ((3 < 4) ∧ (tbSrc.getF F.TB_CFG_SRC 3 ≠ 0)) ∧
    ((3 < 4) ∧ (tbDone.getF F.TB_CFG_SRC 3 = 0) ∧ (tbDone.flag F.TB_STAT_STEPPED 3 = true)) ∧
    ((3 < 4) ∧ (W.getF F.TB_CFG_SRC 3 = 0) ∧ (W.flag F.TB_STAT_STEPPED 3 = false)) ∧
    ((3 < 4) ∧ (W.getF F.TB_CFG_SRC 3 = 0)) := by
  refine ⟨?_, ?_, ?_, ?_, ?_, ?_, ?_, ?_, ?_, ?_, ?_, ?_, ?_⟩ <;> decide +kernel
theorem witness_RolesAndRingServiceComplete :
    ((∀ p ∈ (listening true).img.chains, p.1 < 32) ∧ ((listening true).pair.listenAt = some 0) ∧
      ((listening true).pair.sawActive = some 3)) ∧
    ((listenB.pair.listenAt = some 0) ∧ (listenB.pair.sawActive = none) ∧ (listenB.sideB = true) ∧
      (listenB.pair.longListen = false)) ∧
    ((∀ p ∈ (listening false).img.chains, p.1 < 32) ∧ ((listening false).pair.listenAt = some 0) ∧
      ((listening false).pair.sawActive = none) ∧
      ((listening false).sideB = false ∨ (listening false).pair.longListen = true)) ∧
    ((yields.paired = true) ∧ (yields.isActive = true) ∧ (4 ≤ (yields.lane 31).highRun)) ∧
    ((standbyS.paired = true) ∧ (standbyS.isActive = false) ∧ (standbyS.mayLead = true) ∧
      (standbyS.pair.listenAt = none) ∧ (standbyS.getF F.DEV_STAT_STATE = 3) ∧
      ((standbyS.img.chains.find 31).isSome = true) ∧ ((standbyS.lane 31).ringSvc = false)) ∧
    (((ringOn.lane 31).ringSvc = true) ∧ (8 ≤ (ringOn.lane 31).seenRun)) ∧
    ((standbyS.img.chainOf 0 = some (31, ChainCfg.mk 0 10 false [tileCfg0])) ∧ (standbyS.pair.feed.find 0 = none) ∧
      (standbyS.paired = true) ∧ (standbyS.isActive = false) ∧ ((standbyS.sec 0).nextDue ≠ 0)) ∧
    ((standbyS.paired = true)) ∧
    ((standbyS.pins.demoteIn = true)) ∧
    ((lowPin.pins.demoteIn = false)) := by
  refine ⟨?_, ?_, ?_, ?_, ?_, ?_, ?_, ?_, ?_, ?_⟩ <;> decide +kernel
theorem witness_ContestsCloseWithTheirOutcome :
    ((∀ p ∈ (contestRun 1 2 1).img.chains, p.1 < 32) ∧ ((contestRun 1 2 1).pair.contest = some contest0)) ∧
    ((∀ p ∈ (contestRun 0 1 2).img.chains, p.1 < 32) ∧ ((contestRun 0 1 2).pair.contest = some contest0)) ∧
    ((∀ p ∈ (contestRun 0 1 1).img.chains, p.1 < 32) ∧ ((contestRun 0 1 1).pair.contest = some contest0)) ∧
    ((∀ p ∈ ((contestRun 1 2 1).updPair fun p => PairSt.mk p.listenAt p.longListen p.sawActive p.delta p.own p.peer p.mmRun p.mmAt p.contest p.closedAt p.stopped p.castling p.lastRec p.seqs p.recEpoch p.mmEpoch p.took p.tookSeen true p.feed p.demLowAt p.pulseAt p.sent p.seq p.feedSeq).img.chains, p.1 < 32) ∧
      (((contestRun 1 2 1).updPair fun p => PairSt.mk p.listenAt p.longListen p.sawActive p.delta p.own p.peer p.mmRun p.mmAt p.contest p.closedAt p.stopped p.castling p.lastRec p.seqs p.recEpoch p.mmEpoch p.took p.tookSeen true p.feed p.demLowAt p.pulseAt p.sent p.seq p.feedSeq).pair.contest = some contest0)) ∧
    ((inContest.pair.contest = some contest0)) := by
  refine ⟨?_, ?_, ?_, ?_, ?_⟩ <;> decide +kernel
theorem witness_DemotionCommandsComplete :
    (((tookS 0).pair.took = some (0, 5)) ∧ ((tookS 0).pair.tookSeen = 0)) ∧
    (((tookS 9).pair.took = some (0, 5)) ∧ ((tookS 9).pair.tookSeen ≠ 0)) ∧
    ((pulsing.pair.pulseAt = some 0)) ∧
    ((∀ p ∈ standbyS.img.chains, p.1 < 32) ∧ (standbyS.pins.demoteIn = true) ∧ (standbyS.paired = true)) ∧
    ((demLow.pair.demLowAt = some 0) ∧ (demLow.flag F.PR_STAT_DEMHELD = false)) := by
  refine ⟨?_, ?_, ?_, ?_, ?_⟩ <;> decide +kernel
theorem witness_PartnerRecordsAct :
    ((aligned.peerArrives (rx rec5) = ([recF rec5], got aligned rec5)) ∧ ((recF rec5).chan = 0) ∧
      ((recF rec5).payload.length = 32) ∧ (rec5 = peerRecRead (recF rec5)) ∧ (rec5.type = 1) ∧
      ((got aligned rec5).takeRec rec5 = some (after aligned rec5)) ∧
      (((after aligned rec5).updPair fun p => PairSt.mk p.listenAt p.longListen p.sawActive p.delta p.own (p.peer.set rec5.section_ (List.take 16 (rec5 :: p.peer.get [] rec5.section_))) p.mmRun p.mmAt p.contest p.closedAt p.stopped p.castling p.lastRec p.seqs p.recEpoch p.mmEpoch p.took p.tookSeen p.stalled p.feed p.demLowAt p.pulseAt p.sent p.seq p.feedSeq).ownEpoch rec5.section_ rec5.epoch = some 5)) ∧
    ((unaligned.peerArrives (rx rec5) = ([recF rec5], got unaligned rec5)) ∧ ((recF rec5).chan = 0) ∧
      ((recF rec5).payload.length = 32) ∧ (rec5 = peerRecRead (recF rec5)) ∧ (rec5.type = 1) ∧
      ((got unaligned rec5).takeRec rec5 = some (after unaligned rec5)) ∧
      (((after unaligned rec5).updPair fun p => PairSt.mk p.listenAt p.longListen p.sawActive p.delta p.own (p.peer.set rec5.section_ (List.take 16 (rec5 :: p.peer.get [] rec5.section_))) p.mmRun p.mmAt p.contest p.closedAt p.stopped p.castling p.lastRec p.seqs p.recEpoch p.mmEpoch p.took p.tookSeen p.stalled p.feed p.demLowAt p.pulseAt p.sent p.seq p.feedSeq).ownEpoch rec5.section_ rec5.epoch = none)) ∧
    ((unaligned.peerArrives (rx recBad) = ([recF recBad], got unaligned recBad)) ∧ ((recF recBad).chan = 0) ∧
      ((recF recBad).payload.length = 32) ∧ (recBad = peerRecRead (recF recBad)) ∧ (recBad.type = 1) ∧
      ((got unaligned recBad).takeRec recBad = none)) ∧
    ((inContest.peerArrives (rx res5) = ([recF res5], got inContest res5)) ∧ ((recF res5).chan = 0) ∧
      ((recF res5).payload.length = 32) ∧ (res5 = peerRecRead (recF res5)) ∧ (res5.type = 3) ∧
      ((got inContest res5).takeRec res5 = some (after inContest res5)) ∧
      ((after inContest res5).pair.contest.isSome = true)) ∧
    ((aligned.peerArrives (rxOf feedF) = ([feedF], (aligned.peerArrives (rxOf feedF)).2)) ∧
      (feedRead feedF = some (0, 5, [FeedTile.mk 0 0 0 0 0])) ∧
      ((aligned.peerArrives (rxOf feedF)).2.img.chainOf 0 = some (31, ChainCfg.mk 0 10 false [tileCfg0])) ∧
      ((aligned.peerArrives (rxOf feedF)).2.ownEpoch 0 5 = some 5) ∧
      ((aligned.peerArrives (rxOf feedF)).2.paired = true) ∧ ((aligned.peerArrives (rxOf feedF)).2.isActive = false)) ∧
    (((31, ChainCfg.mk 0 10 false [tileCfg0]) ∈ aligned.img.chains) ∧ (aligned.paired = true) ∧
      (aligned.tileLane 31 = true) ∧ (aligned.flag F.LN_STAT_UP 31 = true) ∧ (frameOk 32 partnerChars = true) ∧
      ((downRead partnerChars).type ∈ [1, 2, 3, 5, 6, 7]) ∧ (bitOf (downRead partnerChars).flags 0 ≠ aligned.sideB)) := by
  refine ⟨?_, ?_, ?_, ?_, ?_, ?_⟩ <;> decide +kernel
theorem witness_PeerFramesReadBack :
    ((∀ b ∈ peerBlocks frameMax, b.2.length = 8 ∧ ∀ x ∈ b.2, x < 256)) ∧
    ((frameMax.chan < 2) ∧ (frameMax.seq < 65536) ∧ (2 < 256) ∧ (frameMax.payload.length = 8 * 2) ∧
      (∀ x ∈ frameMax.payload, x < 256)) ∧
    (((recF rec5).chan < 2) ∧ ((recF rec5).seq < 65536) ∧ (4 < 256) ∧ ((recF rec5).payload.length = 8 * 4) ∧
      (∀ x ∈ (recF rec5).payload, x < 256) ∧ (aligned.receives 30 = true) ∧ (aligned.laneMode 30 = 2) ∧
      (aligned.flag F.LN_STAT_UP 30 = true) ∧ (aligned.flag F.LN_STAT_LOCK 30 = true) ∧
      (aligned.flag F.LN_PRBSCTRL_CEN 30 = false) ∧ ((aligned.lane 30).peerAsm = none) ∧
      (∀ b ∈ (aligned.lane 30).win, b = true)) ∧
    ((recMax.type < 256) ∧ (recMax.section_ < 256) ∧ (recMax.seq < 65536) ∧ (recMax.epoch < 2 ^ 32) ∧
      (recMax.stamp < 2 ^ 32) ∧ (recMax.data < 2 ^ 32) ∧ (recMax.cver < 2 ^ 32) ∧ (recMax.pairId < 65536) ∧
      (recMax.claim < 65536) ∧ (recMax.g < 65536)) ∧
    ((4294967295 < 2 ^ 32) ∧ ((List.replicate 16 feedMax).length < 256) ∧
      (∀ t ∈ List.replicate 16 feedMax, t.inp < 65536 ∧ t.wb < 65536 ∧ t.rb < 256 ∧ t.stat < 256 ∧ t.q < 256)) := by
  refine ⟨?_, ?_, ?_, ?_, ?_⟩ <;> decide +kernel
theorem witness_CastlingCommandsComplete :
    ((aligned.peerArrives (rx req5) = ([recF req5], got aligned req5)) ∧ ((recF req5).chan = 0) ∧
      ((recF req5).payload.length = 32) ∧ (req5 = peerRecRead (recF req5)) ∧
      ((got aligned req5).takeRec req5 = some (after aligned req5)) ∧ (req5.type = 4) ∧
      ((after aligned req5).isActive = false) ∧ ((after aligned req5).mayLead = true) ∧
      ((after aligned req5).castleCause = 0) ∧
      ((after aligned req5).ownEpoch (after aligned req5).refSec req5.data = some 1)) ∧
    ((unaligned.peerArrives (rx req5) = ([recF req5], got unaligned req5)) ∧ ((recF req5).chan = 0) ∧
      ((recF req5).payload.length = 32) ∧ (req5 = peerRecRead (recF req5)) ∧
      ((got unaligned req5).takeRec req5 = some (after unaligned req5)) ∧ (req5.type = 4) ∧
      ((after unaligned req5).isActive = false) ∧ ((after unaligned req5).mayLead = true) ∧
      ((after unaligned req5).castleCause ≠ 0)) ∧
    (((castling asked).peerArrives (rx answer0) = ([recF answer0], got (castling asked) answer0)) ∧
      ((recF answer0).chan = 0) ∧ ((recF answer0).payload.length = 32) ∧ (answer0 = peerRecRead (recF answer0)) ∧
      ((got (castling asked) answer0).takeRec answer0 = some (after (castling asked) answer0)) ∧ (answer0.type = 5) ∧
      ((after (castling asked) answer0).pair.castling = some asked) ∧ (asked.taker = false) ∧ (asked.accepted = false) ∧
      (answer0.data % 256 = 0)) ∧
    (((castling asked).peerArrives (rx answer7) = ([recF answer7], got (castling asked) answer7)) ∧
      ((recF answer7).chan = 0) ∧ ((recF answer7).payload.length = 32) ∧ (answer7 = peerRecRead (recF answer7)) ∧
      ((got (castling asked) answer7).takeRec answer7 = some (after (castling asked) answer7)) ∧ (answer7.type = 5) ∧
      ((after (castling asked) answer7).pair.castling = some asked) ∧ (asked.taker = false) ∧ (asked.accepted = false) ∧
      (answer7.data % 256 ≠ 0)) ∧
    ((castleS.paired = true) ∧ (castleS.isActive = true) ∧
      (∀ (r : PeerRec), castleS.pair.lastRec = some r → r.failed = false ∧ r.demoted = false) ∧ (castleS.castleCause = 0)) ∧
    ((aligned.paired = true) ∧ (aligned.isActive = false)) ∧
    (((castling asked).pair.castling = some asked) ∧ (asked.accepted = false)) ∧
    ((∀ p ∈ (castling granted).img.chains, p.1 < 32) ∧ ((castling granted).pair.castling = some granted) ∧
      (granted.accepted = true) ∧ (granted.switched = false) ∧ (granted.taker = true) ∧
      ((castling granted).isActive = false) ∧ ((castling granted).mayLead = true)) ∧
    ((((castling lowers).setF F.PR_STAT_ACTIVE 0 1).pair.castling = some lowers) ∧ (lowers.accepted = true) ∧
      (lowers.switched = false) ∧ (lowers.taker = false) ∧
      (((castling lowers).setF F.PR_STAT_ACTIVE 0 1).isActive = true) ∧
      (((castling lowers).setF F.PR_STAT_ACTIVE 0 1).flag F.PR_STAT_FAILED = false) ∧
      (((castling lowers).setF F.PR_STAT_ACTIVE 0 1).flag F.PR_STAT_DEMOTED = false)) ∧
    ((∀ p ∈ (castling switched).img.chains, p.1 < 32) ∧ ((castling switched).pair.castling = some switched) ∧
      (switched.switched = true)) := by
  refine ⟨?_, ?_, ?_, ?_, ?_, ?_, ?_, ?_, ?_, ?_⟩ <;> decide +kernel
theorem witness_ChangePackageCommandsComplete :
    (((changing true [0]).change = some (changeOf true [0])) ∧ ((changeOf true [0]).started = true)) ∧
    (((changing false [0]).change = some (changeOf false [0])) ∧ ((changeOf false [0]).started = false)) ∧
    ((0 < 24) ∧ ((changing true [0]).change = some (changeOf true [0])) ∧ (0 ∈ (changeOf true [0]).left) ∧
      (128 * (changing true [0]).cycleOf 0 ((changing true [0]).getF F.SEC_SWCYC_CYCLE) < ((changing true [0]).sec 0).nextSample)) ∧
    (((changing true []).change = some (changeOf true [])) ∧ ((changeOf true []).started = true) ∧
      ((changeOf true []).left = []) ∧ ((changeOf true []).rolling = false)) ∧
    ((storingOk.dev.storing = true) ∧ (storingOk.packageResult (storingOk.readPackage pkgView) = 1)) ∧
    ((storingBad.dev.storing = true) ∧ (2 < storingBad.packageResult (storingBad.readPackage pkgView)) ∧
      (storingBad.change = none)) := by
  refine ⟨?_, ?_, ?_, ?_, ?_, ?_⟩ <;> decide +kernel
theorem witness_RecorderAndSnapshotCommandsComplete :
    ((23 < 24) ∧ (((onS 23 7).sec 23).running = true)) ∧
    (((drS false).recs.find 5 = some (drR false)) ∧ ((drR false).open_ = false) ∧ ((drR false).acked = false)) ∧
    (((drS true).recs.find 5 = some (drR true)) ∧ ((drR true).open_ = true)) ∧
    ((24 < 25) ∧ ((snapS true).flag F.SN_LATCH_HELD1 24 = false ∨ ((snapS true).snap 24).latch.isSome = true)) ∧
    ((24 < 25) ∧ (W.flag F.SN_LATCH_HELD1 24 = false ∨ (W.snap 24).latch.isSome = true)) ∧
    ((24 < 25) ∧ (((snapS true).snap 24).latch = some (true, 0))) ∧
    ((W.pins.porn = true)) ∧
    (((stateIs 4).getF F.DEV_STAT_STATE = 4)) ∧
    (((stateIs 3).getF F.DEV_STAT_STATE ≠ 4)) := by
  refine ⟨?_, ?_, ?_, ?_, ?_, ?_, ?_, ?_, ?_⟩ <;> decide +kernel
theorem witness_PortFramesComplete :
    ((W.pins.porn = true) ∧ (wrFrame = 2 :: List.tail wrFrame) ∧ (writeStatus wrFrame = 0)) ∧
    ((W.pins.porn = true) ∧ (wrCut = 2 :: List.tail wrCut) ∧ (writeStatus wrCut ≠ 0)) ∧
    ((W.pins.porn = true) ∧ (rdFrame = 11 :: List.tail rdFrame) ∧ (readStatus rdFrame = 0) ∧
      (List.length rdFrame = 13 + 4 * spiCount rdFrame) ∧
      (W.readWords (spiAddr rdFrame) (spiCount rdFrame) = ((W.readWords (spiAddr rdFrame) 1).1, (W.readWords (spiAddr rdFrame) 1).2))) ∧
    ((W.pins.porn = true)) := by
  refine ⟨?_, ?_, ?_, ?_⟩ <;> decide +kernel
theorem witness_NvmCommandsComplete :
    ((sized.nvmRefusal 1 (sized.getF F.DEV_NVMADDR_ADDR) (fieldOf (BitVec.toNat nvmW) 16 8) (bitOf (BitVec.toNat nvmW) 4) = none)) ∧
    ((sized.nvmRefusal 2 (sized.getF F.DEV_NVMADDR_ADDR) (fieldOf (BitVec.toNat nvmW) 16 8) (bitOf (BitVec.toNat nvmW) 4) = none)) ∧
    ((sized.nvmRefusal 3 (sized.getF F.DEV_NVMADDR_ADDR) (fieldOf (BitVec.toNat nvmW) 16 8) (bitOf (BitVec.toNat nvmW) 4) = none)) ∧
    ((W.nvmRefusal 2 (W.getF F.DEV_NVMADDR_ADDR) (fieldOf (BitVec.toNat nvmEvW) 16 8) (bitOf (BitVec.toNat nvmEvW) 4) = some 4)) ∧
    (((nvmS 1 true).dev.nvm = some (nvmDone 1 true))) ∧
    (((nvmS 2 true).dev.nvm = some (nvmDone 2 true))) ∧
    (((nvmS 3 false).dev.nvm = some (nvmDone 3 false))) := by
  refine ⟨?_, ?_, ?_, ?_, ?_, ?_, ?_⟩ <;> decide +kernel
theorem witness_UnmappedAddressesReadZero :
    ((blockAt hole = none)) ∧
    ((List.length wrHole = 8 + 4 * spiCount wrHole) ∧ (1 ≤ spiCount wrHole) ∧ (spiCount wrHole ≤ 64) ∧
      (List.drop (List.length wrHole - 2) wrHole = spiCrc (List.take (List.length wrHole - 2) wrHole)) ∧
      (spiAddr wrHole % 4 = 0) ∧ (0 < spiCount wrHole) ∧ (blockAt (spiAddr wrHole + 4 * 0) = none)) ∧
    ((List.take 2 (List.drop 6 rdHole) = spiCrc (List.take 6 rdHole)) ∧ (1 ≤ spiCount rdHole) ∧ (spiCount rdHole ≤ 64) ∧
      (spiAddr rdHole % 4 = 0) ∧ (0 < spiCount rdHole) ∧ (blockAt (spiAddr rdHole + 4 * 0) = none)) ∧
    ((593916 ∈ [4092, 528380, 561148, 593916])) := by
  refine ⟨?_, ?_, ?_, ?_⟩ <;> decide +kernel
theorem witness_ManagementRequestsAreAnswered :
    ((mgS.Serves askNone askNone.code none 0 (served mgS askNone))) ∧
    ((mgS.Serves (ask 1 24 8188) 1 (some 0) 0 (served mgS (ask 1 24 8188))) ∧ ((ask 1 24 8188).payload = []) ∧
      ((ask 1 24 8188).arg1 % 4 = 0) ∧ ((ask 1 24 8188).arg0 ≤ 24) ∧ ((ask 1 24 8188).arg1 < 8192)) ∧
    ((mgS.Serves (ask 1 25 8192) 1 (some 0) 0 (served mgS (ask 1 25 8192))) ∧ ((ask 1 25 8192).payload = []) ∧
      ((ask 1 25 8192).arg1 % 4 = 0) ∧ (24 < (ask 1 25 8192).arg0 ∨ 8192 ≤ (ask 1 25 8192).arg1)) ∧
    ((logS.Serves (ask 2 1 21) 2 (some 0) 0 (served logS (ask 2 1 21))) ∧ ((ask 2 1 21).payload = []) ∧
      (1 ≤ (ask 2 1 21).arg1) ∧ ((ask 2 1 21).arg1 ≤ 21) ∧
      ((served logS (ask 2 1 21)).getF F.EL_FIRST_FIRST ≤ (ask 2 1 21).arg0) ∧
      ((ask 2 1 21).arg0 ≤ (served logS (ask 2 1 21)).getF F.EL_HEAD_HEAD)) ∧
    ((mgS.Serves (ask 3 0 0) 3 (some 0) 0 (served mgS (ask 3 0 0))) ∧ ((ask 3 0 0).payload = [])) ∧
    ((mgS.Serves (ask 4 6 0) 4 (some 0) 0 (served mgS (ask 4 6 0))) ∧ ((ask 4 6 0).payload = []) ∧
      ((served mgS (ask 4 6 0)).recs.find (ask 4 6 0).arg0 = none)) ∧
    ((mgS.Serves (ask 4 5 16777216) 4 (some 0) 0 (served mgS (ask 4 5 16777216))) ∧ ((ask 4 5 16777216).payload = []) ∧
      ((served mgS (ask 4 5 16777216)).recs.find (ask 4 5 16777216).arg0 = some rec0) ∧ (rec0.acked = false) ∧
      (rec0.open_ = false) ∧ (rec0.dirLost = false) ∧ ((EccIn.mk 0 [] false).dir = false) ∧
      ((ask 4 5 16777216).arg1 / 2 ^ 24 < 3 * rec0.groups) ∧
      (1024 * ((ask 4 5 16777216).arg1 % 2 ^ 24) < (rec0.fileBytes (ask 4 5 16777216).arg0 ((ask 4 5 16777216).arg1 / 2 ^ 24)).length)) ∧
    ((mgS.Serves (ask 5 5 0) 5 (some 1) 0 (served mgS (ask 5 5 0))) ∧ ((ask 5 5 0).payload = []) ∧
      ((served mgS (ask 5 5 0)).recs.find (ask 5 5 0).arg0 = some rec0) ∧ (rec0.open_ = false) ∧ (rec0.acked = false)) ∧
    ((mgS.Serves (ask 5 6 0) 5 (some 1) 0 (served mgS (ask 5 6 0))) ∧ ((ask 5 6 0).payload = []) ∧
      ((served mgS (ask 5 6 0)).recs.find (ask 5 6 0).arg0 = none)) ∧
    ((mgS.ethRx 31 = true) ∧ ((mgS.img.lane 31).sb = true) ∧ ((mgS.img.lane 31).ipv4 ≠ 0)) ∧
    ((mgKnown.ethRx (ask 6 8388608 0).lane = true) ∧ (64 ≤ (ask 6 8388608 0).snd.len) ∧
      ((ask 6 8388608 0).snd.len ≤ 1522) ∧
      ((mgKnown.img.lane (ask 6 8388608 0).lane).serves (ask 6 8388608 0).toIp (ask 6 8388608 0).toPort = true) ∧
      (mgKnown.img.admits true (ask 6 8388608 0).lane (ask 6 8388608 0).ip = some (0, AllowRule.mk true none (some 0) 0 7 (Caps.mk none none none))) ∧
      (mgKnown.findPartner 4 (ask 6 8388608 0).lane ((ask 6 8388608 0).ip * 65536 + (ask 6 8388608 0).port) = some 0) ∧
      (1 ≤ (((mgKnown.partner 0).under 0 (AllowRule.mk true none (some 0) 0 7 (Caps.mk none none none))).refill mgKnown.now).ftok) ∧
      ((↑(ask 6 8388608 0).snd.len : ℚ) ≤ (((mgKnown.partner 0).under 0 (AllowRule.mk true none (some 0) 0 7 (Caps.mk none none none))).refill mgKnown.now).btok) ∧
      (headOk (ask 6 8388608 0) 6 = true) ∧ ((mgKnown.outstanding 0).contains (ask 6 8388608 0).reqId = false) ∧
      ((mgKnown.outstanding 0).length < (((mgKnown.partner 0).under 0 (AllowRule.mk true none (some 0) 0 7 (Caps.mk none none none))).refill mgKnown.now).capOut) ∧
      (mgKnown.mgmtFill < 256) ∧
      (∀ (b : ℕ), some 2 = some b → bitOf (((mgKnown.partner 0).under 0 (AllowRule.mk true none (some 0) 0 7 (Caps.mk none none none))).refill mgKnown.now).priv b = true)) := by
  refine ⟨?_, ?_, ?_, ?_, ?_, ?_, ?_, ?_, ?_, ?_, ?_⟩ <;> (repeat' apply And.intro) <;> first | decide +kernel | exact serves_of _ _ _ _ _ (by decide +kernel)
theorem witness_ChangeSessionCommandsComplete :
    ((mgS.Serves (ask 6 8388608 0) 6 (some 2) 0 (served mgS (ask 6 8388608 0))) ∧ ((ask 6 8388608 0).payload = []) ∧
      ((served mgS (ask 6 8388608 0)).ageSession.foreign (ask 6 8388608 0) = false) ∧
      ((served mgS (ask 6 8388608 0)).dev.storing = false) ∧ ((served mgS (ask 6 8388608 0)).change = none) ∧
      ((ask 6 8388608 0).arg0 ≤ 8 * 2 ^ 20)) ∧
    (((served sesS (send 1016 8)).session = some session0) ∧ (session0.client = clientOf (send 1016 8)) ∧
      ((served sesS (send 1016 8)).now < session0.lastAt + 60000 * msClk) ∧
      (sesS.Serves (send 1016 8) 7 (some 2) 0 (served sesS (send 1016 8))) ∧ ((send 1016 8).payload.length ≤ 1024) ∧
      ((send 1016 8).arg0 + (send 1016 8).payload.length ≤ session0.len)) ∧
    (((served sesS (send 1017 8)).session = some session0) ∧ (session0.client = clientOf (send 1017 8)) ∧
      ((served sesS (send 1017 8)).now < session0.lastAt + 60000 * msClk) ∧
      (sesS.Serves (send 1017 8) 7 (some 2) 0 (served sesS (send 1017 8))) ∧ ((send 1017 8).payload.length ≤ 1024) ∧
      (session0.len < (send 1017 8).arg0 + (send 1017 8).payload.length)) ∧
    (((served sesS (ask 8 0 0)).session = some session0) ∧ (session0.client = clientOf (ask 8 0 0)) ∧
      ((served sesS (ask 8 0 0)).now < session0.lastAt + 60000 * msClk) ∧
      (sesS.Serves (ask 8 0 0) 8 (some 2) 0 (served sesS (ask 8 0 0))) ∧ ((ask 8 0 0).payload = [])) ∧
    (((served sesS (ask 10 0 0)).session = some session0) ∧ (session0.client = clientOf (ask 10 0 0)) ∧
      ((served sesS (ask 10 0 0)).now < session0.lastAt + 60000 * msClk) ∧
      (sesS.Serves (ask 10 0 0) 10 (some 2) 0 (served sesS (ask 10 0 0))) ∧ ((ask 10 0 0).payload = [])) ∧
    ((mgS.Serves (ask 10 0 0) 10 (some 2) 0 (served mgS (ask 10 0 0))) ∧ ((ask 10 0 0).payload = []) ∧
      ((served mgS (ask 10 0 0)).session = none)) ∧
    ((mgS.Serves (ask 9 0 0) 9 (some 0) 0 (served mgS (ask 9 0 0))) ∧ ((ask 9 0 0).payload = [])) ∧
    ((sesS.session = some session0)) := by
  refine ⟨?_, ?_, ?_, ?_, ?_, ?_, ?_, ?_⟩ <;> (repeat' apply And.intro) <;> first | decide +kernel | exact serves_of _ _ _ _ _ (by decide +kernel)
theorem witness_RegistersWriteAndReadsClear :
    ((491520 ≤ 491520) ∧ (491520 ≤ 524284) ∧ (491520 % 4 = 0) ∧ (∀ k < 8, W.getF F.CK_STAT_STATE k ≠ 1)) ∧
    ((491520 ≤ 524284) ∧ (524284 ≤ 524284) ∧ (524284 % 4 = 0) ∧ (∀ k < 8, W.getF F.CK_STAT_STATE k ≠ 1)) ∧
    ((prEvt.getF F.PR_STAT_ROLEEVT < 2) ∧ (prEvt.getF F.PR_STAT_CASTEVT < 2)) ∧
    ((prLater.getF F.PR_STAT_ROLEEVT < 2) ∧ (prLater.getF F.PR_STAT_CASTEVT < 2)) := by
  refine ⟨?_, ?_, ?_, ?_⟩ <;> decide +kernel
theorem witness_rc_read : F.CV_DROPCNT_DROP ∈ allFields ∧ F.CV_DROPCNT_DROP.acc = Acc.rc ∧
    31 < F.CV_DROPCNT_DROP.insts ∧ 0 < F.CV_DROPCNT_DROP.count ∧
    ∀ b k off, locate (F.CV_DROPCNT_DROP.addr 31 0) = some (b, k, off) → W.absentReg b k off = false := by
  refine ⟨by decide +kernel, by decide, by decide, by decide, ?_⟩
  intro b k off h
  have e : locate (F.CV_DROPCNT_DROP.addr 31 0) = some (Blk.cv, 31, 0x18) := by decide +kernel
  rw [e] at h
  cases h
  decide +kernel
theorem witness_StepRunsTheFrontCommand : W.pending = [] := rfl
theorem witness_LogicWordsRoundTrip : 3 < 4 ∧ 0xF8000000 < 2 ^ 32 ∧ logicInstr 3 0xF8000000 = some (.end_ 3) ∧
    (Instr.end_ 3).wf = true ∧ logicWord (.end_ 3) = some 0xF8000000 := by decide +kernel
theorem witness_EveryStepKeepsTheStores : step W = .next { W with now := 1 } ∧ W.StoresOk := by
  refine ⟨rfl, ?_⟩
  exact ⟨rfl, rfl, rfl, rfl⟩
theorem witness_OnlyThreeCommandsChangeTheConfigurationNvm : ∃ t, exec (.nvmCommandComplete true true) (nvmS 2 false) = .next t ∧
    t.cfgNvm ≠ (nvmS 2 false).cfgNvm := ⟨_, rfl, by decide +kernel⟩

end Sys2Proof.Tests
end

section
/-! Scheme logic: the counter instructions (R217) and the ends of the bit stack (R218). -/

namespace Sys2Proof.Machine

/-! ## Updates of one core -/

/-- A second entry at a key replaces the first. -/
theorem Tab.set_set {α : Type} (t : Tab α) (k : Nat) (v w : α) : Tab.set (Tab.set t k v) k w = Tab.set t k w := by
  induction t with
  | nil => simp [Tab.set]
  | cons c r ih =>
    obtain ⟨a, x⟩ := c
    by_cases hk : a = k
    · simp [Tab.set, hk]
    · by_cases hlt : k < a
      · simp [Tab.set, hk, hlt]
      · simp [Tab.set, hk, hlt, ih]

@[simp] theorem State.updCore_updCore (s : State) (k : Nat) (f g : CoreSt → CoreSt) :
    (s.updCore k f).updCore k g = s.updCore k (fun c => g (f c)) := by
  simp [State.updCore, Tab.upd, Tab.set_set]

/-- An update of a core depends on what it makes of that core alone. -/
theorem State.updCore_congr {s : State} {k : Nat} {f g : CoreSt → CoreSt} (h : f (s.core k) = g (s.core k)) :
    s.updCore k f = s.updCore k g := by
  unfold State.core at h
  simp [State.updCore, Tab.upd, h]

/-- A register write and an update of a core do not meet. -/
theorem State.setF_updCore (s : State) (f : Fld) (i v j k : Nat) (g : CoreSt → CoreSt) :
    (s.updCore k g).setF f i v j = (s.setF f i v j).updCore k g := rfl

/-- What an instruction of a core that scans answers: its effect, then the next instruction. -/
theorem State.instr_of_scanning {s : State} {k : Nat} (h : s.scanning k = true) (f : State → State) :
    s.instr k f = (f s).updCore k (fun c => { c with pc := c.pc + 1 }) := by
  simp [State.instr, h]

/-! ## Counters (R217) -/

/-- A counter instruction as one update of its core: `n` is the count that the rise of B gives. -/
theorem State.counterOp_eq (s : State) (k i : Nat) (up : Bool) (x : CtrSt) (n : Int)
    (hx : x = Tab.get (s.core k).ctrs {} i)
    (hn : n = if (s.core k).b && !x.inp then (if up then min (x.n + 1) 2147483647 else max (x.n - 1) 0) else x.n) :
    s.counterOp k i up = s.updCore k (fun c => { c with
      ctrs := Tab.set c.ctrs i { n := n, inp := c.b }
      b := if up then decide (c.a ≤ n) else decide (n ≤ c.a)
      bq := c.bq.join c.aq }) := by
  subst hx hn
  unfold State.counterOp State.setB
  rw [State.updCore_updCore]
  exact State.updCore_congr rfl

theorem exec_ctu {s : State} {k i : Nat} {x : CtrSt} {n : Int} (h : s.scanning k = true)
    (hx : x = Tab.get (s.core k).ctrs {} i) (hn : n = if (s.core k).b && !x.inp then min (x.n + 1) 2147483647 else x.n) :
    exec (.ctu k i) s = .next (s.updCore k (fun c => { c with
      ctrs := Tab.set c.ctrs i { n := n, inp := c.b }, b := decide (c.a ≤ n), bq := c.bq.join c.aq, pc := c.pc + 1 })) := by
  change Host.Outcome.next (s.instr k (fun s => s.counterOp k i true)) = _
  rw [State.instr_of_scanning h, s.counterOp_eq k i true x n hx (by simpa using hn), State.updCore_updCore]
  simp

theorem exec_ctd {s : State} {k i : Nat} {x : CtrSt} {n : Int} (h : s.scanning k = true)
    (hx : x = Tab.get (s.core k).ctrs {} i) (hn : n = if (s.core k).b && !x.inp then max (x.n - 1) 0 else x.n) :
    exec (.ctd k i) s = .next (s.updCore k (fun c => { c with
      ctrs := Tab.set c.ctrs i { n := n, inp := c.b }, b := decide (n ≤ c.a), bq := c.bq.join c.aq, pc := c.pc + 1 })) := by
  change Host.Outcome.next (s.instr k (fun s => s.counterOp k i false)) = _
  rw [State.instr_of_scanning h, s.counterOp_eq k i false x n hx (by simpa using hn), State.updCore_updCore]
  simp

/-- CRST where B is 1. -/
theorem exec_crst_of_b {s : State} {k i : Nat} {x : CtrSt} (h : s.scanning k = true)
    (hx : x = Tab.get (s.core k).ctrs {} i) (hb : (s.core k).b = true) :
    exec (.crst k i) s = .next (s.updCore k (fun c => { c with
      ctrs := Tab.set c.ctrs i { x with n := c.a }, pc := c.pc + 1 })) := by
  subst hx
  change Host.Outcome.next (s.instr k _) = _
  rw [State.instr_of_scanning h, if_pos hb, State.updCore_updCore]
  exact congrArg _ (State.updCore_congr rfl)

theorem exec_crst_of_not_b {s : State} {k i : Nat} (h : s.scanning k = true) (hb : (s.core k).b = false) :
    exec (.crst k i) s = .next (s.updCore k (fun c => { c with pc := c.pc + 1 })) := by
  change Host.Outcome.next (s.instr k _) = _
  rw [State.instr_of_scanning h, if_neg (by simp [hb])]

/-- Settles O22: each instruction is one update of its core, by the count that the rise of B gives. -/
theorem counterInstructionsComplete : Obligations.CounterInstructionsComplete := by
  intro s k i x n hs hx
  exact ⟨exec_ctu hs hx, exec_ctd hs hx, exec_crst_of_b hs hx, exec_crst_of_not_b hs⟩

/-! ## The bit stack at its ends (R218) -/

/-- PUSH onto a full stack: the stack stays, STK is set, the scan goes on. -/
theorem exec_push_of_full {s : State} {k : Nat} (h : s.scanning k = true) (hl : 8 ≤ (s.core k).stack.length) :
    exec (.push k) s = .next ((s.setF F.LC_STAT_STK k 1).updCore k (fun c => { c with pc := c.pc + 1 })) := by
  change Host.Outcome.next (s.instr k _) = _
  rw [State.instr_of_scanning h, if_pos hl]

/-- A pop of an empty stack: 0 with invalid quality is combined with B, and STK is set. -/
theorem State.popOp_of_empty {s : State} {k : Nat} (hk : (s.core k).stack = []) (f : Bool → Bool → Bool) :
    s.popOp k f = (s.setF F.LC_STAT_STK k 1).updCore k (fun c => { c with b := f false c.b, bq := Quality.bad.join c.bq }) := by
  simp [State.popOp, hk, State.setF_updCore]

theorem exec_andp_of_empty {s : State} {k : Nat} (h : s.scanning k = true) (hk : (s.core k).stack = []) :
    exec (.andp k) s = .next ((s.setF F.LC_STAT_STK k 1).updCore k (fun c =>
      { c with b := false, bq := Quality.bad.join c.bq, pc := c.pc + 1 })) := by
  change Host.Outcome.next (s.instr k (fun s => s.popOp k (· && ·))) = _
  rw [State.instr_of_scanning h, State.popOp_of_empty hk, State.updCore_updCore]
  simp

theorem exec_orp_of_empty {s : State} {k : Nat} (h : s.scanning k = true) (hk : (s.core k).stack = []) :
    exec (.orp k) s = .next ((s.setF F.LC_STAT_STK k 1).updCore k (fun c =>
      { c with bq := Quality.bad.join c.bq, pc := c.pc + 1 })) := by
  change Host.Outcome.next (s.instr k (fun s => s.popOp k (· || ·))) = _
  rw [State.instr_of_scanning h, State.popOp_of_empty hk, State.updCore_updCore]
  simp

/-- The core stands at the start of a scan: empty stack, B = 0 and A = 0, both good, first instruction (R218). -/
def CoreSt.AtScanStart (c : CoreSt) : Prop :=
  c.stack = [] ∧ c.b = false ∧ c.bq = Quality.ok ∧ c.a = 0 ∧ c.aq = Quality.ok ∧ c.pc = 0

theorem CoreSt.newScan_atScanStart (c : CoreSt) (now : Nat) : (c.newScan now).AtScanStart := ⟨rfl, rfl, rfl, rfl, rfl, rfl⟩

/-- A restarted core stands at the start of a scan (R223). -/
theorem State.restartCore_atScanStart (s : State) (k : Nat) (warm : Bool) : ((s.restartCore k warm).core k).AtScanStart := by
  simp only [State.restartCore, State.setF_core, State.core_updCore]
  exact ⟨rfl, rfl, rfl, rfl, rfl, rfl⟩

/-- What follows a publication leaves a core at the start of a scan, whatever its state STARTING, ON or STOPPING. -/
theorem State.afterScan_atScanStart {s : State} {k : Nat} (h0 : s.getF F.LC_STAT_STATE k ≠ 0)
    (h4 : s.getF F.LC_STAT_STATE k < 4) : ((s.afterScan k).core k).AtScanStart := by
  obtain h | h | h : s.getF F.LC_STAT_STATE k = 1 ∨ s.getF F.LC_STAT_STATE k = 2 ∨ s.getF F.LC_STAT_STATE k = 3 := by omega
  · simp only [State.afterScan, h, State.setF_core, State.core_updCore]
    exact ⟨rfl, rfl, rfl, rfl, rfl, rfl⟩
  · simp only [State.afterScan, h]
    split
    · exact State.restartCore_atScanStart _ _ _
    split
    · exact State.restartCore_atScanStart _ _ _
    · rw [State.core_updCore]
      exact CoreSt.newScan_atScanStart _ _
  · simp only [State.afterScan, h]
    split
    · exact State.restartCore_atScanStart _ _ _
    · rw [State.setF_core, State.core_updCore]
      exact ⟨rfl, rfl, rfl, rfl, rfl, rfl⟩

/-! ### The publication leaves the cores and LC_STAT.STATE -/

theorem State.foldl_keeps {α β : Type} (p : State → β) (f : State → α → State) (h : ∀ s x, p (f s x) = p s) (l : List α)
    (s : State) : p (l.foldl f s) = p s :=
  List.foldlRecOn (motive := fun t => p t = p s) l f rfl (fun t ht x _ => (h t x).trans ht)

theorem State.noteRises_cores (s : State) : s.noteRises.cores = s.cores := by
  refine State.foldl_keeps State.cores _ (fun s c => ?_) _ s
  refine State.foldl_keeps State.cores _ (fun s a => ?_) _ s
  dsimp only
  split <;> rfl

theorem State.syncGates_cores (s : State) (k : Nat) : (s.syncGates k).cores = s.cores := by
  unfold State.syncGates
  split <;> rfl

theorem State.dropPly_cores (s : State) (id : Nat) : (s.dropPly id).cores = s.cores := by
  unfold State.dropPly
  split
  · rfl
  · exact State.syncGates_cores _ _

theorem State.squash_cores (s : State) (id : Nat) (c : SqCause) : (s.squash id c).cores = s.cores := by
  unfold State.squash
  split
  · rfl
  · rw [State.dropPly_cores]
    cases c <;> rfl

theorem State.squashWatch_cores (s : State) : s.squashWatch.cores = s.cores :=
  State.foldl_keeps State.cores _ (fun s id => s.squash_cores id .other) _ s

theorem State.queueEth_cores (s : State) (lane : Nat) (f : EthFrame) : (s.queueEth lane f).cores = s.cores := by
  unfold State.queueEth
  split
  · rfl
  split
  · split <;> rfl
  · split <;> rfl
  · rfl

theorem State.formOne_cores (s : State) (i : Nat) (p : GoPub) : (s.formOne i p).cores = s.cores := by
  unfold State.formOne
  dsimp only
  split
  · rfl
  · exact State.foldl_keeps State.cores _ (fun s n => s.queueEth_cores n _) _ _

theorem State.published_cores (s : State) : s.published.cores = s.cores :=
  calc s.published.cores = s.noteRises.squashWatch.cores :=
        State.foldl_keeps State.cores _ (fun (s : State) (p : Nat × GoPub) => s.formOne_cores p.1 p.2) _ _
    _ = s.noteRises.cores := State.squashWatch_cores _
    _ = s.cores := State.noteRises_cores s

/-- A scan's counters, flags and record are written beside LC_STAT.STATE. -/
theorem State.setF_coreState (s : State) (f : Fld) (i v k : Nat) (h : F.LC_STAT_STATE.key k 0 ≠ f.key i 0) :
    (s.setF f i v).getF F.LC_STAT_STATE k = s.getF F.LC_STAT_STATE k := State.getF_setF_other _ _ _ _ _ _ _ _ h

theorem coreState_key_ne_logFields {k : Nat} (hk : k < 4) (f : Fld) (hf : f ∈ logFields) :
    F.LC_STAT_STATE.key k 0 ≠ f.key 0 0 := by
  revert f
  interval_cases k <;> decide

theorem State.overrunCore_coreState (s : State) (k : Nat) :
    (s.overrunCore k).getF F.LC_STAT_STATE k = s.getF F.LC_STAT_STATE k := by
  unfold State.overrunCore
  split
  · rfl
  · rw [State.updCore_getF, State.getF_incF_other _ _ _ _ _ _ _ _ (by simp [Fld.key, Fld.addr, F.LC_STAT_STATE, F.LC_OVRCNT_OVR]),
      State.setF_coreState _ _ _ _ _ (Fld.key_ne_of_lo _ _ _ _ _ _ (by decide) (by decide) (by decide))]

theorem State.publishScan_coreState (s : State) (k : Nat) :
    (s.publishScan k).getF F.LC_STAT_STATE k = s.getF F.LC_STAT_STATE k :=
  State.foldl_keeps (fun s => s.getF F.LC_STAT_STATE k) _ (fun _ _ => State.putSig_getF _ _ _ _ _ _) _ s

theorem State.firstScanDone_coreState (s : State) (k : Nat) :
    (s.firstScanDone k).getF F.LC_STAT_STATE k = s.getF F.LC_STAT_STATE k := by
  rw [State.firstScanDone, State.updCore_getF]
  refine State.foldl_keeps (fun s => s.getF F.LC_STAT_STATE k) _ (fun u p => ?_) _ s
  split
  · rfl
  · exact State.putSig_getF _ _ _ _ _ _

theorem State.scanCounters_coreState (s : State) {k : Nat} (hk : k < 4) :
    (s.scanCounters k).getF F.LC_STAT_STATE k = s.getF F.LC_STAT_STATE k := by
  have hlast : F.LC_STAT_STATE.key k 0 ≠ F.LC_SCAN_LAST.key k 0 := by simp [Fld.key, Fld.addr, F.LC_STAT_STATE, F.LC_SCAN_LAST]
  have hmax : F.LC_STAT_STATE.key k 0 ≠ F.LC_SCAN_MAX.key k 0 := Fld.key_ne_of_lo _ _ _ _ _ _ (by decide) (by decide) (by decide)
  have hcount : F.LC_STAT_STATE.key k 0 ≠ F.LC_SCANCNT_SCANS.key k 0 := by simp [Fld.key, Fld.addr, F.LC_STAT_STATE, F.LC_SCANCNT_SCANS]
  have hconsec : F.LC_STAT_STATE.key k 0 ≠ F.LC_STAT_CONSEC.key k 0 := Fld.key_ne_of_lo _ _ _ _ _ _ (by decide) (by decide) (by decide)
  simp only [State.scanCounters, State.updCore_getF, apply_ite (fun u : State => u.getF F.LC_STAT_STATE k),
    State.event_getF _ _ _ _ _ _ _ _ _ (coreState_key_ne_logFields hk), State.getF_incF_other _ _ _ _ _ _ _ _ hconsec,
    State.setF_coreState _ _ _ _ _ hconsec, State.getF_bumpF_other _ _ _ _ _ _ _ _ hcount, State.setF_coreState _ _ _ _ _ hmax,
    State.setF_coreState _ _ _ _ _ hlast, ite_self]

/-- END of a scan: a state with the same LC_STAT.STATE goes on as after a scan, and is published. -/
theorem State.endScan_eq (s : State) {k : Nat} (hk : k < 4) : ∃ u : State,
    u.getF F.LC_STAT_STATE k = s.getF F.LC_STAT_STATE k ∧ s.endScan k = (u.afterScan k).published := by
  refine ⟨_, ?_, rfl⟩
  rw [State.scanCounters_coreState _ hk, State.updCore_getF, apply_ite (fun u : State => u.getF F.LC_STAT_STATE k),
    State.firstScanDone_coreState, ite_self, State.publishScan_coreState,
    apply_ite (fun u : State => u.getF F.LC_STAT_STATE k), State.overrunCore_coreState, ite_self]

/-- END of a scan leaves the core at the start of the next (R218), where LC_STAT.STATE holds a value of its two bits. -/
theorem State.endScan_atScanStart {s : State} {k : Nat} (h : s.scanning k = true) (h4 : s.getF F.LC_STAT_STATE k < 4) :
    ((s.endScan k).core k).AtScanStart := by
  obtain ⟨hk, h0⟩ : k < 4 ∧ s.getF F.LC_STAT_STATE k ≠ 0 := by simpa [State.scanning] using h
  obtain ⟨u, hu, he⟩ := s.endScan_eq hk
  rw [he, State.core, State.published_cores]
  exact State.afterScan_atScanStart (hu ▸ h0) (hu ▸ h4)

theorem exec_end_of_scanning {s : State} {k : Nat} (h : s.scanning k = true) : exec (.end_ k) s = .next (s.endScan k) := by
  change Host.Outcome.next (if s.scanning k then s.endScan k else s) = _
  rw [if_pos h]

/-- What R218 says, for every state in which LC_STAT.STATE holds a value of its two bits. -/
theorem stackEndsSetStk_of_coreState_lt :
    (∀ (s : State) (k : Nat), s.scanning k = true → s.getF F.LC_STAT_STATE k < 4 →
      ∃ t, exec (.end_ k) s = .next t ∧ (t.core k).AtScanStart) ∧
    (∀ (s : State) (k : Nat) (warm : Bool), ((s.restartCore k warm).core k).AtScanStart) ∧
    (∀ (s : State) (k : Nat), s.scanning k = true →
      (8 ≤ (s.core k).stack.length → exec (.push k) s =
        .next ((s.setF F.LC_STAT_STK k 1).updCore k (fun c => { c with pc := c.pc + 1 }))) ∧
      ((s.core k).stack = [] →
        exec (.andp k) s = .next ((s.setF F.LC_STAT_STK k 1).updCore k (fun c =>
          { c with b := false, bq := Quality.bad.join c.bq, pc := c.pc + 1 })) ∧
        exec (.orp k) s = .next ((s.setF F.LC_STAT_STK k 1).updCore k (fun c =>
          { c with bq := Quality.bad.join c.bq, pc := c.pc + 1 })))) :=
  ⟨fun s k h h4 => ⟨s.endScan k, exec_end_of_scanning h, State.endScan_atScanStart h h4⟩,
   State.restartCore_atScanStart,
   fun _ _ h => ⟨exec_push_of_full h, fun hk => ⟨exec_andp_of_empty h hk, exec_orp_of_empty h hk⟩⟩⟩

/-- Core 0 ON, with B = 1 and one bit on its stack, ends its scan. -/
theorem witness_stackEndsSetStk_of_coreState_lt : ∃ t,
    exec (.end_ 0) ((State.reset.setF F.LC_STAT_STATE 0 2).updCore 0 (fun c =>
      { c with b := true, stack := [(true, Quality.ok)] })) = .next t ∧ (t.core 0).AtScanStart :=
  stackEndsSetStk_of_coreState_lt.1 _ 0 (by decide +kernel) (by decide +kernel)

/-- A state that no run reaches: LC_STAT.STATE of core 0 holds 4, which its two bits cannot, in the middle of a scan with B = 1. -/
def stateBeyondItsWidth : State :=
  { State.reset with regs := [(F.LC_STAT_STATE.key 0 0, 4)], cores := [(0, { b := true })] }

theorem stateBeyondItsWidth_scanning : stateBeyondItsWidth.scanning 0 = true := by decide +kernel

/-- END finds no core state to go on from, so the core keeps its B. -/
theorem stateBeyondItsWidth_endScan_b : ((stateBeyondItsWidth.endScan 0).core 0).b = true := by decide +kernel

/-- Refutes O24: the statement does not bound LC_STAT.STATE, and in a state where the field holds 4 END neither starts a scan nor
restarts or stops the core, so B stays 1. For the values of the field's two bits, R218 holds: stackEndsSetStk_of_coreState_lt. -/
theorem not_stackEndsSetStk : ¬ Obligations.StackEndsSetStk := by
  rintro ⟨hend, -, -⟩
  obtain ⟨t, ht, -, hb, -⟩ := hend stateBeyondItsWidth 0 stateBeyondItsWidth_scanning
  cases (exec_end_of_scanning stateBeyondItsWidth_scanning).symm.trans ht
  exact absurd hb (by simp [stateBeyondItsWidth_endScan_b])

end Sys2Proof.Machine
end

section
/-! Scheme logic: the words of the instructions (R213, R214, R219). -/

namespace Sys2Proof

open Sys2Proof.Machine

/-! ## Fields of a word -/

theorem bitOf_eq_one {x b : Nat} : bitOf x b = true ↔ x / 2 ^ b % 2 = 1 := by simp [bitOf]

theorem b2n_bitOf (x b : Nat) : b2n (bitOf x b) = x / 2 ^ b % 2 := by
  rcases Nat.mod_two_eq_zero_or_one (x / 2 ^ b) with h | h <;> simp [bitOf, b2n, h]

theorem bitOf_of_b2n {x b : Nat} {v : Bool} (h : x / 2 ^ b % 2 = b2n v) : bitOf x b = v := by
  cases v <;> simp_all [bitOf, b2n]

theorem b2n_lt_two (v : Bool) : b2n v < 2 := by cases v <;> decide

/-- The 26-bit code of an integer within its range reads as that integer. -/
theorem sext_unsext_26 {i : Int} (h1 : -33554432 ≤ i) (h2 : i < 33554432) : sext 26 (unsext 26 i) = i := by
  unfold sext unsext
  split <;> omega

theorem unsext_sext_26 {x : Nat} (h : x < 2 ^ 26) : unsext 26 (sext 26 x) = x := by
  simp only [sext, unsext]
  split <;> omega

theorem sext_26_range (x : Nat) : -33554432 ≤ sext 26 x ∧ sext 26 x < 33554432 := by
  simp only [sext]
  split <;> omega

theorem unsext_26_lt (i : Int) : unsext 26 i < 2 ^ 26 := by
  simp only [unsext]
  omega

/-! ## The forms -/

/-- A word is the S form word of its opcode and its operand. -/
theorem sWord_sOf {w : Nat} (hw : w < 2 ^ 32) : sWord (fieldOf w 27 5) (sOf w) = w := by
  simp only [sWord, sOf, b2n_bitOf, fieldOf]
  omega

/-- The ranges of an operand that keeps the rules of its form. -/
theorem SOp.ok_ranges {x : SOp} {f : SForm} (h : x.ok f = true) : x.cc < 8 ∧ x.addr < 131072 ∧ x.bit < 32 := by
  simp only [SOp.ok, Bool.and_eq_true, decide_eq_true_eq] at h
  obtain ⟨⟨⟨⟨⟨-, hcc⟩, -⟩, haddr⟩, hbit⟩, -⟩ := h
  refine ⟨?_, ?_, ?_⟩
  · split at hcc
    · have := of_decide_eq_true hcc; omega
    · have := beq_iff_eq.1 hcc; omega
  · split at haddr <;> omega
  · split at hbit <;> omega

theorem sOf_sWord {x : SOp} {f : SForm} (h : x.ok f = true) {op : Nat} (hop : op < 32) :
    sWord op x < 2 ^ 32 ∧ fieldOf (sWord op x) 27 5 = op ∧ sOf (sWord op x) = x := by
  obtain ⟨hcc, haddr, hbit⟩ := SOp.ok_ranges h
  have hn := b2n_lt_two x.n
  have hs := b2n_lt_two x.sp
  have e : sWord op x = 2 ^ 27 * op + 2 ^ 26 * b2n x.n + 2 ^ 23 * x.cc + 2 ^ 22 * b2n x.sp + 32 * x.addr + x.bit := rfl
  generalize sWord op x = w at e ⊢
  refine ⟨by omega, by simp only [fieldOf]; omega, ?_⟩
  have h26 : bitOf w 26 = x.n := bitOf_of_b2n (by omega)
  have h22 : bitOf w 22 = x.sp := bitOf_of_b2n (by omega)
  have h23 : fieldOf w 23 3 = x.cc := by simp only [fieldOf]; omega
  have h5 : fieldOf w 5 17 = x.addr := by simp only [fieldOf]; omega
  have h0 : fieldOf w 0 5 = x.bit := by simp only [fieldOf]; omega
  simp only [sOf, h26, h22, h23, h5, h0]

/-! ## From the word to the instruction -/

section
variable {w op : Nat} {i : Instr} (hw : w < 2 ^ 32) (hop : fieldOf w 27 5 = op)
include hw hop

theorem bareInstr_word {j : Instr} (h : bareInstr j w = some i) (hwf : j.wf = true)
    (hj : logicWord j = some (2 ^ 27 * op)) : i.wf = true ∧ logicWord i = some w := by
  unfold bareInstr at h
  split at h
  · rename_i h0
    cases h
    refine ⟨hwf, hj.trans ?_⟩
    simp only [fieldOf] at hop h0
    simp only [Option.some.injEq]
    omega
  · cases h

theorem sInstr_word {mk : SOp → Instr} {f : SForm} (h : sInstr mk f w = some i) (hwf : ∀ x, x.ok f = true → (mk x).wf = true)
    (hmk : ∀ x, logicWord (mk x) = some (sWord op x)) : i.wf = true ∧ logicWord i = some w := by
  unfold sInstr at h
  split at h
  · rename_i hok
    cases h
    exact ⟨hwf _ hok, by rw [hmk, ← hop, sWord_sOf hw]⟩
  · cases h

theorem tInstr_word {mk : Nat → Instr} (h : tInstr mk w = some i) (hwf : ∀ t, t < 1024 → (mk t).wf = true)
    (hmk : ∀ t, logicWord (mk t) = some (2 ^ 27 * op + t)) : i.wf = true ∧ logicWord i = some w := by
  unfold tInstr at h
  split at h
  · rename_i h0
    cases h
    simp only [fieldOf] at *
    refine ⟨hwf _ (by omega), (hmk _).trans ?_⟩
    simp only [Option.some.injEq]
    omega
  · cases h

end

/-- What a word reads as is well-formed and has that word. -/
theorem logicWord_of_logicInstr {k w : Nat} {i : Instr} (hk : k < 4) (hw : w < 2 ^ 32) (h : logicInstr k w = some i) :
    i.wf = true ∧ logicWord i = some w := by
  have h4 : four k = true := decide_eq_true hk
  have hs : ∀ {x : SOp} {f : SForm}, x.ok f = true → (four k && x.ok f) = true := fun hx => by rw [h4, hx]; rfl
  have ht : ∀ t, t < 1024 → (four k && instance10 t) = true := fun t ht => by simp [h4, instance10, ht]
  unfold logicInstr at h
  split at h
  case h_23 hop =>
    split at h
    · rename_i h0
      cases h
      have h10 : fieldOf w 0 10 < 1024 := Nat.mod_lt _ (by decide)
      refine ⟨ht _ h10, congrArg some ?_⟩
      simp only [b2n_bitOf, fieldOf] at *
      omega
    · cases h
  case h_25 hop =>
    cases h
    have hr := sext_26_range (fieldOf w 0 26)
    refine ⟨by simp [Instr.wf, h4, hr], congrArg some ?_⟩
    have h26 : fieldOf w 0 26 < 2 ^ 26 := Nat.mod_lt _ (by decide)
    rw [unsext_sext_26 h26, b2n_bitOf]
    simp only [fieldOf] at *
    omega
  case h_30 hop =>
    split at h
    · rename_i h0
      obtain ⟨h0, h1⟩ := h0
      cases h
      have h16 : fieldOf w 0 16 < 65536 := Nat.mod_lt _ (by decide)
      refine ⟨by simp [Instr.wf, h4, jumpOk, h1, h16], congrArg some ?_⟩
      simp only [fieldOf] at *
      omega
    · cases h
  case h_31 hop =>
    split at h
    · rename_i h0
      obtain ⟨h0, h1⟩ := h0
      cases h
      have h16 : fieldOf w 0 16 < 65536 := Nat.mod_lt _ (by decide)
      refine ⟨by simp [Instr.wf, h4, jumpOk, h1, h16], congrArg some ?_⟩
      simp only [b2n_bitOf, fieldOf] at *
      omega
    · cases h
  case h_32 =>
    have hlt : fieldOf w 27 5 < 32 := Nat.mod_lt _ (by decide)
    simp only [imp_false] at *
    have hop : fieldOf w 27 5 = 0x1F := by omega
    exact bareInstr_word hw hop h h4 rfl
  case h_1 hop | h_6 hop | h_7 hop | h_8 hop | h_9 hop => exact bareInstr_word hw hop h h4 rfl
  case h_15 hop | h_16 hop | h_17 hop | h_18 hop | h_19 hop | h_20 hop | h_21 hop | h_22 hop =>
    exact tInstr_word hw hop h ht (fun _ => rfl)
  all_goals
    rename_i hop
    exact sInstr_word hw hop h (fun _ hx => hs hx) (fun _ => rfl)

/-! ## From the instruction to the word -/

theorem fieldOf_op {op t : Nat} (hop : op < 32) (h : t < 2 ^ 27) : fieldOf (2 ^ 27 * op + t) 27 5 = op := by
  simp only [fieldOf]
  omega

theorem bareInstr_of_op (j : Instr) (op : Nat) : bareInstr j (2 ^ 27 * op) = some j := by
  have h0 : fieldOf (2 ^ 27 * op) 0 27 = 0 := by simp only [fieldOf]; omega
  rw [bareInstr, if_pos h0]

theorem sInstr_sWord {x : SOp} {f : SForm} (h : x.ok f = true) {op : Nat} (hop : op < 32) (mk : SOp → Instr) :
    sInstr mk f (sWord op x) = some (mk x) := by
  obtain ⟨-, -, e⟩ := sOf_sWord h hop
  simp [sInstr, e, h]

theorem tInstr_of_op {t : Nat} (h : t < 1024) (mk : Nat → Instr) (op : Nat) : tInstr mk (2 ^ 27 * op + t) = some (mk t) := by
  have e : fieldOf (2 ^ 27 * op + t) 0 10 = t := by simp only [fieldOf]; omega
  have e0 : fieldOf (2 ^ 27 * op + t) 10 17 = 0 := by simp only [fieldOf]; omega
  rw [tInstr, e, if_pos e0]

section
variable {k op : Nat} (hop : op < 32)
include hop

theorem bareInstr_reads {j : Instr} (hk : four k = true) (hr : ∀ w, fieldOf w 27 5 = op → logicInstr k w = bareInstr j w) :
    2 ^ 27 * op < 2 ^ 32 ∧ ∃ k, k < 4 ∧ logicInstr k (2 ^ 27 * op) = some j :=
  ⟨by omega, k, of_decide_eq_true hk, (hr _ (fieldOf_op (t := 0) hop (by decide))).trans (bareInstr_of_op j op)⟩

theorem sInstr_reads {mk : SOp → Instr} {f : SForm} {x : SOp} (hx : (four k && x.ok f) = true)
    (hr : ∀ w, fieldOf w 27 5 = op → logicInstr k w = sInstr mk f w) :
    sWord op x < 2 ^ 32 ∧ ∃ k, k < 4 ∧ logicInstr k (sWord op x) = some (mk x) := by
  obtain ⟨hk, hx⟩ := Bool.and_eq_true_iff.1 hx
  obtain ⟨hlt, hf, -⟩ := sOf_sWord hx hop
  exact ⟨hlt, k, of_decide_eq_true hk, (hr _ hf).trans (sInstr_sWord hx hop mk)⟩

theorem tInstr_reads {mk : Nat → Instr} {t : Nat} (ht : (four k && instance10 t) = true)
    (hr : ∀ w, fieldOf w 27 5 = op → logicInstr k w = tInstr mk w) :
    2 ^ 27 * op + t < 2 ^ 32 ∧ ∃ k, k < 4 ∧ logicInstr k (2 ^ 27 * op + t) = some (mk t) := by
  obtain ⟨hk, ht⟩ := Bool.and_eq_true_iff.1 ht
  have ht : t < 1024 := of_decide_eq_true ht
  exact ⟨by omega, k, of_decide_eq_true hk, (hr _ (fieldOf_op hop (by omega))).trans (tInstr_of_op ht mk op)⟩

end

/-- The word of a well-formed instruction reads as that instruction. -/
theorem logicInstr_of_logicWord {w : Nat} {i : Instr} (hi : i.wf = true) (h : logicWord i = some w) :
    w < 2 ^ 32 ∧ ∃ k, k < 4 ∧ logicInstr k w = some i := by
  unfold logicWord at h
  split at h
  case h_33 => cases h
  all_goals cases h
  case h_23 core n t =>
    simp only [Instr.wf, four, instance10, Bool.and_eq_true, decide_eq_true_eq] at hi
    obtain ⟨hk, ht⟩ := hi
    have hn := b2n_lt_two n
    generalize hw : 2 ^ 27 * 0x16 + 2 ^ 26 * b2n n + t = w
    refine ⟨by omega, core, hk, ?_⟩
    have hop : fieldOf w 27 5 = 0x16 := by simp only [fieldOf]; omega
    have h26 : bitOf w 26 = n := bitOf_of_b2n (by omega)
    have h10 : fieldOf w 10 16 = 0 := by simp only [fieldOf]; omega
    have h0 : fieldOf w 0 10 = t := by simp only [fieldOf]; omega
    simp only [logicInstr, hop, h26, h10, h0, if_true]
  case h_25 core n imm =>
    simp only [Instr.wf, four, Bool.and_eq_true, decide_eq_true_eq] at hi
    obtain ⟨⟨hk, hlo⟩, hhi⟩ := hi
    have hn := b2n_lt_two n
    have hu := unsext_26_lt imm
    generalize hw : 2 ^ 27 * 0x18 + 2 ^ 26 * b2n n + unsext 26 imm = w
    refine ⟨by omega, core, hk, ?_⟩
    have hop : fieldOf w 27 5 = 0x18 := by simp only [fieldOf]; omega
    have h26 : bitOf w 26 = n := bitOf_of_b2n (by omega)
    have h0 : fieldOf w 0 26 = unsext 26 imm := by simp only [fieldOf]; omega
    simp only [logicInstr, hop, h26, h0, sext_unsext_26 hlo hhi]
  case h_30 core off =>
    simp only [Instr.wf, four, jumpOk, Bool.and_eq_true, decide_eq_true_eq] at hi
    obtain ⟨hk, h1, hoff⟩ := hi
    generalize hw : 2 ^ 27 * 0x1D + off = w
    refine ⟨by omega, core, hk, ?_⟩
    have hop : fieldOf w 27 5 = 0x1D := by simp only [fieldOf]; omega
    have h16 : fieldOf w 16 11 = 0 := by simp only [fieldOf]; omega
    have h0 : fieldOf w 0 16 = off := by simp only [fieldOf]; omega
    simp only [logicInstr, hop, h16, h0, h1, and_self, if_true]
  case h_31 core n off =>
    simp only [Instr.wf, four, jumpOk, Bool.and_eq_true, decide_eq_true_eq] at hi
    obtain ⟨hk, h1, hoff⟩ := hi
    have hn := b2n_lt_two n
    generalize hw : 2 ^ 27 * 0x1E + 2 ^ 26 * b2n n + off = w
    refine ⟨by omega, core, hk, ?_⟩
    have hop : fieldOf w 27 5 = 0x1E := by simp only [fieldOf]; omega
    have h26 : bitOf w 26 = n := bitOf_of_b2n (by omega)
    have h16 : fieldOf w 16 10 = 0 := by simp only [fieldOf]; omega
    have h0 : fieldOf w 0 16 = off := by simp only [fieldOf]; omega
    simp only [logicInstr, hop, h26, h16, h0, h1, and_self, if_true]
  case h_1 => exact bareInstr_reads (op := 0) (by decide) hi (fun w e => by simp only [logicInstr, e])
  case h_6 | h_7 | h_8 | h_9 | h_32 => exact bareInstr_reads (by decide) hi (fun w e => by simp only [logicInstr, e])
  case h_15 | h_16 | h_17 | h_18 | h_19 | h_20 | h_21 | h_22 =>
    exact tInstr_reads (by decide) hi (fun w e => by simp only [logicInstr, e])
  all_goals exact sInstr_reads (by decide) hi (fun w e => by simp only [logicInstr, e])

/-- Settles O57: both directions go by the form that the opcode fixes. -/
theorem logicWordsRoundTrip : Obligations.LogicWordsRoundTrip :=
  ⟨fun _ _ _ hk hw h => logicWord_of_logicInstr hk hw h, fun _ _ hi h => logicInstr_of_logicWord hi h⟩

end Sys2Proof
end

section
/-! The frames of the tile link read back as the frames they carry (R234 to R236), and the source words (R435). -/

namespace Sys2Proof.Machine

/-! ## The CRC-16 has 16 bits (R354) -/

theorem crcShifts_lt (p : CrcParam) (n : Nat) : ∀ r, r < 2 ^ p.w → crcShifts p n r < 2 ^ p.w := by
  induction n with
  | zero => intro r h; exact h
  | succ n ih =>
    intro r _
    rw [crcShifts]
    split <;> exact ih _ (Nat.mod_lt _ (Nat.two_pow_pos _))

theorem crcByte_lt (p : CrcParam) (r b : Nat) : crcByte p r b < 2 ^ p.w := by
  rw [crcByte]
  generalize (r ^^^ _ : Nat) = x
  rw [crcShifts]
  split <;> exact crcShifts_lt p 7 _ (Nat.mod_lt _ (Nat.two_pow_pos _))

theorem crcRun_lt (p : CrcParam) (l : List Nat) : ∀ r, r < 2 ^ p.w → crcRun p r l < 2 ^ p.w := by
  induction l with
  | nil => intro r h; exact h
  | cons b l ih => intro r _; exact ih _ (crcByte_lt p r b)

theorem crc16_lt (l : List Nat) : crcOf crc16 l < 65536 :=
  Nat.xor_lt_two_pow (n := 16) (crcRun_lt crc16 l _ (by decide)) (by decide)

/-! ## Frames (R234) -/

theorem le2_eq (x : Nat) : le2 x = [x % 256, x / 256 % 256] := rfl

theorem leNat_two (a b : Nat) : leNat [a, b] = a + 256 * b := by simp [leNat]

theorem leNat_le2 {x : Nat} (h : x < 65536) : leNat [x % 256, x / 256 % 256] = x := leNat_leBytes 2 x h

theorem length_framed (body : List Nat) : (framed body).length = body.length + 4 := by simp [framed, le2_eq]

theorem bodyOf_framed {n : Nat} {body : List Nat} (h : body.length + 4 = n) : bodyOf n (framed body) = body := by
  subst h
  simp [bodyOf, framed]

/-- The frame of a body of bytes is a correct frame of its length. -/
theorem frameOk_framed {n : Nat} {body : List Nat} (h : body.length + 4 = n) (hb : ∀ b, b ∈ body → b < 256) :
    frameOk n (framed body) = true := by
  have hbody := bodyOf_framed h
  subst h
  have hcrc := leNat_le2 (crc16_lt body)
  simp only [frameOk, hbody, length_framed, Bool.and_eq_true, beq_iff_eq, List.all_eq_true, decide_eq_true_eq]
  refine ⟨⟨⟨⟨trivial, rfl⟩, ?_⟩, ?_⟩, ?_⟩
  · simp [framed, le2_eq]
  · intro c hc
    have e : ((framed body).drop 1).take (body.length + 4 - 2) = body ++ le2 (crcOf crc16 body) := by
      simp [framed, le2_eq, List.take_append]
    rw [e] at hc
    rcases List.mem_append.1 hc with hc | hc
    · exact hb c hc
    · exact leBytes_lt 2 _ c hc
  · have e3 : (framed body).getD (body.length + 4 - 3) 0 = crcOf crc16 body % 256 := by
      simp [framed, le2_eq, show body.length + 4 - 3 = body.length + 1 by omega]
    have e2 : (framed body).getD (body.length + 4 - 2) 0 = crcOf crc16 body / 256 % 256 := by
      simp [framed, le2_eq, show body.length + 4 - 2 = body.length + 1 + 1 by omega]
    rw [e3, e2, hcrc]

theorem padTo_self {n : Nat} {l : List Nat} (h : l.length = n) : padTo n l = l := by
  rw [padTo, List.take_append_of_le_length (by omega), List.take_of_length_le (by omega)]

/-- A list of twelve elements, named one by one. -/
theorem list_of_length_twelve {l : List Nat} (h : l.length = 12) :
    ∃ a b c d e f g i j k m n, l = [a, b, c, d, e, f, g, i, j, k, m, n] := by
  match l, h with
  | [a, b, c, d, e, f, g, i, j, k, m, n], _ => exact ⟨a, b, c, d, e, f, g, i, j, k, m, n, rfl⟩

theorem length_downBody (f : DownFrame) : (downBody f).length = 28 := by simp [downBody, le2_eq, padTo]

theorem padTo_bytes {n : Nat} {l : List Nat} (h : ∀ b, b ∈ l → b < 256) : ∀ b, b ∈ padTo n l → b < 256 := by
  intro b hb
  rcases List.mem_append.1 (List.mem_of_mem_take hb) with hb | hb
  · exact h b hb
  · rw [List.eq_of_mem_replicate hb]; decide

theorem mod_byte_lt (x : Nat) : x % 256 < 256 := Nat.mod_lt _ (by decide)

/-! ## Down-frames (R235) -/

theorem downBody_bytes {f : DownFrame} (h : ∀ b, b ∈ f.data → b < 256) : ∀ b, b ∈ downBody f → b < 256 := by
  have hp := padTo_bytes (n := 12) h
  intro b hb
  simp only [downBody, le2_eq, List.cons_append, List.nil_append, List.mem_cons] at hb
  rcases hb with rfl | rfl | rfl | rfl | rfl | rfl | rfl | rfl | rfl | rfl | rfl | rfl | rfl | rfl | rfl | rfl | hb
  case inr.inr.inr.inr.inr.inr.inr.inr.inr.inr.inr.inr.inr.inr.inr.inr => exact hp b hb
  all_goals exact mod_byte_lt _

theorem downRead_downChars {f : DownFrame} (htype : f.type < 256) (haddr : f.addr < 256) (hhop : f.hop < 256) (hclaim : f.claim < 65536)
    (hseq : f.seq < 65536) (hcmd : f.cmd < 256) (hncmd : f.ncmd < 256) (hctag : f.ctag < 65536) (hflags : f.flags < 256)
    (hfeeder : f.feeder < 2048) (hitem : f.item < 256) (hlen : f.len < 256) (hdata : f.data.length = 12) :
    downRead (downChars f) = f := by
  have hpad := padTo_self hdata
  obtain ⟨type, addr, hop, claim, seq, cmd, ncmd, ctag, flags, feeder, item, len, data⟩ := f
  obtain ⟨a, b, c, d, e, f, g, i, j, k, m, n, rfl⟩ := list_of_length_twelve hdata
  simp only at *
  have hf : leNat [feeder % 256, feeder / 256 % 256] % 2048 = feeder := by
    rw [leNat_le2 (by omega), Nat.mod_eq_of_lt hfeeder]
  simp only [downChars, framed, downBody, hpad, le2_eq, downRead, List.cons_append, List.nil_append, List.getD_cons_succ,
    List.getD_cons_zero, List.drop_succ_cons, List.drop_zero, List.take_succ_cons, List.take_zero, leNat_le2 hclaim, leNat_le2 hseq,
    leNat_le2 hctag, hf, Nat.mod_eq_of_lt htype, Nat.mod_eq_of_lt haddr, Nat.mod_eq_of_lt hhop, Nat.mod_eq_of_lt hcmd,
    Nat.mod_eq_of_lt hncmd, Nat.mod_eq_of_lt hflags, Nat.mod_eq_of_lt hitem, Nat.mod_eq_of_lt hlen]

/-! ## Up-frames (R236) -/

theorem length_upBody (u : UpFrame) : (upBody u).length = if u.type = 0x82 then 28 else 12 := by
  unfold upBody
  split <;> simp [le2_eq, padTo]

theorem upBody_bytes {u : UpFrame} (h : ∀ b, b ∈ u.data → b < 256) : ∀ b, b ∈ upBody u → b < 256 := by
  have hp := padTo_bytes (n := 16) h
  intro b hb
  simp only [upBody, le2_eq, List.cons_append, List.nil_append, List.mem_cons] at hb
  rcases hb with rfl | rfl | rfl | rfl | rfl | rfl | rfl | rfl | rfl | rfl | rfl | rfl | hb
  case inr.inr.inr.inr.inr.inr.inr.inr.inr.inr.inr.inr =>
    split at hb
    · exact hp b hb
    · cases hb
  all_goals exact mod_byte_lt _

theorem upOk_upChars {u : UpFrame} (htype : u.type = 0x81 ∨ u.type = 0x82) (h : ∀ b, b ∈ u.data → b < 256) :
    upOk (upChars u) = true := by
  have hlen := length_upBody u
  have h1 : (upChars u).getD 1 0 = u.type % 256 := rfl
  rcases htype with ht | ht <;> rw [ht] at h1 hlen <;> rw [upOk, h1]
  · exact frameOk_framed (n := 16) (by rw [hlen]; rfl) (upBody_bytes h)
  · exact frameOk_framed (n := 32) (by rw [hlen]; rfl) (upBody_bytes h)

theorem upRead_upChars {u : UpFrame} (haddr : u.addr < 256) (hstat : u.stat < 256) (haclaim : u.aclaim < 65536) (heseq : u.eseq < 65536)
    (hinp : u.inp < 65536) (hwb : u.wb < 65536) (hrb : u.rb < 256)
    (htype : u.type = 0x81 ∧ u.data = [] ∨ u.type = 0x82 ∧ u.data.length = 16) : upRead (upChars u) = u := by
  have hdata : (if u.type % 256 = 0x82 then (((if u.type = 0x82 then padTo 16 u.data else []) ++
      (le2 (crcOf crc16 (upBody u)) ++ [kEof])).take 16) else []) = u.data := by
    rcases htype with ⟨ht, hd⟩ | ⟨ht, hd⟩
    · simp [ht, hd]
    · rw [ht, if_pos rfl, if_pos rfl, padTo_self hd, List.take_append_of_le_length (by omega), List.take_of_length_le (by omega)]
  have ht : u.type % 256 = u.type := by rcases htype with ⟨ht, -⟩ | ⟨ht, -⟩ <;> rw [ht]
  obtain ⟨type, addr, stat, aclaim, eseq, inp, wb, rb, data⟩ := u
  simp only at *
  simp only [upRead, upChars, framed, List.getD_cons_succ, List.drop_succ_cons]
  generalize crcOf crc16 _ = crc at *
  simp only [upBody, le2_eq, List.cons_append, List.nil_append, List.getD_cons_succ, List.getD_cons_zero,
    List.drop_succ_cons, List.drop_zero, leNat_le2 haclaim, leNat_le2 heseq, leNat_le2 hinp, leNat_le2 hwb,
    Nat.mod_eq_of_lt haddr, Nat.mod_eq_of_lt hstat, Nat.mod_eq_of_lt hrb] at hdata ⊢
  rw [hdata, ht]

/-! ## A forwarded enumerate frame (R235) -/

/-- What a correct frame of 32 characters is. -/
theorem frameOk_32 (l : TileChars) : frameOk 32 l = true ↔ l.length = 32 ∧ l.getD 0 0 = kSof ∧ l.getD 31 0 = kEof ∧
    (∀ c, c ∈ (l.drop 1).take 30 → c < 256) ∧ leNat [l.getD 29 0, l.getD 30 0] = crcOf crc16 (bodyOf 32 l) := by
  simp [frameOk, and_assoc]

/-- The frame with its HOP raised, before its CRC follows. -/
def hopRaised (l : TileChars) : TileChars := l.set 3 ((l.getD 3 0 + 1) % 256)

theorem hopped_eq {l : TileChars} (h : frameOk 32 l = true) : hopped l =
    ((hopRaised l).set 29 (crcOf crc16 (bodyOf 32 (hopRaised l)) % 256)).set 30 (crcOf crc16 (bodyOf 32 (hopRaised l)) / 256 % 256) := by
  obtain ⟨-, -, -, -, hcrc⟩ := (frameOk_32 l).1 h
  simp only [hopped, hopRaised, hcrc, Nat.xor_self, Nat.zero_xor]

/-- A part of a list is fixed by its places. -/
theorem drop_take_congr {l m : List Nat} {a n : Nat} (h : ∀ i, a ≤ i → i < a + n → l[i]? = m[i]?) :
    (l.drop a).take n = (m.drop a).take n := by
  refine List.ext_getElem? (fun i => ?_)
  simp only [List.getElem?_take, List.getElem?_drop]
  split
  · exact h _ (by omega) (by omega)
  · rfl

/-- The places of a forwarded frame beside HOP and CRC are as they came. -/
theorem getD_hopped {l : TileChars} (h : frameOk 32 l = true) {i : Nat} (h3 : i ≠ 3) (h29 : i ≠ 29) (h30 : i ≠ 30) :
    (hopped l).getD i 0 = l.getD i 0 := by
  simp [hopped_eq h, hopRaised, List.getD, Ne.symm h3, Ne.symm h29, Ne.symm h30]

theorem length_hopped {l : TileChars} (h : frameOk 32 l = true) : (hopped l).length = 32 := by
  simp [hopped_eq h, hopRaised, ((frameOk_32 l).1 h).1]

theorem frameOk_hopped {l : TileChars} (h : frameOk 32 l = true) : frameOk 32 (hopped l) = true := by
  obtain ⟨hl, h0, h31, hc, -⟩ := (frameOk_32 l).1 h
  have hb : bodyOf 32 (hopped l) = bodyOf 32 (hopRaised l) := by
    refine drop_take_congr (fun i _ hi => ?_)
    rw [hopped_eq h, List.getElem?_set_ne (by omega), List.getElem?_set_ne (by omega)]
  refine (frameOk_32 _).2 ⟨length_hopped h, ?_, ?_, ?_, ?_⟩
  · rw [getD_hopped h (by decide) (by decide) (by decide), h0]
  · rw [getD_hopped h (by decide) (by decide) (by decide), h31]
  · intro c hm
    simp only [hopped_eq h, hopRaised, List.drop_set, List.take_set, Nat.reduceLT, if_false] at hm
    rcases List.mem_or_eq_of_mem_set hm with hm | rfl
    · rcases List.mem_or_eq_of_mem_set hm with hm | rfl
      · rcases List.mem_or_eq_of_mem_set hm with hm | rfl
        · exact hc c hm
        · exact mod_byte_lt _
      · exact mod_byte_lt _
    · exact mod_byte_lt _
  · rw [hb]
    have h29 : (hopped l).getD 29 0 = crcOf crc16 (bodyOf 32 (hopRaised l)) % 256 := by
      simp [hopped_eq h, hopRaised, List.getD, hl]
    have h30 : (hopped l).getD 30 0 = crcOf crc16 (bodyOf 32 (hopRaised l)) / 256 % 256 := by
      simp [hopped_eq h, hopRaised, List.getD, hl]
    rw [h29, h30, leNat_le2 (crc16_lt _)]

theorem downRead_hopped {l : TileChars} (h : frameOk 32 l = true) :
    downRead (hopped l) = { downRead l with hop := ((downRead l).hop + 1) % 256 } := by
  have h3 : (hopped l).getD 3 0 = (l.getD 3 0 + 1) % 256 := by
    simp [hopped_eq h, hopRaised, List.getD, ((frameOk_32 l).1 h).1]
  have hd : ((hopped l).drop 17).take 12 = (l.drop 17).take 12 := by
    refine drop_take_congr (fun i _ hi => ?_)
    rw [hopped_eq h, hopRaised, List.getElem?_set_ne (by omega), List.getElem?_set_ne (by omega), List.getElem?_set_ne (by omega)]
  have hg := fun i h3 h29 h30 => getD_hopped h (i := i) h3 h29 h30
  simp only [downRead, h3, hd, hg, ne_eq, not_false_eq_true, Nat.reduceEqDiff]

/-! ## Source words (R435) -/

theorem sourceOf_sourceWord {b : SigBit} (hid : b.id < 131072) (hbit : b.bit < 32) : sourceOf (sourceWord (some b)) = some b := by
  have e : sourceWord (some b) = 2 ^ 31 + 2 ^ 17 * (b.bit % 32) + b.id % 2 ^ 17 := rfl
  generalize sourceWord (some b) = w at e ⊢
  have h31 : bitOf w 31 = true := bitOf_eq_one.2 (by omega)
  have h17 : fieldOf w 17 5 = b.bit := by simp only [fieldOf]; omega
  have h0 : w % 2 ^ 17 = b.id := by omega
  rw [sourceOf, if_pos h31, h17, h0]

/-- Settles O28: a frame is a framed body, and HOP and CRC are the only places that forwarding changes. -/
theorem tileFramesReadBack : Obligations.TileFramesReadBack := by
  refine ⟨?_, ?_, fun l h => ⟨frameOk_hopped h, downRead_hopped h⟩, fun b hid hbit => ⟨sourceOf_sourceWord hid hbit, rfl⟩⟩
  · intro f htype haddr hhop hclaim hseq hcmd hncmd hctag hflags hfeeder hitem hlen hdata hb
    exact ⟨frameOk_framed (by rw [length_downBody]) (downBody_bytes hb),
      downRead_downChars htype haddr hhop hclaim hseq hcmd hncmd hctag hflags hfeeder hitem hlen hdata⟩
  · intro u haddr hstat haclaim heseq hinp hwb hrb htype hb
    exact ⟨upOk_upChars (htype.imp And.left And.left) hb, upRead_upChars haddr hstat haclaim heseq hinp hwb hrb htype⟩

end Sys2Proof.Machine
end

section
/-! The peer variant reads back: scrambler, frames, records and feeds (R267, R268, R312, R314). -/

namespace Sys2Proof.Machine

/-! ## Bytes and their number -/

theorem leNat_lt (l : List Nat) (h : ∀ x, x ∈ l → x < 256) : leNat l < 256 ^ l.length := by
  induction l with
  | nil => decide
  | cons b r ih =>
    have hb := h b (by simp)
    have hr := ih (fun x hx => h x (by simp [hx]))
    simp only [leNat, List.length_cons, Nat.pow_succ]
    omega

theorem leBytes_leNat (l : List Nat) (h : ∀ x, x ∈ l → x < 256) : leBytes l.length (leNat l) = l := by
  induction l with
  | nil => rfl
  | cons b r ih =>
    have hb := h b (by simp)
    have hr := ih (fun x hx => h x (by simp [hx]))
    have h1 : (b + 256 * leNat r) % 256 = b := by omega
    have h2 : (b + 256 * leNat r) / 256 = leNat r := by omega
    simp only [leNat, List.length_cons, leBytes, h1, h2, hr]

/-! ## The scrambler (R267) -/

/-- Descrambling from the state that scrambled goes through the same states and gives the bits back. -/
theorem descramble_scramble (n : Nat) : ∀ st w, w < 2 ^ n → descramble n st (scramble n st w).2 = ((scramble n st w).1, w) := by
  induction n with
  | zero => intro st w h; simp only [Nat.pow_zero] at h; simp [scramble, descramble, show w = 0 by omega]
  | succ n ih =>
    intro st w h
    have hw : w / 2 < 2 ^ n := by rw [Nat.pow_succ] at h; omega
    simp only [scramble, descramble]
    generalize ho : (w + tapsOf st) % 2 = o
    generalize hst : (2 * st + o) % 2 ^ 58 = st'
    have hb := ih st' (w / 2) hw
    generalize scramble n st' (w / 2) = p at hb ⊢
    obtain ⟨st2, r⟩ := p
    have hlow : (o + 2 * r) % 2 = o := by omega
    have hhigh : (o + 2 * r) / 2 = r := by omega
    have hback : (o + 2 * r + tapsOf st) % 2 = w % 2 := by omega
    simp only [hlow, hhigh, hst, hb, hback, Prod.mk.injEq, true_and]
    omega

theorem descrambleAll_scrambleAll (l : List PlainBlock) : ∀ st, (∀ b, b ∈ l → b.2.length = 8 ∧ ∀ x, x ∈ b.2 → x < 256) →
    descrambleAll st (scrambleAll st l) = l := by
  induction l with
  | nil => intro st _; rfl
  | cons b r ih =>
    intro st h
    obtain ⟨hlen, hbytes⟩ := h b (by simp)
    have hw : leNat b.2 < 2 ^ 64 := by have := leNat_lt b.2 hbytes; rw [hlen] at this; exact this
    have hb := descramble_scramble 64 st _ hw
    have h8 : leBytes 8 (leNat b.2) = b.2 := by rw [← hlen]; exact leBytes_leNat b.2 hbytes
    have hr := ih (scramble 64 st (leNat b.2)).1 (fun x hx => h x (by simp [hx]))
    simp only [scrambleAll, descrambleAll, hb, h8, hr]

/-! ## A frame through the receiver (R268) -/

theorem PeerGot.run_cons (g : PeerGot) (b : PlainBlock) (l : List PlainBlock) : g.run (b :: l) = (g.step b).run l := rfl

theorem PeerGot.run_append (g : PeerGot) (l m : List PlainBlock) : g.run (l ++ m) = (g.run l).run m := List.foldl_append

/-- DATA blocks add their bytes to the frame being assembled, as long as it is not full. -/
theorem PeerGot.run_dataBlocks (start : List Nat) (n : Nat) : ∀ (acc l : List Nat), l.length = 8 * n →
    acc.length + 8 * n = 8 * start.getD 1 0 →
    ({ asm := some (start, acc) } : PeerGot).run (dataBlocks n l) = { asm := some (start, acc ++ l) } := by
  induction n with
  | zero =>
    intro acc l hl _
    have hnil : l = [] := List.length_eq_zero_iff.1 (by omega)
    rw [hnil, List.append_nil]
    rfl
  | succ n ih =>
    intro acc l hl h
    have hstep : ({ asm := some (start, acc) } : PeerGot).step (hdrData, l.take 8) = { asm := some (start, acc ++ l.take 8) } := by
      have hfull : decide (8 * start.getD 1 0 ≤ acc.length) = false := decide_eq_false (by omega)
      simp only [PeerGot.step, hfull, and_self, if_true]
    have hlen : (acc ++ l.take 8).length + 8 * n = 8 * start.getD 1 0 := by
      simp only [List.length_append, List.length_take]
      omega
    rw [dataBlocks, PeerGot.run_cons, hstep, ih _ _ (by simp; omega) hlen, List.append_assoc, List.take_append_drop]

/-- END of a full frame closes it. -/
theorem PeerGot.step_end {start payload : List Nat} (h : 8 * start.getD 1 0 ≤ payload.length) (r : List Nat) :
    ({ asm := some (start, payload) } : PeerGot).step (hdrControl, typeEnd :: r) =
      ({ asm := some (start, payload) } : PeerGot).close start payload (typeEnd :: r) := by
  simp only [PeerGot.step, decide_eq_true h, List.getD_cons_zero, and_self, if_true]
  rfl

/-- The blocks of a frame hand that frame up, with nothing discarded. -/
theorem PeerGot.run_peerBlocks {f : PeerFrame} {n : Nat} (hchan : f.chan < 2) (hseq : f.seq < 65536) (hn : n < 256)
    (hlen : f.payload.length = 8 * n) : ({} : PeerGot).run (peerBlocks f) = { frames := [f] } := by
  have hpl : peerLen f = n := by rw [peerLen]; omega
  have hst : startBytes f = [f.chan, n, f.seq % 256, f.seq / 256 % 256, 0, 0, 0] := by
    rw [startBytes, hpl, Nat.mod_eq_of_lt (show f.chan < 256 by omega), Nat.mod_eq_of_lt hn]
    rfl
  have hstart : ({} : PeerGot).step (hdrControl, typeStart :: startBytes f) = { asm := some (startBytes f, []) } := rfl
  have hcrc : leNat (le4 (crcOf crc32c (startBytes f ++ f.payload))) = crcOf crc32c (startBytes f ++ f.payload) :=
    leNat_leBytes 4 _ (crc32c_lt _)
  have hend : ∀ c : Nat, (((typeEnd :: (le4 c ++ [0, 0, 0])).drop 1).take 4) = le4 c := fun _ => rfl
  rw [peerBlocks, hpl, PeerGot.run_cons, hstart, PeerGot.run_append,
    PeerGot.run_dataBlocks _ n [] f.payload hlen (by rw [hst]; simp), List.nil_append, PeerGot.run_cons]
  have hfull : 8 * (startBytes f).getD 1 0 ≤ f.payload.length := by rw [hst, hlen]; exact Nat.le_refl _
  have hc0 : (startBytes f).getD 0 0 = f.chan := by rw [hst]; rfl
  have hs : leNat [(startBytes f).getD 2 0, (startBytes f).getD 3 0] = f.seq := by rw [hst]; exact leNat_le2 hseq
  rw [PeerGot.step_end hfull, PeerGot.close, hend, hcrc, hc0, hs, if_pos ⟨rfl, hchan⟩]
  rfl

/-! ## What a block adds to what came before it -/

/-- A step depends on the frame being assembled alone, and adds to the frames and counts. -/
theorem PeerGot.step_eq (g : PeerGot) (b : PlainBlock) : g.step b =
    { asm := (({ asm := g.asm } : PeerGot).step b).asm, frames := g.frames ++ (({ asm := g.asm } : PeerGot).step b).frames
      disc := g.disc + (({ asm := g.asm } : PeerGot).step b).disc, inval := g.inval + (({ asm := g.asm } : PeerGot).step b).inval } := by
  obtain ⟨asm, frames, disc, inval⟩ := g
  cases asm with
  | none =>
    simp only [PeerGot.step, PeerGot.outside]
    repeat' split
    all_goals simp
  | some p =>
    obtain ⟨start, payload⟩ := p
    simp only [PeerGot.step, PeerGot.outside, PeerGot.close]
    repeat' split
    all_goals simp

theorem PeerGot.counts_le_run (l : List PlainBlock) : ∀ g : PeerGot, g.disc ≤ (g.run l).disc ∧ g.inval ≤ (g.run l).inval := by
  induction l with
  | nil => intro g; exact ⟨Nat.le_refl _, Nat.le_refl _⟩
  | cons b l ih =>
    intro g
    have h := ih (g.step b)
    have hd : g.disc ≤ (g.step b).disc := by rw [g.step_eq b]; exact Nat.le_add_right _ _
    have hi : g.inval ≤ (g.step b).inval := by rw [g.step_eq b]; exact Nat.le_add_right _ _
    exact ⟨hd.trans h.1, hi.trans h.2⟩

/-! ## Blocks on a lane whose link is up -/

/-- The link of peer lane `n` is up in `t` with nothing but valid blocks behind it, `asm` is being assembled, and `t` differs from `s`
in what the lane holds alone. -/
structure State.PeerReady (s t : State) (n : Nat) (asm : Option (List Nat × List Nat)) : Prop where
  up : t.flag F.LN_STAT_UP n = true
  lock : t.flag F.LN_STAT_LOCK n = true
  cen : t.flag F.LN_PRBSCTRL_CEN n = false
  win : ∀ b, b ∈ (t.lane n).win → b = true
  asm : (t.lane n).peerAsm = asm
  pair : t.pair = s.pair
  cfg : t.cfg = s.cfg
  sigs : t.sigs = s.sigs
  now : t.now = s.now

theorem LaneSt.not_lossy {l : LaneSt} (h : ∀ b, b ∈ l.win → b = true) : l.lossy = false := by
  have : l.win.filter (fun ok => !ok) = [] := List.filter_eq_nil_iff.2 (fun b hb => by simp [h b hb])
  simp [LaneSt.lossy, countIf, this]

/-- A valid block on a link that is up only enters the lane's window. -/
theorem State.takeOks_valid {s t : State} {n : Nat} {asm : Option (List Nat × List Nat)} (h : s.PeerReady t n asm) :
    s.PeerReady (t.takeOks n [true]) n asm := by
  have hw : ∀ tests b, b ∈ ((t.lane n).block true tests).win → b = true := fun tests b hb => by
    rcases List.mem_cons.1 (List.mem_of_mem_take hb) with rfl | hb
    · rfl
    · exact h.win b hb
  have e : t.takeOks n [true] = t.updLane n (fun l => l.block true (t.linkTests n && !t.flag F.LN_PRBSCTRL_CEN n)) := by
    have hl := LaneSt.not_lossy (hw (t.linkTests n && !t.flag F.LN_PRBSCTRL_CEN n))
    have hu : (t.updLane n (fun l => l.block true (t.linkTests n && !t.flag F.LN_PRBSCTRL_CEN n))).flag F.LN_STAT_UP n = true := h.up
    simp only [State.takeOks, h.lock, if_true, List.length_singleton, List.range_one, List.zip_cons_cons, List.zip_nil_left,
      List.foldl_cons, List.foldl_nil, State.lineBlock, State.takeBlock, State.lane_updLane, hl, hu, Bool.false_eq_true, if_false,
      Bool.not_true, Bool.false_and]
  rw [e]
  exact ⟨h.up, h.lock, h.cen, by rw [State.lane_updLane]; exact hw _, by rw [State.lane_updLane]; exact h.asm, h.pair, h.cfg, h.sigs,
    h.now⟩

/-- A counter of the lane's line is at a place of its own. -/
theorem State.PeerReady.incF {s t : State} {n : Nat} {asm : Option (List Nat × List Nat)} (h : s.PeerReady t n asm) (f : Fld) (m : Nat)
    (hup : F.LN_STAT_UP.key n 0 ≠ f.key n 0) (hlock : F.LN_STAT_LOCK.key n 0 ≠ f.key n 0)
    (hcen : F.LN_PRBSCTRL_CEN.key n 0 ≠ f.key n 0) : s.PeerReady (t.incF f n m) n asm := by
  have hg : ∀ g : Fld, g.key n 0 ≠ f.key n 0 → (t.incF f n m).flag g n = t.flag g n := fun g hk => by
    rw [State.flag, State.getF_incF_other _ _ _ _ _ _ _ _ hk, State.flag]
  exact ⟨(hg _ hup).trans h.up, (hg _ hlock).trans h.lock, (hg _ hcen).trans h.cen, h.win, h.asm, h.pair, h.cfg, h.sigs, h.now⟩

theorem State.PeerReady.setAsm {s t : State} {n : Nat} {asm : Option (List Nat × List Nat)} (h : s.PeerReady t n asm)
    (a : Option (List Nat × List Nat)) : s.PeerReady (t.updLane n (fun l => { l with peerAsm := a })) n a :=
  ⟨h.up, h.lock, h.cen, by rw [State.lane_updLane]; exact h.win, by rw [State.lane_updLane], h.pair, h.cfg, h.sigs, h.now⟩

theorem State.peerBlock_ready {s t : State} {n : Nat} {asm : Option (List Nat × List Nat)} (h : s.PeerReady t n asm) {b : PlainBlock}
    (hb : b.1 = hdrData ∨ b.1 = hdrControl) : ∃ u, t.peerBlock n b = ((({ asm := asm } : PeerGot).step b).frames, u) ∧
      s.PeerReady u n (({ asm := asm } : PeerGot).step b).asm := by
  have hok : (b.1 == hdrData || b.1 == hdrControl) = true := by rcases hb with e | e <;> simp [e]
  have h1 := State.takeOks_valid h
  generalize ht1 : t.takeOks n [true] = t1 at h1
  generalize hg : ({ asm := asm } : PeerGot).step b = g
  have h2 := h1.incF F.LN_FRMCNT_RXDISC g.disc
    (Fld.key_ne_of_lo _ _ _ _ _ _ (by decide) (by decide) (by decide))
    (Fld.key_ne_of_lo _ _ _ _ _ _ (by decide) (by decide) (by decide))
    (Fld.key_ne_of_lo _ _ _ _ _ _ (by decide) (by decide) (by decide))
  have h3 := h2.incF F.LN_LINKCNT_INVAL g.inval
    (by simp [Fld.key, Fld.addr, F.LN_STAT_UP, F.LN_LINKCNT_INVAL])
    (Fld.key_ne_of_lo _ _ _ _ _ _ (by decide) (by decide) (by decide))
    (Fld.key_ne_of_lo _ _ _ _ _ _ (by decide) (by decide) (by decide))
  refine ⟨_, ?_, h3.setAsm g.asm⟩
  simp only [State.peerBlock, hok, ht1, h1.up, h1.asm, hg, Bool.not_true, Bool.false_eq_true, if_false]

/-- Blocks that are valid hand up on the lane what they hand up in the receiver, as long as nothing is discarded. -/
theorem State.peerBlocks_ready {s : State} {n : Nat} (l : List PlainBlock) : ∀ (t : State) (g : PeerGot), s.PeerReady t n g.asm →
    (∀ b, b ∈ l → b.1 = hdrData ∨ b.1 = hdrControl) → ∃ u,
    l.foldl (fun (o : List PeerFrame × State) b => (o.1 ++ (o.2.peerBlock n b).1, (o.2.peerBlock n b).2)) (g.frames, t) =
      ((g.run l).frames, u) ∧ s.PeerReady u n (g.run l).asm := by
  induction l with
  | nil => intro t g h _; exact ⟨t, rfl, h⟩
  | cons b l ih =>
    intro t g h hl
    obtain ⟨u, hu, hr⟩ := State.peerBlock_ready h (hl b (by simp))
    have hasm : (g.step b).asm = (({ asm := g.asm } : PeerGot).step b).asm := by rw [g.step_eq b]
    have hframes : (g.step b).frames = g.frames ++ (({ asm := g.asm } : PeerGot).step b).frames := by rw [g.step_eq b]
    obtain ⟨v, hv, hvr⟩ := ih u (g.step b) (hasm ▸ hr) (fun x hx => hl x (by simp [hx]))
    exact ⟨v, by rw [List.foldl_cons, hu, ← hframes, hv, PeerGot.run_cons], hvr⟩

/-! ## The blocks of a frame are valid blocks of eight bytes -/

theorem dataBlocks_blocks (n : Nat) : ∀ l : List Nat, l.length = 8 * n → (∀ x, x ∈ l → x < 256) →
    ∀ b, b ∈ dataBlocks n l → b.1 = hdrData ∧ b.2.length = 8 ∧ ∀ x, x ∈ b.2 → x < 256 := by
  induction n with
  | zero => intro l _ _ b hb; cases hb
  | succ n ih =>
    intro l hl h b hb
    rcases List.mem_cons.1 hb with rfl | hb
    · exact ⟨rfl, by simp; omega, fun x hx => h x (List.mem_of_mem_take hx)⟩
    · exact ih (l.drop 8) (by simp; omega) (fun x hx => h x (List.mem_of_mem_drop hx)) b hb

theorem peerBlocks_blocks {f : PeerFrame} {n : Nat} (hlen : f.payload.length = 8 * n) (h : ∀ x, x ∈ f.payload → x < 256) :
    ∀ b, b ∈ peerBlocks f → (b.1 = hdrData ∨ b.1 = hdrControl) ∧ b.2.length = 8 ∧ ∀ x, x ∈ b.2 → x < 256 := by
  have hpl : peerLen f = n := by rw [peerLen]; omega
  intro b hb
  simp only [peerBlocks, hpl, List.mem_cons, List.mem_append, List.not_mem_nil, or_false] at hb
  rcases hb with rfl | hb | rfl
  · refine ⟨.inr rfl, rfl, fun x hx => ?_⟩
    simp only [startBytes, le2_eq, typeStart, List.cons_append, List.nil_append, List.mem_cons, List.not_mem_nil, or_false] at hx
    omega
  · obtain ⟨hd, h8, hx⟩ := dataBlocks_blocks n f.payload hlen h b hb
    exact ⟨.inl hd, h8, hx⟩
  · refine ⟨.inr rfl, rfl, fun x hx => ?_⟩
    rcases List.mem_cons.1 hx with rfl | hx
    · decide
    · rcases List.mem_append.1 hx with hx | hx
      · exact leBytes_lt 4 _ x hx
      · simp only [List.mem_cons, List.not_mem_nil, or_false, or_self] at hx
        omega

/-- A frame sent whole on a link that is up arrives as it is, and touches nothing beside the lane. -/
theorem State.peerArrives_peerBlocks {s : State} {f : PeerFrame} {lane st n : Nat} (hchan : f.chan < 2) (hseq : f.seq < 65536)
    (hn : n < 256) (hlen : f.payload.length = 8 * n) (hbytes : ∀ x, x ∈ f.payload → x < 256) (hrec : s.receives lane = true)
    (hmode : s.laneMode lane = 2) (hs : s.PeerReady s lane none) : ∃ u,
    s.peerArrives { lane := lane, before := st, blocks := scrambleAll st (peerBlocks f) } = ([f], u) ∧
      u.pair = s.pair ∧ u.cfg = s.cfg ∧ u.sigs = s.sigs ∧ u.now = s.now := by
  have hblocks := peerBlocks_blocks hlen hbytes
  have hrun := PeerGot.run_peerBlocks hchan hseq hn hlen
  obtain ⟨u, hu, hr⟩ := State.peerBlocks_ready (peerBlocks f) s {} hs (fun b hb => (hblocks b hb).1)
  rw [hrun] at hu
  refine ⟨u, ?_, hr.pair, hr.cfg, hr.sigs, hr.now⟩
  rw [State.peerArrives]
  simp only [hrec, hmode, bne_self_eq_false, Bool.not_true, Bool.or_self, Bool.false_eq_true, if_false]
  rw [descrambleAll_scrambleAll _ _ (fun b hb => (hblocks b hb).2)]
  exact hu

/-! ## Records (R314) -/

/-- Six flags packed into a byte, the first lowest, read back one by one. -/
theorem bitOf_flags (a b c d e f : Bool) (x : Nat) (hx : x = b2n a + 2 * b2n b + 4 * b2n c + 8 * b2n d + 16 * b2n e + 32 * b2n f) :
    bitOf x 0 = a ∧ bitOf x 1 = b ∧ bitOf x 2 = c ∧ bitOf x 3 = d ∧ bitOf x 4 = e ∧ bitOf x 5 = f := by
  subst hx
  revert a b c d e f
  decide

theorem length_peerRecBytes (r : PeerRec) : (peerRecBytes r).length = 32 := rfl

theorem le4_eq (x : Nat) : le4 x = [x % 256, x / 256 % 256, x / 256 / 256 % 256, x / 256 / 256 / 256 % 256] := rfl

theorem leNat_le4 {x : Nat} (h : x < 2 ^ 32) :
    leNat [x % 256, x / 256 % 256, x / 256 / 256 % 256, x / 256 / 256 / 256 % 256] = x := leNat_leBytes 4 x h

theorem peerRecRead_peerRecBytes {r : PeerRec} (hepoch : r.epoch < 2 ^ 32) (hstamp : r.stamp < 2 ^ 32) (hdata : r.data < 2 ^ 32)
    (hcver : r.cver < 2 ^ 32) (hpair : r.pairId < 65536) (hclaim : r.claim < 65536) (hg : r.g < 65536) :
    peerRecRead { chan := 0, seq := r.seq, payload := peerRecBytes r } = r := by
  obtain ⟨type, seq, section_, sideB, active, forcing, failed, demoted, contest, epoch, stamp, data, cver, pairId, claim, g⟩ := r
  obtain ⟨h0, h1, h2, h3, h4, h5⟩ := bitOf_flags sideB active forcing failed demoted contest _ rfl
  simp only [peerRecRead, peerRecBytes, le4_eq, le2_eq, List.cons_append, List.nil_append, List.getD_cons_succ, List.getD_cons_zero,
    List.drop_succ_cons, List.drop_zero, List.take_succ_cons, List.take_zero, h0, h1, h2, h3, h4, h5, leNat_le4 hepoch,
    leNat_le4 hstamp, leNat_le4 hdata, leNat_le4 hcver, leNat_le2 hpair, leNat_le2 hclaim, leNat_le2 hg]

/-! ## Feed frames (R312) -/

/-- The 8 bytes of one tile of a feed frame. -/
def feedTileBytes (t : FeedTile) : List Nat := le2 t.inp ++ le2 t.wb ++ [t.rb % 256, t.stat % 256, t.q % 256, 0]

theorem feedTileRead_feedTileBytes {t : FeedTile} (h : t.inp < 65536 ∧ t.wb < 65536 ∧ t.rb < 256 ∧ t.stat < 256 ∧ t.q < 256) :
    feedTileRead (feedTileBytes t) = t := by
  obtain ⟨inp, wb, rb, stat, q⟩ := t
  obtain ⟨hinp, hwb, hrb, hstat, hq⟩ := h
  simp only [feedTileRead, feedTileBytes, le2_eq, List.cons_append, List.nil_append, List.getD_cons_succ, List.getD_cons_zero,
    List.drop_succ_cons, List.drop_zero, List.take_succ_cons, List.take_zero, leNat_le2 hinp, leNat_le2 hwb, Nat.mod_eq_of_lt hrb,
    Nat.mod_eq_of_lt hstat, Nat.mod_eq_of_lt hq]

theorem length_flatMap_feedTileBytes (l : List FeedTile) : (l.flatMap feedTileBytes).length = 8 * l.length := by
  induction l with
  | nil => rfl
  | cons t r ih => rw [List.flatMap_cons, List.length_append, ih, List.length_cons]; simp only [feedTileBytes, le2_eq]; simp; omega

/-- Entry by entry, the bytes of the tiles read as the tiles. -/
theorem feedTiles_read (l : List FeedTile) (h : ∀ t, t ∈ l → t.inp < 65536 ∧ t.wb < 65536 ∧ t.rb < 256 ∧ t.stat < 256 ∧ t.q < 256) :
    (List.range l.length).map (fun i => feedTileRead (((l.flatMap feedTileBytes).drop (8 * i)).take 8)) = l := by
  induction l with
  | nil => rfl
  | cons t r ih =>
    have hlen : (feedTileBytes t).length = 8 := rfl
    have hr := ih (fun x hx => h x (by simp [hx]))
    rw [List.length_cons, List.range_succ_eq_map, List.map_cons, List.map_map]
    refine congrArg₂ _ ?_ (Eq.trans (List.map_congr_left fun i _ => ?_) hr)
    · rw [List.flatMap_cons, Nat.mul_zero, List.drop_zero, List.take_append_of_le_length (by rw [hlen]),
        List.take_of_length_le (by rw [hlen]), feedTileRead_feedTileBytes (h t (by simp))]
    · show feedTileRead ((((t :: r).flatMap feedTileBytes).drop (8 * (i + 1))).take 8) = _
      rw [List.flatMap_cons, show 8 * (i + 1) = (feedTileBytes t).length + 8 * i by rw [hlen]; omega, ← List.drop_drop, List.drop_left]

theorem feedRead_feedBytes {k e q : Nat} {l : List FeedTile} (he : e < 2 ^ 32)
    (h : ∀ t, t ∈ l → t.inp < 65536 ∧ t.wb < 65536 ∧ t.rb < 256 ∧ t.stat < 256 ∧ t.q < 256) :
    feedRead { chan := 1, seq := q, payload := feedBytes k e l } = some (k, e, l) := by
  have hb : feedBytes k e l = [0x10, k, l.length, 0] ++ le4 e ++ l.flatMap feedTileBytes := rfl
  have hlen : (feedBytes k e l).length = 8 + 8 * l.length := by
    rw [hb, List.length_append, length_flatMap_feedTileBytes]; rfl
  have hdrop : ∀ i, (feedBytes k e l).drop (8 + 8 * i) = (l.flatMap feedTileBytes).drop (8 * i) := fun i => by
    rw [hb, show 8 + 8 * i = ([0x10, k, l.length, 0] ++ le4 e).length + 8 * i from rfl, ← List.drop_drop, List.drop_left]
  have h0 : (feedBytes k e l).getD 0 0 = 0x10 := rfl
  have h1 : (feedBytes k e l).getD 1 0 = k := rfl
  have h2 : (feedBytes k e l).getD 2 0 = l.length := rfl
  have h4 : leNat (((feedBytes k e l).drop 4).take 4) = e := leNat_le4 he
  simp only [feedRead, h0, h1, h2, h4, hlen, hdrop, and_self, if_true, feedTiles_read l h]

/-- Settles O41: the scrambler by the states that both sides go through, a frame block by block, records and feeds by their bytes. -/
theorem peerFramesReadBack : Obligations.PeerFramesReadBack := by
  refine ⟨fun st l h => descrambleAll_scrambleAll l st h, ?_, ?_, fun k e q l he _ h => feedRead_feedBytes he h⟩
  · intro f n hchan hseq hn hlen hbytes
    rw [PeerGot.run_peerBlocks hchan hseq hn hlen]
    exact ⟨rfl, rfl, rfl, rfl, fun s lane st hrec hmode hup hlock hcen hasm hwin =>
      State.peerArrives_peerBlocks hchan hseq hn hlen hbytes hrec hmode ⟨hup, hlock, hcen, hwin, hasm, rfl, rfl, rfl, rfl⟩⟩
  · intro r _ _ _ hepoch hstamp hdata hcver hpair hclaim hg
    exact ⟨length_peerRecBytes r, peerRecRead_peerRecBytes hepoch hstamp hdata hcver hpair hclaim hg⟩

end Sys2Proof.Machine
end

section
/-! The event log: what the writing of records, the erase of sectors and the end of a freeze leave, and the save set (R337, R342 to R352). -/

namespace Sys2Proof.Machine

/-! ## An erase of a byte memory -/

theorem Tab.find_filter {α : Type} (t : Tab α) (p : Nat → Bool) (k : Nat) :
    Tab.find (t.filter (fun c => p c.1)) k = if p k then Tab.find t k else none := by
  induction t with
  | nil => simp
  | cons c r ih =>
    obtain ⟨a, x⟩ := c
    by_cases hp : p a = true
    · rw [List.filter_cons_of_pos (by exact hp), Tab.find, Tab.find]
      by_cases ha : a = k
      · subst ha; simp [hp]
      · simp only [ha, if_false, ih]
    · rw [List.filter_cons_of_neg (by exact hp), ih, Tab.find]
      by_cases ha : a = k
      · subst ha; simp [hp]
      · simp only [ha, if_false]

/-- An erased byte reads as the fill, any other as before. -/
theorem Mem.read_erase (fill : Byte) (m : Mem) (a n c : Nat) :
    Mem.read fill (Mem.erase m a n) c = if a ≤ c ∧ c < a + n then fill else Mem.read fill m c := by
  unfold Mem.read Mem.erase Tab.get
  rw [Tab.find_filter m (fun k => decide (k < a) || decide (a + n ≤ k)) c]
  by_cases h : a ≤ c ∧ c < a + n
  · have hp : (decide (c < a) || decide (a + n ≤ c)) = false := by simp; omega
    rw [if_pos h, hp]
    rfl
  · have hp : (decide (c < a) || decide (a + n ≤ c)) = true := by simp; omega
    rw [if_neg h, hp]
    rfl

/-! ## Programs and erases of the event NVM -/

section
variable (s : State) (a : Nat) (l : List Nat)
@[simp] theorem State.evProgram_regs : (s.evProgram a l).regs = s.regs := rfl
@[simp] theorem State.evProgram_evNvm : (s.evProgram a l).evNvm = Mem.programN s.evNvm a l := rfl
@[simp] theorem State.evProgram_getF (f : Fld) (i j : Nat) : (s.evProgram a l).getF f i j = s.getF f i j := rfl
@[simp] theorem State.evProgram_flag (f : Fld) (i j : Nat) : (s.evProgram a l).flag f i j = s.flag f i j := rfl
@[simp] theorem State.evProgram_spareSlot : (s.evProgram a l).spareSlot = s.spareSlot := rfl
@[simp] theorem State.evProgram_log : (s.evProgram a l).log = { s.log with programs := s.log.programs + pagesOf a l.length } := rfl
@[simp] theorem State.syncCap_log : s.syncCap.log = s.log := rfl
@[simp] theorem State.evErase_regs (y : Nat) : (s.evErase y).regs = s.regs := rfl
@[simp] theorem State.evErase_evNvm (y : Nat) : (s.evErase y).evNvm = Mem.erase s.evNvm (4096 * y) 4096 := rfl
end

theorem State.updLog_updLog (s : State) (f g : LogSt → LogSt) : (s.updLog f).updLog g = s.updLog (fun l => g (f l)) := rfl

/-- A byte of a program that is one byte long. -/
theorem Mem.read_programN_one (m : Mem) (a b : Nat) :
    Mem.read 0xFF (Mem.programN m a [b]) a = Mem.read 0xFF m a &&& BitVec.ofNat 8 b := Mem.read_write_same _ _ _ _

/-! ## The save set (R337) -/

theorem SaveSet.length_head (x : SaveSet) (lost : Nat) : (x.head lost).length = 24 := rfl

/-- A set that is complete: the slot that it stands in. -/
theorem State.saveDone_spec {s : State} {x : SaveSet} (hs : s.log.saving = true) (hx : s.log.saveSet = some x) :
    s.saveDone.log.newest = some s.spareSlot ∧ s.saveDone.log.saving = false ∧ s.saveDone.regs = s.regs ∧
    Mem.read 0xFF s.saveDone.evNvm (saveAddr s.spareSlot + 63) = Mem.read 0xFF s.evNvm (saveAddr s.spareSlot + 63) &&& 0xA5 ∧
    ∀ a, a < saveAddr s.spareSlot ∨ saveAddr s.spareSlot + 64 + x.body.length ≤ a →
      Mem.read 0xFF s.saveDone.evNvm a = Mem.read 0xFF s.evNvm a := by
  have hcrc : ∀ n, (le4 n).length = 4 := fun _ => rfl
  have hhead := x.length_head (s.log.lostHold + x.runs)
  simp only [State.saveDone, hs, hx]
  generalize x.head (s.log.lostHold + x.runs) = head at hhead
  generalize crcOf crc32c (head ++ x.body) = crc
  refine ⟨by simp only [State.updLog_log, State.evProgram_spareSlot], by simp only [State.updLog_log],
    by simp only [State.updLog_regs, State.evProgram_regs], ?_, fun a ha => ?_⟩
  · simp only [State.updLog_evNvm, State.evProgram_evNvm]
    rw [Mem.read_programN_one, Mem.read_programN_outside _ _ _ _ (by omega), Mem.read_programN_outside _ _ _ _ (by rw [hcrc]; omega),
      Mem.read_programN_outside _ _ _ _ (by omega)]
    rfl
  · simp only [State.updLog_evNvm, State.evProgram_evNvm]
    rw [Mem.read_programN_outside _ _ _ _ (by simp only [List.length_singleton]; omega),
      Mem.read_programN_outside _ _ _ _ (by omega), Mem.read_programN_outside _ _ _ _ (by rw [hcrc]; omega),
      Mem.read_programN_outside _ _ _ _ (by omega)]

/-- Settles O6: the set's programs one by one, and the two sectors of a slot. -/
theorem saveSetStaysInItsSlot : Obligations.SaveSetStaysInItsSlot := by
  refine ⟨fun s x hs hx => ⟨s.saveDone, rfl, State.saveDone_spec hs hx⟩, fun s hready herased hsaving => ⟨_, rfl, ?_⟩⟩
  simp only [hready, herased, hsaving, Bool.not_false, Bool.and_self, if_true]
  have h9 : 4096 * (9 + 2 * s.spareSlot) = saveAddr s.spareSlot := rfl
  have h10 : 4096 * (10 + 2 * s.spareSlot) = saveAddr s.spareSlot + 4096 := by unfold saveAddr; omega
  refine ⟨rfl, rfl, fun a => ?_⟩
  simp only [State.updLog_evNvm, State.evErase_evNvm, Mem.read_erase, h9, h10]
  by_cases h : saveAddr s.spareSlot ≤ a ∧ a < saveAddr s.spareSlot + 8192
  · rw [if_pos h]
    split
    · rfl
    · exact if_pos (by omega)
  · rw [if_neg h, if_neg (by omega), if_neg (by omega)]

/-! ## What the log's operations leave of the clocks -/

/-- The RTC as the log holds it (R342). -/
def LogSt.clock (l : LogSt) : Nat × Nat × Bool := (l.rtc, l.rtcAt, l.rtcValid)

theorem State.enqueue_clock (s : State) (x : EvRec) : (s.enqueue x).log.clock = s.log.clock := by
  unfold State.enqueue
  split
  · rfl
  split
  · rfl
  split
  · rfl
  split
  · dsimp only
    split <;> rfl
  · rfl

theorem State.closeRun_clock (s : State) (code : Nat) : (s.closeRun code).log.clock = s.log.clock := by
  unfold State.closeRun
  split
  · rfl
  · dsimp only
    split <;> split <;> rfl

theorem State.openSector_clock (s : State) (seq : Nat) : (s.openSector seq).log.clock = s.log.clock := by
  simp only [State.openSector, State.evProgram_log, LogSt.clock]

theorem State.startWrite_clock (s : State) : s.startWrite.log.clock = s.log.clock := by
  unfold State.startWrite
  split
  · rfl
  dsimp only
  split
  · rfl
  split
  · rfl
  · rw [State.syncCap_log, State.updLog_log]
    split
    · exact s.openSector_clock (s.getF F.EL_HEAD_HEAD + 1)
    · rfl

theorem State.post_clock (s : State) (code subj sub2 : Nat) (sec : EvEpoch) (data : List Nat) :
    (s.post code subj sub2 sec data).log.clock = s.log.clock := by
  unfold State.post
  dsimp only
  generalize s.mkRec code subj sub2 _ data = rec
  split
  · exact s.enqueue_clock rec
  split
  · exact s.enqueue_clock rec
  · rename_i w _
    generalize (Tab.get s.log.flood {} code).repeat rec s.now w = p
    obtain ⟨wr, x⟩ := p
    have hclose : ∀ (c : Bool), (if c = true then s.closeRun code else s).log.clock = s.log.clock := fun c => by
      cases c
      · rfl
      · exact s.closeRun_clock code
    dsimp only
    split
    · exact s.enqueue_clock rec
    split
    · exact (State.enqueue_clock _ _).trans (hclose _)
    split
    · exact hclose _
    · exact (State.closeRun_clock _ _).trans (hclose _)
  · split
    · rfl
    split
    · exact s.enqueue_clock rec
    · exact State.enqueue_clock _ _

theorem State.event_clock (s : State) (code subj sub2 : Nat) (sec : EvEpoch) (data : List Nat) :
    (s.event code subj sub2 sec data).log.clock = s.log.clock :=
  (State.startWrite_clock _).trans (s.post_clock code subj sub2 sec data)

/-! ## The end of a freeze (R350) -/

theorem State.LogOnly.closeLapsed {r s : State} (h : r.LogOnly s) : r.LogOnly s.closeLapsed := by
  unfold State.closeLapsed
  refine List.foldlRecOn (motive := fun t => r.LogOnly t) _ _ h (fun t ht p _ => ?_)
  split
  · split
    · exact ht.closeRun _
    · exact ht
  · exact ht

/-- FROZEN is no field that an event changes. -/
theorem frozen_ne_logFields : ∀ f, f ∈ logFields → F.EL_STAT_FROZEN.key 0 0 ≠ f.key 0 0 := by decide

/-- The state that a thaw leaves where writing may resume. -/
theorem State.thaw_eq {s : State} (hz : s.flag F.EL_STAT_FROZEN = true) (hf : s.flag F.EL_STAT_FULL = false)
    (hh : s.flag F.EL_STAT_HOLD = false) (hp : s.log.present = true) :
    s.thaw = ((s.setF F.EL_STAT_FROZEN 0 0).updLog (fun l => { l with
      lostFreeze := 0, lostQueue := 0, lostHold := 0, firstCode := 0, lastCode := 0,
      queue := (s.setF F.EL_STAT_FROZEN 0 0).recNotLogged :: l.queue })).closeLapsed.startWrite := by
  have hf' : (s.setF F.EL_STAT_FROZEN 0 0).flag F.EL_STAT_FULL = false := by
    rw [State.flag, State.getF_setF_other _ _ _ _ _ _ _ _ (by decide)]; exact hf
  have hh' : (s.setF F.EL_STAT_FROZEN 0 0).flag F.EL_STAT_HOLD = false := by
    rw [State.flag, State.getF_setF_other _ _ _ _ _ _ _ _ (by decide)]; exact hh
  unfold State.thaw
  simp only [hz, hf', hh', State.setF_log, hp, Bool.not_true, Bool.or_self, Bool.false_eq_true, if_false]
  rfl

/-- After a thaw FROZEN is clear. -/
theorem State.thaw_frozen {s : State} (hz : s.flag F.EL_STAT_FROZEN = true) : s.thaw.flag F.EL_STAT_FROZEN = false := by
  unfold State.thaw
  simp only [hz, Bool.not_true, Bool.false_eq_true, if_false]
  split
  · exact State.flag_setF_zero _ _ _ _
  · have h := (((State.LogOnly.refl (s.setF F.EL_STAT_FROZEN 0 0)).updLog (fun l => { l.clearLost with
      queue := (s.setF F.EL_STAT_FROZEN 0 0).recNotLogged :: l.queue })).closeLapsed.startWrite).get _ 0 0 frozen_ne_logFields
    rw [State.flag, h]
    exact State.flag_setF_zero _ _ _ _

/-- A write of EL_RTCH sets the RTC, and its record leaves the RTC as set (R342). -/
theorem State.setRtc_clock (s : State) (ms source : Nat) : (s.setRtc ms source).log.clock = (ms % 2 ^ 48, s.now, true) :=
  State.event_clock _ _ _ _ _ _

theorem State.setRtc_valid (s : State) (ms source : Nat) : (s.setRtc ms source).flag F.EL_STAT_RTCVALID = true := by
  unfold State.setRtc
  rw [State.flag, State.event_getF _ _ _ _ _ _ _ _ _ (by decide)]
  exact State.flag_setF_one _ _ _ _ (by decide)

/-- Settles O1. -/
theorem logControlCommandsComplete : Obligations.LogControlCommandsComplete := by
  refine ⟨⟨fun s h => ?_, fun _ => rfl, fun s t0 h => ?_, fun _ => rfl, fun _ _ => rfl, fun _ => rfl, fun s w => ?_⟩,
    fun s hz hf hh hp => ?_, fun s hz => ?_⟩
  · change Host.Outcome.next (if _ then _ else _) = _
    rw [h]
    rfl
  · change Host.Outcome.next (match s.log.armedAt with | some t => _ | none => _) = _
    rw [h]
  · have hc := s.setRtc_clock (w.toNat % 2 ^ 16 * 2 ^ 32 + s.log.rtcHeld) 0
    simp only [LogSt.clock, Prod.mk.injEq] at hc
    exact ⟨_, rfl, hc.1, hc.2.1, hc.2.2, s.setRtc_valid _ _⟩
  · exact ⟨_, rfl, State.thaw_frozen hz, State.thaw_eq hz hf hh hp⟩
  · have hz' : (s.advanceTo (s.log.frozenAt + 10000 * msClk)).flag F.EL_STAT_FROZEN = true := hz
    refine ⟨(s.advanceTo (s.log.frozenAt + 10000 * msClk)).thaw, ?_, State.thaw_frozen hz', rfl⟩
    change Host.Outcome.next (if s.flag F.EL_STAT_FROZEN then _ else _) = _
    rw [if_pos hz]

end Sys2Proof.Machine
end

section
/-! The event log: records in three stages, the erase of the log, runs and the correlation record (R343, R344, R348, R351, R352). -/

namespace Sys2Proof.Machine

/-! ## The start of writing (R344, R352) -/

/-- What of the log the start of writing leaves: generation, index, arming. -/
def LogSt.readers (l : LogSt) : Nat × List (Nat × Nat) × Option Nat := (l.gen, l.index, l.armedAt)

theorem State.openSector_readers (s : State) (seq : Nat) : (s.openSector seq).log.readers = s.log.readers := by
  simp only [State.openSector, State.evProgram_log, LogSt.readers]

theorem State.startWrite_readers (s : State) : s.startWrite.log.readers = s.log.readers := by
  unfold State.startWrite
  split
  · rfl
  dsimp only
  split
  · rfl
  split
  · rfl
  · rw [State.syncCap_log, State.updLog_log]
    split
    · exact s.openSector_readers (s.getF F.EL_HEAD_HEAD + 1)
    · rfl

theorem State.syncCap_getF (s : State) (g : Fld) (m o : Nat) (hr : g.key m o ≠ F.EL_CAP_RETIRED.key 0 0)
    (hf : g.key m o ≠ F.EL_CAP_FREE.key 0 0) : s.syncCap.getF g m o = s.getF g m o := by
  rw [State.syncCap, State.getF_setF_other _ _ _ _ _ _ _ _ hf, State.getF_setF_other _ _ _ _ _ _ _ _ hr]

/-- The start of writing changes EL_CAP alone of the registers. -/
theorem State.startWrite_getF (s : State) (g : Fld) (m o : Nat) (hr : g.key m o ≠ F.EL_CAP_RETIRED.key 0 0)
    (hf : g.key m o ≠ F.EL_CAP_FREE.key 0 0) : s.startWrite.getF g m o = s.getF g m o := by
  unfold State.startWrite
  split
  · rfl
  dsimp only
  split
  · rfl
  split
  · rfl
  · rw [State.syncCap_getF _ _ _ _ hr hf, State.updLog_getF]
    split
    · rfl
    · rfl

/-- The commit byte of a slot lies in no sector header. -/
theorem State.openSector_commit (s : State) (seq slot : Nat) :
    Mem.read 0xFF (s.openSector seq).evNvm (64 * slot + 63) = Mem.read 0xFF s.evNvm (64 * slot + 63) := by
  have h4 : ∀ x, (le4 x).length = 4 := fun _ => rfl
  simp only [State.openSector, State.evProgram_evNvm]
  rw [Mem.read_programN_outside _ _ _ _ (by rw [h4]; omega), Mem.read_programN_outside _ _ _ _ (by rw [h4]; omega),
    Mem.read_programN_outside _ _ _ _ (by rw [h4]; omega)]

theorem State.startWrite_commit (s : State) (slot : Nat) :
    Mem.read 0xFF s.startWrite.evNvm (64 * slot + 63) = Mem.read 0xFF s.evNvm (64 * slot + 63) := by
  unfold State.startWrite
  split
  · rfl
  dsimp only
  split
  · rfl
  split
  · rfl
  · show Mem.read 0xFF (if _ then _ else _ : State).evNvm _ = _
    split
    · exact s.openSector_commit (s.getF F.EL_HEAD_HEAD + 1) slot
    · rfl

/-! ## The stages (R344) -/

/-- Programs that take no longer than the image allows count none slow (R353). -/
theorem State.timePrograms_fast {s : State} {us : List Nat} (h : ∀ x, x ∈ us → x ≤ s.img.slowUs) :
    s.timePrograms us = s.updLog (fun l => { l with programs := 0 }) := by
  unfold State.timePrograms
  have hl : ∀ l : List Nat, (∀ x, x ∈ l → x ≤ s.img.slowUs) →
      l.foldl (fun s t => s.timeProgram t) (s.updLog (fun l => { l with programs := 0 })) =
        s.updLog (fun l => { l with programs := 0 }) := by
    intro l
    induction l with
    | nil => intro _; rfl
    | cons x l ih =>
      intro hl
      have hx : (s.updLog (fun l => { l with programs := 0 })).timeProgram x = s.updLog (fun l => { l with programs := 0 }) :=
        if_pos (hl x (by simp))
      rw [List.foldl_cons, hx]
      exact ih (fun y hy => hl y (by simp [hy]))
  exact hl _ (fun x hx => h x (List.mem_of_mem_take hx))

section
variable {s : State} {r : EvRec} {slot : Nat} {us : List Nat} (hu : ∀ x, x ∈ us → x ≤ s.img.slowUs)
include hu

/-- Bytes 0 to 55 stand in the slot. -/
theorem State.stageDone_body (hw : s.log.writing = some (r, slot, 0)) :
    s.stageDone true us = (s.evProgram (64 * slot) (recBytes r (s.getF F.EL_HEAD_HEAD + 1) (s.getF F.EL_PWRCNT_PCC))).updLog
      (fun l => { l with programs := 0, writing := some (r, slot, 1) }) := by
  unfold State.stageDone
  rw [hw]
  dsimp only
  rw [State.timePrograms_fast (by exact hu)]
  simp only [Bool.not_true, Bool.false_eq_true, if_false, Nat.zero_lt_two, if_true]
  rfl

/-- The CRC stands at byte 56. -/
theorem State.stageDone_crc (hw : s.log.writing = some (r, slot, 1)) :
    s.stageDone true us = (s.evProgram (64 * slot + 56) (le4 (crcOf crc32c
      (recBytes r (s.getF F.EL_HEAD_HEAD + 1) (s.getF F.EL_PWRCNT_PCC))))).updLog
      (fun l => { l with programs := 0, writing := some (r, slot, 2) }) := by
  unfold State.stageDone
  rw [hw]
  dsimp only
  rw [State.timePrograms_fast (by exact hu)]
  rfl

/-- The commit value stands at byte 63, and the record is committed. -/
theorem State.stageDone_commit (hw : s.log.writing = some (r, slot, 2)) :
    s.stageDone true us = (((s.evProgram (64 * slot + 63) [0xA5]).updLog (fun l => { l with programs := 0 })).committed r slot
      (s.getF F.EL_HEAD_HEAD + 1)).startWrite := by
  unfold State.stageDone
  rw [hw]
  dsimp only
  rw [State.timePrograms_fast (by exact hu)]
  rfl

end

/-! ## A committed record (R344) -/

theorem State.nextSlot_readers (s : State) : s.nextSlot.log.readers = s.log.readers := by
  unfold State.nextSlot
  split
  · split <;> rfl
  · rfl

theorem State.nextSlot_regs (s : State) : s.nextSlot.regs = s.regs := by
  unfold State.nextSlot
  split
  · split <;> rfl
  · rfl

theorem State.nextSlot_evNvm (s : State) : s.nextSlot.evNvm = s.evNvm := by
  unfold State.nextSlot
  split
  · split <;> rfl
  · rfl

/-- The head and the index of the log as a reader sees them, and the commit byte of a slot. -/
def State.headIndex (s : State) (slot : Nat) : Nat × List (Nat × Nat) × Byte :=
  (s.getF F.EL_HEAD_HEAD, s.log.index, Mem.read 0xFF s.evNvm (64 * slot + 63))

theorem State.headIndex_setF (s : State) (slot : Nat) (f : Fld) (v : Nat) (h : F.EL_HEAD_HEAD.key 0 0 ≠ f.key 0 0) :
    (s.setF f 0 v).headIndex slot = s.headIndex slot := by
  simp only [State.headIndex, State.getF_setF_other _ _ _ _ _ _ _ _ h, State.setF_log, State.setF_evNvm]

theorem State.headIndex_updLog (s : State) (slot : Nat) (f : LogSt → LogSt) (h : (f s.log).index = s.log.index) :
    (s.updLog f).headIndex slot = s.headIndex slot := by
  simp only [State.headIndex, State.updLog_getF, State.updLog_log, State.updLog_evNvm, h]

/-- REPEAT lies before the commit byte. -/
theorem State.headIndex_repeat (s : State) (slot n : Nat) :
    (s.evProgram (64 * slot + 60) (leBytes 3 n)).headIndex slot = s.headIndex slot := by
  simp only [State.headIndex, State.evProgram_getF, State.evProgram_log, State.evProgram_evNvm]
  rw [Mem.read_programN_outside _ _ _ _ (by rw [length_leBytes]; omega)]

theorem State.headIndex_nextSlot (s : State) (slot : Nat) : s.nextSlot.headIndex slot = s.headIndex slot := by
  have hl := s.nextSlot_readers
  simp only [LogSt.readers, Prod.mk.injEq] at hl
  simp only [State.headIndex, State.getF, State.nextSlot_regs, hl.2.1, State.nextSlot_evNvm]

/-- Behind EL_HEAD and the index, a commitment changes neither. -/
theorem State.committed_headIndex (s : State) (r : EvRec) (slot seq : Nat) :
    (s.committed r slot seq).headIndex slot = (seq % 2 ^ 32, (slot, seq) :: s.log.index, Mem.read 0xFF s.evNvm (64 * slot + 63)) := by
  unfold State.committed
  lift_lets
  intro s1 s2 s3 s4 s5 s6 s7
  have h2 : s2.headIndex slot = s1.headIndex slot := by
    unfold s2
    split
    · exact State.headIndex_setF _ _ _ _ (by decide)
    · rfl
  have h3 : s3.headIndex slot = (seq % 2 ^ 32, (slot, seq) :: s.log.index, Mem.read 0xFF s.evNvm (64 * slot + 63)) := by
    have hl : s2.log.index = s.log.index := by unfold s2; split <;> rfl
    simp only [State.headIndex, Prod.mk.injEq] at h2 ⊢
    obtain ⟨hhead, -, hbyte⟩ := h2
    exact ⟨hhead.trans (State.getF_setF_same _ _ _ _ _), congrArg (_ :: ·) hl, hbyte⟩
  have h4 : s4.headIndex slot = s3.headIndex slot := by
    unfold s4
    split
    · rfl
    · exact s3.headIndex_repeat slot _
  have h5 : s5.headIndex slot = s4.headIndex slot := by
    unfold s5
    split
    · split
      · exact s4.headIndex_updLog slot _ rfl
      · rfl
    · rfl
  have h7 : s7.headIndex slot = s5.headIndex slot := by
    refine Eq.trans ?_ (s5.headIndex_nextSlot slot)
    unfold s7
    split
    · exact s6.headIndex_updLog slot _ rfl
    · rfl
  rw [← h3, ← h4, ← h5]
  split
  · exact (State.headIndex_updLog _ slot _ rfl).trans
      ((State.headIndex_setF _ _ _ _ (by decide)).trans (s5.headIndex_setF _ _ _ (by decide)))
  · exact ((State.headIndex_setF _ _ _ _ (by decide)).trans (s7.headIndex_setF _ _ _ (by decide))).trans h7

theorem State.startWrite_headIndex (s : State) (slot : Nat) : s.startWrite.headIndex slot = s.headIndex slot := by
  have hl := s.startWrite_readers
  simp only [LogSt.readers, Prod.mk.injEq] at hl
  simp only [State.headIndex, s.startWrite_getF F.EL_HEAD_HEAD 0 0 (by decide) (by decide), hl.2.1, s.startWrite_commit slot]

/-- The last stage: EL_HEAD, the index and the commit byte. -/
theorem State.stageDone_headIndex {s : State} {r : EvRec} {slot : Nat} {us : List Nat} (hu : ∀ x, x ∈ us → x ≤ s.img.slowUs)
    (hw : s.log.writing = some (r, slot, 2)) : (s.stageDone true us).headIndex slot =
      ((s.getF F.EL_HEAD_HEAD + 1) % 2 ^ 32, (slot, s.getF F.EL_HEAD_HEAD + 1) :: s.log.index,
        Mem.read 0xFF s.evNvm (64 * slot + 63) &&& 0xA5) := by
  rw [State.stageDone_commit hu hw, State.startWrite_headIndex, State.committed_headIndex, State.updLog_evNvm, State.evProgram_evNvm,
    Mem.read_programN_one]
  rfl

/-- Settles O2. -/
theorem recordWritesInThreeStages : Obligations.RecordWritesInThreeStages := by
  refine ⟨fun s r slot us hw hu => congrArg _ (State.stageDone_body hu hw), fun s r slot us hw hu =>
    congrArg _ (State.stageDone_crc hu hw), fun s r slot us hw hu => ⟨s.stageDone true us, rfl, ?_⟩⟩
  simpa only [State.headIndex, Prod.mk.injEq] using State.stageDone_headIndex hu hw

/-! ## The erase of the log (R351, R352) -/

/-- An erase of the log: a generation of its own with nothing in the index; FULL, WEAR and the count of a full log cleared. -/
theorem State.eraseLog_spec (s : State) : s.eraseLog.log.readers = (s.log.gen + 1, [], none) ∧
    s.eraseLog.getF F.EL_FIRST_FIRST = (s.getF F.EL_HEAD_HEAD + 1) % 2 ^ 32 ∧ s.eraseLog.flag F.EL_STAT_FULL = false ∧
    s.eraseLog.flag F.EL_STAT_WEAR = false ∧ s.eraseLog.getF F.EL_FULLCNT_COUNT = 0 := by
  unfold State.eraseLog
  lift_lets
  intro first sector back old s1 s2 r flood s3 s4
  have hget : ∀ g : Fld, g.key 0 0 ≠ F.EL_CAP_RETIRED.key 0 0 → g.key 0 0 ≠ F.EL_CAP_FREE.key 0 0 →
      s4.syncCap.startWrite.getF g = s2.getF g := fun g hr hf =>
    (State.startWrite_getF _ g 0 0 hr hf).trans (State.syncCap_getF _ g 0 0 hr hf)
  refine ⟨?_, ?_, ?_, ?_, ?_⟩
  · rw [State.startWrite_readers, State.syncCap_log]
    rfl
  · rw [hget _ (by decide) (by decide)]
    exact State.getF_setF_same _ _ _ _ _
  · rw [State.flag, hget _ (by decide) (by decide), State.getF_setF_other _ _ _ _ _ _ _ _ (by decide),
      State.getF_setF_other _ _ _ _ _ _ _ _ (by decide), State.getF_setF_other _ _ _ _ _ _ _ _ (by decide), State.getF_setF_same]
    rfl
  · rw [State.flag, hget _ (by decide) (by decide), State.getF_setF_other _ _ _ _ _ _ _ _ (by decide),
      State.getF_setF_other _ _ _ _ _ _ _ _ (by decide), State.getF_setF_same]
    rfl
  · rw [hget _ (by decide) (by decide), State.getF_setF_other _ _ _ _ _ _ _ _ (by decide), State.getF_setF_same]
    rfl

/-- Settles O3. -/
theorem logErasesRunsCloseAndCorrelates : Obligations.LogErasesRunsCloseAndCorrelates := by
  refine ⟨⟨fun s t0 ha ht hr => ⟨s.eraseLog, ?_, ?_⟩, fun s y old hr hy hw ho => ?_, fun s code w x hm hx hopen hheld => ?_⟩,
    fun s u n hr hc hn hu => ?_⟩
  · change Host.Outcome.next s.eraseCmd = _
    simp only [State.eraseCmd, ha, ht, hr, and_self, if_true]
  · obtain ⟨hl, hfirst, hfull, hwear, hcount⟩ := s.eraseLog_spec
    simp only [LogSt.readers, Prod.mk.injEq] at hl
    obtain ⟨hgen, hindex, harm⟩ := hl
    exact ⟨hgen, hindex, harm, hfirst, hfull, hwear, hcount⟩
  · subst ho
    change Host.Outcome.next s.sectorErased = _
    simp only [State.sectorErased, hr, hy, hw, Bool.not_true, Bool.false_eq_true, if_false]
  · have hheld' : (s.advanceTo (x.lastAt + w * msClk)).logHeld = false := hheld
    change Host.Outcome.next _ = _
    simp only [hm, hx, hopen, hheld', Bool.false_eq_true, if_true, if_false]
  · subst hn hu
    change Host.Outcome.next s.correlate = _
    unfold State.correlate
    simp only [hr, Bool.not_true, Bool.false_eq_true, if_false]
    exact congrArg _ (if_neg (ne_true_of_eq_false hc))

end Sys2Proof.Machine
end

section
/-! The step: it runs the front command, and every command has a next state; the words of the tables (R213, R214, R410). -/

namespace Sys2Proof.Machine

/-- Settles O54: by the definition of a step. -/
theorem stepRunsTheFrontCommand : Obligations.StepRunsTheFrontCommand :=
  ⟨fun _ _ _ => rfl, fun s h => by rw [step, h]⟩

/-- Settles O56: each word is decoded. -/
theorem wordsReadAsTheTablesGive : Obligations.WordsReadAsTheTablesGive := by
  unfold Obligations.WordsReadAsTheTablesGive
  decide +kernel

/-- Settles O59: the arm of every command answers a next state. -/
theorem everyCommandCompletes : Obligations.EveryCommandCompletes := by
  intro c s
  cases c
  all_goals exact ⟨_, rfl⟩

end Sys2Proof.Machine
end

section
/-! The maintenance port: addresses in no block, frames, and the NVM registers (R404 to R413). -/

namespace Sys2Proof.Machine

/-! ## Addresses without a register (R404, R405) -/

theorem locate_of_blockAt_none {a : Nat} (h : blockAt a = none) : locate a = none := by rw [locate, h]; rfl

theorem State.readWord_of_blockAt_none (s : State) {a : Nat} (h : blockAt a = none) : s.readWord a = (0, s) := by
  rw [State.readWord, locate_of_blockAt_none h]

theorem State.writeWord_of_blockAt_none (s : State) {a : Nat} (w : Nat) (h : blockAt a = none) : s.writeWord a w = s := by
  rw [State.writeWord, locate_of_blockAt_none h]

/-- The words of a frame that begins in a row and ends within it all lie in the row. -/
theorem oneBlock_eq_false {a n k : Nat} (hk : k < n) (h : blockAt (a + 4 * k) = none) : oneBlock a n = false := by
  unfold oneBlock
  cases hb : blockAt a with
  | none => rfl
  | some b =>
    refine decide_eq_false (fun hend => ?_)
    unfold blockAt at hb
    have hrow := List.find?_some hb
    have hmem := List.mem_of_find?_eq_some hb
    have hno := List.find?_eq_none.1 h b hmem
    simp only [Bool.and_eq_true, decide_eq_true_eq] at hrow hno
    omega

theorem writeStatus_of_hole {f : SpiFrame} {k : Nat} (hlen : f.length = 8 + 4 * spiCount f) (h1 : 1 ≤ spiCount f) (h64 : spiCount f ≤ 64)
    (hcrc : f.drop (f.length - 2) = spiCrc (f.take (f.length - 2))) (halign : spiAddr f % 4 = 0) (hk : k < spiCount f)
    (h : blockAt (spiAddr f + 4 * k) = none) : writeStatus f = 2 := by
  unfold writeStatus
  dsimp only
  rw [if_neg (by omega), if_neg (by omega), if_neg (not_not_intro hlen), if_neg (not_not_intro hcrc), if_neg (not_not_intro halign),
    oneBlock_eq_false hk h]
  rfl

theorem readStatus_of_hole {f : SpiFrame} {k : Nat} (hcrc : (f.drop 6).take 2 = spiCrc (f.take 6)) (h1 : 1 ≤ spiCount f)
    (h64 : spiCount f ≤ 64) (halign : spiAddr f % 4 = 0) (hk : k < spiCount f) (h : blockAt (spiAddr f + 4 * k) = none) :
    readStatus f = 2 := by
  have hall : (List.range (spiCount f)).all (fun k => (blockAt (spiAddr f + 4 * k)).isSome) = false :=
    List.all_eq_false.2 ⟨k, List.mem_range.2 hk, by simp [h]⟩
  unfold readStatus
  dsimp only
  rw [if_neg (not_not_intro hcrc), if_neg (by omega), if_neg (not_not_intro halign), hall]
  rfl

/-! ## Reserved addresses inside a block (R5) -/

theorem State.writePlain_of_reserved (s : State) {a : Nat} (h : fieldsAt a = []) (w : Nat) : s.writePlain a w = s := by
  rw [State.writePlain, h]; rfl

theorem State.plainWord_of_reserved (s : State) {a : Nat} (h : fieldsAt a = []) : s.plainWord a = 0 := by
  rw [State.plainWord, h]; rfl

theorem State.clearRc_of_reserved (s : State) {a : Nat} (h : fieldsAt a = []) : s.clearRc a = s := by
  rw [State.clearRc, h]; rfl

/-- The last word of the device block, of the event log, of the recorder and of the pair holds no field. -/
theorem State.reserved_words (s : State) {a : Nat} (w : Nat) (ha : a ∈ [0xFFC, 0x80FFC, 0x88FFC, 0x90FFC]) :
    s.readWord a = (0, s) ∧ s.writeWord a w = s := by
  have hf : fieldsAt a = [] := by revert a; decide +kernel
  have hr := s.plainWord_of_reserved hf
  have hw := s.writePlain_of_reserved hf w
  have hc := s.clearRc_of_reserved hf
  simp only [List.mem_cons, List.not_mem_nil, or_false] at ha
  rcases ha with rfl | rfl | rfl | rfl
  · have hl : locate 0xFFC = some (.dev, 0, 0xFFC) := by decide +kernel
    simp [State.readWord, State.writeWord, hl, State.absentReg, State.beforeRead, State.liveWord, State.afterRead, hr, hw, hc, State.writeDev]
  · have hl : locate 0x80FFC = some (.el, 0, 0xFFC) := by decide +kernel
    simp [State.readWord, State.writeWord, hl, State.absentReg, State.beforeRead, State.liveWord, State.afterRead, hr, hw, hc, State.writeLog]
  · have hl : locate 0x88FFC = some (.dr, 0, 0xFFC) := by decide +kernel
    simp [State.readWord, State.writeWord, hl, State.absentReg, State.beforeRead, State.liveWord, State.afterRead, hr, hw, hc]
  · have hl : locate 0x90FFC = some (.pr, 0, 0xFFC) := by decide +kernel
    simp [State.readWord, State.writeWord, hl, State.absentReg, State.beforeRead, State.liveWord, State.afterRead, hr, hw, hc]

/-- Settles O53. -/
theorem unmappedAddressesReadZero : Obligations.UnmappedAddressesReadZero := by
  refine ⟨fun s a w h => ⟨s.readWord_of_blockAt_none h, ?_, ?_⟩, fun f k => writeStatus_of_hole, fun f k => readStatus_of_hole,
    fun s a w ha => ⟨(s.reserved_words w.toNat ha).1, congrArg _ (s.reserved_words w.toNat ha).2⟩⟩
  · exact congrArg (fun p => Host.Outcome.next (Prod.snd p)) (s.readWord_of_blockAt_none h)
  · exact congrArg _ (s.writeWord_of_blockAt_none w.toNat h)

/-! ## Frames (R407 to R410) -/

theorem length_beBytes (n x : Nat) : (beBytes n x).length = n := by rw [beBytes, List.length_reverse, length_leBytes]

theorem length_flatMap_beBytes (l : List Nat) : (l.flatMap (beBytes 4)).length = 4 * l.length := by
  induction l with
  | nil => rfl
  | cons x l ih => rw [List.flatMap_cons, List.length_append, ih, length_beBytes, List.length_cons]; omega

theorem State.length_readWords (n : Nat) : ∀ (s : State) (a : Nat), (s.readWords a n).1.length = n := by
  induction n with
  | zero => intro s a; rfl
  | succ n ih => intro s a; exact congrArg (· + 1) (ih _ _)

theorem State.spiFrame_of_porn {s : State} (hp : s.pins.porn = true) (c : Nat) (r : List Nat) :
    (c = 2 → s.spiFrame (c :: r) = s.spiWrite (c :: r)) ∧ (c = 0x0B → s.spiFrame (c :: r) = s.spiRead (c :: r)) ∧
      (c = 5 → s.spiFrame (c :: r) = s.spiStatus) := by
  refine ⟨?_, ?_, ?_⟩ <;> rintro rfl <;> simp only [State.spiFrame, hp, Bool.not_true, Bool.false_eq_true, if_false]

/-- The words of a read frame that is clocked to its end are driven whole, with STATUS and its CRC behind them. -/
theorem State.spiRead_eq {s u : State} {f : SpiFrame} {l : List Nat} (hst : readStatus f = 0) (hlen : f.length = 13 + 4 * spiCount f)
    (hw : s.readWords (spiAddr f) (spiCount f) = (l, u)) : s.spiRead f = (u.updDev (fun d => { d with
      mso := l.flatMap (beBytes 4) ++ [0] ++ spiCrc (l.flatMap (beBytes 4) ++ [0]) })).countFrame stOk := by
  have hn : min (spiCount f) ((f.length - 10 + 3) / 4) = spiCount f := by omega
  have hl : (l.flatMap (beBytes 4)).length = 4 * spiCount f := by
    have := s.length_readWords (spiCount f) (spiAddr f)
    rw [hw] at this
    rw [length_flatMap_beBytes, this]
  have hdata : (l.flatMap (beBytes 4) ++ List.replicate (4 * spiCount f) 0).take (4 * spiCount f) = l.flatMap (beBytes 4) := by
    rw [List.take_append_of_le_length (by omega), List.take_of_length_le (by omega)]
  have hcrc : (spiCrc (l.flatMap (beBytes 4) ++ [0])).length = 2 := length_beBytes _ _
  unfold State.spiRead
  simp only [hst, hn, hw, hdata, show ¬ f.length < 8 by omega, if_false, stOk, decide_true, Bool.true_or, if_true]
  rw [List.take_of_length_le (by simp only [List.length_append, List.length_cons, hl, hcrc]; omega), List.append_assoc]
  rfl

theorem State.countFrame_ok (s : State) : s.countFrame stOk = s.bumpF F.DEV_MPCNT_FRAMES := rfl

/-- Settles O50. -/
theorem portFramesComplete : Obligations.PortFramesComplete := by
  intro s hp
  have hframe := State.spiFrame_of_porn hp
  refine ⟨fun f r hf => ?_, fun f r l u n hf hn hst hlen hw => ?_, ?_⟩
  · subst hf
    have e : exec (.writeFrame (2 :: r)) s = .next (s.spiWrite (2 :: r)) := congrArg _ ((hframe 2 r).1 rfl)
    rw [e, State.spiWrite]
    refine ⟨fun h => ?_, fun h => ?_⟩
    · simp only [h, stOk, if_true]
    · simp only [h, stOk, if_false]
  · subst hf hn
    refine ⟨_, congrArg Host.Outcome.next ((hframe 0x0B r).2.1 rfl), ?_⟩
    rw [State.spiRead_eq hst hlen hw]
    exact ⟨rfl, rfl, rfl, rfl⟩
  · refine ⟨_, congrArg Host.Outcome.next ((hframe 5 [0]).2.2 rfl), ?_⟩
    rw [State.spiStatus, State.countFrame_ok]
    exact ⟨rfl, State.getF_bumpF_same _ _ _ _ _⟩

/-! ## The NVM registers (R412, R413) -/

theorem State.nvmStart_of_refused {s : State} {cmd w c : Nat}
    (h : s.nvmRefusal cmd (s.getF F.DEV_NVMADDR_ADDR) (fieldOf w 16 8) (bitOf w 4) = some c) :
    s.nvmStart cmd w = (s.setF F.DEV_NVMSTAT_REF 0 1).setF F.DEV_NVMSTAT_CAUSE 0 c := by
  simp only [State.nvmStart, h]

theorem State.nvmStart_of_not_refused {s : State} {cmd w : Nat}
    (h : s.nvmRefusal cmd (s.getF F.DEV_NVMADDR_ADDR) (fieldOf w 16 8) (bitOf w 4) = none) :
    s.nvmStart cmd w = (s.setF F.DEV_NVMSTAT_BUSY 0 1).updDev (fun d => { d with nvm := some {
      cmd := cmd, event := bitOf w 4, addr := s.getF F.DEV_NVMADDR_ADDR, len := fieldOf w 16 8
      data := ((List.range 16).flatMap (fun j => le4 (s.getF F.DEV_NVMDATA_DATA 0 j))).take (fieldOf w 16 8) } }) := by
  simp only [State.nvmStart, h]

/-- A programmed byte keeps the bits that both hold. -/
theorem Mem.read_programN_inside (l : List Nat) : ∀ (m : Mem) (a i : Nat), i < l.length →
    Mem.read 0xFF (Mem.programN m a l) (a + i) = Mem.read 0xFF m (a + i) &&& BitVec.ofNat 8 (l.getD i 0) := by
  induction l with
  | nil => intro m a i h; cases h
  | cons b r ih =>
    intro m a i h
    cases i with
    | zero =>
      rw [Mem.programN, Mem.read_programN_outside _ _ _ _ (by omega), Nat.add_zero, Mem.read_write_same]
      rfl
    | succ i =>
      rw [Mem.programN, show a + (i + 1) = a + 1 + i by omega, ih _ _ _ (by simpa using h), Mem.read_write_other _ _ _ _ _ (by omega)]
      rfl

/-- A command's sector, from its first byte on. -/
theorem NvmCmd.in_sector (c : NvmCmd) (a : Nat) : (c.sector * (c.addr / c.sector) ≤ a ∧
    a < c.sector * (c.addr / c.sector) + c.sector) ↔ a / c.sector = c.addr / c.sector := by
  have h0 : 0 < c.sector := by unfold NvmCmd.sector; split <;> decide
  rw [Nat.div_eq_iff h0]
  generalize c.addr / c.sector = q
  have : c.sector * q = q * c.sector := Nat.mul_comm _ _
  omega

/-- What of a state an NVM read leaves: the port's command and both NVMs. -/
def State.nvms (s : State) : DevSt × Mem × Mem := (s.dev, s.evNvm, s.cfgNvm)

theorem State.nvmEffect_read (s : State) {c : NvmCmd} (h : c.cmd = 1) : (s.nvmEffect c true).nvms = s.nvms := by
  unfold State.nvmEffect
  simp only [h, if_true]
  refine State.foldl_keeps State.nvms _ (fun s j => ?_) _ s
  split <;> rfl

theorem State.nvmEffect_program (s : State) {c : NvmCmd} (h : c.cmd = 2) :
    s.nvmEffect c true = s.nvmProgram c.event c.addr c.data := by
  unfold State.nvmEffect
  simp only [h, if_true]

theorem State.nvmEffect_erase (s : State) {c : NvmCmd} (h : c.cmd = 3) : s.nvmEffect c true =
    (s.updNvm c.event (fun m => Mem.erase m (c.sector * (c.addr / c.sector)) c.sector)).dropIdentity c := by
  unfold State.nvmEffect
  simp only [h, if_true]

theorem State.nvmEffect_dev (s : State) (c : NvmCmd) : (s.nvmEffect c true).dev = s.dev := by
  unfold State.nvmEffect
  split
  · refine State.foldl_keeps State.dev _ (fun s j => ?_) _ s
    split <;> rfl
  · simp only [if_true, State.nvmProgram]
    split <;> rfl
  · simp only [if_true, State.dropIdentity, State.updNvm]
    split <;> split <;> rfl

/-- A completed command leaves what it did, BUSY clear and DONE set. -/
theorem State.nvmDone_spec {s : State} {c : NvmCmd} (h : s.dev.nvm = some c) : ∃ u,
    u = (s.updDev (fun d => { d with nvm := none })).nvmEffect c true ∧ (s.nvmDone true true).nvms = u.nvms ∧
    (s.nvmDone true true).flag F.DEV_NVMSTAT_BUSY = false ∧ (s.nvmDone true true).flag F.DEV_NVMSTAT_DONE = true := by
  refine ⟨_, rfl, ?_⟩
  unfold State.nvmDone
  simp only [h, Bool.true_or, Bool.and_true, Bool.true_and]
  generalize (s.updDev (fun d => { d with nvm := none })).nvmEffect c true = u
  have hbusy : ((u.setF F.DEV_NVMSTAT_BUSY 0 0).setF F.DEV_NVMSTAT_DONE 0 1).flag F.DEV_NVMSTAT_BUSY = false := by
    rw [State.flag, State.getF_setF_other _ _ _ _ _ _ _ _ (by decide), State.getF_setF_same]
    rfl
  have hdone : ((u.setF F.DEV_NVMSTAT_BUSY 0 0).setF F.DEV_NVMSTAT_DONE 0 1).flag F.DEV_NVMSTAT_DONE = true :=
    State.flag_setF_one _ _ _ _ (by decide)
  split
  · exact ⟨rfl, hbusy, hdone⟩
  · refine ⟨rfl, ?_, ?_⟩
    · rw [State.flag, State.getF_setF_other _ _ _ _ _ _ _ _ (by decide), State.getF_setF_other _ _ _ _ _ _ _ _ (by decide)]
      exact hbusy
    · rw [State.flag, State.getF_setF_other _ _ _ _ _ _ _ _ (by decide), State.getF_setF_other _ _ _ _ _ _ _ _ (by decide)]
      exact hdone

/-- Settles O51. -/
theorem nvmCommandsComplete : Obligations.NvmCommandsComplete := by
  refine ⟨fun s w event len addr data he hl ha hd => ?_, fun s c h => ⟨s.nvmDone true true, rfl, ?_⟩⟩
  · subst he hl ha hd
    exact ⟨fun h => congrArg _ (State.nvmStart_of_not_refused h), fun h => congrArg _ (State.nvmStart_of_not_refused h),
      fun h => congrArg _ (State.nvmStart_of_not_refused h), fun c h => congrArg _ (State.nvmStart_of_refused h)⟩
  · obtain ⟨u, hu, hn, hbusy, hdone⟩ := State.nvmDone_spec h
    have hdev : u.dev.nvm = none := by rw [hu, State.nvmEffect_dev]; rfl
    simp only [State.nvms, Prod.mk.injEq] at hn
    obtain ⟨hd, hev, hcfg⟩ := hn
    rw [hd, hev, hcfg]
    refine ⟨hdev, hbusy, hdone, fun hc => ?_, fun hc he => ?_, fun hc he => ?_⟩
    · have hr := (s.updDev (fun d => { d with nvm := none })).nvmEffect_read hc
      rw [← hu] at hr
      simp only [State.nvms, Prod.mk.injEq] at hr
      exact hr.2
    · rw [State.nvmEffect_program _ hc, State.nvmProgram, he, if_pos rfl] at hu
      subst hu
      exact ⟨rfl, fun i hi => Mem.read_programN_inside _ _ _ _ hi, fun a ha => Mem.read_programN_outside _ _ _ _ ha⟩
    · rw [State.nvmEffect_erase _ hc, State.dropIdentity, State.updNvm, he] at hu
      simp only [Bool.false_and, Bool.false_eq_true, if_false] at hu
      subst hu
      refine ⟨rfl, fun a ha => ?_, fun a ha => ?_⟩
      · exact (Mem.read_erase _ _ _ _ _).trans (if_pos ((c.in_sector a).2 ha))
      · exact (Mem.read_erase _ _ _ _ _).trans (if_neg (fun hin => ha ((c.in_sector a).1 hin)))

end Sys2Proof.Machine
end

section
/-! What the publication of signal-table writes leaves unchanged (R194, R239, R286): all but the registers, the plies, the
lanes and the publications. -/

namespace Sys2Proof.Machine

/-! ## Registers that an operation may write -/

/-- The fields lie at different places whatever their numbers: they differ modulo what both strides are multiples of, or one of them is
single and lies below all the others. -/
def Fld.apart (f g : Fld) : Bool :=
  f.key 0 0 % (32 * Nat.gcd f.stride g.stride) != g.key 0 0 % (32 * Nat.gcd f.stride g.stride) ||
    f.stride == 0 && decide (f.key 0 0 < g.key 0 0) || g.stride == 0 && decide (g.key 0 0 < f.key 0 0)

theorem Fld.key_eq_add (f : Fld) (i : Nat) : f.key i 0 = f.key 0 0 + 32 * f.stride * i := by
  simp only [Fld.key, Fld.addr]
  ring

theorem Fld.key_mod_of_dvd {f : Fld} {d : Nat} (h : d ∣ f.stride) (i : Nat) : f.key i 0 % (32 * d) = f.key 0 0 % (32 * d) := by
  obtain ⟨a, ha⟩ := h
  rw [Fld.key_eq_add, ha, show 32 * (d * a) * i = 32 * d * (a * i) by ring, Nat.add_mul_mod_self_left]

theorem Fld.key_of_single {f : Fld} (h : f.stride = 0) (i : Nat) : f.key i 0 = f.key 0 0 := by
  rw [Fld.key_eq_add, h, Nat.mul_zero, Nat.zero_mul, Nat.add_zero]

theorem Fld.key_le (f : Fld) (i : Nat) : f.key 0 0 ≤ f.key i 0 := by
  rw [Fld.key_eq_add f i]
  exact Nat.le_add_right _ _

theorem Fld.key_ne_of_apart {f g : Fld} (h : f.apart g = true) (i m : Nat) : f.key i 0 ≠ g.key m 0 := by
  intro he
  simp only [Fld.apart, Bool.or_eq_true, Bool.and_eq_true, bne_iff_ne, ne_eq, beq_iff_eq, decide_eq_true_eq] at h
  obtain (h | ⟨hs, hlt⟩) | ⟨hs, hlt⟩ := h
  · exact h (by rw [← Fld.key_mod_of_dvd (Nat.gcd_dvd_left _ _) i, he, Fld.key_mod_of_dvd (Nat.gcd_dvd_right _ _) m])
  · have := g.key_le m
    rw [← he, Fld.key_of_single hs] at this
    omega
  · have := f.key_le i
    rw [he, Fld.key_of_single hs] at this
    omega

/-- A write of one field leaves a field that lies elsewhere. -/
theorem State.getF_setF_apart (s : State) {f g : Fld} (i v m : Nat) (h : g.apart f = true) : (s.setF f i v).getF g m = s.getF g m :=
  State.getF_setF_other _ _ _ _ _ _ _ _ (Fld.key_ne_of_apart h m i)

theorem State.flag_setF_apart (s : State) {f g : Fld} (i v m : Nat) (h : g.apart f = true) : (s.setF f i v).flag g m = s.flag g m :=
  congrArg (· == 1) (s.getF_setF_apart i v m h)

/-- `s` differs from `r`, as to registers, in the fields of the list alone. -/
def State.RegsIn (l : List Fld) (r s : State) : Prop :=
  ∀ (g : Fld) (m : Nat), l.all g.apart = true → s.getF g m = r.getF g m

theorem State.RegsIn.refl (l : List Fld) (s : State) : State.RegsIn l s s := fun _ _ _ => rfl

theorem State.RegsIn.trans {l : List Fld} {a b c : State} (h : State.RegsIn l a b) (k : State.RegsIn l b c) : State.RegsIn l a c :=
  fun g m hg => (k g m hg).trans (h g m hg)

theorem State.RegsIn.mono {l l' : List Fld} {a b : State} (h : State.RegsIn l a b) (hl : l ⊆ l') : State.RegsIn l' a b :=
  fun g m hg => h g m (List.all_eq_true.2 fun f hf => List.all_eq_true.1 hg f (hl hf))

theorem State.RegsIn.setF {l : List Fld} {r s : State} (h : State.RegsIn l r s) {f : Fld} (hf : f ∈ l) (i v : Nat) :
    State.RegsIn l r (s.setF f i v) :=
  fun g m hg => (s.getF_setF_apart i v m (List.all_eq_true.1 hg f hf)).trans (h g m hg)

theorem State.RegsIn.of_regs {l : List Fld} {r s t : State} (h : State.RegsIn l r s) (ht : t.regs = s.regs) : State.RegsIn l r t :=
  fun g m hg => (show t.getF g m = s.getF g m by unfold State.getF; rw [ht]).trans (h g m hg)

theorem State.RegsIn.flag {l : List Fld} {r s : State} (h : State.RegsIn l r s) {g : Fld} {m : Nat} (hg : l.all g.apart = true) :
    s.flag g m = r.flag g m := congrArg (· == 1) (h g m hg)

theorem State.event_regsIn (s : State) (code subj sub2 : Nat) (sec : EvEpoch) (data : List Nat) :
    State.RegsIn logFields s (s.event code subj sub2 sec data) :=
  fun g m hg => State.event_getF _ _ _ _ _ _ _ _ _ (fun f hf => Fld.key_ne_of_apart (List.all_eq_true.1 hg f hf) m 0)

/-! ## What a publication may change -/

/-- The fields that a publication of signal-table writes may write. -/
def pubFields : List Fld :=
  [F.LN_LAUNCH_LATE, F.SEC_ANGLE_EVT_LATE, F.PE_SQCNT_BAND, F.PE_SQCNT_OTHER, F.PE_PLYREF_SUPER, F.PE_PLYSTAT_OWN, F.PE_PLYSTAT_SHARED,
    F.DEV_PLYPOOL_USED, F.DEV_PLYPOOL_BRIM, F.SEC_PLYSTAT_GATES]

/-- `s` differs from `r` in those fields, the plies, the lanes and the publications alone. -/
structure State.PubOnly (r s : State) : Prop where
  rest : ∃ regs w1c plies lanes pubs, s = { r with regs := regs, w1c := w1c, plies := plies, lanes := lanes, pubs := pubs }
  regs : State.RegsIn pubFields r s

theorem State.PubOnly.refl (s : State) : s.PubOnly s := ⟨⟨s.regs, s.w1c, s.plies, s.lanes, s.pubs, rfl⟩, State.RegsIn.refl _ _⟩

theorem State.PubOnly.trans {a b c : State} (h : a.PubOnly b) (g : b.PubOnly c) : a.PubOnly c := by
  refine ⟨?_, h.regs.trans g.regs⟩
  obtain ⟨_, _, _, _, _, rfl⟩ := h.rest
  obtain ⟨r, w, p, l, u, rfl⟩ := g.rest
  exact ⟨r, w, p, l, u, rfl⟩

theorem State.PubOnly.setF {r s : State} (h : r.PubOnly s) {f : Fld} (hf : f ∈ pubFields) (i v : Nat) : r.PubOnly (s.setF f i v) :=
  h.trans ⟨⟨_, _, s.plies, s.lanes, s.pubs, rfl⟩, (State.RegsIn.refl _ s).setF hf i v⟩

/-- Beside the registers only plies, lanes and publications change. -/
theorem State.PubOnly.others {r : State} (s : State) (h : r.PubOnly s) (plies : Tab Ply) (lanes : Tab LaneSt) (pubs : Tab PubSt) :
    r.PubOnly { s with plies := plies, lanes := lanes, pubs := pubs } :=
  h.trans ⟨⟨s.regs, s.w1c, plies, lanes, pubs, rfl⟩, (State.RegsIn.refl _ s).of_regs rfl⟩

theorem State.PubOnly.updLane {r s : State} (h : r.PubOnly s) (k : Nat) (f : LaneSt → LaneSt) : r.PubOnly (s.updLane k f) :=
  h.others _ s.plies _ s.pubs

theorem State.PubOnly.foldl {α : Type} {r : State} (f : State → α → State) (hf : ∀ (s : State) x, s.PubOnly (f s x)) (l : List α)
    {s : State} (h : r.PubOnly s) : r.PubOnly (l.foldl f s) :=
  List.foldlRecOn (motive := fun t => r.PubOnly t) l f h (fun t ht x _ => ht.trans (hf t x))

theorem State.noteRises_pubOnly (s : State) : s.PubOnly s.noteRises := by
  refine State.PubOnly.foldl _ (fun s c => State.PubOnly.foldl _ (fun s a => ?_) _ (State.PubOnly.refl s)) _ (State.PubOnly.refl s)
  dsimp only
  split
  · exact State.PubOnly.refl s
  · exact (State.PubOnly.refl s).updLane _ _

theorem State.syncGates_pubOnly (s : State) (k : Nat) : s.PubOnly (s.syncGates k) := by
  unfold State.syncGates
  split
  · exact (State.PubOnly.refl s).setF (by simp [pubFields]) _ _
  · exact State.PubOnly.refl s

theorem State.syncPlies_pubOnly (s : State) (e : Nat) : s.PubOnly (s.syncPlies e) :=
  ((((State.PubOnly.refl s).setF (by simp [pubFields]) _ _).setF (by simp [pubFields]) _ _).setF (by simp [pubFields]) _ _).setF
    (by simp [pubFields]) _ _

theorem State.dropPly_pubOnly (s : State) (id : Nat) : s.PubOnly (s.dropPly id) := by
  unfold State.dropPly
  split
  · exact State.PubOnly.refl s
  · refine State.PubOnly.trans (State.PubOnly.trans ?_ (State.syncPlies_pubOnly _ _)) (State.syncGates_pubOnly _ _)
    exact (State.PubOnly.refl s).others _ _ _ s.pubs

theorem State.squash_pubOnly (s : State) (id : Nat) (c : SqCause) : s.PubOnly (s.squash id c) := by
  unfold State.squash
  split
  · exact State.PubOnly.refl s
  · refine State.PubOnly.trans ?_ (State.dropPly_pubOnly _ _)
    cases c <;> exact (State.PubOnly.refl s).setF (by simp [pubFields]) _ _

theorem State.squashAll_pubOnly (s : State) (c : SqCause) (p : Ply → Bool) : s.PubOnly (s.squashAll c p) :=
  State.PubOnly.foldl _ (fun s id => s.squash_pubOnly id c) _ (State.PubOnly.refl s)

theorem State.queueEth_pubOnly (s : State) (lane : Nat) (f : EthFrame) : s.PubOnly (s.queueEth lane f) := by
  have h := State.PubOnly.refl s
  unfold State.queueEth
  split
  · exact h
  split
  · split
    · exact h.setF (by simp [pubFields]) _ _
    · exact h.updLane _ _
  · split
    · exact (h.setF (by simp [pubFields]) _ _).setF (by simp [pubFields]) _ _
    · exact h.updLane _ _
  · exact h.updLane _ _

theorem State.sendGoose_pubOnly (s : State) (i : Nat) (p : GoPub) (x : PubSt) (tt at_ : Option (Nat × Nat)) :
    s.PubOnly (s.sendGoose i p x tt at_) :=
  State.PubOnly.foldl _ (fun s n => s.queueEth_pubOnly n _) _ (State.PubOnly.refl s)

theorem State.formOne_pubOnly (s : State) (i : Nat) (p : GoPub) : s.PubOnly (s.formOne i p) := by
  unfold State.formOne
  dsimp only
  split
  · exact State.PubOnly.refl s
  · refine State.PubOnly.trans ?_ (State.sendGoose_pubOnly _ _ _ _ _ _)
    exact (State.PubOnly.refl s).others _ s.plies s.lanes _

theorem State.published_pubOnly (s : State) : s.PubOnly s.published :=
  State.PubOnly.foldl _ (fun (s : State) (p : Nat × GoPub) => s.formOne_pubOnly p.1 p.2) _ ((s.noteRises_pubOnly).trans (State.squashAll_pubOnly _ _ _))

section
variable {r s : State} (h : r.PubOnly s)
include h
theorem State.PubOnly.now : s.now = r.now := by obtain ⟨_, _, _, _, _, rfl⟩ := h.rest; rfl
theorem State.PubOnly.cores : s.cores = r.cores := by obtain ⟨_, _, _, _, _, rfl⟩ := h.rest; rfl
theorem State.PubOnly.core (k : Nat) : s.core k = r.core k := by obtain ⟨_, _, _, _, _, rfl⟩ := h.rest; rfl
theorem State.PubOnly.sigs : s.sigs = r.sigs := by obtain ⟨_, _, _, _, _, rfl⟩ := h.rest; rfl
theorem State.PubOnly.img : s.img = r.img := by obtain ⟨_, _, _, _, _, rfl⟩ := h.rest; rfl
theorem State.PubOnly.hidden : s.hidden = r.hidden := by obtain ⟨_, _, _, _, _, rfl⟩ := h.rest; rfl
theorem State.PubOnly.forces : s.forces = r.forces := by obtain ⟨_, _, _, _, _, rfl⟩ := h.rest; rfl
theorem State.PubOnly.secs : s.secs = r.secs := by obtain ⟨_, _, _, _, _, rfl⟩ := h.rest; rfl
theorem State.PubOnly.feeders : s.feeders = r.feeders := by obtain ⟨_, _, _, _, _, rfl⟩ := h.rest; rfl
theorem State.PubOnly.engines : s.engines = r.engines := by obtain ⟨_, _, _, _, _, rfl⟩ := h.rest; rfl
theorem State.PubOnly.dev : s.dev = r.dev := by obtain ⟨_, _, _, _, _, rfl⟩ := h.rest; rfl
theorem State.PubOnly.subs : s.subs = r.subs := by obtain ⟨_, _, _, _, _, rfl⟩ := h.rest; rfl
theorem State.PubOnly.pair : s.pair = r.pair := by obtain ⟨_, _, _, _, _, rfl⟩ := h.rest; rfl

/-- A signal beside the device signals reads as before. -/
theorem State.PubOnly.sig {id : Nat} (hd : ¬(123648 ≤ id ∧ id < 123904)) : s.sig id = r.sig id := by
  unfold State.sig
  rw [if_neg hd, if_neg hd, h.sigs]
end

end Sys2Proof.Machine
end

section
/-! Scheme logic: the number, compare and jump instructions (R214, R215), the timers (R216), scans and restarts (R220, R223). -/

namespace Sys2Proof.Machine

/-! ## Number, compare and jump instructions (R213 to R215) -/

/-- An instruction whose effect is one update of its core. -/
theorem State.instr_updCore {s : State} {k : Nat} (h : s.scanning k = true) {f : State → State} {g : CoreSt → CoreSt}
    (hf : f s = s.updCore k g) : s.instr k f = s.updCore k (fun c => { g c with pc := (g c).pc + 1 }) := by
  rw [State.instr_of_scanning h, hf, State.updCore_updCore]

section
variable {s : State} {k : Nat} (h : s.scanning k = true)
include h

theorem exec_lda (x : SOp) : exec (.lda k x) s = .next (s.updCore k (fun c =>
    { c with a := (s.opEntry k x).int, aq := (s.opEntry k x).q, pc := c.pc + 1 })) :=
  congrArg Host.Outcome.next ((State.instr_updCore h rfl).trans (State.updCore_congr rfl))

theorem exec_ldk (n : Bool) (i : Int) : exec (.ldk k n i) s = .next (s.updCore k (fun c =>
    { c with a := sat32 (if n then i * 1000 else i), aq := Quality.ok, pc := c.pc + 1 })) :=
  congrArg Host.Outcome.next ((State.instr_updCore h rfl).trans (State.updCore_congr rfl))

theorem exec_lde_timer (t : Nat) : exec (.lde k false t) s = .next (s.updCore k (fun c =>
    { c with a := sat32 (Tab.get c.timers {} t).e, aq := Quality.ok, pc := c.pc + 1 })) :=
  congrArg Host.Outcome.next ((State.instr_updCore h rfl).trans (State.updCore_congr rfl))

theorem exec_lde_counter (t : Nat) : exec (.lde k true t) s = .next (s.updCore k (fun c =>
    { c with a := (Tab.get c.ctrs {} t).n, aq := Quality.ok, pc := c.pc + 1 })) :=
  congrArg Host.Outcome.next ((State.instr_updCore h rfl).trans (State.updCore_congr rfl))

theorem exec_add (x : SOp) : exec (.add k x) s = .next (s.updCore k (fun c =>
    { c with a := sat32 (c.a + (s.opEntry k x).int), aq := c.aq.join (s.opEntry k x).q, pc := c.pc + 1 })) :=
  congrArg Host.Outcome.next ((State.instr_updCore h rfl).trans (State.updCore_congr rfl))

theorem exec_sub (x : SOp) : exec (.sub k x) s = .next (s.updCore k (fun c =>
    { c with a := sat32 (c.a - (s.opEntry k x).int), aq := c.aq.join (s.opEntry k x).q, pc := c.pc + 1 })) :=
  congrArg Host.Outcome.next ((State.instr_updCore h rfl).trans (State.updCore_congr rfl))

theorem exec_cmp (x : SOp) : exec (.cmp k x) s = .next (s.updCore k (fun c =>
    { c with b := compareCc x.cc c.a (s.opEntry k x).int, bq := c.aq.join (s.opEntry k x).q, pc := c.pc + 1 })) :=
  congrArg Host.Outcome.next ((State.instr_updCore h rfl).trans (State.updCore_congr rfl))

theorem exec_sta (x : SOp) : exec (.sta k x) s = .next ((s.opWrite k x ⟨(s.core k).aq, false,
    BitVec.ofNat 24 (unsext 24 (sat24 (s.core k).a))⟩).updCore k (fun c => { c with pc := c.pc + 1 })) :=
  congrArg Host.Outcome.next (State.instr_of_scanning h _)

theorem exec_jmp (off : Nat) : exec (.jmp k off) s = .next (s.updCore k (fun c => { c with pc := c.pc + off })) :=
  congrArg Host.Outcome.next (if_pos h)

/-- A conditional jump moves by the offset where B, inverted where N is 1, is 1. -/
theorem exec_jc (n : Bool) (off : Nat) : exec (.jc k n off) s = .next (s.updCore k (fun c =>
    { c with pc := if Bool.xor (s.core k).b n then c.pc + off else c.pc + 1 })) := by
  refine congrArg Host.Outcome.next ?_
  by_cases hb : Bool.xor (s.core k).b n = true
  · simp only [hb, if_true]
    exact if_pos h
  · simp only [hb]
    exact State.instr_of_scanning h id

end

/-- Settles O20: each instruction is one update of its core, STA with its write before it. -/
theorem numberAndJumpInstructionsComplete : Obligations.NumberAndJumpInstructionsComplete :=
  ⟨fun _ _ h => ⟨exec_lda h, exec_ldk h, exec_lde_timer h, exec_lde_counter h, exec_add h, exec_sub h, exec_cmp h, exec_sta h⟩,
   fun _ _ off h => ⟨exec_jmp h off, fun n => exec_jc h n off⟩⟩

/-! ## Timers (R216) -/

/-- A timer instruction as one update of its core: what the timer's execution gives, noted with the instant and the angle. -/
theorem State.timerOp_eq (s : State) (k t : Nat) (kind : TimerKind) (ticks : Bool) (x : TimerSt) (r : TimerSt × Bool)
    (hx : x = Tab.get (s.core k).timers {} t)
    (hr : r = x.exec kind (s.core k).b (s.timerDelta k x ticks) (max (s.core k).a 0)) :
    s.timerOp k t kind ticks = s.updCore k (fun c => { c with
      timers := Tab.set c.timers t { r.1 with at_ := s.now, angle := s.coreAngle k, fresh := false }
      b := r.2
      bq := c.bq.join c.aq }) := by
  obtain ⟨y, b⟩ := r
  subst hx
  unfold State.timerOp State.setB
  simp only [← hr]
  rw [State.updCore_updCore]
  exact State.updCore_congr rfl

/-- What a timer instruction of a core that scans leaves: its timer's elapsed time and B are those of the execution. -/
theorem State.instr_timerOp {s : State} {k t : Nat} {kind : TimerKind} {ticks : Bool} {x : TimerSt} {p d e : Int} {b : Bool}
    (h : s.scanning k = true) (hx : x = Tab.get (s.core k).timers {} t) (hp : p = max (s.core k).a 0)
    (hd : d = s.timerDelta k x ticks) (he : (x.exec kind (s.core k).b d p).1.e = e) (hb : (x.exec kind (s.core k).b d p).2 = b) :
    (((s.instr k (fun s => s.timerOp k t kind ticks)).core k).pc = (s.core k).pc + 1) ∧
    (Tab.get ((s.instr k (fun s => s.timerOp k t kind ticks)).core k).timers {} t).e = e ∧
    ((s.instr k (fun s => s.timerOp k t kind ticks)).core k).b = b := by
  subst hp hd he hb
  rw [State.instr_updCore h (s.timerOp_eq k t kind ticks x _ hx rfl), State.core_updCore]
  simp only [Tab.get_set_same, and_self]

/-- An on-delay counts while its input was and is 1, and is 0 at the rise. -/
theorem TimerSt.exec_ton (x : TimerSt) (inp : Bool) (d p : Int) :
    (x.exec .ton inp d p).1.e = (if inp && x.inp then min (x.e + d) p else 0) ∧
    (x.exec .ton inp d p).2 = (inp && decide (p ≤ if x.inp then min (x.e + d) p else 0)) := by
  cases inp with
  | false => exact ⟨rfl, rfl⟩
  | true => cases hi : x.inp <;> simp [TimerSt.exec, hi]

/-- An off-delay counts while its input is 0. -/
theorem TimerSt.exec_tof (x : TimerSt) (inp : Bool) (d p : Int) :
    (x.exec .tof inp d p).1.e = (if inp then 0 else min (x.e + d) p) ∧
    (x.exec .tof inp d p).2 = (inp || decide (min (x.e + d) p < p)) := by
  cases inp <;> exact ⟨rfl, rfl⟩

/-- A pulse that runs goes on up to the preset. -/
theorem TimerSt.exec_tp_of_running (x : TimerSt) (inp : Bool) (d p : Int) (hr : x.running = true) :
    (x.exec .tp inp d p).1.e = x.e + d ∧ (x.exec .tp inp d p).2 = decide (x.e + d < p) := by
  simp [TimerSt.exec, hr]

/-- A pulse starts with a rise. -/
theorem TimerSt.exec_tp_of_rise (x : TimerSt) (d p : Int) (hr : x.running = false) (hi : x.inp = false) :
    (x.exec .tp true d p).1.e = 0 ∧ (x.exec .tp true d p).2 = decide (0 < p) := by
  simp [TimerSt.exec, hr, hi]

/-- Without a rise none starts. -/
theorem TimerSt.exec_tp_of_no_rise (x : TimerSt) (inp : Bool) (d p : Int) (hr : x.running = false)
    (hi : inp = false ∨ x.inp = true) : (x.exec .tp inp d p).2 = false := by
  obtain rfl | hi := hi
  · simp [TimerSt.exec, hr]
  · simp [TimerSt.exec, hr, hi]

/-- Settles O21: every timer instruction is one update of its core by the timer's execution, taken kind by kind. -/
theorem timerInstructionsComplete : Obligations.TimerInstructionsComplete := by
  rintro s k i x p d da h hx hp hd hda
  have ton (d) := x.exec_ton (s.core k).b d p
  have tof (d) := x.exec_tof (s.core k).b d p
  refine ⟨⟨_, rfl, State.instr_timerOp h hx hp hd (ton d).1 (ton d).2⟩, ⟨_, rfl, State.instr_timerOp h hx hp hda (ton da).1 (ton da).2⟩,
    ⟨_, rfl, State.instr_timerOp h hx hp hd (tof d).1 (tof d).2⟩, ⟨_, rfl, State.instr_timerOp h hx hp hda (tof da).1 (tof da).2⟩,
    ⟨_, rfl, ?_⟩⟩
  obtain ⟨hpc, he, hb⟩ := State.instr_timerOp (kind := .tp) h hx hp hd rfl rfl
  refine ⟨hpc, fun hr => ?_, fun hr hs hi => ?_, fun hr hs => ?_⟩
  · obtain ⟨e, b⟩ := x.exec_tp_of_running (s.core k).b d p hr
    exact ⟨he.trans e, hb.trans b⟩
  · obtain ⟨e, b⟩ := x.exec_tp_of_rise d p hr hi
    rw [hs] at he hb
    exact ⟨he.trans e, hb.trans b⟩
  · exact hb.trans (x.exec_tp_of_no_rise _ d p hr hs)

/-! ## Scans and restarts (R211, R220, R221, R223) -/

/-- An added good quality changes nothing. -/
theorem Quality.join_ok (q : Quality) : q.join Quality.ok = q := by
  obtain ⟨v, t, d⟩ := q
  cases v <;> simp [Quality.join, Quality.ok, Validity.worst]

/-- A write of a signal that no force holds is what the signal reads. -/
theorem State.putSig_sig_same {s : State} {id : Nat} (e : Entry) (hf : s.forcedSig id = false) (hd : ¬(123648 ≤ id ∧ id < 123904)) :
    (s.putSig id e).sig id = e := by
  have h := s.sigBelow_putSig_same id e hd
  have hf' : (s.putSig id e).forcedSig id = false := by rw [← hf]; simp [State.forcedSig]
  rwa [State.sigBelow, hf', if_neg (by simp)] at h

/-- Writes of other signals leave a signal as it is. -/
theorem State.foldl_putSig_sig_other {α : Type} (f : α → Nat) (g : α → Entry) (id : Nat) (l : List α) (s : State) (h : ∀ p ∈ l, f p ≠ id) :
    (l.foldl (fun s p => s.putSig (f p) (g p)) s).sig id = s.sig id :=
  List.foldlRecOn (motive := fun t : State => t.sig id = s.sig id) l _ rfl
    (fun t ht p hp => (t.putSig_sig_other (f p) id (g p) (Ne.symm (h p hp))).trans ht)

/-- Of a table of writes, each signal takes its own entry. -/
theorem State.foldl_putSig_sig_find (g : Entry → Entry) {id : Nat} {e : Entry} (hd : ¬(123648 ≤ id ∧ id < 123904)) (l : Tab Entry) :
    ∀ s : State, s.forcedSig id = false → Tab.sorted l = true → Tab.find l id = some e →
      (l.foldl (fun s p => s.putSig p.1 (g p.2)) s).sig id = g e := by
  induction l with
  | nil => intro s _ _ h; exact absurd h (by simp)
  | cons c r ih =>
    obtain ⟨a, x⟩ := c
    intro s hf hs h
    obtain ⟨hlt, hr⟩ := List.pairwise_cons.1 ((Tab.sorted_iff _).1 hs)
    rw [List.foldl_cons]
    by_cases ha : a = id
    · subst ha
      obtain rfl : x = e := by simpa [Tab.find] using h
      rw [State.foldl_putSig_sig_other _ (fun p => g p.2) a r _ (fun p hp => (Nat.ne_of_lt (hlt p hp)).symm), State.putSig_sig_same _ hf hd]
    · refine ih _ ?_ ((Tab.sorted_iff _).2 hr) (by simpa [Tab.find, ha] using h)
      rw [← hf]; simp [State.forcedSig]

/-- The counters of a scan that kept its deadline are register writes, and the core notes how the scan ended. -/
theorem State.scanCounters_of_not_overrun (s : State) (k : Nat) (h : (s.core k).overrun = false) :
    ∃ regs w1c, s.scanCounters k = ({ s with regs := regs, w1c := w1c } : State).updCore k (fun c => { c with lastInTime := !c.overrun }) := by
  unfold State.scanCounters
  simp only [h, Bool.false_and, Bool.false_eq_true, if_false]
  exact ⟨_, _, rfl⟩

theorem State.publishScan_core (s : State) (k m : Nat) : (s.publishScan k).core m = s.core m :=
  State.foldl_keeps (fun s => s.core m) _ (fun s p => by simp [State.core]) _ s

theorem State.publishScan_now (s : State) (k : Nat) : (s.publishScan k).now = s.now :=
  State.foldl_keeps State.now _ (fun s p => by simp) _ s

/-- After the scan of a core that is ON with nothing waiting the next scan starts. -/
theorem State.afterScan_of_on {s : State} {k : Nat} (h : s.getF F.LC_STAT_STATE k = 2) (hp : (s.core k).pend = 0) :
    s.afterScan k = s.updCore k (fun c => c.newScan s.now) := by
  unfold State.afterScan
  simp only [h, hp]
  rfl

/-- END of a scan of a core that is ON, in time, with nothing waiting: the writes are published and the next scan starts. -/
theorem State.endScan_of_on {s : State} {k : Nat} (hk : k < 4) (h2 : s.getF F.LC_STAT_STATE k = 2) (hp : (s.core k).pend = 0)
    (ho : (s.core k).overrun = false) (hd : s.now - (s.core k).scanAt ≤ (s.coreCfg k).deadline * 10 * usClk) :
    ∃ u : State, s.endScan k = u.published ∧ u.sigs = (s.publishScan k).sigs ∧ ∃ c : CoreSt, u.core k = c.newScan s.now := by
  have hq : (s.publishScan k).getF F.LC_STAT_STATE k ≠ 1 := by rw [State.publishScan_coreState, h2]; decide
  have hlate : ¬((!(s.core k).overrun && decide ((s.coreCfg k).deadline * 10 * usClk < s.now - (s.core k).scanAt)) = true) := by
    rw [decide_eq_false (by omega), Bool.and_false]; exact Bool.false_ne_true
  obtain ⟨u, hu⟩ : ∃ u, u = (s.publishScan k).updCore k (fun c => c.keep ((s.publishScan k).coreCfg k)) := ⟨_, rfl⟩
  have huc : u.core k = (s.core k).keep ((s.publishScan k).coreCfg k) := by rw [hu, State.core_updCore, State.publishScan_core]
  have he : s.endScan k = ((u.scanCounters k).afterScan k).published := by
    unfold State.endScan
    dsimp only
    rw [if_neg hlate, if_neg hq, hu]
  obtain ⟨regs, w1c, hc⟩ := u.scanCounters_of_not_overrun k (by rw [huc]; exact ho)
  have hon : (u.scanCounters k).getF F.LC_STAT_STATE k = 2 := by
    rw [State.scanCounters_coreState _ hk, hu, State.updCore_getF, State.publishScan_coreState, h2]
  have hnow : (u.scanCounters k).now = s.now := by rw [hc, hu]; exact s.publishScan_now k
  have hpend : ((u.scanCounters k).core k).pend = 0 := by
    rw [hc, State.core_updCore]
    change (u.core k).pend = 0
    rw [huc]; exact hp
  refine ⟨_, he, ?_, (u.scanCounters k).core k, ?_⟩
  · rw [State.afterScan_of_on hon hpend, hc, hu]
    rfl
  · rw [State.afterScan_of_on hon hpend, State.core_updCore, hnow]

/-- A scan in time publishes its writes as they are. -/
theorem State.publishScan_sig {s : State} {k id : Nat} {e : Entry} (ho : (s.core k).overrun = false)
    (hs : Tab.sorted (s.core k).writes = true) (he : Tab.find (s.core k).writes id = some e) (hf : s.forcedSig id = false)
    (hd : ¬(123648 ≤ id ∧ id < 123904)) : (s.publishScan k).sig id = e := by
  unfold State.publishScan
  dsimp only
  rw [ho]
  have h := State.foldl_putSig_sig_find (fun x => { x with q := x.q.join (Quality.when false Quality.quest) }) hd _ s hf hs he
  simpa only [Quality.when, Bool.false_eq_true, if_false, Quality.join_ok] using h

/-- END in time starts the next scan with an empty stack, and what the scan wrote is what the signals read. -/
theorem exec_end_in_time {s : State} {k : Nat} (hk : k < 4) (h2 : s.getF F.LC_STAT_STATE k = 2) (hp : (s.core k).pend = 0)
    (ho : (s.core k).overrun = false) (hd : s.now - (s.core k).scanAt ≤ (s.coreCfg k).deadline * 10 * usClk)
    (hs : Tab.sorted (s.core k).writes = true) :
    ∃ t, exec (.end_ k) s = .next t ∧ (∃ c : CoreSt, t.core k = c.newScan s.now) ∧
      ∀ id e, Tab.find (s.core k).writes id = some e → s.forcedSig id = false → ¬(123648 ≤ id ∧ id < 123904) → t.sig id = e := by
  have hscan : s.scanning k = true := by simp [State.scanning, hk, h2]
  obtain ⟨u, he, hsigs, c, hc⟩ := State.endScan_of_on hk h2 hp ho hd
  refine ⟨_, exec_end_of_scanning hscan, ⟨c, ?_⟩, fun id e hfind hf hdev => ?_⟩
  · rw [he, (State.published_pubOnly _).core, hc]
  · rw [he, (State.published_pubOnly _).sig hdev, ← State.publishScan_sig ho hs hfind hf hdev]
    unfold State.sig
    rw [if_neg hdev, if_neg hdev, hsigs]

theorem exec_scanOverrun {s u : State} {k : Nat} (h : s.scanning k = true) (ho : (s.core k).overrun = false)
    (hu : u = s.advanceTo ((s.core k).scanAt + (s.coreCfg k).deadline * 10 * usClk)) :
    exec (.scanOverrun k) s = .next (((u.setF F.LC_STAT_OVR k 1).incF F.LC_OVRCNT_OVR k).updCore k (fun c =>
      { c with overrun := true })) := by
  subst hu
  refine congrArg Host.Outcome.next ?_
  rw [if_pos (by simp [h, ho]), State.overrunCore]
  exact if_neg (by rw [State.advanceTo_core, ho]; exact Bool.false_ne_true)

/-- A restarted core: STARTING, at its first instruction, without timers, with the variables and counters that the kind of restart keeps. -/
theorem State.restartCore_core (s : State) (k : Nat) (warm : Bool) :
    (s.restartCore k warm).getF F.LC_STAT_STATE k = 1 ∧
    ((s.restartCore k warm).core k).timers = [] ∧ ((s.restartCore k warm).core k).pc = 0 ∧
    ((s.restartCore k warm).core k).vars =
      (if warm then (s.core k).vars.filter (fun p => decide (p.1 < (s.coreCfg k).nv)) else []) ∧
    (warm = false → ((s.restartCore k warm).core k).ctrs = []) := by
  unfold State.restartCore
  dsimp only
  generalize (if warm = true then _ else _ : List (Nat × Entry)) = under
  obtain ⟨u, hu⟩ : ∃ u, u = under.foldl (fun s p => s.putSig p.1 p.2.invalidate) s := ⟨_, rfl⟩
  have hcore : u.core k = s.core k := by
    rw [hu]; exact State.foldl_keeps (fun s => s.core k) _ (fun s p => by simp [State.core]) _ s
  have hcfg : u.coreCfg k = s.coreCfg k := by
    rw [hu]; exact State.foldl_keeps (fun s => s.coreCfg k) _ (fun s p => by simp [State.coreCfg, State.img]) _ s
  rw [← hu, State.getF_setF_other _ _ _ _ _ _ _ _ (Fld.key_ne_of_lo _ _ _ _ _ _ (by decide) (by decide) (by decide)),
    State.getF_setF_same, State.setF_core, State.setF_core, State.core_updCore, hcore, hcfg]
  exact ⟨rfl, rfl, rfl, rfl, fun h => by rw [h]; rfl⟩

theorem State.coreRestartCmd_of_off {s : State} {k : Nat} (hp : s.hasProgram k = true) (h0 : s.getF F.LC_STAT_STATE k = 0) (warm : Bool) :
    s.coreRestartCmd k warm = s.restartCore k warm := by
  simp [State.coreRestartCmd, hp, h0]

theorem State.coreRestartCmd_of_on {s : State} {k : Nat} (hp : s.hasProgram k = true) (h2 : s.getF F.LC_STAT_STATE k = 2) (warm : Bool) :
    s.coreRestartCmd k warm = s.updCore k (fun c => { c with pend := if warm then 1 else 2 }) := by
  simp [State.coreRestartCmd, hp, h2]

theorem exec_lcStop_of_on {s : State} {k : Nat} (hk : k < 4) (h2 : s.getF F.LC_STAT_STATE k = 2) :
    exec (.lcStop k) s = .next ((s.updCore k (fun c => { c with pend := 0, pendOn := false })).setF F.LC_STAT_STATE k 3) := by
  change Host.Outcome.next (s.coreStopCmd k) = _
  simp [State.coreStopCmd, hk, h2]

/-- Settles O23: the scan's end through the state it publishes, the restarts through the core they leave. -/
theorem scansAndRestartsComplete : Obligations.ScansAndRestartsComplete := by
  refine ⟨fun s k hk h2 hp ho hd hs => ?_, fun s u k h ho hu => exec_scanOverrun h ho hu, fun s k hp h0 => ⟨?_, ?_⟩,
    fun s k hp h2 => ⟨congrArg Host.Outcome.next (State.coreRestartCmd_of_on hp h2 true),
      congrArg Host.Outcome.next (State.coreRestartCmd_of_on hp h2 false)⟩, fun s k hk h2 => exec_lcStop_of_on hk h2⟩
  · obtain ⟨t, ht, ⟨c, hc⟩, hsig⟩ := exec_end_in_time hk h2 hp ho hd hs
    refine ⟨t, ht, by rw [hc]; rfl, by rw [hc]; rfl, by rw [hc]; rfl, by rw [hc]; rfl, by rw [hc]; rfl, by rw [hc]; rfl,
      fun id e hfind hf hdev => ?_⟩
    rw [hsig id e hfind hf hdev]
    exact ⟨rfl, rfl⟩
  · obtain ⟨hst, htim, hpc, hvars, hctrs⟩ := s.restartCore_core k false
    exact ⟨_, congrArg Host.Outcome.next (State.coreRestartCmd_of_off hp h0 false), hst, hvars, hctrs rfl, htim, hpc⟩
  · obtain ⟨hst, htim, hpc, hvars, -⟩ := s.restartCore_core k true
    exact ⟨_, congrArg Host.Outcome.next (State.coreRestartCmd_of_off hp h0 true), hst, hvars, htim, hpc⟩

end Sys2Proof.Machine
end

section
/-! The pair: what taking a role leaves and what it may change (R303, R306, R310), contests (R318, R319), roles and ring-break service
(R308, R309, R311, R312, R323), demotion (R320 to R322). -/

namespace Sys2Proof.Machine

/-! ## What follows a change of the side's state -/

/-- The fields that follow the side's role beside PR_STAT.ACTIVE, ROLEEVT and PR_CLAIM.G. -/
def roleFields : List Fld :=
  pubFields ++ (logFields ++ [F.LN_TCSVC_FIRST, F.LN_TCSVC_LAST, F.PR_CLAIM_CLAIM, F.PR_STAT_GHIGH, F.PR_STAT_PAIROKREL, F.PR_STAT_PAIROKIN,
    F.PR_STAT_RINGSVC])

theorem pubFields_subset_roleFields : pubFields ⊆ roleFields := List.subset_append_left _ _
theorem logFields_subset_roleFields : logFields ⊆ roleFields :=
  List.Subset.trans (List.subset_append_left _ _) (List.subset_append_right _ _)

/-- `s` differs from `r` in registers, lanes, plies, publications and the log alone, as to registers in those fields alone. -/
structure State.RoleOnly (r s : State) : Prop where
  rest : ∃ regs w1c plies lanes pubs log nvm, s = { r with
    regs := regs, w1c := w1c, plies := plies, lanes := lanes, pubs := pubs, log := log, evNvm := nvm }
  regs : State.RegsIn roleFields r s

theorem State.RoleOnly.refl (s : State) : s.RoleOnly s :=
  ⟨⟨s.regs, s.w1c, s.plies, s.lanes, s.pubs, s.log, s.evNvm, rfl⟩, State.RegsIn.refl _ _⟩

theorem State.RoleOnly.trans {a b c : State} (h : a.RoleOnly b) (g : b.RoleOnly c) : a.RoleOnly c := by
  refine ⟨?_, h.regs.trans g.regs⟩
  obtain ⟨_, _, _, _, _, _, _, rfl⟩ := h.rest
  obtain ⟨r, w, p, l, u, o, n, rfl⟩ := g.rest
  exact ⟨r, w, p, l, u, o, n, rfl⟩

theorem State.RoleOnly.setF {r s : State} (h : r.RoleOnly s) {f : Fld} (hf : f ∈ roleFields) (i v : Nat) : r.RoleOnly (s.setF f i v) :=
  h.trans ⟨⟨_, _, s.plies, s.lanes, s.pubs, s.log, s.evNvm, rfl⟩, (State.RegsIn.refl _ s).setF hf i v⟩

theorem State.RoleOnly.withLanes {r s : State} (h : r.RoleOnly s) (lanes : Tab LaneSt) : r.RoleOnly { s with lanes := lanes } :=
  h.trans ⟨⟨s.regs, s.w1c, s.plies, lanes, s.pubs, s.log, s.evNvm, rfl⟩, (State.RegsIn.refl _ s).of_regs rfl⟩

theorem State.published_roleOnly (s : State) : s.RoleOnly s.published := by
  refine ⟨?_, s.published_pubOnly.regs.mono pubFields_subset_roleFields⟩
  obtain ⟨regs, w1c, plies, lanes, pubs, h⟩ := s.published_pubOnly.rest
  exact ⟨regs, w1c, plies, lanes, pubs, s.log, s.evNvm, h⟩

theorem State.event_roleOnly (s : State) (code subj sub2 : Nat) (sec : EvEpoch) (data : List Nat) :
    s.RoleOnly (s.event code subj sub2 sec data) := by
  refine ⟨?_, (s.event_regsIn code subj sub2 sec data).mono logFields_subset_roleFields⟩
  obtain ⟨regs, w1c, log, nvm, h⟩ := (s.event_logOnly code subj sub2 sec data).rest
  exact ⟨regs, w1c, s.plies, s.lanes, s.pubs, log, nvm, h⟩

theorem State.roleRanges_roleOnly (s : State) (active : Bool) : s.RoleOnly (s.roleRanges active) := by
  refine List.foldlRecOn (motive := fun t => s.RoleOnly t) _ _ (State.RoleOnly.refl s) (fun t ht c _ => ?_)
  unfold State.roleRange
  split
  · exact ((ht.setF (by simp [roleFields]) _ _).setF (by simp [roleFields]) _ _).withLanes _
  split
  · exact ht
  · exact (ht.setF (by simp [roleFields]) _ _).setF (by simp [roleFields]) _ _

theorem State.syncPairOk_roleOnly (s : State) : s.RoleOnly s.syncPairOk :=
  ((State.RoleOnly.refl s).setF (by simp [roleFields]) _ _).setF (by simp [roleFields]) _ _

theorem State.syncClaim_roleOnly (s : State) : s.RoleOnly s.syncClaim :=
  ((State.RoleOnly.refl s).setF (by simp [roleFields]) _ _).setF (by simp [roleFields]) _ _

theorem State.syncRing_roleOnly (s : State) : s.RoleOnly s.syncRing := by
  refine State.RoleOnly.setF ?_ (by simp [roleFields]) _ _
  split
  · exact State.RoleOnly.refl s
  · exact (State.RoleOnly.refl s).withLanes _

theorem State.syncRole_roleOnly (s : State) : s.RoleOnly s.syncRole :=
  (s.syncClaim_roleOnly.trans (State.syncPairOk_roleOnly _)).trans (State.syncRing_roleOnly _)

section
variable {r s : State} (h : r.RoleOnly s)
include h
theorem State.RoleOnly.now : s.now = r.now := by obtain ⟨_, _, _, _, _, _, _, rfl⟩ := h.rest; rfl
theorem State.RoleOnly.pair : s.pair = r.pair := by obtain ⟨_, _, _, _, _, _, _, rfl⟩ := h.rest; rfl
theorem State.RoleOnly.pins : s.pins = r.pins := by obtain ⟨_, _, _, _, _, _, _, rfl⟩ := h.rest; rfl
theorem State.RoleOnly.isActive : s.isActive = r.isActive := h.regs.flag (by decide)
theorem State.RoleOnly.gen : s.gen = r.gen := h.regs _ _ (by decide)
theorem State.RoleOnly.failed : s.flag F.PR_STAT_FAILED = r.flag F.PR_STAT_FAILED := h.regs.flag (by decide)
theorem State.RoleOnly.demoted : s.flag F.PR_STAT_DEMOTED = r.flag F.PR_STAT_DEMOTED := h.regs.flag (by decide)
theorem State.RoleOnly.demHeld : s.flag F.PR_STAT_DEMHELD = r.flag F.PR_STAT_DEMHELD := h.regs.flag (by decide)
end

/-- A field of one bit set to a truth value reads as it. -/
theorem State.flag_setF_b2n (s : State) (f : Fld) (i : Nat) (b : Bool) (hw : 1 ≤ f.width) : (s.setF f i (b2n b)).flag f i = b := by
  cases b with
  | true => exact State.flag_setF_one _ _ _ _ hw
  | false => exact State.flag_setF_zero _ _ _ _

/-! ### The claim and PAIR_OK (R303, R306) -/

/-- What CLAIM follows (R306). -/
def State.claimValue (s : State) : Nat :=
  if s.flag F.PR_STAT_FAILED || s.flag F.PR_STAT_DEMOTED then 0 else if s.isActive && !s.lowered then 0x8000 + s.gen else s.gen

theorem State.claim_syncClaim (s : State) : s.syncClaim.getF F.PR_CLAIM_CLAIM = s.claimValue % 2 ^ 16 := by
  unfold State.syncClaim
  rw [State.getF_setF_apart _ _ _ _ (by decide), State.getF_setF_same]
  rfl

/-- The ring's fields are beside the claim and PAIR_OK. -/
theorem State.getF_syncRing (s : State) (g : Fld) (m : Nat) (h : g.apart F.PR_STAT_RINGSVC = true) : s.syncRing.getF g m = s.getF g m := by
  refine (State.getF_setF_apart _ _ _ _ h).trans ?_
  split <;> rfl

theorem State.getF_syncPairOk (s : State) (g : Fld) (m : Nat) (h : g.apart F.PR_STAT_PAIROKREL = true) (h' : g.apart F.PR_STAT_PAIROKIN = true) :
    s.syncPairOk.getF g m = s.getF g m := by
  unfold State.syncPairOk
  rw [State.getF_setF_apart _ _ _ _ h', State.getF_setF_apart _ _ _ _ h]

theorem State.claim_syncRole (s : State) : s.syncRole.getF F.PR_CLAIM_CLAIM = s.claimValue % 2 ^ 16 := by
  rw [State.syncRole, State.getF_syncRing _ _ _ (by decide), State.getF_syncPairOk _ _ _ (by decide) (by decide), State.claim_syncClaim]

/-- A side that is FAILED or DEMOTED claims nothing. -/
theorem State.claim_syncRole_of_out {s : State} (h : s.flag F.PR_STAT_FAILED = true ∨ s.flag F.PR_STAT_DEMOTED = true) :
    s.syncRole.getF F.PR_CLAIM_CLAIM = 0 := by
  rw [State.claim_syncRole, State.claimValue, if_pos (by simpa using h), Nat.zero_mod]

/-- PAIR_OK is released while protection is active and the side is neither FAILED nor DEMOTED (R303). -/
def State.releases (s : State) : Bool :=
  s.getF F.DEV_STAT_STATE == 3 && !s.flag F.PR_STAT_FAILED && !s.flag F.PR_STAT_DEMOTED

theorem State.pairOkRel_syncPairOk (s : State) : s.syncPairOk.flag F.PR_STAT_PAIROKREL = s.releases := by
  unfold State.syncPairOk State.flag
  rw [State.getF_setF_apart _ _ _ _ (by decide)]
  exact State.flag_setF_b2n _ _ _ _ (by decide)

theorem State.pairOkIn_syncPairOk (s : State) : s.syncPairOk.flag F.PR_STAT_PAIROKIN = (s.releases && s.pins.pairOkIn) :=
  State.flag_setF_b2n _ _ _ _ (by decide)

theorem State.pairOkRel_syncRole (s : State) : s.syncRole.flag F.PR_STAT_PAIROKREL = s.releases := by
  rw [State.syncRole, State.flag, State.getF_syncRing _ _ _ (by decide)]
  refine (State.pairOkRel_syncPairOk _).trans ?_
  unfold State.releases
  rw [s.syncClaim_roleOnly.failed, s.syncClaim_roleOnly.demoted, s.syncClaim_roleOnly.regs _ _ (by decide)]

theorem State.pairOkIn_syncRole (s : State) (h : s.pins.pairOkIn = false) : s.syncRole.flag F.PR_STAT_PAIROKIN = false := by
  rw [State.syncRole, State.flag, State.getF_syncRing _ _ _ (by decide)]
  refine (State.pairOkIn_syncPairOk _).trans ?_
  rw [s.syncClaim_roleOnly.pins, h, Bool.and_false]

/-! ### Taking a role -/

/-- The three fields of a role that is taken. -/
def State.withRole (s : State) (active : Bool) (g : Nat) : State :=
  ((s.setF F.PR_STAT_ACTIVE 0 (b2n active)).setF F.PR_CLAIM_G 0 g).setF F.PR_STAT_ROLEEVT 0 1

section
variable (s : State) (active : Bool) (g : Nat)
theorem State.withRole_isActive : (s.withRole active g).isActive = active := by
  unfold State.withRole State.isActive State.flag
  rw [State.getF_setF_apart _ _ _ _ (by decide),
    State.getF_setF_apart _ _ _ _ (by decide)]
  exact State.flag_setF_b2n _ _ _ _ (by decide)
theorem State.withRole_gen : (s.withRole active g).gen = g % 2 ^ 15 := by
  unfold State.withRole State.gen
  rw [State.getF_setF_apart _ _ _ _ (by decide), State.getF_setF_same]
  rfl
theorem State.withRole_roleEvt : (s.withRole active g).flag F.PR_STAT_ROLEEVT = true := State.flag_setF_one _ _ _ _ (by decide)
theorem State.withRole_regsIn : State.RegsIn [F.PR_STAT_ACTIVE, F.PR_CLAIM_G, F.PR_STAT_ROLEEVT] s (s.withRole active g) :=
  (((State.RegsIn.refl _ s).setF (by simp) _ _).setF (by simp) _ _).setF (by simp) _ _
end

/-- Taking a role writes the three fields; the rest follows from the side's state. -/
theorem State.takeRole_roleOnly (s : State) (active : Bool) (g cause : Nat) :
    (s.withRole active g).RoleOnly (s.takeRole active g cause) :=
  (((State.roleRanges_roleOnly _ _).trans (State.syncRole_roleOnly _)).trans (State.event_roleOnly _ _ _ _ _ _)).trans (State.published_roleOnly _)

section
variable (s : State) (active : Bool) (g cause : Nat)

theorem State.takeRole_isActive : (s.takeRole active g cause).isActive = active :=
  (s.takeRole_roleOnly active g cause).isActive.trans (s.withRole_isActive active g)
theorem State.takeRole_gen : (s.takeRole active g cause).gen = g % 2 ^ 15 :=
  (s.takeRole_roleOnly active g cause).gen.trans (s.withRole_gen active g)
theorem State.takeRole_pair : (s.takeRole active g cause).pair = s.pair := (s.takeRole_roleOnly active g cause).pair
theorem State.takeRole_pins : (s.takeRole active g cause).pins = s.pins := (s.takeRole_roleOnly active g cause).pins
theorem State.takeRole_now : (s.takeRole active g cause).now = s.now := (s.takeRole_roleOnly active g cause).now
theorem State.takeRole_roleEvt : (s.takeRole active g cause).flag F.PR_STAT_ROLEEVT = true :=
  ((s.takeRole_roleOnly active g cause).regs.flag (by decide)).trans (s.withRole_roleEvt active g)
theorem State.takeRole_flag {f : Fld} (m : Nat) (hr : roleFields.all f.apart = true)
    (h : [F.PR_STAT_ACTIVE, F.PR_CLAIM_G, F.PR_STAT_ROLEEVT].all f.apart = true) : (s.takeRole active g cause).flag f m = s.flag f m :=
  ((s.takeRole_roleOnly active g cause).regs.flag hr).trans ((s.withRole_regsIn active g).flag h)
/-- The state of a role that is taken, before its record and the publication. -/
theorem State.takeRole_claim (h : s.flag F.PR_STAT_FAILED = true ∨ s.flag F.PR_STAT_DEMOTED = true) :
    (s.takeRole active g cause).getF F.PR_CLAIM_CLAIM = 0 := by
  unfold State.takeRole
  rw [(State.published_pubOnly _).regs _ _ (by decide), State.event_regsIn _ _ _ _ _ _ _ _ (by decide)]
  refine State.claim_syncRole_of_out ?_
  have hr := State.roleRanges_roleOnly (s.withRole active g) active
  have hw := s.withRole_regsIn active g
  exact h.imp (fun h => (hr.failed.trans (hw.flag (by decide))).trans h) (fun h => (hr.demoted.trans (hw.flag (by decide))).trans h)

theorem State.takeRole_pairOkIn (h : s.pins.pairOkIn = false) : (s.takeRole active g cause).flag F.PR_STAT_PAIROKIN = false := by
  unfold State.takeRole
  rw [(State.published_pubOnly _).regs.flag (by decide), (State.event_regsIn _ _ _ _ _ _).flag (by decide)]
  exact State.pairOkIn_syncRole _ ((congrArg Pins.pairOkIn (State.roleRanges_roleOnly (s.withRole active g) active).pins).trans h)

end

/-! ## Contests (R318, R319) -/

theorem exec_selfTestComplete {s : State} {c : Contest} (failed : Nat) (h : s.pair.contest = some c) :
    exec (.selfTestComplete failed) s = .next (((s.updPair (fun p => { p with contest := some { c with failed := failed &&& c.ranks } })).setF
      F.PR_CONTEST_RES 0 (if failed &&& c.ranks = 0 then 1 else 2)).sendRec 3 c.sec c.c (if failed &&& c.ranks = 0 then 1 else 2)) := by
  change execSelfTestComplete failed s = _
  simp only [execSelfTestComplete, h]

/-- A side that fails is FAILED, not active, and claims nothing. -/
theorem State.fail_spec (s : State) : s.fail_.flag F.PR_STAT_FAILED = true ∧ s.fail_.isActive = false ∧
    s.fail_.getF F.PR_CLAIM_CLAIM = 0 ∧ s.fail_.pair = s.pair := by
  have hf : (s.setF F.PR_STAT_FAILED 0 1).flag F.PR_STAT_FAILED = true := State.flag_setF_one _ _ _ _ (by decide)
  unfold State.fail_
  dsimp only
  split
  · refine ⟨?_, State.takeRole_isActive _ _ _ _, State.takeRole_claim _ _ _ _ (.inl hf), State.takeRole_pair _ _ _ _⟩
    rw [State.takeRole_flag _ _ _ _ _ (by decide) (by decide), hf]
  · rename_i ha
    have h := State.syncRole_roleOnly (s.setF F.PR_STAT_FAILED 0 1)
    exact ⟨h.failed.trans hf, h.isActive.trans (Bool.eq_false_iff.2 ha), State.claim_syncRole_of_out (.inl hf), h.pair⟩

theorem State.countTakeover_regsIn (s : State) : State.RegsIn [F.PR_STAT_TAKEEVT, F.PR_CNT_TAKEOVERS] s s.countTakeover :=
  ((State.RegsIn.refl _ s).setF (by simp) _ _).setF (by simp) _ _

theorem State.countTakeover_takeEvt (s : State) : s.countTakeover.flag F.PR_STAT_TAKEEVT = true := by
  unfold State.countTakeover State.incF
  rw [State.flag_setF_apart _ _ _ _ (by decide), State.flag_setF_one _ _ _ _ (by decide)]

theorem nextGen_lt (g : Nat) : nextGen g < 2 ^ 15 := by
  unfold nextGen
  split <;> omega

/-- The outcome leaves the contest open until it closes. -/
theorem State.contestActs_contest (s : State) (own peer : Bool) (k c : Nat) :
    (s.contestActs own peer k c).pair.contest = s.pair.contest ∧ (s.contestActs own peer k c).pair.stalled = s.pair.stalled := by
  unfold State.contestActs
  split
  · exact ⟨rfl, rfl⟩
  split
  · split
    · rw [s.fail_spec.2.2.2]; exact ⟨rfl, rfl⟩
    · exact ⟨rfl, rfl⟩
  split
  · have h := s.countTakeover.takeRole_pair true (nextGen s.gen) 2
    generalize s.countTakeover.takeRole true (nextGen s.gen) 2 = t at h
    exact ⟨(congrArg PairSt.contest h :), (congrArg PairSt.stalled h :)⟩
  split
  · rw [s.fail_spec.2.2.2]; exact ⟨rfl, rfl⟩
  · exact ⟨rfl, rfl⟩

/-- A side that fails where its partner passes. -/
theorem State.contestActs_of_fail {s : State} (k c : Nat) (h : s.pair.stalled = false) : s.contestActs false true k c = s.fail_ := by
  simp [State.contestActs, h]

/-- A standby that passes where its partner does not. -/
theorem State.contestActs_of_win {s : State} (k c : Nat) (h : s.pair.stalled = false) (ha : s.isActive = false) :
    s.contestActs true false k c =
      (s.countTakeover.takeRole true (nextGen s.gen) 2).updPair (fun p => { p with took := some (k, c), tookSeen := 0 }) := by
  simp [State.contestActs, h, ha]

theorem State.contestActs_of_both (s : State) (k c : Nat) : s.contestActs true true k c = s := by
  simp [State.contestActs]

theorem State.contestActs_of_stalled {s : State} (own peer : Bool) (k c : Nat) (h : s.pair.stalled = true) :
    s.contestActs own peer k c = s := by
  simp [State.contestActs, h]

/-- The close of a contest: none is open, and beside the flag the registers stay. -/
theorem State.closeContest_spec {s : State} {c : Contest} (h : s.pair.contest = some c) :
    s.closeContest.pair.contest = none ∧ s.closeContest.flag F.PR_STAT_CONTEST = false ∧
      State.RegsIn [F.PR_STAT_CONTEST] s s.closeContest := by
  unfold State.closeContest
  simp only [h]
  exact ⟨rfl, State.flag_setF_zero _ _ _ _, ((State.RegsIn.refl _ s).of_regs rfl).setF (by simp) _ _⟩

/-- The state after the acts of a contest's outcome (R319). -/
def State.contestActed (s : State) (c : Contest) : State :=
  (s.advanceTo (s.angleClk c.sec (s.deadlineAngle c.sec (c.c + 4)))).contestActs (s.getF F.PR_CONTEST_RES == 1) (s.getF F.PR_CONTEST_PRES == 1)
    c.sec c.c

/-- The outcome of a contest closes it; beside the record and the flag its registers are those that its acts leave. -/
theorem State.contestOutcome_spec {s : State} {c : Contest} (h : s.pair.contest = some c) :
    s.contestOutcome.pair.contest = none ∧ s.contestOutcome.flag F.PR_STAT_CONTEST = false ∧
    State.RegsIn (F.PR_STAT_CONTEST :: logFields) (s.contestActed c) s.contestOutcome := by
  have hc : (s.contestActed c).pair.contest = some c := (State.contestActs_contest _ _ _ _ _).1.trans h
  obtain ⟨v, hv, hr, he⟩ : ∃ v : State, v.pair.contest = some c ∧ State.RegsIn logFields (s.contestActed c) v ∧
      s.contestOutcome = v.closeContest := by
    unfold State.contestOutcome
    simp only [h]
    change ∃ v : State, _ ∧ _ ∧ (((s.contestActed c).onlyIf _ _).updPair _).closeContest = _
    refine ⟨_, ?_, ?_, rfl⟩
    · change (((s.contestActed c).onlyIf _ _).pair).contest = _
      unfold State.onlyIf
      split
      · rw [State.event_pair, hc]
      · exact hc
    · refine State.RegsIn.of_regs ?_ (s := (s.contestActed c).onlyIf _ _) rfl
      unfold State.onlyIf
      split
      · exact State.event_regsIn _ _ _ _ _ _
      · exact State.RegsIn.refl _ _
  obtain ⟨h1, h2, h3⟩ := State.closeContest_spec hv
  rw [he]
  exact ⟨h1, h2, (hr.mono (List.subset_cons_self _ _)).trans (h3.mono (by simp))⟩

/-- Settles O43: the outcome's acts taken case by case; the record and the close of the contest write other fields. -/
theorem contestsCloseWithTheirOutcome : Obligations.ContestsCloseWithTheirOutcome := by
  refine ⟨fun s c failed res h hr => hr ▸ exec_selfTestComplete failed h, fun s c _ h => ?_⟩
  obtain ⟨hnone, hflag, hregs⟩ := State.contestOutcome_spec h
  have active : s.contestOutcome.isActive = (s.contestActed c).isActive := hregs.flag (by decide)
  have gen : s.contestOutcome.gen = (s.contestActed c).gen := hregs _ _ (by decide)
  have failed : s.contestOutcome.flag F.PR_STAT_FAILED = (s.contestActed c).flag F.PR_STAT_FAILED := hregs.flag (by decide)
  have claim : s.contestOutcome.getF F.PR_CLAIM_CLAIM = (s.contestActed c).getF F.PR_CLAIM_CLAIM := hregs _ _ (by decide)
  have evt : s.contestOutcome.flag F.PR_STAT_TAKEEVT = (s.contestActed c).flag F.PR_STAT_TAKEEVT := hregs.flag (by decide)
  refine ⟨_, rfl, hnone, hflag, fun hs => ?_, fun hs hr hp => ?_, fun hs ha hr hp => ?_, fun hr hp => ?_⟩
  · rw [active, gen, failed, State.contestActed,
      State.contestActs_of_stalled (s := s.advanceTo (s.angleClk c.sec (s.deadlineAngle c.sec (c.c + 4)))) _ _ _ _ hs]
    exact ⟨rfl, rfl, rfl⟩
  · have he : s.contestActed c = (s.advanceTo (s.angleClk c.sec (s.deadlineAngle c.sec (c.c + 4)))).fail_ := by
      rw [State.contestActed, beq_eq_false_iff_ne.2 hr, hp]
      exact State.contestActs_of_fail _ _ hs
    obtain ⟨h1, h2, h3, -⟩ := State.fail_spec (s.advanceTo (s.angleClk c.sec (s.deadlineAngle c.sec (c.c + 4))))
    rw [failed, active, claim, he]
    exact ⟨h1, h2, h3⟩
  · rw [active, gen, evt, State.contestActed, hr, beq_eq_false_iff_ne.2 hp, beq_self_eq_true,
      State.contestActs_of_win (s := s.advanceTo (s.angleClk c.sec (s.deadlineAngle c.sec (c.c + 4)))) _ _ hs ha]
    obtain ⟨u, hu⟩ : ∃ u, u = s.advanceTo (s.angleClk c.sec (s.deadlineAngle c.sec (c.c + 4))) := ⟨_, rfl⟩
    have hgen : s.gen = u.gen := by rw [hu]; rfl
    have h1 := u.countTakeover.takeRole_isActive true (nextGen u.gen) 2
    have h2 := u.countTakeover.takeRole_gen true (nextGen u.gen) 2
    have h3 := u.countTakeover.takeRole_flag true (nextGen u.gen) 2 (f := F.PR_STAT_TAKEEVT) 0 (by decide) (by decide)
    rw [Nat.mod_eq_of_lt (nextGen_lt _)] at h2
    rw [State.countTakeover_takeEvt] at h3
    rw [← hu, hgen]
    generalize u.countTakeover.takeRole true (nextGen u.gen) 2 = t at h1 h2 h3 ⊢
    exact ⟨h1, h2, h3⟩
  · rw [active, gen, State.contestActed, hr, hp, beq_self_eq_true, State.contestActs_of_both]
    exact ⟨rfl, rfl⟩

/-! ## Roles and ring-break service (R308, R309, R311, R312, R323) -/

/-- The expiry of the listening time with a partner heard active: the side becomes standby with the partner's G. -/
theorem exec_roleListenExpiry_of_heard {s : State} {t0 g : Nat} (h : s.pair.listenAt = some t0) (hg : s.pair.sawActive = some g) :
    exec .roleListenExpiry s = .next (((s.advanceTo (t0 + (if s.pair.longListen then 110 else 10) * msClk)).updPair
      (fun p => { p with listenAt := none, longListen := false })).takeRole false g 0) := by
  change execRoleListenExpiry s = _
  simp only [execRoleListenExpiry, h, State.advanceTo_pair, hg]

/-- Side B listens longer. -/
theorem exec_roleListenExpiry_of_longer {s : State} {t0 : Nat} (h : s.pair.listenAt = some t0) (hn : s.pair.sawActive = none)
    (hb : s.sideB = true) (hl : s.pair.longListen = false) :
    exec .roleListenExpiry s = .next ((s.advanceTo (t0 + 10 * msClk)).updPair (fun p => { p with longListen := true })) := by
  have hb' : (s.advanceTo (t0 + 10 * msClk)).sideB = true := hb
  change execRoleListenExpiry s = _
  simp [execRoleListenExpiry, h, hn, hl, hb']

/-- Without an active partner an eligible side becomes active with G = 1. -/
theorem exec_roleListenExpiry_of_alone {s : State} {t0 : Nat} (h : s.pair.listenAt = some t0) (hn : s.pair.sawActive = none)
    (hb : s.sideB = false ∨ s.pair.longListen = true) : ∃ n,
    exec .roleListenExpiry s = .next (((s.advanceTo n).updPair
      (fun p => { p with listenAt := none, longListen := false })).takeRole s.mayLead 1 0) := by
  refine ⟨t0 + (if s.pair.longListen then 110 else 10) * msClk, ?_⟩
  obtain ⟨n, hn'⟩ : ∃ n, n = t0 + (if s.pair.longListen then 110 else 10) * msClk := ⟨_, rfl⟩
  have hlong : ¬(((s.advanceTo n).sideB && !s.pair.longListen) = true) := by
    change ¬((s.sideB && !s.pair.longListen) = true)
    obtain hb | hb := hb <;> simp [hb]
  change execRoleListenExpiry s = _
  simp only [execRoleListenExpiry, h, State.advanceTo_pair, hn, ← hn', hlong]
  rfl

theorem exec_roleYield {s : State} {lane : Nat} (hp : s.paired = true) (ha : s.isActive = true) (hr : 4 ≤ (s.lane lane).highRun) :
    exec (.roleYield lane) s = .next ((s.updLane lane (fun l => { l with highRun := 0 })).takeRole false s.gen 1) := by
  refine congrArg Host.Outcome.next (if_pos ?_)
  simp [hp, ha, hr]

theorem Tab.mem_of_find {α : Type} {t : Tab α} {k : Nat} {v : α} (h : Tab.find t k = some v) : (k, v) ∈ t := by
  induction t with
  | nil => exact absurd h (by simp)
  | cons c r ih =>
    obtain ⟨a, x⟩ := c
    by_cases ha : a = k
    · subst ha
      obtain rfl : x = v := by simpa [Tab.find] using h
      exact List.mem_cons_self
    · exact List.mem_cons_of_mem _ (ih (by simpa [Tab.find, ha] using h))

/-- A standby that may lead keeps its ring-break services, which PR_STAT.RINGSVC shows. -/
theorem State.syncRing_of_standby {s : State} (ha : s.isActive = false) (hm : s.mayLead = true) :
    s.syncRing = s.setF F.PR_STAT_RINGSVC 0 (b2n (s.lanes.any (fun l => l.2.ringSvc))) := by
  simp [State.syncRing, ha, hm]

theorem exec_ringBreakService {s : State} {lane : Nat} (hp : s.paired = true) (ha : s.isActive = false) (hm : s.mayLead = true)
    (hl : s.pair.listenAt = none) (h3 : s.getF F.DEV_STAT_STATE = 3) (hc : (Tab.find s.img.chains lane).isSome = true)
    (hr : (s.lane lane).ringSvc = false) :
    ∃ t, exec (.ringBreakService lane) s = .next t ∧ (t.lane lane).ringSvc = true ∧ t.flag F.PR_STAT_RINGSVC = true := by
  obtain ⟨u, hu, hreg⟩ : ∃ u : State, exec (.ringBreakService lane) s =
      .next ((u.updLane lane (fun l => { l with ringSvc := true, seenRun := 0 })).syncPseen.syncRing) ∧ u.regs = s.regs := by
    refine ⟨_, congrArg Host.Outcome.next (if_pos (by simp [hp, ha, hm, hl, h3, hc, hr])), ?_⟩
    split <;> rfl
  obtain ⟨v, hv⟩ : ∃ v, v = (u.updLane lane (fun l => { l with ringSvc := true, seenRun := 0 })).syncPseen := ⟨_, rfl⟩
  have hin : State.RegsIn [F.PR_PCLAIM_PSEEN] s v := hv ▸ ((State.RegsIn.refl _ s).of_regs hreg).setF (by simp) _ _
  have hfind : Tab.find v.lanes lane = some { u.lane lane with ringSvc := true, seenRun := 0 } := by
    rw [hv]; exact Tab.find_set_same _ _ _
  have hact : v.isActive = false := (hin.flag (by decide)).trans ha
  have hlead : v.mayLead = true := by
    unfold State.mayLead
    rw [hin.flag (by decide), hin.flag (by decide), hin.flag (by decide)]
    exact hm
  have hany : v.lanes.any (fun l => l.2.ringSvc) = true := List.any_eq_true.2 ⟨_, Tab.mem_of_find hfind, rfl⟩
  refine ⟨_, hu, ?_, ?_⟩
  · rw [← hv, State.syncRing_of_standby hact hlead]
    change (Tab.get v.lanes {} lane).ringSvc = true
    rw [Tab.get, hfind]
    rfl
  · rw [← hv, State.syncRing_of_standby hact hlead, hany]
    exact State.flag_setF_one _ _ _ _ (by decide)

theorem exec_ringServiceEnd {s : State} {lane : Nat} (hr : (s.lane lane).ringSvc = true) (h8 : 8 ≤ (s.lane lane).seenRun) :
    exec (.ringServiceEnd lane) s = .next ((s.updLane lane (fun l => { l with ringSvc := false })).syncRing) :=
  congrArg Host.Outcome.next (if_pos (by simp [hr, h8]))

/-! ### Inputs without a feed (R312) -/

theorem State.sigBelow_putSig_other (s : State) (id k : Nat) (e : Entry) (h : k ≠ id) : (s.putSig id e).sigBelow k = s.sigBelow k := by
  have hf : (s.putSig id e).forcedSig k = s.forcedSig k := by simp [State.forcedSig]
  unfold State.sigBelow
  rw [hf, State.putSig_sig_other _ _ _ _ h]
  split
  · unfold State.putSig
    split
    · exact Tab.get_put_other _ _ _ _ _ _ h
    · rfl
  · rfl

theorem State.sigBelow_published (s : State) {id : Nat} (h : ¬(123648 ≤ id ∧ id < 123904)) : s.published.sigBelow id = s.sigBelow id := by
  have hp := s.published_pubOnly
  unfold State.sigBelow State.forcedSig
  rw [hp.forces, hp.hidden, hp.sig h]

/-- A loop that writes the same entry to several signals leaves it in each of them. -/
theorem State.sigBelow_foldl_putSig {α : Type} (f : α → Nat) (g : State → α → Entry) (id : Nat) (e : Entry) (hd : ¬(123648 ≤ id ∧ id < 123904))
    (l : List α) (hg : ∀ s : State, ∀ x ∈ l, f x = id → g s x = e) :
    ∀ s : State, ((∃ x ∈ l, f x = id) ∨ s.sigBelow id = e) → (l.foldl (fun s x => s.putSig (f x) (g s x)) s).sigBelow id = e := by
  induction l with
  | nil => rintro s (⟨x, hx, -⟩ | h)
           · exact absurd hx (by simp)
           · exact h
  | cons x r ih =>
    intro s h
    rw [List.foldl_cons]
    refine ih (fun s y hy => hg s y (List.mem_cons_of_mem _ hy)) _ ?_
    by_cases hx : f x = id
    · exact .inr (by rw [hg s x List.mem_cons_self hx, hx, State.sigBelow_putSig_same _ _ _ hd])
    · refine h.imp (fun ⟨y, hy, he⟩ => ⟨y, ?_, he⟩) (fun h => by rw [State.sigBelow_putSig_other _ _ _ _ (Ne.symm hx), h])
      exact (List.mem_cons.1 hy).resolve_left (fun hyx => hx (hyx ▸ he))

/-- One tile's inputs and readback where no feed frame has come. -/
def State.loseFeed (s : State) (t : TileCfg) : State :=
  let u := (List.range 16).foldl (fun s n => s.putSig (inSig t.feeder n) (Entry.mk' 0 Quality.bad)) s
  u.putSig (feederSig t.feeder 72) { u.sigBelow (feederSig t.feeder 72) with
    q := (u.sigBelow (feederSig t.feeder 72)).q.join Quality.bad, forced := false }

/-- Every input of a tile that lost its feed is invalid. -/
theorem State.loseFeed_input (s : State) (t : TileCfg) {f n : Nat} (hf : f < 1536) (hn : n < 16)
    (h : t.feeder = f ∨ s.sigBelow (inSig f n) = Entry.mk' 0 Quality.bad) :
    (s.loseFeed t).sigBelow (inSig f n) = Entry.mk' 0 Quality.bad := by
  unfold State.loseFeed
  rw [State.sigBelow_putSig_other _ _ _ _ (by unfold inSig feederSig; omega)]
  refine State.sigBelow_foldl_putSig _ _ _ _ (by unfold inSig feederSig; omega) _ (fun _ _ _ _ => rfl) _ ?_
  exact h.imp (fun h => ⟨n, List.mem_range.2 hn, by rw [h]⟩) id

theorem State.loseFeed_pair (s : State) (t : TileCfg) : (s.loseFeed t).pair = s.pair := by
  unfold State.loseFeed
  rw [State.putSig_pair]
  exact State.foldl_keeps State.pair _ (fun s n => by simp) _ s

/-- After the loss of a section's feed the inputs of each of its tiles are invalid. -/
theorem State.foldl_loseFeed_input {f n : Nat} (hf : f < 1536) (hn : n < 16) (l : List TileCfg) :
    ∀ s : State, ((∃ t ∈ l, t.feeder = f) ∨ s.sigBelow (inSig f n) = Entry.mk' 0 Quality.bad) →
      (l.foldl State.loseFeed s).sigBelow (inSig f n) = Entry.mk' 0 Quality.bad := by
  induction l with
  | nil => rintro s (⟨t, ht, -⟩ | h)
           · exact absurd ht (by simp)
           · exact h
  | cons t r ih =>
    intro s h
    rw [List.foldl_cons]
    obtain ⟨x, hx, he⟩ | h := h
    · rcases List.mem_cons.1 hx with rfl | hx
      · exact ih _ (.inr (s.loseFeed_input x hf hn (.inl he)))
      · exact ih _ (.inl ⟨x, hx, he⟩)
    · exact ih _ (.inr (s.loseFeed_input t hf hn (.inr h)))

/-- Two loops that do the same wherever a property holds that the second keeps. -/
theorem State.foldl_congr_of {α : Type} {P : State → Prop} {f g : State → α → State} (hP : ∀ s x, P s → P (g s x))
    (h : ∀ s x, P s → f s x = g s x) (l : List α) : ∀ s, P s → l.foldl f s = l.foldl g s := by
  induction l with
  | nil => intro s _; rfl
  | cons x r ih =>
    intro s hs
    rw [List.foldl_cons, List.foldl_cons, h s x hs]
    exact ih _ (hP s x hs)

theorem exec_standbyFeedMissing {s : State} {k lane : Nat} {c : ChainCfg} (hc : s.img.chainOf k = some (lane, c))
    (hn : Tab.find s.pair.feed k = none) (hp : s.paired = true) (ha : s.isActive = false) (hd : (s.sec k).nextDue ≠ 0) :
    exec (.standbyFeedMissing k) s = .next (c.tiles.foldl State.loseFeed s).published := by
  change execStandbyFeedMissing k s = _
  unfold execStandbyFeedMissing
  simp only [hc, hn, hp, ha, Bool.not_true, Bool.false_or, beq_iff_eq, hd, if_false, Bool.or_self]
  refine congrArg (fun t : State => Host.Outcome.next t.published) (State.foldl_congr_of (P := fun t => Tab.find t.pair.feed k = none)
    (fun t x ht => by rw [State.loseFeed_pair]; exact ht) (fun t x ht => ?_) _ s hn)
  simp only [ht]
  rfl

/-! ### PAIR_OK low (R323) -/

theorem exec_pairOkLow {s : State} (hp : s.paired = true) :
    exec .pairOkLow s = .next ((s.updPins (fun p => { p with pairOkIn := false })).syncPairOk.checkTakeover) :=
  congrArg Host.Outcome.next (if_pos hp)

theorem State.closeContest_pins (s : State) : s.closeContest.pins = s.pins := by
  unfold State.closeContest
  split <;> rfl

theorem State.closeContest_regsIn (s : State) : State.RegsIn [F.PR_STAT_CONTEST] s s.closeContest := by
  unfold State.closeContest
  split
  · exact State.RegsIn.refl _ _
  · exact ((State.RegsIn.refl _ s).of_regs rfl).setF (by simp) _ _

/-- Whatever follows a low PAIR_OK, the line reads low. -/
theorem State.checkTakeover_pairOkIn {s : State} (h : s.pins.pairOkIn = false) (hf : s.flag F.PR_STAT_PAIROKIN = false) :
    s.checkTakeover.pins.pairOkIn = false ∧ s.checkTakeover.flag F.PR_STAT_PAIROKIN = false := by
  have hc : s.closeContest.pins.pairOkIn = false := (congrArg Pins.pairOkIn s.closeContest_pins).trans h
  unfold State.checkTakeover
  split
  · have ht : s.closeContest.countTakeover.pins.pairOkIn = false := hc
    exact ⟨(congrArg Pins.pairOkIn (State.takeRole_pins _ _ _ _)).trans ht, State.takeRole_pairOkIn _ _ _ _ ht⟩
  · unfold State.onlyIf
    split
    · exact ⟨hc, (s.closeContest_regsIn.flag (by decide)).trans hf⟩
    · exact ⟨h, hf⟩

/-- Settles O42: the expiry of the listening time in its three cases, and each event of the ring and of PAIR_OK by its own lemma. -/
theorem rolesAndRingServiceComplete : Obligations.RolesAndRingServiceComplete := by
  refine ⟨fun s t0 g _ h hg => ⟨_, exec_roleListenExpiry_of_heard h hg, State.takeRole_isActive _ _ _ _, ?_, State.takeRole_gen _ _ _ _,
      State.takeRole_roleEvt _ _ _ _⟩, fun s t0 h hn hb hl => exec_roleListenExpiry_of_longer h hn hb hl,
    fun s t0 _ h hn hb => ?_, fun s lane => exec_roleYield, fun s lane => exec_ringBreakService, fun s lane => exec_ringServiceEnd,
    fun s k lane c hc hn hp ha hd => ⟨_, exec_standbyFeedMissing hc hn hp ha hd, fun x hx hf n hn => ?_⟩, fun s hp => ?_,
    fun _ => rfl, fun s h => congrArg Host.Outcome.next (if_pos h), fun s h => congrArg Host.Outcome.next (if_neg (ne_true_of_eq_false h))⟩
  · rw [State.takeRole_pair]; rfl
  · obtain ⟨n, he⟩ := exec_roleListenExpiry_of_alone h hn hb
    refine ⟨_, he, State.takeRole_isActive _ _ _ _, State.takeRole_gen _ _ _ _, ?_⟩
    rw [State.takeRole_pair]; rfl
  · rw [State.sigBelow_published _ (by unfold inSig feederSig; omega)]
    exact State.foldl_loseFeed_input hf hn _ _ (.inl ⟨x, hx, rfl⟩)
  · obtain ⟨hpin, hflag⟩ := State.checkTakeover_pairOkIn (s := (s.updPins (fun p => { p with pairOkIn := false })).syncPairOk)
      ((congrArg Pins.pairOkIn (State.syncPairOk_roleOnly _).pins).trans rfl)
      ((State.pairOkIn_syncPairOk _).trans (Bool.and_false _))
    exact ⟨_, exec_pairOkLow hp, hpin, hflag⟩

/-! ## Demotion (R320 to R322) -/

theorem exec_demoteCheck_of_silent {s : State} {k c : Nat} (h : s.pair.took = some (k, c)) (h0 : s.pair.tookSeen = 0) :
    exec .demoteCheck s = .next ((s.advanceTo (s.angleClk k (s.deadlineAngle k (c + 8)))).updPair (fun p => { p with took := none })) := by
  change execDemoteCheck s = _
  simp only [execDemoteCheck, h, State.advanceTo_pair, h0, if_true]

/-- The side that took over pulls DEMOTE_OUT# where its partner still claims. -/
def State.pullDemote (s : State) : State :=
  ((s.updPair (fun p => { p with took := none })).updPair (fun p => { p with pulseAt := some s.now })).updPins
    (fun p => { p with demoteOutLow := true })

theorem exec_demoteCheck_of_claim {s : State} {k c : Nat} (h : s.pair.took = some (k, c)) (h0 : s.pair.tookSeen ≠ 0) :
    exec .demoteCheck s = .next (((s.advanceTo (s.angleClk k (s.deadlineAngle k (c + 8)))).pullDemote.setF F.PR_STAT_DEMOUTEVT 0 1).event
      0x0B03 0xFFFF 0xFFFF .none (le2 s.pair.tookSeen)) := by
  change execDemoteCheck s = _
  simp only [execDemoteCheck, h, State.advanceTo_pair, h0, if_false]
  rfl

theorem exec_demotePulseEnd {s : State} {t0 : Nat} (h : s.pair.pulseAt = some t0) :
    exec .demotePulseEnd s = .next (((s.advanceTo (t0 + 10 * usClk)).updPair (fun p => { p with pulseAt := none })).updPins
      (fun p => { p with demoteOutLow := false })) := by
  change execDemotePulseEnd s = _
  simp only [execDemotePulseEnd, h]

theorem exec_demoteHeld {s : State} {t0 : Nat} (h : s.pair.demLowAt = some t0) (hh : s.flag F.PR_STAT_DEMHELD = false) :
    exec .demoteHeld s = .next (((s.advanceTo (t0 + 1000 * msClk + 1)).setF F.PR_STAT_DEMHELD 0 1).syncRing.event 0x0B04) := by
  change execDemoteHeld s = _
  simp [execDemoteHeld, h, hh]

/-- A fall of DEMOTE_IN# sets DEMOTED; the side is standby and claims nothing. -/
theorem exec_demoteInFall {s : State} (hd : s.pins.demoteIn = true) (hp : s.paired = true) : ∃ t, exec .demoteInFall s = .next t ∧
    t.flag F.PR_STAT_DEMOTED = true ∧ t.isActive = false ∧ t.getF F.PR_CLAIM_CLAIM = 0 ∧ t.flag F.PR_STAT_PAIROKREL = false ∧
    t.pins.demoteIn = false ∧ t.gen = s.gen := by
  obtain ⟨u, hu⟩ : ∃ u, u = (((s.updPins (fun p => { p with demoteIn := false })).updPair (fun p => { p with demLowAt := some s.now })).setF
      F.PR_STAT_DEMINEVT 0 1).setF F.PR_STAT_DEMOTED 0 1 := ⟨_, rfl⟩
  obtain ⟨v, hv⟩ : ∃ v, v = if s.isActive then ((u.setF F.PR_STAT_ACTIVE 0 0).setF F.PR_STAT_ROLEEVT 0 1).roleRanges false else u := ⟨_, rfl⟩
  have he : exec .demoteInFall s = .next v.syncRole.published := by
    rw [hv, hu]
    exact congrArg Host.Outcome.next (if_neg (by simp [hd, hp]))
  have hur : State.RegsIn [F.PR_STAT_DEMINEVT, F.PR_STAT_DEMOTED] s u :=
    hu ▸ (((State.RegsIn.refl _ s).of_regs rfl).setF (by simp) _ _).setF (by simp) _ _
  have hud : u.flag F.PR_STAT_DEMOTED = true := hu ▸ State.flag_setF_one _ _ _ _ (by decide)
  have hupin : u.pins.demoteIn = false := by rw [hu]; rfl
  have hvs : v.flag F.PR_STAT_DEMOTED = true ∧ v.isActive = false ∧ v.gen = s.gen ∧ v.pins.demoteIn = false := by
    rw [hv]
    split
    · have hr := State.roleRanges_roleOnly ((u.setF F.PR_STAT_ACTIVE 0 0).setF F.PR_STAT_ROLEEVT 0 1) false
      refine ⟨hr.demoted.trans ?_, hr.isActive.trans ?_, hr.gen.trans ?_, (congrArg Pins.demoteIn hr.pins).trans hupin⟩
      · rw [State.flag_setF_apart _ _ _ _ (by decide), State.flag_setF_apart _ _ _ _ (by decide), hud]
      · unfold State.isActive
        rw [State.flag_setF_apart _ _ _ _ (by decide)]
        exact State.flag_setF_zero _ _ _ _
      · unfold State.gen
        rw [State.getF_setF_apart _ _ _ _ (by decide), State.getF_setF_apart _ _ _ _ (by decide), hur _ _ (by decide)]
    · rename_i ha
      exact ⟨hud, (hur.flag (by decide)).trans (Bool.eq_false_iff.2 ha), hur _ _ (by decide), hupin⟩
  obtain ⟨hdem, hact, hgen, hpin⟩ := hvs
  have hr := (State.syncRole_roleOnly v).trans (State.published_roleOnly _)
  refine ⟨_, he, hr.demoted.trans hdem, hr.isActive.trans hact, ?_, ?_, (congrArg Pins.demoteIn hr.pins).trans hpin, hr.gen.trans hgen⟩
  · rw [(State.published_pubOnly _).regs _ _ (by decide), State.claim_syncRole_of_out (.inr hdem)]
  · rw [(State.published_pubOnly _).regs.flag (by decide), State.pairOkRel_syncRole, State.releases, hdem]
    simp

/-- Settles O44: each command's result written out; the roles of a demoted side through what a role's change leaves. -/
theorem demotionCommandsComplete : Obligations.DemotionCommandsComplete := by
  refine ⟨fun s k c h h0 => ⟨_, exec_demoteCheck_of_silent h h0, rfl, rfl, rfl⟩, fun s k c h h0 => ⟨_, exec_demoteCheck_of_claim h h0, ?_⟩,
    fun s t0 h => ⟨_, exec_demotePulseEnd h, rfl, rfl, rfl, rfl⟩, fun s _ hd hp => exec_demoteInFall hd hp, fun _ => rfl,
    fun s t0 h hh => ⟨_, exec_demoteHeld h hh, ?_⟩⟩
  · rw [State.event_pair, State.event_pins, State.event_now]
    exact ⟨rfl, rfl, rfl, ((State.event_regsIn _ _ _ _ _ _).flag (by decide)).trans (State.flag_setF_one _ _ _ _ (by decide))⟩
  · have hr := (State.syncRing_roleOnly ((s.advanceTo (t0 + 1000 * msClk + 1)).setF F.PR_STAT_DEMHELD 0 1)).trans
      (State.event_roleOnly _ 0x0B04 0xFFFF 0xFFFF .none [])
    have hh' := hr.demHeld.trans (State.flag_setF_one _ _ _ _ (by decide))
    refine ⟨hh', ?_, hr.now⟩
    rw [State.mayLead, hh', Bool.not_true, Bool.and_false]

/-! ## Castling (R325) -/

/-- A state that no run reaches: G holds 65,536, which its 15 bits cannot, on an active side whose castling is about to switch. -/
def stateWithWideGen : State :=
  { State.reset with
    regs := [(F.PR_STAT_ACTIVE.key 0 0, 1), (F.PR_CLAIM_G.key 0 0, 65536)]
    pair := { State.reset.pair with castling := some { x := 0, newG := 1, at_ := 0, accepted := true } } }

/-- The claim that the old active side lowers is its G as far as CLAIM holds it. -/
theorem exec_castlingSwitch_stateWithWideGen :
    ∃ t, exec .castlingSwitch stateWithWideGen = .next t ∧ t.getF F.PR_CLAIM_CLAIM = 0 := ⟨_, rfl, by decide +kernel⟩

/-- Refutes O45: the statement does not bound G, and where the field holds 65,536 the switch lowers the claim to G modulo 2^16, not to G. -/
theorem not_castlingCommandsComplete : ¬ Obligations.CastlingCommandsComplete := by
  rintro ⟨-, -, -, -, -, hswitch, -⟩
  obtain ⟨t, ht, -, -, hclaim⟩ := hswitch stateWithWideGen _ rfl rfl rfl rfl (by decide +kernel) (by decide +kernel) (by decide +kernel)
  obtain ⟨u, hu, h0⟩ := exec_castlingSwitch_stateWithWideGen
  obtain rfl : u = t := by simpa using hu.symm.trans ht
  rw [h0, show stateWithWideGen.gen = 65536 by decide +kernel] at hclaim
  exact absurd hclaim (by decide)

end Sys2Proof.Machine
end

section
/-! The section clock's commands (R20, R21, R24, R28 to R31) and the two angle instants of an epoch (R15, R22). -/

namespace Sys2Proof.Machine

section
variable {s : State} {k : Nat}

theorem exec_entryLost {n : Nat} (hr : (s.sec k).running = true) (hn : n < 4) (hf : 16 ≤ ((s.sec k).entry n).failRun)
    (hl : ((s.sec k).entry n).lost = false) :
    exec (.entryLost k n) s = .next ((if s.target k = n then
      (s.updSec k (fun x => { x with entries := modAt x.entries n (fun y => { y with lost := true }) })).setF F.SEC_ANGLE_EVT_LOSS k 1
      else s.updSec k (fun x => { x with entries := modAt x.entries n (fun y => { y with lost := true }) })).chooseTarget k) :=
  congrArg Host.Outcome.next (if_pos (by simp [hr, hn, hf, hl]))

theorem exec_entryQualified {n : Nat} (hr : (s.sec k).running = true) (hn : n < 4)
    (hv : 128 * s.getF F.SEC_ANGLE_CFG_Q k ≤ ((s.sec k).entry n).validRun) :
    exec (.entryQualified k n) s = .next ((s.setBitF F.SEC_REF_STAT_QUAL k n true).chooseTarget k) :=
  congrArg Host.Outcome.next (if_pos (by simp [hr, hn, hv]))

/-- The rate's field is beside the glide's flags. -/
theorem State.flag_setRate (s : State) (k : Nat) (r : Rat) {g : Fld} (m : Nat) (h : g.apart F.SEC_FREQ_FREQ = true) :
    (s.setRate k r).flag g m = s.flag g m :=
  (State.flag_setF_apart _ _ _ _ h).trans (congrArg (· == 1) (State.updSec_getF _ _ _ _ _ _))

/-- The end of a glide: both flags clear, no error is left, and the rate is the target's. -/
theorem State.endGlide_spec (s : State) (k : Nat) :
    (s.endGlide k).now = s.now ∧ (s.endGlide k).flag F.SEC_REF_STAT_GLIDE k = false ∧
    (s.endGlide k).flag F.SEC_REF_STAT_EXTENDED k = false ∧ ((s.endGlide k).sec k).glideE = 0 ∧
    ((s.endGlide k).sec k).rate = rnd (clampHz ((s.sec k).entry (s.target k)).hz) := by
  unfold State.endGlide
  refine ⟨rfl, ?_, ?_, ?_, ?_⟩
  · rw [State.flag_setRate _ _ _ _ (by decide), State.flag_setF_apart _ _ _ _ (by decide), State.flag_setF_zero]
  · rw [State.flag_setRate _ _ _ _ (by decide), State.flag_setF_zero]
  · rw [State.setRate, State.setF_sec, State.sec_updSec, SecSt.rebase, State.setF_sec, State.setF_sec, State.sec_updSec]
  · rw [State.setRate, State.setF_sec, State.sec_updSec, SecSt.rebase]

theorem exec_glideEnd {t0 : Nat} (hg : s.flag F.SEC_REF_STAT_GLIDE k = true)
    (h0 : (s.sec k).glideZero ((s.sec k).entry (s.target k)).hz = some t0) :
    exec (.glideEnd k) s = .next ((s.advanceTo t0).endGlide k) := by
  change execGlideEnd k s = _
  simp only [execGlideEnd, hg, h0, if_true]

theorem exec_glideExtended (hg : s.flag F.SEC_REF_STAT_GLIDE k = true) (hc : (s.sec k).clamped = true) (he : s.glideEnds k = false) :
    exec (.glideExtended k) s =
      .next (((s.advanceTo (s.glideCycles k)).setF F.SEC_REF_STAT_EXTENDED k 1).setF F.SEC_ANGLE_EVT_GLIDEEXT k 1) :=
  congrArg Host.Outcome.next (if_pos (by simp [hg, hc, he]))

theorem exec_cycleWrap {a : Nat} (hr : (s.sec k).running = true) (ha : a = ((s.sec k).wraps + 1) * 2 ^ 48) :
    exec (.cycleWrap k) s = .next (((s.advanceTo ((s.sec k).clockOf ((a : Nat) : Rat))).updSec k
      (fun x => { x with wraps := x.wraps + 1 })).setF F.SEC_ANGLE_EVT_WRAP k 1) := by
  change execCycleWrap k s = _
  unfold execCycleWrap
  rw [if_pos hr, ha]

theorem exec_epochSample {e : Nat} (hr : (s.sec k).running = true) (he : e = (s.sec k).nextSample) (h0 : 0 < e) {a b : State}
    (ha : a = (s.advanceTo (s.angleClk k (512 * e))).stampEpoch k)
    (hb : b = ((a.convsOf k).foldl (fun s n => s.chainEpoch n e) a).endEpoch k) :
    exec (.epochSample k e) s = .next (if k = b.refSec then b.checkPeer else b) := by
  refine congrArg Host.Outcome.next (?_ : s.epochSample k e = _)
  unfold State.epochSample
  rw [if_neg (by simp [hr, he]), hb, ha]
  simp only [State.onlyIf, h0, decide_true, if_true]

/-- The number and the record of an epoch at its sample instant. -/
theorem State.stampEpoch_spec (s : State) (k : Nat) :
    (s.stampEpoch k).getF F.SEC_EPOCH_NUM_EPOCH k = (s.sec k).nextSample % 2 ^ 32 ∧
    ((s.stampEpoch k).sec k).nextSample = (s.sec k).nextSample + 1 ∧ (s.stampEpoch k).now = s.now := by
  unfold State.stampEpoch
  refine ⟨State.getF_setF_same _ _ _ _ _, ?_, rfl⟩
  rw [State.setF_sec, State.sec_updSec]

end

/-- Settles O7: each command under its condition, and what the end of a glide and the sample instant leave. -/
theorem sectionClockCommandsComplete : Obligations.SectionClockCommandsComplete := by
  refine ⟨⟨fun s k hk => ⟨congrArg Host.Outcome.next (if_pos hk), congrArg Host.Outcome.next (if_pos hk)⟩,
    fun s u k n hr hn hf hl hu => hu ▸ exec_entryLost hr hn hf hl, fun s k n => exec_entryQualified, fun s k t0 hg h0 => ?_,
    fun s k => exec_glideExtended, fun s k a hr ha => ?_⟩, fun s a b k e hr he h0 ha hb => ⟨exec_epochSample hr he h0 ha hb, ?_⟩, ?_⟩
  · obtain ⟨hnow, hglide, hext, herr, hrate⟩ := State.endGlide_spec (s.advanceTo t0) k
    exact ⟨_, exec_glideEnd hg h0, hnow, hglide, hext, herr, hrate⟩
  · refine ⟨_, exec_cycleWrap hr ha, rfl, State.flag_setF_one _ _ _ _ (by decide), ?_, ?_⟩
    all_goals rw [State.setF_sec, State.sec_updSec, State.advanceTo_sec]
  · obtain ⟨hnum, hnext, hnow⟩ := State.stampEpoch_spec (s.advanceTo (s.angleClk k (512 * e))) k
    rw [← ha] at hnum hnext hnow
    rw [he]
    exact ⟨hnum, hnext, he ▸ hnow⟩
  · intro s o a b c d k e ecc hr he hdue hsample ho ha hb hc hd
    refine ⟨_, congrArg Host.Outcome.next (?_ : s.deadline k ecc = _), rfl⟩
    have hin : ¬((!(s.sec k).running || decide ((s.sec k).nextDue ≤ (s.sec k).nextDeadline) ||
        decide ((s.sec k).nextSample < (s.sec k).nextDeadline + s.delayOf k (s.sec k).nextDeadline + 2)) = true) := by
      simp only [hr, Bool.not_true, Bool.false_or, Bool.or_eq_true, decide_eq_true_eq, ← he]
      omega
    unfold State.deadline
    dsimp only
    rw [if_neg hin, hd, hc, hb, ha, ho, he]
    rfl

end Sys2Proof.Machine
end

section
/-! Events inside a feeder's evaluation (R157): the fault locator, whose half-cycle quality blocks it too. -/

namespace Sys2Proof.Machine

/-- A feeder with one element, a fault locator that its own start initiates. -/
def locatorFeeder : FeederCfg := { elems := [(0, { kind := .fl { inits := [0] } })] }

/-- Epoch 64 of a fault under evaluation, in which the half-cycle quantities of IA are invalid and the full-cycle ones good. -/
def stateWithBadHalfCycle : State :=
  { State.reset with
    cfg := some { feeders := [(0, locatorFeeder)] }
    feeders := [(0, { evalOpen := some 64, meas := { qFull := List.replicate 8 Quality.ok, qHalf := List.replicate 8 Quality.bad },
                      elems := [(0, { bits := 1, fl := { es := some 0, any := true } })] })] }

theorem exec_faultLocatorCapture_stateWithBadHalfCycle : ∃ t, exec (.faultLocatorCapture 0 0) stateWithBadHalfCycle = .next t ∧
    ((t.feeder 0).elem 0).fl.halfCap = none := ⟨_, rfl, by decide +kernel⟩

/-- Refutes O14: the statement asks for the capture of the half-cycle phasors wherever the full-cycle quality is good, but the locator is
blocked by its half-cycle quality too, which a fill limit of its own can make invalid alone. -/
theorem not_evaluationEventsComplete : ¬ Obligations.EvaluationEventsComplete := by
  intro h
  obtain ⟨-, -, -, hfl⟩ := h stateWithBadHalfCycle 0 0 64 locatorFeeder { kind := .fl { inits := [0] } } _ _ (by decide +kernel)
    (by decide +kernel) (by decide +kernel) rfl rfl
  obtain ⟨t, ht, hcap, -⟩ := (hfl { inits := [0] } 0 _ rfl rfl (by decide +kernel) (by decide +kernel) (by decide +kernel)
    (by decide +kernel) (by decide +kernel)).1 (by decide) (by decide +kernel)
  obtain ⟨u, hu, hnone⟩ := exec_faultLocatorCapture_stateWithBadHalfCycle
  obtain rfl : u = t := by simpa using hu.symm.trans ht
  rw [hnone] at hcap
  exact absurd hcap (by simp)

end Sys2Proof.Machine
end

section
/-! Forcing of signals (R225, R226, R228): what APPLY, RELEASE and RELALL leave in the entries and in the signal table. -/

namespace Sys2Proof.Machine

/-! ## What a change of the entries and a record leave -/

theorem State.forcesChanged_force (s : State) (n : Nat) : s.forcesChanged.force n = s.force n := by
  unfold State.force State.forcesChanged
  rw [(State.published_pubOnly _).forces]
  rfl

theorem State.forcesChanged_sig (s : State) {id : Nat} (h : ¬(123648 ≤ id ∧ id < 123904)) : s.forcesChanged.sig id = s.sig id := by
  rw [State.forcesChanged, (State.published_pubOnly _).sig h, State.sig, State.sig, if_neg h, if_neg h]
  rfl

/-- The TESTMODE ball follows the applied entries. -/
theorem State.forcesChanged_testmode (s : State) : s.forcesChanged.pins.testmode = s.forcing := by
  obtain ⟨_, _, _, _, _, h⟩ := (State.published_pubOnly s.syncForces).rest
  rw [State.forcesChanged, h]
  rfl

theorem State.forceRecord_force (s : State) (action n : Nat) (out : Bool) (target old new m : Nat) :
    (s.forceRecord action n out target old new).force m = s.force m := by
  unfold State.force State.forceRecord
  rw [State.event_forces]

theorem State.forceRecord_sig (s : State) (action n : Nat) (out : Bool) (target old new : Nat) {id : Nat}
    (h : ¬(123648 ≤ id ∧ id < 123904)) : (s.forceRecord action n out target old new).sig id = s.sig id := by
  rw [State.sig, State.sig, if_neg h, if_neg h, State.forceRecord, State.event_sigs]

/-- Forcing stands while an entry is applied. -/
theorem State.forcing_of_force {s : State} {n : Nat} (h : (s.force n).active = true) : s.forcing = true := by
  unfold State.force Tab.get at h
  cases hf : Tab.find s.forces n with
  | none => rw [hf] at h; exact absurd h (by decide)
  | some f =>
    rw [hf] at h
    exact List.any_eq_true.2 ⟨_, Tab.mem_of_find hf, h⟩

/-! ## APPLY -/

theorem State.releaseForce_of_idle {s : State} {n : Nat} (h : (s.force n).active = false) : s.releaseForce n = s := by
  simp [State.releaseForce, h]

/-- APPLY on an idle entry whose target is a signal and is not refused. -/
theorem State.applyForce_of_idle {s : State} {n g : Nat} (hg : g = (s.force n).def_ % 2 ^ 17) (ha : (s.force n).active = false)
    (ho : bitOf (s.force n).def_ 30 = false) (hr : s.forceRefused n false g = false) :
    s.applyForce n = (s.putForce n false g ((s.force n).val % 2 ^ 24)).forceRecord 0 n false g (s.targetValue false g)
      ((s.force n).val % 2 ^ 24) := by
  subst hg
  unfold State.applyForce
  simp only [ha, ho, hr, Bool.false_and, Bool.false_eq_true, if_false, State.releaseForce_of_idle ha]

theorem State.applyForce_of_refused {s : State} {n g : Nat} (hg : g = (s.force n).def_ % 2 ^ 17) (ha : (s.force n).active = false)
    (ho : bitOf (s.force n).def_ 30 = false) (hr : s.forceRefused n false g = true) :
    s.applyForce n = s.setF F.LC_FSTAT_REF 0 1 := by
  subst hg
  unfold State.applyForce
  simp only [ha, ho, hr, Bool.false_and, Bool.false_eq_true, if_false, if_true]

/-- A device signal is refused as a target. -/
theorem State.not_device_of_not_refused {s : State} {n g : Nat} (h : s.forceRefused n false g = false) :
    ¬(123648 ≤ g ∧ g < 123904) := by
  rintro ⟨h1, h2⟩
  have h3 : g ≤ 123903 := by omega
  simp [State.forceRefused, h1, h3] at h

/-- A force put on a signal is what the signal reads. -/
theorem State.putForce_spec (s : State) (n g value : Nat) (h : ¬(123648 ≤ g ∧ g < 123904)) :
    (s.putForce n false g value).sig g = forcedEntry value ∧
    (s.putForce n false g value).force n = { s.force n with active := true, output := false, target := g, value := value } := by
  constructor
  · rw [State.sig, if_neg h]
    exact Tab.get_set_same _ _ _ _
  · exact Tab.get_upd_same s.forces {} n (fun f => { f with active := true, output := false, target := g, value := value })

theorem exec_apply_of_idle {s : State} {g : Nat} (hg : g = (s.force s.selForce).def_ % 2 ^ 17)
    (ha : (s.force s.selForce).active = false) (ho : bitOf (s.force s.selForce).def_ 30 = false)
    (hr : s.forceRefused s.selForce false g = false) :
    ∃ t, exec .apply s = .next t ∧ t.sig g = forcedEntry ((s.force s.selForce).val % 2 ^ 24) ∧
      t.force s.selForce = { s.force s.selForce with
        active := true, output := false, target := g, value := (s.force s.selForce).val % 2 ^ 24 } ∧ t.pins.testmode = true := by
  have hd := State.not_device_of_not_refused hr
  obtain ⟨hsig, hforce⟩ := s.putForce_spec s.selForce g ((s.force s.selForce).val % 2 ^ 24) hd
  have hkept := (congrArg (fun t : State => t.force s.selForce) (State.applyForce_of_idle hg ha ho hr)).trans
    ((State.forceRecord_force _ _ _ _ _ _ _ _).trans hforce)
  refine ⟨_, rfl, ?_, ?_, ?_⟩
  · rw [State.forcesChanged_sig _ hd, State.applyForce_of_idle hg ha ho hr, State.forceRecord_sig _ _ _ _ _ _ _ hd, hsig]
  · exact (State.forcesChanged_force _ _).trans hkept
  · rw [State.forcesChanged_testmode]
    exact State.forcing_of_force (congrArg Force.active hkept)

/-! ## RELEASE and RELALL -/

/-- A force taken off a signal: the entry is idle, and the signal reads the hidden copy. -/
theorem State.releaseForce_of_signal {s : State} {n : Nat} (ha : (s.force n).active = true) (ho : (s.force n).output = false) :
    (s.releaseForce n).force n = { s.force n with active := false } ∧
    (¬(123648 ≤ (s.force n).target ∧ (s.force n).target < 123904) →
      (s.releaseForce n).sig (s.force n).target = Tab.get s.hidden Entry.absent (s.force n).target) := by
  obtain ⟨u, hu⟩ : ∃ u, u = s.forceRecord 2 n (s.force n).output (s.force n).target (s.force n).value
      (s.sigBelow (s.force n).target).value.toNat := ⟨_, rfl⟩
  have huf : u.force n = s.force n := by rw [hu, State.forceRecord_force]
  have huh : u.hidden = s.hidden := by rw [hu, State.forceRecord, State.event_hidden]
  have hrel : s.releaseForce n = u.dropForce n := by
    rw [hu]
    simp [State.releaseForce, ha, ho]
  have hdrop : u.dropForce n = { u with
      sigs := Tab.put u.sigs Entry.absent (s.force n).target (Tab.get s.hidden Entry.absent (s.force n).target)
      hidden := Tab.del u.hidden (s.force n).target
      forces := Tab.upd u.forces {} n (fun f => { f with active := false }) } := by
    simp [State.dropForce, huf, ha, ho, huh]
  rw [hrel, hdrop]
  refine ⟨?_, fun hd => ?_⟩
  · rw [← huf]
    exact Tab.get_upd_same u.forces {} n (fun f => { f with active := false })
  · rw [State.sig, if_neg hd]
    exact Tab.get_put_same _ _ _ _

theorem State.dropForce_forces {s : State} {n : Nat} (h : (s.force n).active = true) :
    (s.dropForce n).forces = Tab.upd s.forces {} n (fun f => { f with active := false }) := by
  have he : ∀ u : State, u.forces = s.forces → ({ u with forces := Tab.upd u.forces {} n (fun f => { f with active := false }) } : State).forces =
      Tab.upd s.forces {} n (fun f => { f with active := false }) := fun u hu => by rw [hu]
  unfold State.dropForce
  simp only [h, Bool.not_true, Bool.false_eq_true, if_false]
  refine he _ ?_
  split <;> rfl

/-- A release leaves its entry idle. -/
theorem State.dropForce_idle (s : State) (n : Nat) : ((s.dropForce n).force n).active = false := by
  cases h : (s.force n).active with
  | false => simp [State.dropForce, h]
  | true => rw [State.force, State.dropForce_forces h, Tab.get_upd_same]

theorem State.dropForce_force_other (s : State) {n m : Nat} (h : m ≠ n) : (s.dropForce n).force m = s.force m := by
  cases ha : (s.force n).active with
  | false => simp [State.dropForce, ha]
  | true => rw [State.force, State.dropForce_forces ha, Tab.get_upd_other _ _ _ _ _ h, State.force]

theorem State.releaseForce_idle (s : State) (n : Nat) : ((s.releaseForce n).force n).active = false := by
  unfold State.releaseForce
  dsimp only
  split
  · rename_i h
    simpa using h
  · exact State.dropForce_idle _ _

/-- A release makes no other entry active. -/
theorem State.releaseForce_keeps_idle (s : State) (n m : Nat) (h : (s.force m).active = false) :
    ((s.releaseForce n).force m).active = false := by
  by_cases hm : m = n
  · rw [hm]
    exact s.releaseForce_idle n
  · unfold State.releaseForce
    dsimp only
    split
    · exact h
    · rw [State.dropForce_force_other _ hm, State.forceRecord_force, h]

theorem State.foldl_releaseForce_idle (l : List Nat) : ∀ (s : State) (m : Nat), m ∈ l ∨ (s.force m).active = false →
    ((l.foldl (fun s n => s.releaseForce n) s).force m).active = false := by
  induction l with
  | nil => exact fun s m h => h.resolve_left (by simp)
  | cons n r ih =>
    intro s m h
    rw [List.foldl_cons]
    refine ih _ m ?_
    rcases h with h | h
    · rcases List.mem_cons.1 h with rfl | h
      · exact .inr (s.releaseForce_idle m)
      · exact .inl h
    · exact .inr (s.releaseForce_keeps_idle n m h)

/-- Settles O4: the entries and the signal after each command; the record, the balls and the publication leave both. -/
theorem forcesApplyAndRelease : Obligations.ForcesApplyAndRelease := by
  refine ⟨fun s f g hf hg ha ho hr => ?_, fun s f g hf hg ha ho hr => ?_, fun s f hf ha ho hd => ?_, fun s => ⟨_, rfl, fun n hn => ?_⟩⟩
  · subst hf
    exact exec_apply_of_idle hg ha ho hr
  · subst hf
    exact congrArg (fun t : State => Host.Outcome.next t.forcesChanged) (State.applyForce_of_refused hg ha ho hr)
  · subst hf
    obtain ⟨hforce, hsig⟩ := State.releaseForce_of_signal ha ho
    exact ⟨_, rfl, (State.forcesChanged_force _ _).trans hforce, (State.forcesChanged_sig _ hd).trans (hsig hd)⟩
  · rw [State.forcesChanged_force]
    exact State.foldl_releaseForce_idle _ _ _ (.inl (List.mem_range.2 hn))

end Sys2Proof.Machine
end

section
/-! Reset, power balls and the start (R337, R342, R345, R365, R366, R370, R372, R420, R421). -/

namespace Sys2Proof.Machine

/-! ## The event log at start -/

/-- The fields that the log's start may write. -/
def bootFields : List Fld :=
  logFields ++ [F.EL_CFG_SIZE, F.EL_STAT_FMT, F.EL_STAT_TORNEVT, F.EL_HEAD_HEAD, F.EL_FIRST_FIRST, F.EL_STAT_FULL, F.EL_PWRCNT_PCC,
    F.EL_STAT_READY, F.EL_STAT_RTCVALID]

/-- `s` differs from `r` in those fields, the log, the event NVM and the count of free values alone. -/
structure State.BootOnly (r s : State) : Prop where
  rest : ∃ regs w1c log nvm free, s = { r with regs := regs, w1c := w1c, log := log, evNvm := nvm, free := free }
  regs : State.RegsIn bootFields r s

theorem State.BootOnly.refl (s : State) : s.BootOnly s := ⟨⟨s.regs, s.w1c, s.log, s.evNvm, s.free, rfl⟩, State.RegsIn.refl _ _⟩

theorem State.BootOnly.trans {a b c : State} (h : a.BootOnly b) (g : b.BootOnly c) : a.BootOnly c := by
  refine ⟨?_, h.regs.trans g.regs⟩
  obtain ⟨_, _, _, _, _, rfl⟩ := h.rest
  obtain ⟨r, w, l, n, f, rfl⟩ := g.rest
  exact ⟨r, w, l, n, f, rfl⟩

theorem State.BootOnly.setF {r s : State} (h : r.BootOnly s) {f : Fld} (hf : f ∈ bootFields) (i v : Nat) : r.BootOnly (s.setF f i v) :=
  h.trans ⟨⟨_, _, s.log, s.evNvm, s.free, rfl⟩, (State.RegsIn.refl _ s).setF hf i v⟩

/-- The log, the event NVM and the count of free values. -/
theorem State.BootOnly.others {r s : State} (h : r.BootOnly s) (log : LogSt) (nvm : Mem) (free : Nat) :
    r.BootOnly { s with log := log, evNvm := nvm, free := free } :=
  h.trans ⟨⟨s.regs, s.w1c, log, nvm, free, rfl⟩, (State.RegsIn.refl _ s).of_regs rfl⟩

theorem State.BootOnly.evProgram {r s : State} (h : r.BootOnly s) (a : Nat) (l : List Nat) : r.BootOnly (s.evProgram a l) :=
  h.others _ _ s.free

theorem State.BootOnly.updLog {r s : State} (h : r.BootOnly s) (f : LogSt → LogSt) : r.BootOnly (s.updLog f) :=
  h.others _ s.evNvm s.free

theorem State.BootOnly.event {r s : State} (h : r.BootOnly s) (code subj sub2 : Nat) (sec : EvEpoch) (data : List Nat) :
    r.BootOnly (s.event code subj sub2 sec data) := by
  refine h.trans ⟨?_, (s.event_regsIn code subj sub2 sec data).mono (List.subset_append_left _ _)⟩
  obtain ⟨regs, w1c, log, nvm, he⟩ := (s.event_logOnly code subj sub2 sec data).rest
  exact ⟨regs, w1c, log, nvm, s.free, he⟩

theorem State.BootOnly.foldl {α : Type} {r : State} (f : State → α → State) (hf : ∀ (s : State) x, s.BootOnly (f s x)) (l : List α)
    {s : State} (h : r.BootOnly s) : r.BootOnly (l.foldl f s) :=
  List.foldlRecOn (motive := fun t => r.BootOnly t) l f h (fun t ht x _ => ht.trans (hf t x))

theorem State.formatNvm_bootOnly (s : State) (size : Nat) : s.BootOnly (s.formatNvm size) := by
  unfold State.formatNvm
  exact (((State.BootOnly.refl s).others s.log _ s.free).updLog _).evProgram _ _

theorem State.locateLog_bootOnly (s : State) (fresh : Bool) : s.BootOnly (s.locateLog fresh).1 := by
  unfold State.locateLog
  lift_lets
  intro used retired valid gen cur s1
  have h1 : s.BootOnly s1 := (State.BootOnly.refl s).updLog _
  split
  · dsimp only
    exact h1.updLog _
  · lift_lets
    intro first torn index index2 head place s2 s3 s4 s5
    have h2 : s.BootOnly s2 :=
      State.BootOnly.foldl (fun s t => s.evProgram (64 * t + 63) [0]) (fun s t => (State.BootOnly.refl s).evProgram _ _) torn h1
    have h3 : s.BootOnly s3 := h2.setF (by simp [bootFields]) _ _
    have h4 : s.BootOnly s4 := (h3.setF (by simp [bootFields]) _ _).setF (by simp [bootFields]) _ _
    have h5 : s.BootOnly s5 := h4.updLog _
    split
    · dsimp only
      exact h5.updLog _
    split
    · dsimp only
      exact h5.updLog _
    · dsimp only
      exact (h5.setF (by simp [bootFields]) _ _).updLog _

theorem State.syncCap_bootOnly (s : State) : s.BootOnly s.syncCap :=
  ((State.BootOnly.refl s).setF (by simp [bootFields, logFields]) _ _).setF (by simp [bootFields, logFields]) _ _

theorem State.bootLog_bootOnly (s : State) (size cause : Nat) : s.BootOnly (s.bootLog size cause) := by
  unfold State.bootLog
  lift_lets
  intro s1 fmt s2
  have h1 : s.BootOnly s1 := ((State.BootOnly.refl s).setF (by simp [bootFields]) _ _).updLog _
  have h2 : s.BootOnly s2 := by
    unfold s2
    split
    · exact (h1.trans (State.formatNvm_bootOnly _ _)).setF (by simp [bootFields]) _ _
    · exact h1
  have h3 := h2.trans (State.locateLog_bootOnly s2 fmt)
  generalize s2.locateLog fmt = q at h3 ⊢
  obtain ⟨s3, torn⟩ := q
  dsimp only at h3 ⊢
  refine State.BootOnly.event ?_ _ _ _ _ _
  have h4 : ∀ u : State, s.BootOnly u → s.BootOnly (torn.foldl (fun s t => s.event 2 0xFFFF 0xFFFF .none (le4 t)) u) := fun u hu =>
    State.BootOnly.foldl _ (fun s t => (State.BootOnly.refl s).event _ _ _ _ _) torn hu
  have h5 : ∀ u : State, s.BootOnly u → s.BootOnly { u with free := u.free + 1 } := fun u hu => hu.others _ _ _
  have h6 : ∀ f v w x, s.BootOnly (((((s3.updLog f).setF F.EL_PWRCNT_PCC 0 v).setF F.EL_STAT_READY 0 w).setF F.EL_STAT_RTCVALID 0 x).syncCap) :=
    fun f v w x => ((((h3.updLog f).setF (by simp [bootFields]) _ _).setF (by simp [bootFields]) _ _).setF (by simp [bootFields]) _ _).trans
      (State.syncCap_bootOnly _)
  split
  · exact (h5 _ (h4 _ (h6 _ _ _ _))).event _ _ _ _ _
  · exact h4 _ (h6 _ _ _ _)

/-- What the start of the device sets: the balls, the reset cause, the clocks of the time bases. -/
def State.bootBalls (s : State) (cause : Nat) (cfgSize : Option Nat) : State :=
  { ((s.updPins (fun p => { p with porn := true, pwrgood := true, crstN := true, erstN := true })).setF F.DEV_STAT_RSTCAUSE 0 cause).updDev
      (fun d => { d with startAt := s.now, countAt := s.now, cfgSize := cfgSize }) with
    tbs := (List.range 4).map (fun k => (k, ({ t0 := s.now } : TbSt))) }

/-- Beside them the start touches the log alone. -/
theorem State.boot_bootOnly (s : State) (cause : Nat) (evSize cfgSize : Option Nat) :
    (s.bootBalls cause cfgSize).BootOnly (s.boot cause evSize cfgSize) := by
  cases evSize with
  | none => exact State.BootOnly.refl _
  | some n => exact (s.bootBalls cause cfgSize).bootLog_bootOnly (min n 8) cause

theorem State.boot_spec (s : State) (cause : Nat) (evSize cfgSize : Option Nat) :
    (s.boot cause evSize cfgSize).pins = { s.pins with porn := true, pwrgood := true, crstN := true, erstN := true } ∧
    (s.boot cause evSize cfgSize).now = s.now ∧ (s.boot cause evSize cfgSize).cfg = s.cfg ∧
    (s.boot cause evSize cfgSize).cfgNvm = s.cfgNvm ∧ (s.boot cause evSize cfgSize).tiles = s.tiles ∧
    (s.boot cause evSize cfgSize).tbs = (List.range 4).map (fun k => (k, ({ t0 := s.now } : TbSt))) ∧
    (s.boot cause evSize cfgSize).getF F.DEV_STAT_RSTCAUSE = cause % 4 := by
  have h := s.boot_bootOnly cause evSize cfgSize
  have hb : (s.bootBalls cause cfgSize).getF F.DEV_STAT_RSTCAUSE = cause % 4 := by
    change (State.setF _ F.DEV_STAT_RSTCAUSE 0 cause).getF F.DEV_STAT_RSTCAUSE = _
    rw [State.getF_setF_same]
    rfl
  have hr := (h.regs F.DEV_STAT_RSTCAUSE 0 (by decide)).trans hb
  obtain ⟨_, _, _, _, _, he⟩ := h.rest
  rw [he] at hr ⊢
  exact ⟨rfl, rfl, rfl, rfl, rfl, rfl, hr⟩

/-! ## Reset and power balls -/

theorem exec_pornRelease {s : State} (on : Bool) (ev cfg : Option Nat) (h : s.pins.porn = false) :
    exec (.pornRelease on ev cfg) s = .next (s.boot (b2n (!on && s.pins.pwrgood)) ev cfg) :=
  congrArg Host.Outcome.next (if_neg (by simp [h]))

theorem exec_jtagReset {s : State} (h : s.pins.porn = true) :
    exec .jtagReset s = .next (s.resetDevice.boot 2 (if s.log.present then some (s.getF F.EL_CFG_SIZE) else none) s.dev.cfgSize) :=
  congrArg Host.Outcome.next (if_neg (by simp [h]))

/-- What the warning takes does not depend on the balls. -/
theorem State.takeSave_updPins (s : State) (f : Pins → Pins) : (s.updPins f).takeSave = s.takeSave := rfl

theorem State.warn_of_high {s : State} (hp : s.pins.porn = true) (hh : s.flag F.EL_STAT_HOLD = false) :
    s.warn = ((s.setF F.EL_STAT_HOLD 0 1).updLog (fun l => { l with saving := l.saveErased, saveSet := some s.takeSave })).published := by
  unfold State.warn
  rw [if_neg (by simp [hp, hh])]

theorem exec_holdupWarnAssert {s : State} (hp : s.pins.porn = true) (hu : s.pins.holdup = false) (hh : s.flag F.EL_STAT_HOLD = false) :
    exec .holdupWarnAssert s = .next (((s.updPins (fun p => { p with holdup := true })).setF F.EL_STAT_HOLD 0 1).updLog
      (fun l => { l with saving := l.saveErased, saveSet := some s.takeSave })).published := by
  refine congrArg Host.Outcome.next ((if_neg (by simp [hu])).trans ?_)
  rw [State.warn_of_high (s := s.updPins (fun p => { p with holdup := true })) hp hh, State.takeSave_updPins]

theorem exec_pwrgoodFall {s : State} (hp : s.pins.porn = true) (hu : s.pins.holdup = false) (hg : s.pins.pwrgood = true)
    (hh : s.flag F.EL_STAT_HOLD = false) :
    exec .pwrgoodFall s = .next (((s.updPins (fun p => { p with pwrgood := false })).setF F.EL_STAT_HOLD 0 1).updLog
      (fun l => { l with saving := l.saveErased, saveSet := some s.takeSave })).published := by
  refine congrArg Host.Outcome.next ((if_neg (by simp [hu, hg])).trans ?_)
  rw [State.warn_of_high (s := s.updPins (fun p => { p with pwrgood := false })) hp hh, State.takeSave_updPins]

theorem exec_holdupWarnClear {s u : State} (hp : s.pins.porn = true) (hh : s.flag F.EL_STAT_HOLD = true)
    (hu : u = (s.saveDone.updPins (fun p => { p with holdup := false, pwrgood := true })).setF F.EL_STAT_HOLD 0 0)
    (hr : u.flag F.EL_STAT_READY = true) (hf : u.flag F.EL_STAT_FULL = false) :
    exec .holdupWarnClear s = .next ((u.updLog (fun l => { l with
      lostFreeze := 0, lostQueue := 0, lostHold := 0, firstCode := 0, lastCode := 0,
      queue := u.recNotLogged :: l.queue, saveSet := none, saveErased := false })).closeLapsed.startWrite.published) := by
  refine congrArg Host.Outcome.next (?_ : s.warnClear = _)
  unfold State.warnClear
  rw [if_neg (by simp [hp, hh])]
  dsimp only
  rw [← hu, if_pos (by simp [hr, hf])]
  rfl

/-- Settles the part of reset and the power balls. -/
theorem resetAndPowerBalls :
    (∀ (s : State) (on : Bool) (ev cfg : Option Nat), s.pins.porn = false →
      ∃ t, exec (.pornRelease on ev cfg) s = .next t ∧ t.pins.porn = true ∧ t.now = s.now ∧ t.pins.crstN = true ∧ t.pins.erstN = true ∧
        t.getF F.DEV_STAT_RSTCAUSE = b2n (!on && s.pins.pwrgood) ∧ t.cfgNvm = s.cfgNvm ∧
        t.tbs = (List.range 4).map (fun k => (k, ({ t0 := s.now } : TbSt)))) ∧
    (∀ s : State, s.pins.porn = true → ∃ t, exec .jtagReset s = .next t ∧ t.pins.porn = true ∧ t.cfg = none ∧
      t.getF F.DEV_STAT_RSTCAUSE = 2 ∧ t.cfgNvm = s.cfgNvm ∧ t.tiles = s.tiles) := by
  refine ⟨fun s on ev cfg h => ⟨_, exec_pornRelease on ev cfg h, ?_⟩, fun s h => ⟨_, exec_jtagReset h, ?_⟩⟩
  · obtain ⟨hpins, hnow, -, hnvm, -, htbs, hcause⟩ := s.boot_spec (b2n (!on && s.pins.pwrgood)) ev cfg
    have hb : b2n (!on && s.pins.pwrgood) % 4 = b2n (!on && s.pins.pwrgood) := Nat.mod_eq_of_lt (by have := b2n_lt_two (!on && s.pins.pwrgood); omega)
    rw [hpins, hcause, hb]
    exact ⟨rfl, hnow, rfl, rfl, rfl, hnvm, htbs⟩
  · obtain ⟨hpins, -, hcfg, hnvm, htiles, -, hcause⟩ := s.resetDevice.boot_spec 2
      (if s.log.present then some (s.getF F.EL_CFG_SIZE) else none) s.dev.cfgSize
    exact ⟨by rw [hpins], hcfg, hcause, hnvm, htiles⟩

/-! ## The image check (R365, R370) -/

theorem State.LogOnly.regsIn {r s : State} (h : r.LogOnly s) : State.RegsIn logFields r s :=
  fun g m hg => h.get g m 0 (fun f hf => Fld.key_ne_of_apart (List.all_eq_true.1 hg f hf) m 0)

theorem State.LogOnly.cfg {r s : State} (h : r.LogOnly s) : s.cfg = r.cfg := by
  obtain ⟨_, _, _, _, he⟩ := h.rest
  rw [he]

/-- The start record takes its image CRC: the log alone. -/
theorem State.fillStart_logOnly (s : State) (hcrc : Nat) : s.LogOnly (s.fillStart hcrc) := ((State.LogOnly.refl s).updLog _).startWrite

theorem State.setFs_cfg (s : State) (i : Nat) (l : List (Fld × Nat)) : (s.setFs i l).cfg = s.cfg :=
  State.foldl_keeps State.cfg (fun (s : State) (p : Fld × Nat) => s.setF p.1 i p.2) (fun _ _ => rfl) l s

theorem State.showRec_cfg (s : State) (k : Nat) : (s.showRec k).cfg = s.cfg := by
  unfold State.showRec
  split <;> rfl

theorem State.openRec_cfg (s : State) (k start trig epoch want : Nat) (link : Option Nat) (note : DrNote) :
    (s.openRec k start trig epoch want link note).cfg = s.cfg := by
  unfold State.openRec
  dsimp only
  split
  · rw [State.event_cfg]; rfl
  · rw [State.showRec_cfg]; rfl

theorem State.closeRec_cfg (s : State) (id : Nat) (damaged : Bool) : (s.closeRec id damaged).cfg = s.cfg := by
  unfold State.closeRec
  split
  · rfl
  split
  · rfl
  dsimp only
  split
  · rw [State.openRec_cfg, State.event_cfg, State.showRec_cfg]; rfl
  · rw [State.event_cfg, State.showRec_cfg]; rfl

theorem State.trainDram_cfg (s : State) (ok : Bool) : (s.trainDram ok).cfg = s.cfg := by
  unfold State.trainDram
  split
  · rfl
  split
  · rfl
  · refine (State.foldl_keeps State.cfg _ (fun (s : State) (r : Nat × DrRec) => s.closeRec_cfg r.1 true) _ _).trans ?_
    rw [State.event_cfg]; rfl

theorem Bank.valid_of_fault {b : Bank} : (b.fault = none → b.valid = true) ∧ (b.fault ≠ none → b.valid = false) :=
  ⟨fun h => by rw [Bank.valid, h]; rfl, fun h => by cases hb : b.fault <;> simp_all [Bank.valid]⟩

/-- The state in which the check of both banks is noted and the DRAM trained (R365, R370). -/
def State.checkNoted (s : State) (l : Nat × Nat) (dram : Bool) : State :=
  (s.setFs 0 [(F.DEV_IMGSTAT_CAUSE, l.1), (F.DEV_IMGSTAT_BLOCK, l.2)]).trainDram dram

section
variable {s : State} {b0 b1 : Bank} (dram : Bool) (hp : s.pins.porn = true) (h1 : s.getF F.DEV_STAT_STATE = 1)
  {l : Nat × Nat} (hl : l = (match b1.fault with | some f => f | none => b0.fault.getD (0, 0)))
include hp h1 hl

/-- With no valid bank. -/
theorem State.imageChecked_of_none (hb : bankLoaded b0 b1 = none) : s.imageChecked b0 b1 dram =
    ((((s.checkNoted l dram).setF F.DEV_STAT_STATE 0 4).bankRecord 0 (b0.fault.getD (0, 0))).bankRecord 1 (b1.fault.getD (0, 0))).fillStart 0 := by
  unfold State.imageChecked
  rw [if_neg (by simp [hp, h1]), hb, hl]
  rfl

theorem State.imageChecked_of_first (hb : bankLoaded b0 b1 = some 0) : s.imageChecked b0 b1 dram =
    (((s.checkNoted l dram).otherBank 1 b1 b0).fillStart b0.image.hcrc).loadBank 0 b0 := by
  unfold State.imageChecked
  rw [if_neg (by simp [hp, h1]), hb, hl]
  rfl

theorem State.imageChecked_of_second (hb : bankLoaded b0 b1 = some 1) : s.imageChecked b0 b1 dram =
    (((s.checkNoted l dram).otherBank 0 b0 b1).fillStart b1.image.hcrc).loadBank 1 b1 := by
  unfold State.imageChecked
  rw [if_neg (by simp [hp, h1]), hb, hl]
  rfl
end

/-- No valid bank: NO_IMAGE, and the configuration stays. -/
theorem exec_imageCheckComplete_of_none {s : State} (b0 b1 : BankView) (dram : Bool) (hp : s.pins.porn = true)
    (h1 : s.getF F.DEV_STAT_STATE = 1) (hb0 : (s.readBank 0 b0).fault ≠ none) (hb1 : (s.readBank 1 b1).fault ≠ none) :
    ∃ t, exec (.imageCheckComplete b0 b1 dram) s = .next t ∧ t.getF F.DEV_STAT_STATE = 4 ∧ t.cfg = s.cfg := by
  have hl : bankLoaded (s.readBank 0 b0) (s.readBank 1 b1) = none := by
    unfold bankLoaded
    rw [Bank.valid_of_fault.2 hb0, Bank.valid_of_fault.2 hb1]
  refine ⟨_, congrArg Host.Outcome.next (State.imageChecked_of_none dram hp h1 rfl hl), ?_, ?_⟩
  · rw [(State.fillStart_logOnly _ _).regsIn _ _ (by decide), State.bankRecord, State.event_regsIn _ _ _ _ _ _ _ _ (by decide),
      State.bankRecord, State.event_regsIn _ _ _ _ _ _ _ _ (by decide), State.getF_setF_same]
    rfl
  · rw [(State.fillStart_logOnly _ _).cfg, State.bankRecord, State.event_cfg, State.bankRecord, State.event_cfg, State.setF_cfg,
      State.checkNoted, State.trainDram_cfg, State.setFs_cfg]

/-! ## The start of the grids (R365) -/

theorem Image.nomFreq_lt (c : SectionCfg) : c.nomFreq < 2 ^ 20 := by
  unfold SectionCfg.nomFreq
  split <;> decide

/-- A section's clock as its grid starts. -/
def State.startGrid (s : State) (k : Nat) : State :=
  (s.updSec k (fun x => x.start s.now (s.img.sec k).nomFreq)).setRate k (((s.img.sec k).nomFreq : Rat) / 10000)

/-- The grid of a section runs from angle 0 at the present instant with its nominal rate. -/
def State.AtGridStart (s : State) (k : Nat) : Prop :=
  (s.sec k).running = true ∧ (s.sec k).theta0 = 0 ∧ (s.sec k).t0 = s.now ∧ (s.sec k).nextSample = 0 ∧
    s.getF F.SEC_FREQ_FREQ k = (s.img.sec k).nomFreq

theorem State.startGrid_atGridStart (s : State) (k : Nat) : (s.startGrid k).AtGridStart k := by
  have hfreq : (((s.img.sec k).nomFreq : Rat) / 10000 * 10000).floor.toNat = (s.img.sec k).nomFreq := by
    rw [div_mul_cancel₀ _ (by norm_num)]
    exact congrArg Int.toNat (Int.floor_natCast (R := ℚ) (s.img.sec k).nomFreq)
  unfold State.AtGridStart State.startGrid State.setRate
  rw [State.setF_sec, State.sec_updSec, State.sec_updSec, State.getF_setF_same, hfreq]
  refine ⟨rfl, ?_, rfl, rfl, Nat.mod_eq_of_lt (Image.nomFreq_lt _)⟩
  change ((((0 : Rat) + ((s.img.sec k).nomFreq : Rat) / 10000 * ((s.now : Rat) - s.now) * 65536 / 1200000000) * 2 ^ 24).floor : Rat) / 2 ^ 24 = 0
  rw [sub_self, mul_zero, zero_mul, zero_div, add_zero, zero_mul]
  have hz : Rat.floor 0 = 0 := rfl
  rw [hz, Int.cast_zero, zero_div]

theorem State.startGrid_atGridStart_other (s : State) {k m : Nat} (hm : m ≠ k) (h : s.AtGridStart m) : (s.startGrid k).AtGridStart m := by
  obtain ⟨h1, h2, h3, h4, h5⟩ := h
  have hsec : (s.startGrid k).sec m = s.sec m := by
    unfold State.startGrid State.setRate
    rw [State.setF_sec, State.sec_updSec_other _ _ _ _ hm, State.sec_updSec_other _ _ _ _ hm]
  refine ⟨by rw [hsec, h1], by rw [hsec, h2], by rw [hsec, h3]; rfl, by rw [hsec, h4], ?_⟩
  unfold State.startGrid State.setRate
  rw [State.getF_setF_other _ _ _ _ _ _ _ _ (Fld.key_ne_of_addr _ _ _ _ _ _ (by decide) (by decide) (by simp [Fld.addr, F.SEC_FREQ_FREQ, hm]))]
  exact h5

/-- The grids of the first `n` sections. -/
theorem State.forN_startGrid (s : State) (n : Nat) : ∀ k, k < n → (s.forN n State.startGrid).AtGridStart k := by
  induction n with
  | zero => intro k hk; omega
  | succ n ih =>
    intro k hk
    have he : s.forN (n + 1) State.startGrid = (s.forN n State.startGrid).startGrid n := by
      simp only [State.forN, List.range_succ, List.foldl_append, List.foldl_cons, List.foldl_nil]
    rw [he]
    by_cases hn : k = n
    · rw [hn]; exact State.startGrid_atGridStart _ _
    · exact State.startGrid_atGridStart_other _ hn (ih k (by omega))

theorem State.forN_startGrid_img (s : State) (n : Nat) : (s.forN n State.startGrid).img = s.img :=
  State.foldl_keeps State.img State.startGrid (fun _ _ => rfl) _ s

theorem exec_gridStart {s : State} (h2 : s.getF F.DEV_STAT_STATE = 2) (hr : (s.sec 0).running = false) :
    exec .gridStart s =
      .next ((if s.refsReady then s else s.advanceTo (s.dev.poweredAt + 5 * msClk)).forN 24 State.startGrid) := by
  refine congrArg Host.Outcome.next (?_ : s.startGrids = _)
  unfold State.startGrids
  rw [if_neg (by simp [h2, hr])]
  rfl

/-! ## Protection becomes active (R366) -/

/-- The fields that the cores' start and the role write. -/
def protectFields : List Fld :=
  [F.LC_STAT_STATE, F.LC_STAT_CONSEC, F.LC_STAT_FALLBACK, F.LC_STAT_RESTORED, F.PR_STAT_ACTIVE, F.PR_CLAIM_G] ++ roleFields

theorem roleFields_subset_protectFields : roleFields ⊆ protectFields := List.subset_append_right _ _

theorem State.restartCore_regsIn (s : State) (k : Nat) (warm : Bool) : State.RegsIn protectFields s (s.restartCore k warm) := by
  unfold State.restartCore
  dsimp only
  refine State.RegsIn.setF (State.RegsIn.setF (State.RegsIn.of_regs (State.RegsIn.refl _ s) ?_) (by decide) _ _)
    (by decide) _ _
  exact State.foldl_keeps State.regs (fun (s : State) (p : Nat × Entry) => s.putSig p.1 p.2.invalidate) (fun s p => s.putSig_regs _ _) _ s

theorem State.startCore_regsIn (s : State) (k : Nat) : State.RegsIn protectFields s (s.startCore k) := by
  have hevent : ∀ (u : State) (d : List Nat), State.RegsIn protectFields s u →
      State.RegsIn protectFields s ((u.setF F.LC_STAT_FALLBACK k 1).event 0x0703 k 0xFFFF .none d) := fun u d hu =>
    (hu.setF (by decide) _ _).trans ((State.event_regsIn _ _ _ _ _ _).mono
      (List.Subset.trans logFields_subset_roleFields roleFields_subset_protectFields))
  have hr := s.restartCore_regsIn k false
  unfold State.startCore
  generalize s.restartCore k false = r at hr ⊢
  simp only []
  split
  · exact State.RegsIn.refl _ s
  · refine State.RegsIn.of_regs ?_ (State.updCore_regs _ _ _)
    split
    · split
      · exact hr
      split
      · exact hevent _ _ hr
      · exact State.RegsIn.of_regs (hr.setF (f := F.LC_STAT_RESTORED) (by decide) k 1) (State.updCore_regs _ _ _)
    · split
      · exact hevent _ _ hr
      · exact hr

theorem State.RegsIn.withLanes {l : List Fld} {r s : State} (h : State.RegsIn l r s) (lanes : List (Nat × LaneSt)) :
    State.RegsIn l r { s with lanes := lanes } := State.RegsIn.of_regs h rfl

/-- What follows the record of active protection leaves DEV_STAT. -/
theorem exec_protectionActive {s : State} (h2 : s.getF F.DEV_STAT_STATE = 2) (hm : s.mayProtect = true) :
    ∃ t, exec .protectionActive s = .next t ∧ State.RegsIn protectFields ((s.setF F.DEV_STAT_STATE 0 3).setF F.DEV_STAT_ACTT 0
      (min 4095 ((s.now - s.dev.countAt) / msClk))) t := by
  refine ⟨_, congrArg Host.Outcome.next (if_neg (by simp [h2, hm])), ?_⟩
  refine State.RegsIn.trans ?_ ((State.published_roleOnly _).regs.mono roleFields_subset_protectFields)
  refine State.RegsIn.withLanes ?_ _
  generalize hu : ((s.setF F.DEV_STAT_STATE 0 3).setF F.DEV_STAT_ACTT 0 (min 4095 ((s.now - s.dev.countAt) / msClk))) = u
  have hcores : State.RegsIn protectFields u ((u.event 0x0D01 0xFFFF 0xFFFF .none (le2 (min 4095 ((s.now - s.dev.countAt) / msClk)))).forN 4
      (fun s k => s.startCore k)) :=
    List.foldlRecOn (motive := fun t => State.RegsIn protectFields u t) _ _
      ((State.event_regsIn _ _ _ _ _ _).mono (List.Subset.trans logFields_subset_roleFields roleFields_subset_protectFields))
      (fun t ht k _ => ht.trans (t.startCore_regsIn k))
  split
  · exact (State.RegsIn.of_regs hcores (State.updPair_regs _ _)).trans ((State.syncRole_roleOnly _).regs.mono roleFields_subset_protectFields)
  · refine State.RegsIn.trans ?_ (((State.roleRanges_roleOnly _ _).trans (State.syncRole_roleOnly _)).regs.mono roleFields_subset_protectFields)
    exact (hcores.setF (by decide) _ _).setF (by decide) _ _

/-- Settles O5: each command under its condition; the log's start, the records and the publication leave what the statement names. -/
theorem powerAndStartCommandsComplete : Obligations.PowerAndStartCommandsComplete := by
  refine ⟨⟨resetAndPowerBalls.1, fun s low => ⟨_, rfl, rfl, rfl, rfl, rfl, rfl, rfl, rfl, rfl, rfl, rfl, rfl, rfl, rfl, rfl, rfl, rfl⟩,
    resetAndPowerBalls.2, fun s => exec_holdupWarnAssert, fun s => exec_pwrgoodFall, fun s hu => ?_, fun s u => exec_holdupWarnClear,
    fun s hp hg => ?_⟩, fun s b0 b1 dram => exec_imageCheckComplete_of_none b0 b1 dram, ?_, fun s h2 hr => ?_, fun s h2 hm => ?_,
    fun s h4 => ?_⟩
  · refine congrArg Host.Outcome.next (if_pos ?_)
    rw [hu, Bool.true_or]
  · refine congrArg Host.Outcome.next (if_neg ?_)
    rw [hp, hg]
    exact Bool.false_ne_true
  · intro s u v0 v1 b0 b1 dram l hp h1 hb0 hb1 hl hu
    subst hb0 hb1 hu
    constructor
    · intro hf0 hf1
      refine congrArg Host.Outcome.next (State.imageChecked_of_first dram hp h1 hl ?_)
      unfold bankLoaded
      rw [Bank.valid_of_fault.1 hf0]
      cases hv : (s.readBank 1 v1).fault with
      | none => rw [Bank.valid_of_fault.1 hv]; exact congrArg some (if_neg (Nat.not_lt.2 (hf1 hv)))
      | some f => rw [Bank.valid_of_fault.2 (by rw [hv]; simp)]
    · intro hf1 hf0
      refine congrArg Host.Outcome.next (State.imageChecked_of_second dram hp h1 hl ?_)
      unfold bankLoaded
      rw [Bank.valid_of_fault.1 hf1]
      cases hv : (s.readBank 0 v0).fault with
      | none => rw [Bank.valid_of_fault.1 hv]; exact congrArg some (if_pos (hf0 hv))
      | some f => rw [Bank.valid_of_fault.2 (by rw [hv]; simp)]
  · refine ⟨_, exec_gridStart h2 hr, fun k hk => ?_⟩
    obtain ⟨h1, h2, h3, h4, h5⟩ := State.forN_startGrid (if s.refsReady then s else s.advanceTo (s.dev.poweredAt + 5 * msClk)) 24 k hk
    refine ⟨h1, h2, h3, h4, h5.trans ?_⟩
    rw [State.forN_startGrid_img]
    split <;> rfl
  · obtain ⟨t, ht, hregs⟩ := exec_protectionActive h2 hm
    refine ⟨t, ht, (hregs _ _ (by decide)).trans ?_, (hregs _ _ (by decide)).trans ?_⟩
    · rw [State.getF_setF_apart _ _ _ _ (by decide), State.getF_setF_same]
      rfl
    · rw [State.getF_setF_same]
      exact Nat.mod_eq_of_lt (lt_of_le_of_lt (Nat.min_le_left _ _) (by decide))
  · refine congrArg Host.Outcome.next (if_neg ?_)
    rw [h4]
    decide

end Sys2Proof.Machine
end

section
/-! The service states of a lane, its receiver and link, and its patterns (R258 to R278): which registers each operation of a lane
writes, that it takes no time, and what it does to the lane's own state. -/

namespace Sys2Proof.Machine

/-! ## What the operations on a lane write -/

/-- The fields that an injection writes. -/
def injFields : List Fld := [F.LN_INJCNT_INJECTED, F.LN_INJ_KIND]

/-- The fields that the loss of a link writes. -/
def lossFields : List Fld := [F.LN_STAT_UP, F.LN_FRMCNT_RXDISC, F.LN_LINKCNT_DOWNS, F.LN_STAT_DOWNEVT] ++ logFields

theorem logFields_subset_lossFields : logFields ⊆ lossFields := List.subset_append_right _ _

theorem State.RegsIn.incF {l : List Fld} {r s : State} (h : State.RegsIn l r s) {f : Fld} (hf : f ∈ l) (i n : Nat) :
    State.RegsIn l r (s.incF f i n) := h.setF hf i _

theorem State.RegsIn.updLane {l : List Fld} {r s : State} (h : State.RegsIn l r s) (n : Nat) (f : LaneSt → LaneSt) :
    State.RegsIn l r (s.updLane n f) := h.of_regs (State.updLane_regs _ _ _)

variable (s : State) (n : Nat)

theorem State.runInj_regsIn : State.RegsIn injFields s (s.runInj n) := by
  have h := State.RegsIn.refl injFields s
  unfold State.runInj
  split
  · exact h.updLane _ _
  dsimp only
  split
  · exact ((h.updLane _ _).incF (by decide) _ _).setF (by decide) _ _
  split
  · split
    · exact h
    · exact (h.updLane _ _).updLane _ _
  · exact h.updLane _ _

@[simp] theorem State.runInj_now : (s.runInj n).now = s.now := by
  unfold State.runInj
  split
  · rfl
  dsimp only
  split
  · rfl
  split
  · split <;> rfl
  · rfl

/-- An injection changes the peer frame in progress and the injection's own count. -/
theorem State.runInj_lane : ∃ out at_ m, (s.runInj n).lane n = { s.lane n with peerOut := out, injAt := at_, injN := m } := by
  unfold State.runInj State.invertLine State.incF
  split
  · exact ⟨_, _, _, State.lane_updLane _ _ _⟩
  dsimp only
  split
  · rw [State.setF_lane, State.setF_lane, State.lane_updLane]
    exact ⟨_, _, _, rfl⟩
  split
  · split
    · exact ⟨_, _, _, rfl⟩
    · exact ⟨_, _, _, (State.lane_updLane _ _ _).trans (by rw [State.lane_updLane])⟩
  · exact ⟨_, _, _, State.lane_updLane _ _ _⟩

theorem State.syncInj_regsIn : State.RegsIn injFields s (s.syncInj n) := by
  unfold State.syncInj
  split
  · exact ((State.RegsIn.refl injFields s).incF (by decide) _ _).updLane _ _
  · exact State.RegsIn.refl _ _

@[simp] theorem State.syncInj_now : (s.syncInj n).now = s.now := by
  unfold State.syncInj
  split <;> rfl

theorem State.syncInj_of_none (h : (s.lane n).injAt = none) : s.syncInj n = s := by
  unfold State.syncInj
  rw [h]

theorem State.realign_regsIn : State.RegsIn [F.LN_FRMCNT_RXDISC] s (s.realign n) := by
  unfold State.realign
  refine State.RegsIn.updLane ?_ _ _
  split
  · exact (State.RegsIn.refl _ s).incF (by decide) _ _
  · exact State.RegsIn.refl _ s

@[simp] theorem State.realign_now : (s.realign n).now = s.now := by
  unfold State.realign
  dsimp only
  split <;> rfl

theorem State.realign_lane : (s.realign n).lane n =
    { s.lane n with run := 0, win := [], rd := none, downAt := s.now, peerAsm := none } := by
  unfold State.realign
  dsimp only
  split <;> rw [State.lane_updLane] <;> rfl

theorem State.dropLink_of_down (counts : Bool) (h : s.flag F.LN_STAT_UP n = false) : s.dropLink n counts = s := by
  unfold State.dropLink
  rw [h]
  rfl

theorem State.dropLink_regsIn (counts : Bool) : State.RegsIn lossFields s (s.dropLink n counts) := by
  have h1 : State.RegsIn lossFields s ((s.setF F.LN_STAT_UP n 0).realign n) :=
    ((State.RegsIn.refl _ s).setF (by decide) _ _).trans ((State.realign_regsIn _ _).mono (by decide))
  unfold State.dropLink
  split
  · exact State.RegsIn.refl _ s
  refine State.RegsIn.trans ?_ ((State.event_regsIn _ _ _ _ _ _).mono logFields_subset_lossFields)
  split
  · exact (h1.incF (by decide) _ _).setF (by decide) _ _
  · exact h1

@[simp] theorem State.dropLink_now (counts : Bool) : (s.dropLink n counts).now = s.now := by
  unfold State.dropLink
  split
  · rfl
  · rw [State.event_now]
    split
    · exact State.realign_now (s.setF F.LN_STAT_UP n 0) n
    · exact State.realign_now (s.setF F.LN_STAT_UP n 0) n

theorem State.dropLink_up (counts : Bool) : (s.dropLink n counts).flag F.LN_STAT_UP n = false := by
  unfold State.dropLink
  split
  next h => simpa using h
  next h =>
    rw [(State.event_regsIn _ _ _ _ _ _).flag (by decide)]
    have h1 : ((s.setF F.LN_STAT_UP n 0).realign n).flag F.LN_STAT_UP n = false :=
      ((State.realign_regsIn _ _).flag (by decide)).trans (State.flag_setF_zero _ _ _ _)
    split
    · rw [State.flag_setF_apart _ _ _ _ (by decide)]
      exact (State.flag_setF_apart _ _ _ _ (by decide)).trans h1
    · exact h1

theorem State.dropLock_regsIn : State.RegsIn (F.LN_STAT_LOCK :: lossFields) s (s.dropLock n) :=
  ((State.RegsIn.refl _ s).setF (by decide) _ _).trans ((State.dropLink_regsIn _ _ _).mono (List.subset_cons_self _ _))

@[simp] theorem State.dropLock_now : (s.dropLock n).now = s.now := State.dropLink_now _ _ _

theorem State.dropLock_lock : (s.dropLock n).flag F.LN_STAT_LOCK n = false :=
  ((State.dropLink_regsIn _ _ _).flag (by decide)).trans (State.flag_setF_zero _ _ _ _)

theorem State.dropLock_up : (s.dropLock n).flag F.LN_STAT_UP n = false := State.dropLink_up _ _ _

theorem State.restReceiver_regsIn : State.RegsIn (F.LN_STAT_SIGDET :: F.LN_STAT_LOCK :: lossFields) s (s.restReceiver n) := by
  unfold State.restReceiver
  split
  · exact State.RegsIn.refl _ s
  · exact ((State.dropLock_regsIn s n).mono (List.subset_cons_self _ _)).setF (by decide) _ _

@[simp] theorem State.restReceiver_now : (s.restReceiver n).now = s.now := by
  unfold State.restReceiver
  split
  · rfl
  · exact State.dropLock_now s n

/-! ## Service states (R260, R261, R364) -/

/-- A lane that starts, with its scrambler at `scr`. -/
def State.startedLane (scr : Nat) : State :=
  (((s.setF F.LN_PRBSCTRL_GEN n 0).setF F.LN_STAT_STATE n 1).updLane n
    (fun l => { l with startAt := s.now, pendOff := false, scr := scr, scrAt := s.now })).runInj n

/-- The free value of a peer lane is all that a start takes besides. -/
theorem State.enterStarting_eq : ∃ (u : State) (scr : Nat), u.regs = s.regs ∧ u.now = s.now ∧ s.enterStarting n = u.startedLane n scr := by
  unfold State.enterStarting
  split
  next scr u hu =>
    refine ⟨u, scr, ?_, ?_, rfl⟩ <;>
    · split at hu
      · rw [← (Prod.mk.inj hu).2]
      · rw [← (Prod.mk.inj hu).2]

theorem State.startedLane_regsIn (scr : Nat) :
    State.RegsIn injFields ((s.setF F.LN_PRBSCTRL_GEN n 0).setF F.LN_STAT_STATE n 1) (s.startedLane n scr) :=
  ((State.RegsIn.refl _ _).updLane _ _).trans (State.runInj_regsIn _ _)

theorem State.startedLane_lane (scr : Nat) :
    ((s.startedLane n scr).lane n).startAt = s.now ∧ ((s.startedLane n scr).lane n).pendOff = false := by
  obtain ⟨out, at_, m, hl⟩ := (((s.setF F.LN_PRBSCTRL_GEN n 0).setF F.LN_STAT_STATE n 1).updLane n
    (fun l => { l with startAt := s.now, pendOff := false, scr := scr, scrAt := s.now })).runInj_lane n
  unfold State.startedLane
  rw [hl, State.lane_updLane]
  exact ⟨rfl, rfl⟩

theorem State.enterStarting_lane : ((s.enterStarting n).lane n).startAt = s.now ∧ ((s.enterStarting n).lane n).pendOff = false := by
  obtain ⟨u, scr, _, hnow, he⟩ := s.enterStarting_eq n
  rw [he, ← hnow]
  exact u.startedLane_lane n scr

theorem State.enterStarting_state : (s.enterStarting n).laneState n = 1 := by
  obtain ⟨u, scr, _, _, he⟩ := s.enterStarting_eq n
  rw [he]
  exact ((u.startedLane_regsIn n scr) _ _ (by decide)).trans (State.getF_setF_same _ _ _ _ _)

theorem State.enterStarting_gen : (s.enterStarting n).flag F.LN_PRBSCTRL_GEN n = false := by
  obtain ⟨u, scr, _, _, he⟩ := s.enterStarting_eq n
  rw [he]
  exact ((u.startedLane_regsIn n scr).flag (by decide)).trans ((State.flag_setF_apart _ _ _ _ (by decide)).trans (State.flag_setF_zero _ _ _ _))

theorem State.enterStarting_pending : (s.enterStarting n).flag F.LN_STAT_PENDING n = s.flag F.LN_STAT_PENDING n := by
  obtain ⟨u, scr, hu, _, he⟩ := s.enterStarting_eq n
  rw [he]
  refine ((u.startedLane_regsIn n scr).flag (by decide)).trans ?_
  rw [State.flag_setF_apart _ _ _ _ (by decide), State.flag_setF_apart _ _ _ _ (by decide)]
  unfold State.flag State.getF
  rw [hu]

/-- A lane that is not a tile lane discards its queues alone. -/
theorem State.discardFrames_of_not_tile (h : s.tileLane n = false) : ∃ c, s.discardFrames n =
    (s.incF F.LN_FRMCNT_TXDISC n c).updLane n (fun l => { l with
      gates := [], changeQ := [], refreshQ := [], confQ := [], confAt := none, ethQ := [], peerQ0 := [], peerQ1 := [], resv := false }) := by
  unfold State.discardFrames
  refine ⟨_, if_neg ?_⟩
  unfold State.tileLane State.incF
  rw [State.updLane_getF, State.getF_setF_apart _ _ _ _ (by decide)]
  simpa [State.tileLane] using h

/-- The end of STOPPING without a start that waits. -/
theorem State.stopped_spec (s : State) (n : Nat) (u : State)
    (hu : u = (((s.syncInj n).setF F.LN_STAT_STATE n 0).restReceiver n).runInj n) :
    u.laneState n = 0 ∧ u.now = s.now ∧ u.flag F.LN_STAT_PENDING n = s.flag F.LN_STAT_PENDING n := by
  rw [hu]
  refine ⟨?_, ?_, ?_⟩
  · exact ((State.runInj_regsIn _ _) _ _ (by decide)).trans
      (((State.restReceiver_regsIn _ _) _ _ (by decide)).trans (State.getF_setF_same _ _ _ _ _))
  · rw [State.runInj_now, State.restReceiver_now]
    exact State.syncInj_now s n
  · rw [(State.runInj_regsIn _ _).flag (by decide), (State.restReceiver_regsIn _ _).flag (by decide),
      State.flag_setF_apart _ _ _ _ (by decide), (State.syncInj_regsIn _ _).flag (by decide)]

/-- Settles O31, along the service states. -/
theorem laneServiceStatesComplete : Obligations.LaneServiceStatesComplete := by
  refine ⟨fun s n _ hm h0 => ⟨_, congrArg Host.Outcome.next ?_, s.enterStarting_state n, s.enterStarting_gen n, ?_⟩,
    fun s n hm h3 => congrArg Host.Outcome.next ?_, fun s n hm => congrArg Host.Outcome.next (if_pos hm),
    fun s n _ h2 ht => ⟨s.enterStopping n, congrArg Host.Outcome.next ?_, ?_⟩, fun s n h1 => congrArg Host.Outcome.next ?_,
    fun s n h1 hup => congrArg Host.Outcome.next (if_pos ⟨h1, by simp [hup]⟩), fun s n _ h3 hp => ?_, fun s n _ h3 hp => ?_⟩
  · unfold State.startLane
    rw [if_neg hm, h0]
    rfl
  · exact s.enterStarting_lane n
  · unfold State.startLane
    rw [if_neg hm, h3]
    rfl
  · show s.stopLane n = s.enterStopping n
    unfold State.stopLane
    rw [h2]
    rfl
  · have ht' : (s.setF F.LN_STAT_STATE n 3).tileLane n = false := by
      unfold State.tileLane
      rw [State.getF_setF_apart _ _ _ _ (by decide)]
      exact ht
    obtain ⟨c, hc⟩ := (s.setF F.LN_STAT_STATE n 3).discardFrames_of_not_tile n ht'
    unfold State.enterStopping
    rw [hc, State.lane_updLane, State.lane_updLane]
    refine ⟨?_, rfl, rfl, rfl, rfl, rfl, rfl, rfl⟩
    exact (State.getF_setF_apart _ _ _ _ (by decide)).trans (State.getF_setF_same _ _ _ _ _)
  · show s.stopLane n = _
    unfold State.stopLane
    rw [h1]
    rfl
  · obtain ⟨hs, hn, hf⟩ := (s.advanceTo ((s.lane n).stopAt + blocks64 (s.laneMode n))).stopped_spec n _ rfl
    exact ⟨_, congrArg Host.Outcome.next ((if_pos h3).trans (if_neg (by rw [hf]; exact (Bool.eq_false_iff.1 hp)))), hs, hn⟩
  · obtain ⟨_, _, hf⟩ := (s.advanceTo ((s.lane n).stopAt + blocks64 (s.laneMode n))).stopped_spec n _ rfl
    refine ⟨_, congrArg Host.Outcome.next ((if_pos h3).trans (if_pos (hf.trans hp))), State.enterStarting_state _ _, ?_⟩
    rw [State.enterStarting_pending, State.flag_setF_zero]

end Sys2Proof.Machine
end

section
/-! The pattern generator and checker of a lane and the injection of errors (R276 to R278). -/

namespace Sys2Proof.Machine

/-! ## Saturating counters -/

theorem satAdd_lt (w x n : Nat) : satAdd w x n < 2 ^ w :=
  lt_of_le_of_lt (Nat.min_le_right _ _) (Nat.sub_one_lt (Nat.two_pow_pos w).ne')

theorem satAdd_satAdd (w x m n : Nat) : satAdd w (satAdd w x m) n = satAdd w x (m + n) := by
  unfold satAdd
  omega

theorem State.getF_incF (s : State) (f : Fld) (i n : Nat) : (s.incF f i n).getF f i = satAdd f.width (s.getF f i) n := by
  rw [State.getF_incF_same, Nat.mod_eq_of_lt (satAdd_lt _ _ _)]

/-! ## Outcomes of a row of received bits or blocks -/

/-- As many leading misses as have come, ahead of hits alone: what the last 64 were. -/
def Missed (i : Nat) (win : List Bool) : Prop := ∃ hits, win = List.replicate i false ++ hits ∧ ∀ ok ∈ hits, ok = true

theorem missed_zero {win : List Bool} (h : win.all id = true) : Missed 0 win :=
  ⟨win, rfl, fun ok hok => List.all_eq_true.1 h ok hok⟩

theorem Missed.step {i : Nat} {win : List Bool} (h : Missed i win) (hi : i < 64) : Missed (i + 1) ((false :: win).take 64) := by
  obtain ⟨hits, rfl, hh⟩ := h
  refine ⟨hits.take (64 - (i + 1)), ?_, fun ok hok => hh ok (List.mem_of_mem_take hok)⟩
  rw [← List.cons_append, ← List.replicate_succ, List.take_append, List.length_replicate, List.take_of_length_le]
  rw [List.length_replicate]
  exact hi

theorem Missed.count {i : Nat} {win : List Bool} (h : Missed i win) : countIf win (fun ok => !ok) = i := by
  obtain ⟨hits, rfl, hh⟩ := h
  unfold countIf
  have hnone : hits.filter (fun ok => !ok) = [] := List.filter_eq_nil_iff.2 (fun ok hok => by simp [hh ok hok])
  rw [List.filter_append, hnone]
  simp

theorem all_hit_cons {win : List Bool} (h : win.all id = true) : ((true :: win).take 64).all id = true :=
  List.all_eq_true.2 fun ok hok => by
    rcases List.mem_cons.1 (List.mem_of_mem_take hok) with rfl | hm
    · rfl
    · exact List.all_eq_true.1 h ok hm

/-! ## The checker (R277) -/

variable {r s : State} {n : Nat}

/-- An update of a lane depends on what it makes of that lane alone. -/
theorem State.updLane_congr {f g : LaneSt → LaneSt} (h : f (s.lane n) = g (s.lane n)) : s.updLane n f = s.updLane n g := by
  have hupd : Tab.upd s.lanes {} n f = Tab.upd s.lanes {} n g := congrArg (Tab.set s.lanes n) h
  unfold State.updLane
  rw [hupd]

/-- The checker takes bits: its lane is used and its own bit is set. -/
def State.Checks (s : State) (n : Nat) : Prop := s.laneMode n ≠ 0 ∧ s.flag F.LN_PRBSCTRL_CEN n = true

/-- The fields that the checker writes. -/
def checkFields : List Fld := [F.LN_PRBSSTAT_LOCKED, F.LN_PRBSSTAT_LOSTEVT, F.LN_PRBSERR_ERRORS, F.LN_PRBSBITS_BITS]

theorem State.Checks.of_regsIn (h : r.Checks n) (hr : State.RegsIn checkFields r s) : s.Checks n :=
  ⟨by rw [State.laneMode, hr _ _ (by decide)]; exact h.1, (hr.flag (by decide)).trans h.2⟩

theorem State.Checks.not_idle (h : s.Checks n) : ¬(!s.receives n || !s.flag F.LN_PRBSCTRL_CEN n) = true := by
  obtain ⟨hm, hc⟩ := h
  simp [State.receives, hc, hm]

/-- The next bit of the pattern that the checker's register is in. -/
def State.expectedBit (s : State) (n : Nat) : Bool := prbsNext (s.getF F.LN_PRBSCTRL_CPOLY n) (s.lane n).chk.reg

/-- The register behind that bit. -/
def State.nextReg (s : State) (n : Nat) : Nat := prbsShift (s.lane n).chk.reg (s.expectedBit n)

/-- While it seeks, a filled checker counts a match, and the 64th in a row locks it. -/
theorem State.checkBit_seeking (h : s.Checks n) (hl : s.flag F.LN_PRBSSTAT_LOCKED n = false)
    (hfill : (prbsTaps (s.getF F.LN_PRBSCTRL_CPOLY n)).1 ≤ (s.lane n).chk.fill) (c : PrbsSt)
    (hc : c = { reg := s.nextReg n, fill := (s.lane n).chk.fill + 1, run := (s.lane n).chk.run + 1 }) :
    s.checkBit n (s.expectedBit n) = if 64 ≤ c.run
      then ((s.updLane n (fun l => { l with chk := c })).setF F.LN_PRBSSTAT_LOCKED n 1).updLane n (fun l => { l with
        prbsAt := s.now, prbsN := 0, chk := { c with win := [] } })
      else s.updLane n (fun l => { l with chk := c }) := by
  have hbit : (s.lane n).chk.bit (s.getF F.LN_PRBSCTRL_CPOLY n) false (s.expectedBit n) = c := by
    rw [hc, PrbsSt.bit]
    simp [State.nextReg, State.expectedBit, hfill]
  unfold State.checkBit
  rw [if_neg h.not_idle, hl]
  dsimp only
  rw [if_neg Bool.false_ne_true, hbit]
  rfl

/-- A locked checker follows its own pattern. -/
theorem State.checkBit_locked (h : s.Checks n) (hl : s.flag F.LN_PRBSSTAT_LOCKED n = true) (b : Bool) (c : PrbsSt)
    (hc : c = { (s.lane n).chk with reg := s.nextReg n, win := ((s.expectedBit n == b) :: (s.lane n).chk.win).take 64 })
    (u : State) (hu : u = if s.expectedBit n == b then s.updLane n (fun l => { l with chk := c })
      else (s.updLane n (fun l => { l with chk := c })).incF F.LN_PRBSERR_ERRORS n) :
    s.checkBit n b = if 32 ≤ countIf c.win (fun ok => !ok)
      then (((u.syncPrbs n).setF F.LN_PRBSSTAT_LOCKED n 0).setF F.LN_PRBSSTAT_LOSTEVT n 1).updLane n (fun l => { l with chk := {} })
      else u := by
  have hbit : (s.lane n).chk.bit (s.getF F.LN_PRBSCTRL_CPOLY n) true b = c := by
    rw [hc, PrbsSt.bit]
    rfl
  have hhead : c.win.headD true = (s.expectedBit n == b) := by rw [hc]; rfl
  unfold State.checkBit
  rw [if_neg h.not_idle, hl]
  dsimp only
  rw [if_pos rfl, hbit, hhead, hu]

/-- Locked, with no miss among the last 64 and no error counted since `r`. -/
structure State.Locked (r : State) (n : Nat) (s : State) : Prop where
  regs : State.RegsIn [F.LN_PRBSSTAT_LOCKED] r s
  locked : s.flag F.LN_PRBSSTAT_LOCKED n = true
  since : (s.lane n).prbsAt = r.now
  hits : (s.lane n).chk.win.all id = true

theorem State.Locked.step (h : r.Locked n s) (hr : r.Checks n) :
    r.Locked n (s.checkBit n (s.expectedBit n)) ∧ ((s.checkBit n (s.expectedBit n)).lane n).chk.reg = s.nextReg n := by
  obtain ⟨hregs, hl, hat, hhits⟩ := h
  have hwin := all_hit_cons hhits
  have hcount : countIf ((true :: (s.lane n).chk.win).take 64) (fun ok => !ok) = 0 := (missed_zero hwin).count
  rw [s.checkBit_locked (hr.of_regsIn (hregs.mono (by decide))) hl _ _ rfl _ rfl, beq_self_eq_true, if_pos rfl, hcount,
    if_neg (by decide)]
  refine ⟨⟨hregs.updLane _ _, hl, ?_, ?_⟩, ?_⟩
  · rw [State.lane_updLane]; exact hat
  · rw [State.lane_updLane]; exact hwin
  · rw [State.lane_updLane]

/-- The bits of its pattern leave a locked checker locked. -/
theorem State.Locked.checkBits (hr : r.Checks n) (k : Nat) : ∀ s : State, r.Locked n s →
    r.Locked n (s.checkBits n (prbsBits (r.getF F.LN_PRBSCTRL_CPOLY n) (s.lane n).chk.reg k)) := by
  induction k with
  | zero => exact fun s h => h
  | succ k ih =>
    intro s h
    have hpoly : prbsNext (r.getF F.LN_PRBSCTRL_CPOLY n) (s.lane n).chk.reg = s.expectedBit n := by
      rw [State.expectedBit, h.regs _ _ (by decide)]
    obtain ⟨h1, hreg⟩ := h.step hr
    have h2 := ih _ h1
    rw [hreg] at h2
    rw [prbsBits, hpoly]
    exact h2

/-- A checker that has found `m` matches locks within `k` more bits of its pattern, where they are 64 in all. -/
theorem State.checkBits_locks (hr : r.Checks n) (hl : r.flag F.LN_PRBSSTAT_LOCKED n = false) (k : Nat) : ∀ s : State, s.regs = r.regs →
    s.now = r.now → (prbsTaps (r.getF F.LN_PRBSCTRL_CPOLY n)).1 ≤ (s.lane n).chk.fill → 1 ≤ k → 64 ≤ (s.lane n).chk.run + k →
    r.Locked n (s.checkBits n (prbsBits (r.getF F.LN_PRBSCTRL_CPOLY n) (s.lane n).chk.reg k)) := by
  induction k with
  | zero => intro s _ _ _ h1; omega
  | succ k ih =>
    intro s hregs hnow hfill _ hrun
    have hall : ∀ l, State.RegsIn l r s := fun l => (State.RegsIn.refl l r).of_regs hregs
    have hpoly : r.getF F.LN_PRBSCTRL_CPOLY n = s.getF F.LN_PRBSCTRL_CPOLY n := ((hall []) _ _ (by decide)).symm
    have hnext : prbsNext (r.getF F.LN_PRBSCTRL_CPOLY n) (s.lane n).chk.reg = s.expectedBit n := by rw [State.expectedBit, hpoly]
    have hstep := s.checkBit_seeking (hr.of_regsIn (hall _)) (((hall []).flag (by decide)).trans hl) (by rw [← hpoly]; exact hfill) _ rfl
    rw [prbsBits, hnext]
    show r.Locked n ((s.checkBit n (s.expectedBit n)).checkBits n (prbsBits (r.getF F.LN_PRBSCTRL_CPOLY n) (s.nextReg n) k))
    rw [hstep]
    split
    next hfull =>
      have h : r.Locked n (((s.updLane n (fun l => { l with chk :=
          { reg := s.nextReg n, fill := (s.lane n).chk.fill + 1, run := (s.lane n).chk.run + 1 } })).setF F.LN_PRBSSTAT_LOCKED n 1).updLane n
          (fun l => { l with prbsAt := s.now, prbsN := 0, chk :=
            { reg := s.nextReg n, fill := (s.lane n).chk.fill + 1, run := (s.lane n).chk.run + 1, win := [] } })) := by
        refine ⟨(((hall _).updLane _ _).setF (by decide) _ _).updLane _ _, State.flag_setF_one _ F.LN_PRBSSTAT_LOCKED n 0 (by decide), ?_, ?_⟩
        · rw [State.lane_updLane]; exact hnow
        · rw [State.lane_updLane]; rfl
      have h2 := State.Locked.checkBits hr k _ h
      rw [State.lane_updLane] at h2
      exact h2
    next hmore =>
      have h2 := ih (s.updLane n (fun l => { l with chk :=
        { reg := s.nextReg n, fill := (s.lane n).chk.fill + 1, run := (s.lane n).chk.run + 1 } })) hregs hnow
      rw [State.lane_updLane] at h2
      dsimp only at h2 hmore
      exact h2 (by omega) (by omega) (by omega)

/-- Locked, with `i` misses among the last 64 bits and 32 − `i` errors to come to those that `r` will have counted. -/
structure State.Missing (r : State) (n i : Nat) (s : State) : Prop where
  regs : State.RegsIn [F.LN_PRBSERR_ERRORS] r s
  locked : s.flag F.LN_PRBSSTAT_LOCKED n = true
  errors : satAdd F.LN_PRBSERR_ERRORS.width (s.getF F.LN_PRBSERR_ERRORS n) (32 - i) =
    satAdd F.LN_PRBSERR_ERRORS.width (r.getF F.LN_PRBSERR_ERRORS n) 32
  bound : 0 < i → s.getF F.LN_PRBSERR_ERRORS n < 2 ^ F.LN_PRBSERR_ERRORS.width
  missed : Missed i (s.lane n).chk.win

theorem State.Missing.checks {i : Nat} (h : r.Missing n i s) (hr : r.Checks n) : s.Checks n := hr.of_regsIn (h.regs.mono (by decide))

/-- A locked checker that has counted a miss. -/
def State.missCounted (s : State) (n : Nat) : State :=
  (s.updLane n (fun l => { l with chk := { l.chk with reg := s.nextReg n, win := (false :: l.chk.win).take 64 } })).incF F.LN_PRBSERR_ERRORS n

/-- A miss counts an error, and the 32nd ends the lock. -/
theorem State.Missing.step {i : Nat} (h : r.Missing n i s) (hr : r.Checks n) (hi : i < 32) :
    ∃ u : State, r.Missing n (i + 1) u ∧ (u.lane n).chk.reg = s.nextReg n ∧ s.checkBit n (!s.expectedBit n) = if i + 1 = 32
      then (((u.syncPrbs n).setF F.LN_PRBSSTAT_LOCKED n 0).setF F.LN_PRBSSTAT_LOSTEVT n 1).updLane n (fun l => { l with chk := {} })
      else u := by
  have hmissed := h.missed.step (show i < 64 by omega)
  have hne : (s.expectedBit n == !s.expectedBit n) = false := by cases s.expectedBit n <;> rfl
  have hstep := s.checkBit_locked (h.checks hr) h.locked (!s.expectedBit n)
    { (s.lane n).chk with reg := s.nextReg n, win := (false :: (s.lane n).chk.win).take 64 } (by rw [hne]) (s.missCounted n)
    (by rw [hne]; exact congrArg (State.incF · F.LN_PRBSERR_ERRORS n) (State.updLane_congr rfl))
  rw [hmissed.count] at hstep
  refine ⟨s.missCounted n, ⟨(h.regs.updLane n _).incF (f := F.LN_PRBSERR_ERRORS) (by decide) n 1, ?_, ?_, ?_, ?_⟩, ?_, hstep.trans ?_⟩
  · rw [State.missCounted, State.incF, State.flag_setF_apart _ _ _ _ (by decide)]
    exact h.locked
  · rw [State.missCounted, State.getF_incF, satAdd_satAdd, State.updLane_getF, show 1 + (32 - (i + 1)) = 32 - i by omega]
    exact h.errors
  · rw [State.missCounted, State.getF_incF]
    exact fun _ => satAdd_lt _ _ _
  · rw [State.missCounted, State.incF, State.setF_lane, State.lane_updLane]
    exact hmissed
  · rw [State.missCounted, State.incF, State.setF_lane, State.lane_updLane]
  · exact if_congr (by omega) rfl rfl

/-- Inverted bits of its pattern end the lock where they bring the misses to 32, each counted. -/
theorem State.checkBits_loses (hr : r.Checks n) (k : Nat) : ∀ (i : Nat) (s : State), r.Missing n i s → i + k = 32 → 1 ≤ k →
    ∃ u : State, r.Missing n 32 u ∧ s.checkBits n ((prbsBits (r.getF F.LN_PRBSCTRL_CPOLY n) (s.lane n).chk.reg k).map (fun b => !b)) =
      (((u.syncPrbs n).setF F.LN_PRBSSTAT_LOCKED n 0).setF F.LN_PRBSSTAT_LOSTEVT n 1).updLane n (fun l => { l with chk := {} }) := by
  induction k with
  | zero => intro i s _ _ h1; omega
  | succ k ih =>
    intro i s h hik _
    have hpoly : prbsNext (r.getF F.LN_PRBSCTRL_CPOLY n) (s.lane n).chk.reg = s.expectedBit n := by
      rw [State.expectedBit, h.regs _ _ (by decide)]
    obtain ⟨u, hu, hreg, hstep⟩ := h.step hr (by omega)
    have hrow : s.checkBits n ((prbsBits (r.getF F.LN_PRBSCTRL_CPOLY n) (s.lane n).chk.reg (k + 1)).map (fun b => !b)) =
        (s.checkBit n (!s.expectedBit n)).checkBits n ((prbsBits (r.getF F.LN_PRBSCTRL_CPOLY n) (s.nextReg n) k).map (fun b => !b)) := by
      rw [prbsBits, hpoly]
      rfl
    rw [hrow, hstep]
    by_cases hlast : i + 1 = 32
    · obtain rfl : k = 0 := by omega
      rw [if_pos hlast]
      rw [hlast] at hu
      exact ⟨u, hu, rfl⟩
    · rw [if_neg hlast, ← hreg]
      exact ih (i + 1) u hu (by omega) (by omega)

theorem State.syncPrbs_regsIn (s : State) (n : Nat) : State.RegsIn [F.LN_PRBSBITS_BITS] s (s.syncPrbs n) := by
  unfold State.syncPrbs
  split
  · exact ((State.RegsIn.refl _ s).incF (by decide) _ _).updLane _ _
  · exact State.RegsIn.refl _ s

/-! ## The generator and the injection (R276, R278) -/

theorem State.RegsIn.writeRw {l : List Fld} (h : State.RegsIn l r s) {f : Fld} (hf : f ∈ l) (i w : Nat) :
    State.RegsIn l r (s.writeRw f i w) := by
  unfold State.writeRw
  dsimp only
  split
  · exact h.setF hf _ _
  · exact h

theorem State.writeRw_getF (s : State) (f : Fld) (i w : Nat) (h : f.okLo ≤ fieldOf w f.lo f.width ∧ fieldOf w f.lo f.width ≤ f.okHi) :
    (s.writeRw f i w).getF f i = fieldOf w f.lo f.width % 2 ^ f.width := by
  unfold State.writeRw
  dsimp only
  rw [if_pos h, State.getF_setF_same]

theorem State.seedGen_regs (s : State) (n : Nat) (on : Bool) : (s.seedGen n on).regs = s.regs := by
  unfold State.seedGen
  split <;> rfl

/-- The fields that a write of LN_PRBSCTRL may change besides the generator's bit and REFUSED. -/
def patternFields : List Fld :=
  [F.LN_PRBSCTRL_GPOLY, F.LN_PRBSCTRL_CPOLY, F.LN_PRBSCTRL_CEN, F.LN_PRBSSTAT_LOCKED, F.LN_STAT_SIGDET, F.LN_STAT_LOCK,
    F.LN_PRBSBITS_BITS, F.LN_INJCNT_INJECTED, F.LN_INJ_KIND] ++ lossFields

theorem lossFields_subset_patternFields : lossFields ⊆ patternFields := List.subset_append_right _ _

/-- What a write of LN_PRBSCTRL does before and after the generator's bit leaves that bit and REFUSED. -/
theorem State.prbsWrite_spec (s : State) (n w : Nat) : ∃ v u : State, State.RegsIn patternFields s v ∧
    u = (if bitOf w 0 && v.laneState n != 0 then v.setF F.LN_STAT_REFUSED n 1
      else (v.seedGen n (bitOf w 0)).setF F.LN_PRBSCTRL_GEN n (w % 2)) ∧ State.RegsIn patternFields u (s.prbsWrite n w) := by
  refine ⟨(s.syncPrbs n).syncInj n, _, ((s.syncPrbs_regsIn n).mono (by decide)).trans ((State.syncInj_regsIn _ n).mono (by decide)), rfl, ?_⟩
  unfold State.prbsWrite
  dsimp only
  generalize (if bitOf w 0 && ((s.syncPrbs n).syncInj n).laneState n != 0 then ((s.syncPrbs n).syncInj n).setF F.LN_STAT_REFUSED n 1
      else (((s.syncPrbs n).syncInj n).seedGen n (bitOf w 0)).setF F.LN_PRBSCTRL_GEN n (w % 2)) = u
  have h1 : State.RegsIn patternFields u (((u.writeRw F.LN_PRBSCTRL_GPOLY n w).writeRw F.LN_PRBSCTRL_CPOLY n w).writeRw F.LN_PRBSCTRL_CEN n w) :=
    (((State.RegsIn.refl _ u).writeRw (by decide) _ _).writeRw (by decide) _ _).writeRw (by decide) _ _
  generalize ((u.writeRw F.LN_PRBSCTRL_GPOLY n w).writeRw F.LN_PRBSCTRL_CPOLY n w).writeRw F.LN_PRBSCTRL_CEN n w = x at h1
  have h2 : State.RegsIn patternFields u (if x.flag F.LN_PRBSCTRL_CEN n then x.dropLink n true else x) := by
    split
    · exact h1.trans ((State.dropLink_regsIn _ _ _).mono lossFields_subset_patternFields)
    · exact h1
  generalize (if x.flag F.LN_PRBSCTRL_CEN n then x.dropLink n true else x) = y at h2
  refine State.RegsIn.trans (State.RegsIn.trans ?_ ((State.restReceiver_regsIn _ n).mono ?_)) ((State.runInj_regsIn _ n).mono (by decide))
  · split
    · exact h2
    · exact (h2.setF (by decide) _ _).updLane _ _
  · exact List.cons_subset.2 ⟨by decide, List.cons_subset.2 ⟨by decide, lossFields_subset_patternFields⟩⟩

/-- A single injection runs at once where the transmitter sends. -/
theorem State.runInj_of_single (ht : s.transmits n = true) (hk : s.getF F.LN_INJ_KIND n = 1) :
    (s.runInj n).getF F.LN_INJCNT_INJECTED n = satAdd F.LN_INJCNT_INJECTED.width (s.getF F.LN_INJCNT_INJECTED n) 1 ∧
      (s.runInj n).getF F.LN_INJ_KIND n = 0 := by
  unfold State.runInj
  rw [if_neg (by rw [ht]; decide), hk]
  dsimp only
  rw [if_pos (Or.inl rfl), if_pos rfl, State.getF_setF_apart _ _ _ _ (by decide), State.getF_incF, State.getF_setF_same]
  exact ⟨rfl, rfl⟩

theorem State.injWrite_of_single (w : Nat) (ht : s.transmits n = true) (hi : (s.lane n).injAt = none)
    (hk : fieldOf w F.LN_INJ_KIND.lo F.LN_INJ_KIND.width = 1) :
    (s.injWrite n w).getF F.LN_INJCNT_INJECTED n = satAdd F.LN_INJCNT_INJECTED.width (s.getF F.LN_INJCNT_INJECTED n) 1 ∧
      (s.injWrite n w).getF F.LN_INJ_KIND n = 0 := by
  have h1 : State.RegsIn [F.LN_INJ_KIND, F.LN_INJ_LEN, F.LN_INJ_RATE] s ((((s.updLane n (fun l => { l with injAt := none })).writeRw
      F.LN_INJ_KIND n w).writeRw F.LN_INJ_LEN n w).writeRw F.LN_INJ_RATE n w) :=
    ((((State.RegsIn.refl _ s).updLane _ _).writeRw (by decide) _ _).writeRw (by decide) _ _).writeRw (by decide) _ _
  have hkind : ((((s.updLane n (fun l => { l with injAt := none })).writeRw F.LN_INJ_KIND n w).writeRw F.LN_INJ_LEN n w).writeRw
      F.LN_INJ_RATE n w).getF F.LN_INJ_KIND n = 1 := by
    have h2 : State.RegsIn [F.LN_INJ_LEN, F.LN_INJ_RATE] ((s.updLane n (fun l => { l with injAt := none })).writeRw F.LN_INJ_KIND n w)
        ((((s.updLane n (fun l => { l with injAt := none })).writeRw F.LN_INJ_KIND n w).writeRw F.LN_INJ_LEN n w).writeRw F.LN_INJ_RATE n w) :=
      ((State.RegsIn.refl _ _).writeRw (by decide) _ _).writeRw (by decide) _ _
    rw [h2 _ _ (by decide), State.writeRw_getF _ _ _ _ (by rw [hk]; decide), hk]
    rfl
  unfold State.injWrite
  rw [s.syncInj_of_none n hi]
  generalize (((s.updLane n (fun l => { l with injAt := none })).writeRw F.LN_INJ_KIND n w).writeRw F.LN_INJ_LEN n w).writeRw
    F.LN_INJ_RATE n w = u at h1 hkind
  have ht' : u.transmits n = true := by
    unfold State.transmits State.laneMode State.laneState
    rw [h1 _ _ (by decide), h1 _ _ (by decide), h1.flag (by decide)]
    exact ht
  rw [← h1 F.LN_INJCNT_INJECTED n (by decide)]
  exact State.runInj_of_single ht' hkind

/-- Settles O34: a write leaves the generator's bit or refuses it, the checker's row of bits, the injection. -/
theorem patternCommandsComplete : Obligations.PatternCommandsComplete := by
  refine ⟨fun s n w _ h0 => ?_, fun s n w _ h0 hw => ?_, fun s n hm hc hl _ hf => ?_, fun s n _ hm hc hl hw => ?_,
    fun s n w _ ht hi hk => ⟨_, rfl, State.injWrite_of_single w.toNat ht hi hk⟩⟩
  · obtain ⟨v, u, hv, hu, ht⟩ := s.prbsWrite_spec n w.toNat
    have h0' : v.laneState n = 0 := (hv _ _ (by decide)).trans h0
    rw [if_neg (by simp [h0'])] at hu
    refine ⟨_, rfl, (ht _ _ (by decide)).trans ?_, (ht.flag (by decide)).trans ?_⟩
    · rw [hu, State.getF_setF_same]
      exact Nat.mod_mod _ _
    · rw [hu, State.flag_setF_apart _ _ _ _ (by decide), ← hv.flag (by decide)]
      exact (State.RegsIn.of_regs (State.RegsIn.refl [] v) (v.seedGen_regs n _)).flag (by decide)
  · obtain ⟨v, u, hv, hu, ht⟩ := s.prbsWrite_spec n w.toNat
    have h0' : v.laneState n ≠ 0 := fun h => h0 ((hv _ _ (by decide)).symm.trans h)
    rw [if_pos (by simp [h0', hw])] at hu
    refine ⟨_, rfl, (ht.flag (by decide)).trans ?_, (ht _ _ (by decide)).trans ?_⟩
    · rw [hu, State.flag_setF_one _ _ _ _ (by decide)]
    · rw [hu, State.getF_setF_apart _ _ _ _ (by decide)]
      exact hv _ _ (by decide)
  · have h := State.checkBits_locks ⟨hm, hc⟩ hl 64 s rfl rfl hf (by decide) (by omega)
    exact ⟨_, rfl, h.locked, h.since, h.regs _ _ (by decide)⟩
  · obtain ⟨u, hu, ht⟩ := State.checkBits_loses (r := s) (n := n) ⟨hm, hc⟩ 32 0 s ⟨State.RegsIn.refl _ s, hl, rfl, by omega, missed_zero hw⟩ rfl (by decide)
    refine ⟨_, congrArg Host.Outcome.next ht, ?_, ?_, ?_⟩
    · rw [State.updLane_flag, State.flag_setF_apart _ _ _ _ (by decide), State.flag_setF_zero]
    · rw [State.updLane_flag, State.flag_setF_one _ _ _ _ (by decide)]
    · rw [State.updLane_getF, State.getF_setF_apart _ _ _ _ (by decide), State.getF_setF_apart _ _ _ _ (by decide),
        u.syncPrbs_regsIn n _ _ (by decide), ← hu.errors]
      exact (Nat.min_eq_left (Nat.le_sub_one_of_lt (hu.bound (by decide)))).symm

end Sys2Proof.Machine
end

section
/-! The receiver of a lane and its link (R262 to R265, R274): the blocks that take a link up and down. -/

namespace Sys2Proof.Machine

variable {r s : State} {n : Nat}

theorem State.receives_of_on (hm : s.laneMode n ≠ 0) (h0 : s.laneState n ≠ 0) : s.receives n = true := by
  simp [State.receives, hm, h0]

/-! ## The loss of a link -/

/-- A loss that counts. -/
theorem State.dropLink_counts (hu : s.flag F.LN_STAT_UP n = true) (h2 : s.laneState n = 2) :
    (s.dropLink n true).flag F.LN_STAT_DOWNEVT n = true ∧
      (s.dropLink n true).getF F.LN_LINKCNT_DOWNS n = satAdd F.LN_LINKCNT_DOWNS.width (s.getF F.LN_LINKCNT_DOWNS n) 1 := by
  have h1 : State.RegsIn [F.LN_STAT_UP, F.LN_FRMCNT_RXDISC] s ((s.setF F.LN_STAT_UP n 0).realign n) :=
    ((State.RegsIn.refl _ s).setF (by decide) _ _).trans ((State.realign_regsIn _ _).mono (by decide))
  have hon : (true && ((s.setF F.LN_STAT_UP n 0).realign n).laneOn n) = true := by
    rw [Bool.true_and, State.laneOn, h1 _ _ (by decide)]
    exact beq_iff_eq.2 h2
  unfold State.dropLink
  rw [if_neg (by rw [hu]; decide)]
  dsimp only
  rw [if_pos hon, (State.event_regsIn _ _ _ _ _ _).flag (by decide), State.event_regsIn _ _ _ _ _ _ _ _ (by decide),
    State.flag_setF_one _ _ _ _ (by decide), State.getF_setF_apart _ _ _ _ (by decide), State.getF_incF, h1 _ _ (by decide)]
  exact ⟨rfl, rfl⟩

/-- The fields that a loss writes where it does not count. -/
theorem State.dropLink_uncounted_regsIn (s : State) (n : Nat) :
    State.RegsIn ([F.LN_STAT_UP, F.LN_FRMCNT_RXDISC] ++ logFields) s (s.dropLink n false) := by
  unfold State.dropLink
  split
  · exact State.RegsIn.refl _ s
  · exact (((State.RegsIn.refl _ s).setF (by decide) _ _).trans ((State.realign_regsIn _ _).mono (by decide))).trans
      ((State.event_regsIn _ _ _ _ _ _).mono (List.subset_append_right _ _))

theorem State.dropLink_lane (hu : s.flag F.LN_STAT_UP n = true) (counts : Bool) : ((s.dropLink n counts).lane n).run = 0 := by
  have h1 : (((s.setF F.LN_STAT_UP n 0).realign n).lane n).run = 0 := by rw [State.realign_lane]
  unfold State.dropLink
  rw [if_neg (by rw [hu]; decide), State.event_lane]
  split
  · exact h1
  · exact h1

/-! ## Blocks (R263) -/

/-- A block while the window of the loss test holds few invalid ones, or the link is down. -/
theorem State.takeBlock_of_valid (h : ((s.lane n).block true (s.linkTests n && !s.flag F.LN_PRBSCTRL_CEN n)).lossy = false ∨
      s.flag F.LN_STAT_UP n = false) :
    s.takeBlock n true = s.updLane n (fun l => l.block true (s.linkTests n && !s.flag F.LN_PRBSCTRL_CEN n)) := by
  unfold State.takeBlock
  dsimp only
  rw [if_pos rfl, State.lane_updLane]
  obtain h | h := h
  · rw [h]; rfl
  · split
    · exact State.dropLink_of_down _ _ _ h
    · rfl

/-- An invalid block ends the run of valid ones: the link does not come up with it. -/
theorem State.lineBlock_of_invalid (i : Nat) : s.lineBlock n i false = s.takeBlock n false := by
  have hrun : ((s.takeBlock n false).lane n).run = 0 := by
    unfold State.takeBlock
    dsimp only
    generalize hu : (s.updLane n (fun l => l.block false (s.linkTests n && !s.flag F.LN_PRBSCTRL_CEN n))).incF F.LN_LINKCNT_INVAL n = u
    have h0 : (u.lane n).run = 0 := by
      rw [← hu, State.incF, State.setF_lane, State.lane_updLane]
      rfl
    rw [if_neg Bool.false_ne_true]
    split
    · cases hup : u.flag F.LN_STAT_UP n
      · rw [State.dropLink_of_down _ _ _ hup]; exact h0
      · exact State.dropLink_lane hup true
    · exact h0
  unfold State.lineBlock
  dsimp only
  rw [if_neg]
  rw [hrun]
  simp

/-! ## Invalid blocks take the link down (R263, R265) -/

/-- The state of the receiver with one more invalid block counted. -/
def State.invalidCounted (s : State) (n : Nat) : State :=
  (s.updLane n (fun l => l.block false (s.linkTests n && !s.flag F.LN_PRBSCTRL_CEN n))).incF F.LN_LINKCNT_INVAL n

theorem State.takeBlock_of_invalid : s.takeBlock n false =
    if ((s.invalidCounted n).lane n).lossy then (s.invalidCounted n).dropLink n true else s.invalidCounted n := rfl

theorem State.invalidCounted_regsIn (s : State) (n : Nat) : State.RegsIn [F.LN_LINKCNT_INVAL] s (s.invalidCounted n) :=
  ((State.RegsIn.refl _ s).updLane _ _).incF (by decide) _ _

theorem State.invalidCounted_win (s : State) (n : Nat) : ((s.invalidCounted n).lane n).win = (false :: (s.lane n).win).take 64 := by
  rw [State.invalidCounted, State.incF, State.setF_lane, State.lane_updLane]
  rfl

theorem invalid_prefix_step {i : Nat} {win : List Bool} (h : List.replicate i false <+: win) (hi : i < 64) :
    List.replicate (i + 1) false <+: (false :: win).take 64 :=
  List.prefix_take_iff.2 ⟨(List.prefix_cons_inj false).2 h, by rw [List.length_replicate]; exact hi⟩

theorem le_countIf_of_prefix {i : Nat} {win : List Bool} (h : List.replicate i false <+: win) : i ≤ countIf win (fun ok => !ok) := by
  have hc := (h.sublist.filter (fun ok => !ok)).length_le
  simpa [countIf] using hc

/-- After `i` of 16 invalid blocks: up with that many among the last 64, or down with the loss noted; the rest of the 16 to be counted. -/
structure State.Failing (r : State) (n i : Nat) (s : State) : Prop where
  regs : State.RegsIn (F.LN_LINKCNT_INVAL :: lossFields) r s
  invalid : satAdd F.LN_LINKCNT_INVAL.width (s.getF F.LN_LINKCNT_INVAL n) (16 - i) =
    satAdd F.LN_LINKCNT_INVAL.width (r.getF F.LN_LINKCNT_INVAL n) 16
  bound : 0 < i → s.getF F.LN_LINKCNT_INVAL n < 2 ^ F.LN_LINKCNT_INVAL.width
  link : (s.flag F.LN_STAT_UP n = true ∧ s.getF F.LN_LINKCNT_DOWNS n = r.getF F.LN_LINKCNT_DOWNS n ∧ i < 16 ∧
      List.replicate i false <+: (s.lane n).win) ∨
    (s.flag F.LN_STAT_UP n = false ∧ (r.laneState n = 2 → s.flag F.LN_STAT_DOWNEVT n = true ∧
      s.getF F.LN_LINKCNT_DOWNS n = satAdd F.LN_LINKCNT_DOWNS.width (r.getF F.LN_LINKCNT_DOWNS n) 1))

theorem State.Failing.step {i : Nat} (h : r.Failing n i s) (hi : i < 16) (j : Nat) : r.Failing n (i + 1) (s.lineBlock n j false) := by
  obtain ⟨hregs, hinv, hbound, hlink⟩ := h
  have hc := s.invalidCounted_regsIn n
  have hregs' := hregs.trans (hc.mono (by decide : [F.LN_LINKCNT_INVAL] ⊆ F.LN_LINKCNT_INVAL :: lossFields))
  have hval : (s.invalidCounted n).getF F.LN_LINKCNT_INVAL n = satAdd F.LN_LINKCNT_INVAL.width (s.getF F.LN_LINKCNT_INVAL n) 1 :=
    State.getF_incF _ _ _ _
  have hinv' : satAdd F.LN_LINKCNT_INVAL.width ((s.invalidCounted n).getF F.LN_LINKCNT_INVAL n) (16 - (i + 1)) =
      satAdd F.LN_LINKCNT_INVAL.width (r.getF F.LN_LINKCNT_INVAL n) 16 := by
    rw [hval, satAdd_satAdd, show 1 + (16 - (i + 1)) = 16 - i by omega, hinv]
  have hdown : ∀ counts, State.RegsIn lossFields (s.invalidCounted n) ((s.invalidCounted n).dropLink n counts) :=
    fun counts => State.dropLink_regsIn _ _ _
  rw [State.lineBlock_of_invalid, State.takeBlock_of_invalid]
  obtain ⟨hup, hdowns, _, hwin⟩ | ⟨hup, hloss⟩ := hlink
  · have hup' := (hc.flag (by decide)).trans hup
    have hwin' := invalid_prefix_step hwin (by omega)
    rw [← s.invalidCounted_win n] at hwin'
    split
    next hlossy =>
      refine ⟨hregs'.trans ((hdown true).mono (List.subset_cons_self _ _)), ?_, ?_, Or.inr ⟨State.dropLink_up _ _ _, fun h2 => ?_⟩⟩
      · rw [hdown _ _ _ (by decide)]; exact hinv'
      · rw [hdown _ _ _ (by decide), hval]; exact fun _ => satAdd_lt _ _ _
      · rw [← hdowns, ← hc _ _ (by decide)]
        exact State.dropLink_counts hup' ((hregs' _ _ (by decide)).trans h2)
    next hlossy =>
      refine ⟨hregs', hinv', fun _ => by rw [hval]; exact satAdd_lt _ _ _, Or.inl ⟨hup', (hc _ _ (by decide)).trans hdowns, ?_, hwin'⟩⟩
      have := le_countIf_of_prefix hwin'
      simp only [LaneSt.lossy, decide_eq_true_eq] at hlossy
      omega
  · have hup' := (hc.flag (by decide)).trans hup
    have hstay : (if ((s.invalidCounted n).lane n).lossy then (s.invalidCounted n).dropLink n true else s.invalidCounted n) =
        s.invalidCounted n := by rw [State.dropLink_of_down _ _ _ hup', ite_self]
    rw [hstay]
    refine ⟨hregs', hinv', fun _ => by rw [hval]; exact satAdd_lt _ _ _, Or.inr ⟨hup', fun h2 => ?_⟩⟩
    rw [hc.flag (by decide), hc _ _ (by decide)]
    exact hloss h2

/-- Invalid blocks in a row. -/
theorem State.Failing.blocks (k : Nat) : ∀ (a i : Nat) (s : State), r.Failing n i s → i + k = 16 →
    r.Failing n 16 ((List.zip (List.range' a k) (List.replicate k false)).foldl (fun s p => s.lineBlock n (p.1 + 1) p.2) s) := by
  induction k with
  | zero => intro a i s h hik; exact (show i = 16 by omega) ▸ h
  | succ k ih =>
    intro a i s h hik
    rw [List.range'_succ, List.replicate_succ, List.zip_cons_cons, List.foldl_cons]
    exact ih (a + 1) (i + 1) _ (h.step (by omega) _) (by omega)

/-- Sixteen invalid blocks on a link that is up. -/
theorem State.takeOks_of_invalid (hu : s.flag F.LN_STAT_UP n = true) (hl : s.flag F.LN_STAT_LOCK n = true) :
    s.Failing n 16 (s.takeOks n (List.replicate 16 false)) := by
  unfold State.takeOks
  rw [if_pos hl, List.length_replicate, List.range_eq_range']
  exact State.Failing.blocks 16 0 0 s ⟨State.RegsIn.refl _ s, rfl, by omega, Or.inl ⟨hu, rfl, by decide, List.nil_prefix⟩⟩ rfl

/-! ## Valid blocks take the link up (R263, R265) -/

/-- The fields that a link coming up writes. -/
def upFields : List Fld := [F.LN_STAT_UP, F.LN_STAT_RETRAINING, F.LN_STAT_STATE] ++ logFields

theorem logFields_subset_upFields : logFields ⊆ upFields := List.subset_append_right _ _

theorem State.endRetrain_regsIn (s : State) (n : Nat) : State.RegsIn (F.LN_STAT_RETRAINING :: logFields) s (s.endRetrain n) := by
  unfold State.endRetrain
  split
  · exact ((State.RegsIn.refl _ s).setF (by decide) _ _).trans ((State.event_regsIn _ _ _ _ _ _).mono (List.subset_cons_self _ _))
  · exact State.RegsIn.refl _ s

theorem State.endRetrain_ended (s : State) (n : Nat) : (s.endRetrain n).flag F.LN_STAT_RETRAINING n = false := by
  unfold State.endRetrain
  split
  next => rw [(State.event_regsIn _ _ _ _ _ _).flag (by decide), State.flag_setF_zero]
  next h => simpa using h

theorem State.endRetrain_lane (s : State) (n m : Nat) : (s.endRetrain n).lane m = s.lane m := by
  unfold State.endRetrain
  split
  · rw [State.event_lane]; rfl
  · rfl

theorem State.endRetrain_now (s : State) (n : Nat) : (s.endRetrain n).now = s.now := by
  unfold State.endRetrain
  split
  · rw [State.event_now]; rfl
  · rfl

/-- A lane that is up, with what a link that comes up leaves: its own state is as the service state of `r` gives. -/
structure State.CameUp (r : State) (n t : Nat) (s : State) : Prop where
  up : s.flag F.LN_STAT_UP n = true
  ever : (s.lane n).everUp = true
  retrained : s.flag F.LN_STAT_RETRAINING n = false
  service : s.laneState n = if r.laneState n = 1 then 2 else r.laneState n
  now : s.now = t
  win : (s.lane n).win.all id = true

/-- A link that comes up on a lane that is no tile lane and holds no stop. -/
theorem State.raiseLink_cameUp (ht : s.tileLane n = false) (hp : (s.lane n).pendOff = false) (hw : (s.lane n).win = []) :
    s.CameUp n s.now (s.raiseLink n) := by
  have h1 : State.RegsIn (F.LN_STAT_RETRAINING :: logFields) (s.setF F.LN_STAT_UP n 1)
      (((s.setF F.LN_STAT_UP n 1).event 0x0901 n 0xFFFF .none [1]).endRetrain n) :=
    ((State.event_regsIn _ _ _ _ _ _).mono (List.subset_cons_self _ _)).trans (State.endRetrain_regsIn _ _)
  have hlane : (((s.setF F.LN_STAT_UP n 1).event 0x0901 n 0xFFFF .none [1]).endRetrain n).lane n = s.lane n := by
    rw [State.endRetrain_lane, State.event_lane]
    rfl
  have hnow : (((s.setF F.LN_STAT_UP n 1).event 0x0901 n 0xFFFF .none [1]).endRetrain n).now = s.now := by
    rw [State.endRetrain_now, State.event_now]
    rfl
  have hre := ((s.setF F.LN_STAT_UP n 1).event 0x0901 n 0xFFFF .none [1]).endRetrain_ended n
  unfold State.raiseLink
  dsimp only
  generalize ((s.setF F.LN_STAT_UP n 1).event 0x0901 n 0xFFFF .none [1]).endRetrain n = u at h1 hlane hnow hre
  have hup : u.flag F.LN_STAT_UP n = true := (h1.flag (by decide)).trans (State.flag_setF_one _ _ _ _ (by decide))
  have hstate : u.laneState n = s.laneState n := (h1 _ _ (by decide)).trans (State.getF_setF_apart _ _ _ _ (by decide))
  have htile : u.tileLane n = false := by
    rw [State.tileLane, h1 _ _ (by decide), State.getF_setF_apart _ _ _ _ (by decide)]
    exact ht
  have key : ∀ v : State, v.flag F.LN_STAT_UP n = true → v.flag F.LN_STAT_RETRAINING n = false → v.tileLane n = false →
      v.laneState n = (if s.laneState n = 1 then 2 else s.laneState n) → v.now = s.now → (v.lane n).win = [] →
      s.CameUp n s.now (if (v.lane n).everUp || (v.tileLane n && !v.laneOn n) then v
        else (v.updLane n (fun l => { l with everUp := true })).startEnum n) := by
    intro v hvup hvre hvt hvs hvn hvw
    rw [hvt, Bool.false_and, Bool.or_false]
    split
    next he => exact ⟨hvup, he, hvre, hvs, hvn, by rw [hvw]; rfl⟩
    next he =>
      have hno : (v.updLane n (fun l => { l with everUp := true })).startEnum n = v.updLane n (fun l => { l with everUp := true }) :=
        if_pos (by rw [State.tileLane, State.updLane_getF, ← State.tileLane, hvt]; rfl)
      rw [hno]
      exact ⟨hvup, by rw [State.lane_updLane], hvre, hvs, hvn, by rw [State.lane_updLane]; dsimp only; rw [hvw]; rfl⟩
  rw [hstate]
  split
  next h1s =>
    have hon : u.enterOn n = (u.setF F.LN_STAT_STATE n 2).updLane n (fun l => { l with
        periodEnd := u.now, ptp := { l.ptp with listening := l.ptp.master.isNone, announceAt := u.now, nextAt := u.now } }) :=
      if_neg (by rw [State.setF_lane, hlane, hp]; decide)
    rw [hon]
    refine key _ ?_ ?_ ?_ ?_ hnow ?_
    · rw [State.updLane_flag, State.flag_setF_apart _ _ _ _ (by decide)]; exact hup
    · rw [State.updLane_flag, State.flag_setF_apart _ _ _ _ (by decide)]; exact hre
    · rw [State.tileLane, State.updLane_getF, State.getF_setF_apart _ _ _ _ (by decide)]
      exact htile
    · rw [if_pos h1s, State.laneState, State.updLane_getF, State.getF_setF_same]
      rfl
    · rw [State.lane_updLane, State.setF_lane, hlane]
      exact hw
  next h1s => exact key u hup hre htile (by rw [if_neg h1s, hstate]) hnow (by rw [hlane, hw])

/-- A valid block on a link that is up. -/
theorem State.CameUp.step {t : Nat} (h : r.CameUp n t s) (i : Nat) : r.CameUp n t (s.lineBlock n i true) := by
  obtain ⟨hup, hever, hre, hservice, hnow, hwin⟩ := h
  have hwin' := all_hit_cons hwin
  have hlossy : ((s.lane n).block true (s.linkTests n && !s.flag F.LN_PRBSCTRL_CEN n)).lossy = false := by
    simp only [LaneSt.lossy, LaneSt.block, (missed_zero hwin').count]
    rfl
  unfold State.lineBlock
  dsimp only
  rw [State.takeBlock_of_valid (Or.inl hlossy), if_neg (by rw [State.updLane_flag, hup]; simp)]
  exact ⟨hup, by rw [State.lane_updLane]; exact hever, hre, hservice, hnow, by rw [State.lane_updLane]; exact hwin'⟩

/-- The receiver of a lane whose link-up test runs. -/
structure State.Tests (r : State) (n : Nat) : Prop where
  down : r.flag F.LN_STAT_UP n = false
  unchecked : r.flag F.LN_PRBSCTRL_CEN n = false
  used : r.laneState n ≠ 0
  untiled : r.tileLane n = false
  held : (r.lane n).pendOff = false
  tests : r.linkTests n = true

/-- After `a` valid blocks of the test: nothing has changed but the run and the window. -/
structure State.Waiting (r : State) (n a : Nat) (s : State) : Prop where
  regs : s.regs = r.regs
  now : s.now = r.now
  lane : ∃ run win, s.lane n = { r.lane n with run := run, win := win } ∧ a ≤ run

/-- The clock at which a link of which the test runs comes up. -/
def State.upAt (r : State) (n : Nat) : Nat := max r.now (r.testFrom n + blocks64 (r.laneMode n))

theorem State.Waiting.step {a : Nat} (h : r.Waiting n a s) (hr : r.Tests n) (ha : a < 64) :
    r.CameUp n (r.upAt n) (s.lineBlock n (a + 1) true) ∨ (a + 1 < 64 ∧ r.Waiting n (a + 1) (s.lineBlock n (a + 1) true)) := by
  obtain ⟨hregs, hnow, run, win, hlane, hrun⟩ := h
  obtain ⟨hdown, hcen, hused, htile, hheld, htests⟩ := hr
  have hall : State.RegsIn [] r s := (State.RegsIn.refl [] r).of_regs hregs
  have hd := (hall.flag (g := F.LN_STAT_UP) (m := n) rfl).trans hdown
  have htest : (s.linkTests n && !s.flag F.LN_PRBSCTRL_CEN n) = true := by
    have h1 : s.linkTests n = r.linkTests n := by rw [State.linkTests, hlane, hnow]; rfl
    rw [h1, htests, hall.flag (g := F.LN_PRBSCTRL_CEN) rfl, hcen]
    rfl
  have hs : s.laneState n = r.laneState n := hall _ _ rfl
  have hfrom : s.testFrom n = r.testFrom n := by rw [State.testFrom, hlane]; rfl
  have hmode : s.laneMode n = r.laneMode n := hall _ _ rfl
  have hblock : s.takeBlock n true = s.updLane n (fun l => l.block true true) := by
    rw [State.takeBlock_of_valid (Or.inr hd), htest]
  unfold State.lineBlock
  rw [hblock]
  have hl : (s.updLane n (fun l => l.block true true)).lane n = (s.lane n).block true true := State.lane_updLane _ _ _
  generalize hu : s.updLane n (fun l => l.block true true) = u at hl
  have hur : u.regs = r.regs := by rw [← hu]; exact hregs
  have hun : u.now = r.now := by rw [← hu]; exact hnow
  have hul : u.lane n = { r.lane n with run := run + 1, win := (true :: win).take 64 } := by
    rw [hl, hlane]
    rfl
  have hall' : State.RegsIn [] r u := (State.RegsIn.refl [] r).of_regs hur
  have hcond : (!u.flag F.LN_STAT_UP n && u.laneState n != 0 && decide (64 ≤ (u.lane n).run)) = decide (64 ≤ run + 1) := by
    have h0 : u.laneState n = r.laneState n := hall' _ _ rfl
    rw [hall'.flag rfl, hdown, h0, hul]
    simp [hused]
  dsimp only
  rw [hcond]
  split
  next hfull =>
    left
    rw [show max 64 (a + 1) = 64 by omega, hfrom, show u.laneMode n = r.laneMode n from hall' _ _ rfl]
    have hcame := State.raiseLink_cameUp (s := (u.updLane n (fun l => { l with win := [] })).advanceTo
        (r.testFrom n + blocksClk (r.laneMode n) 64)) (n := n)
      ((congrArg (· == 1) (hall' F.LN_CFG_MODE n rfl)).trans htile)
      (by rw [State.advanceTo_lane, State.lane_updLane, hul]; exact hheld) (by rw [State.advanceTo_lane, State.lane_updLane])
    obtain ⟨h1, h2, h3, h4, h5, h6⟩ := hcame
    refine ⟨h1, h2, h3, h4.trans ?_, h5.trans ?_, h6⟩
    · have : ((u.updLane n (fun l => { l with win := [] })).advanceTo (r.testFrom n + blocksClk (r.laneMode n) 64)).laneState n =
          r.laneState n := hall' _ _ rfl
      rw [this]
    · exact congrArg (max · _) hun
  next hmore =>
    simp only [decide_eq_true_eq] at hmore
    exact Or.inr ⟨by omega, hur, hun, run + 1, _, hul, by omega⟩

theorem State.CameUp.blocks {t : Nat} (k : Nat) : ∀ (a : Nat) (s : State), r.CameUp n t s →
    r.CameUp n t ((List.zip (List.range' a k) (List.replicate k true)).foldl (fun s p => s.lineBlock n (p.1 + 1) p.2) s) := by
  induction k with
  | zero => exact fun a s h => h
  | succ k ih =>
    intro a s h
    rw [List.range'_succ, List.replicate_succ, List.zip_cons_cons, List.foldl_cons]
    exact ih (a + 1) _ (h.step _)

theorem State.Waiting.blocks (hr : r.Tests n) (k : Nat) : ∀ (a : Nat) (s : State), r.Waiting n a s → a < 64 → 64 ≤ a + k →
    r.CameUp n (r.upAt n) ((List.zip (List.range' a k) (List.replicate k true)).foldl (fun s p => s.lineBlock n (p.1 + 1) p.2) s) := by
  induction k with
  | zero => intro a s h ha hk; omega
  | succ k ih =>
    intro a s h ha hk
    rw [List.range'_succ, List.replicate_succ, List.zip_cons_cons, List.foldl_cons]
    obtain hup | ⟨hmore, hwait⟩ := h.step hr ha
    · exact hup.blocks k (a + 1) _
    · exact ih (a + 1) _ hwait hmore (by omega)

/-- LINK_UP with valid blocks alone, 64 or more. -/
theorem State.linkUp_cameUp (l : List Nat) (hl : s.flag F.LN_STAT_LOCK n = true) (hc : s.flag F.LN_PRBSCTRL_CEN n = false)
    (hu : s.flag F.LN_STAT_UP n = false) (h0 : s.laneState n ≠ 0) (ht : s.tileLane n = false) (hp : (s.lane n).pendOff = false)
    (hoks : (s.blockOks n l).1 = List.replicate l.length true) (h64 : 64 ≤ l.length) :
    s.CameUp n (max s.now (max ((s.lane n).lockAt + 256 * usClk) (s.lane n).downAt + blocks64 (s.laneMode n))) (s.linkUp n l) := by
  generalize hr : (s.advanceTo (s.testFrom n)).updLane n (fun l' => { l' with rd := (s.blockOks n l).2 }) = r
  have hrun : s.linkUp n l = r.takeOks n (List.replicate l.length true) := by
    have hoks' : (s.advanceTo (s.testFrom n)).blockOks n l = s.blockOks n l := rfl
    unfold State.linkUp State.takeBlocks
    rw [if_neg (by simp [h0, hl])]
    dsimp only
    rw [if_neg (by simp [hu, hc]), hoks', hoks, hr]
  have hregs : r.regs = s.regs := by rw [← hr]; rfl
  have hall : State.RegsIn [] s r := (State.RegsIn.refl [] s).of_regs hregs
  have hlane : r.lane n = { s.lane n with rd := (s.blockOks n l).2 } := by rw [← hr, State.lane_updLane]; rfl
  have hnow : r.now = max s.now (s.testFrom n) := by rw [← hr]; rfl
  have hfrom : r.testFrom n = s.testFrom n := by rw [State.testFrom, hlane]; rfl
  have htests : r.Tests n := by
    refine ⟨(hall.flag rfl).trans hu, (hall.flag rfl).trans hc, fun h => h0 ((hall _ _ rfl).symm.trans h),
      (congrArg (· == 1) (hall F.LN_CFG_MODE n rfl)).trans ht, by rw [hlane]; exact hp, ?_⟩
    rw [State.linkTests, hlane, hnow, decide_eq_true_eq, State.testFrom]
    dsimp only
    omega
  have hcame : r.CameUp n (r.upAt n) (s.linkUp n l) := by
    rw [hrun, State.takeOks, if_pos ((hall.flag rfl).trans hl), List.length_replicate, List.range_eq_range']
    exact State.Waiting.blocks htests l.length 0 r ⟨rfl, rfl, (r.lane n).run, (r.lane n).win, rfl, Nat.zero_le _⟩ (by decide) (by omega)
  obtain ⟨h1, h2, h3, h4, h5, h6⟩ := hcame
  have hmode : r.laneMode n = s.laneMode n := hall _ _ rfl
  refine ⟨h1, h2, h3, by rw [h4, show r.laneState n = s.laneState n from hall _ _ rfl], h5.trans ?_, h6⟩
  rw [State.upAt, hnow, hfrom, hmode, State.testFrom]
  omega

/-! ## The end of a link by hi_ber, and a retrain (R266, R274) -/

/-- A register of a field's row, as a field of its own. -/
def Fld.nth (f : Fld) (j : Nat) : Fld := { f with off := f.off + 4 * j }

theorem State.getF_setF_nth_apart (s : State) {f g : Fld} (i v j m : Nat) (h : g.apart (f.nth j) = true) :
    (s.setF f i v j).getF g m = s.getF g m := by
  refine State.getF_setF_other _ _ _ _ _ _ _ _ ?_
  have hk : f.key i j = (f.nth j).key i 0 := by
    simp only [Fld.key, Fld.addr, Fld.nth]
    ring
  rw [hk]
  exact Fld.key_ne_of_apart h m i

theorem State.setEq_getF (s : State) (n p : Nat) (v : Int) (g : Fld) (m : Nat) (hp : p < 6)
    (h : (F.LN_CTLE_VALUE :: (List.range 5).map F.LN_DFE_VALUE.nth).all g.apart = true) : (s.setEq n p v).getF g m = s.getF g m := by
  rw [List.all_cons, Bool.and_eq_true, List.all_map, List.all_eq_true] at h
  obtain ⟨hc, hd⟩ := h
  unfold State.setEq
  split
  · exact State.getF_setF_apart _ _ _ _ hc
  · exact State.getF_setF_nth_apart _ _ _ _ _ (hd (p - 1) (List.mem_range.2 (by omega)))

theorem State.setEq_lane (s : State) (n p : Nat) (v : Int) (m : Nat) : (s.setEq n p v).lane m = s.lane m := by
  unfold State.setEq
  split <;> rfl

/-- One parameter goes to its start where it is not forced. -/
def State.eqStart (s : State) (n force : Nat) (start : List Int) (p : Nat) : State :=
  if bitOf force p then s else s.setEq n p (clampInt (s.eqMin n p) (s.eqMax n p) (start.getD p 0))

theorem State.eqStarts_keep (s : State) (n force : Nat) (start : List Int) (l : List Nat) (hl : ∀ p ∈ l, p < 6) :
    (∀ (g : Fld) (m : Nat), (F.LN_CTLE_VALUE :: (List.range 5).map F.LN_DFE_VALUE.nth).all g.apart = true →
      (l.foldl (fun s p => s.eqStart n force start p) s).getF g m = s.getF g m) ∧
    ∀ m, (l.foldl (fun s p => s.eqStart n force start p) s).lane m = s.lane m := by
  refine List.foldlRecOn (motive := fun t : State => (∀ (g : Fld) (m : Nat),
    (F.LN_CTLE_VALUE :: (List.range 5).map F.LN_DFE_VALUE.nth).all g.apart = true → t.getF g m = s.getF g m) ∧
      ∀ m, t.lane m = s.lane m) l _ ⟨fun _ _ _ => rfl, fun _ => rfl⟩ ?_
  rintro t ⟨ht, hlane⟩ p hp
  unfold State.eqStart
  split
  · exact ⟨ht, hlane⟩
  · exact ⟨fun g m hg => (t.setEq_getF n p _ g m (hl p hp) hg).trans (ht g m hg), fun m => (t.setEq_lane n p _ m).trans (hlane m)⟩

/-- The receiver reset, before the equaliser takes its start. -/
def State.receiverReset (s : State) (n : Nat) : State :=
  (((s.dropLink n false).setF F.LN_STAT_LOCK n 0).setF F.LN_STAT_RETRAINING n 1).updLane n (fun l => { l with
    retrainAt := (s.dropLink n false).now })

theorem State.receiverReset_spec (s : State) (n : Nat) :
    (s.receiverReset n).flag F.LN_STAT_RETRAINING n = true ∧ (s.receiverReset n).flag F.LN_STAT_LOCK n = false ∧
      (s.receiverReset n).flag F.LN_STAT_UP n = false ∧ ((s.receiverReset n).lane n).retrainAt = s.now ∧
      (s.receiverReset n).getF F.LN_LINKCNT_DOWNS n = s.getF F.LN_LINKCNT_DOWNS n := by
  refine ⟨?_, ?_, ?_, ?_, ?_⟩
  · rw [State.receiverReset, State.updLane_flag, State.flag_setF_one _ _ _ _ (by decide)]
  · rw [State.receiverReset, State.updLane_flag, State.flag_setF_apart _ _ _ _ (by decide), State.flag_setF_zero]
  · rw [State.receiverReset, State.updLane_flag, State.flag_setF_apart _ _ _ _ (by decide), State.flag_setF_apart _ _ _ _ (by decide),
      State.dropLink_up]
  · rw [State.receiverReset, State.lane_updLane, State.dropLink_now]
  · rw [State.receiverReset, State.updLane_getF, State.getF_setF_apart _ _ _ _ (by decide), State.getF_setF_apart _ _ _ _ (by decide)]
    exact s.dropLink_uncounted_regsIn n _ _ (by decide)

theorem State.retrain_eq (h : s.laneState n = 1 ∨ s.laneState n = 2) :
    s.retrain n = ((List.range 6).foldl (fun u p => u.eqStart n ((s.receiverReset n).getF F.LN_EQCTRL_FORCE n)
      ((s.receiverReset n).img.lane n).eqStart p) (s.receiverReset n)).event 0x0902 n := if_pos h

/-- A retrain resets the receiver alone: no loss counts. -/
theorem State.retrain_spec (h : s.laneState n = 1 ∨ s.laneState n = 2) :
    (s.retrain n).flag F.LN_STAT_RETRAINING n = true ∧ (s.retrain n).flag F.LN_STAT_LOCK n = false ∧
      (s.retrain n).flag F.LN_STAT_UP n = false ∧ ((s.retrain n).lane n).retrainAt = s.now ∧
      (s.retrain n).getF F.LN_LINKCNT_DOWNS n = s.getF F.LN_LINKCNT_DOWNS n := by
  obtain ⟨hre, hlock, hup, hat, hdowns⟩ := s.receiverReset_spec n
  obtain ⟨hkeep, hlane⟩ := (s.receiverReset n).eqStarts_keep n ((s.receiverReset n).getF F.LN_EQCTRL_FORCE n)
    ((s.receiverReset n).img.lane n).eqStart (List.range 6) (fun p hp => List.mem_range.1 hp)
  rw [State.retrain_eq h]
  generalize (List.range 6).foldl _ _ = w at hkeep hlane
  have hevent : State.RegsIn logFields w (w.event 0x0902 n) := State.event_regsIn _ _ _ _ _ _
  rw [hevent.flag (by decide), hevent.flag (by decide), hevent.flag (by decide), hevent _ _ (by decide), State.event_lane, hlane]
  unfold State.flag at hre hlock hup ⊢
  rw [hkeep _ _ (by decide), hkeep _ _ (by decide), hkeep _ _ (by decide), hkeep _ _ (by decide)]
  exact ⟨hre, hlock, hup, hat, hdowns⟩

/-- Settles O32, event by event. -/
theorem linkCommandsComplete : Obligations.LinkCommandsComplete := by
  intro s n _ hm h0
  have hrec := State.receives_of_on hm h0
  have hnrec : ¬(!s.receives n) = true := by rw [hrec]; decide
  refine ⟨congrArg Host.Outcome.next ((if_neg hnrec).trans (if_pos rfl)),
    ⟨_, congrArg Host.Outcome.next ((if_neg hnrec).trans (if_neg Bool.false_ne_true)), ?_, State.dropLock_lock _ _, State.dropLock_up _ _⟩,
    fun ppm hlo hhi hsig => ?_, fun hl => ?_, fun l hoks hl hc hu ht hp h64 => ?_, fun hu hl hc => ⟨fun l hoks => ?_, fun h4 h2 => ?_⟩,
    fun h12 => ⟨_, rfl, State.retrain_spec h12⟩⟩
  · rw [(State.dropLock_regsIn _ _).flag (by decide), State.flag_setF_zero]
  · have hok : (s.receives n && s.flag F.LN_STAT_SIGDET n && decide (-2000 ≤ ppm) && decide (ppm ≤ 2000)) = true := by
      simp [hrec, hsig, hlo, hhi]
    exact ⟨fun hl => congrArg Host.Outcome.next ((if_pos hok).trans (if_neg (by rw [hl]; decide))),
      fun hl => congrArg Host.Outcome.next ((if_pos hok).trans (if_pos hl))⟩
  · refine ⟨_, congrArg Host.Outcome.next (if_pos hl), State.dropLock_lock _ _, State.dropLock_up _ _, fun hu h2 => ?_⟩
    exact (State.dropLink_counts ((State.flag_setF_apart _ _ _ _ (by decide)).trans hu)
      ((State.getF_setF_apart _ _ _ _ (by decide)).trans h2)).1
  · obtain ⟨h1, h2, h3, h4, h5, _⟩ := State.linkUp_cameUp l hl hc hu h0 ht hp hoks h64
    exact ⟨_, rfl, h1, h2, h3, h4, h5⟩
  · have hall : State.RegsIn [] s (s.updLane n (fun l' => { l' with rd := (s.blockOks n l).2 })) := (State.RegsIn.refl [] s).updLane _ _
    have hrun : s.linkDown n l false = (s.updLane n (fun l' => { l' with rd := (s.blockOks n l).2 })).takeOks n (List.replicate 16 false) := by
      rw [← hoks]
      rfl
    obtain ⟨hregs, hinv, hbound, hlink⟩ := State.takeOks_of_invalid ((hall.flag rfl).trans hu) ((hall.flag rfl).trans hl)
    rw [← hrun] at hregs hinv hbound hlink
    obtain ⟨_, _, hlt, _⟩ | ⟨hdown, hloss⟩ := hlink
    · exact absurd hlt (by decide)
    · refine ⟨_, rfl, hdown, (hregs _ _ (by decide)).trans (hall _ _ rfl), ?_, fun h2 => ?_⟩
      · rw [← hall F.LN_LINKCNT_INVAL n rfl, ← hinv]
        exact (Nat.min_eq_left (Nat.le_sub_one_of_lt (hbound (by decide)))).symm
      · obtain ⟨hevt, hdowns⟩ := hloss ((hall _ _ rfl).trans h2)
        exact ⟨hevt, hdowns.trans (by rw [hall F.LN_LINKCNT_DOWNS n rfl])⟩
  · have hall : State.RegsIn [] s (s.updLane n (fun l => { l with rd := (s.lane n).rd })) := (State.RegsIn.refl [] s).updLane _ _
    have hrun : s.linkDown n [] true = (s.updLane n (fun l => { l with rd := (s.lane n).rd })).dropLink n true := by
      have hopen : s.linkDown n [] true =
          if (true && (s.takeBlocks n []).laneMode n == 4) then (s.takeBlocks n []).dropLink n true else s.takeBlocks n [] := rfl
      have htake : s.takeBlocks n [] = s.updLane n (fun l => { l with rd := (s.lane n).rd }) := by
        unfold State.takeBlocks State.takeOks
        exact ite_self _
      rw [hopen, htake]
      refine if_pos ?_
      rw [Bool.true_and]
      exact beq_iff_eq.2 ((hall _ _ rfl).trans h4)
    refine ⟨_, congrArg Host.Outcome.next hrun, State.dropLink_up _ _ _, (State.dropLink_counts ((hall.flag rfl).trans hu) ((hall _ _ rfl).trans h2)).1, ?_⟩
    exact ((State.dropLink_regsIn _ _ _) _ _ (by decide)).trans (hall _ _ rfl)

end Sys2Proof.Machine
end

section
/-! Evacuation and return of engines, feeder migration and microcode rollout (R380 to R383). -/

namespace Sys2Proof.Machine

/-- The start of an evacuation leaves the feeders where they are. -/
theorem State.beginEvac_spec (s : State) (e : Nat) :
    (s.beginEvac e).engState e = 3 ∧ ((s.beginEvac e).engine e).evacFrom.isSome = true ∧ (s.beginEvac e).feeders = s.feeders := by
  have hsq := (s.setF F.PE_STAT_STATE e 3).squashAll_pubOnly .other (fun p => p.engine == e)
  have hstate : ((s.setF F.PE_STAT_STATE e 3).squashAll .other (fun p => p.engine == e)).engState e = 3 :=
    (hsq.regs _ _ (by decide)).trans (State.getF_setF_same _ _ _ _ _)
  have hfeeders : ((s.setF F.PE_STAT_STATE e 3).squashAll .other (fun p => p.engine == e)).feeders = s.feeders := hsq.feeders
  unfold State.beginEvac
  dsimp only
  generalize (s.setF F.PE_STAT_STATE e 3).squashAll .other (fun p => p.engine == e) = u at hstate hfeeders
  split
  · refine ⟨hstate, ?_, hfeeders⟩
    rw [State.updSec_engine, State.engine_updEngine]
    rfl
  · refine ⟨hstate, ?_, hfeeders⟩
    rw [State.engine_updEngine]
    rfl

theorem State.held_of_feeders {s t : State} (h : t.feeders = s.feeders) (e : Nat) : t.held e = s.held e := by
  unfold State.held
  rw [h]

/-- An accepted EVAC of an engine that holds feeders: it is STOPPING and holds them. -/
theorem State.evac_of_accepted {s : State} {e : Nat} (he : e < 192) (h2 : s.engState e = 2) (hm : s.mayEvacuate e = true)
    (hh : s.held e ≠ []) : s.evac e = s.beginEvac e := by
  have hstay : (s.beginEvac e).evacDone e = s.beginEvac e :=
    if_neg (by rw [State.held_of_feeders (s.beginEvac_spec e).2.2]; simp [hh])
  unfold State.evac
  rw [if_neg (by simp [he]), h2]
  exact (if_pos hm).trans hstay

/-- Settles O25, command by command. -/
theorem engineCommandsComplete : Obligations.EngineCommandsComplete := by
  refine ⟨fun s e he h2 hm hh => ?_, fun s e he h2 hm => congrArg Host.Outcome.next ?_,
    fun s e he hc h0 => congrArg Host.Outcome.next ?_, fun s u e ht h1 hu => congrArg Host.Outcome.next ?_,
    fun s u e ht h1 hu => congrArg Host.Outcome.next ?_, fun s e h0 hr => congrArg Host.Outcome.next (if_pos ⟨h0, hr⟩),
    fun s k hk hd hsw => congrArg Host.Outcome.next ?_⟩
  · obtain ⟨hstate, hfrom, hfeeders⟩ := s.beginEvac_spec e
    exact ⟨_, congrArg Host.Outcome.next (State.evac_of_accepted he h2 hm hh), hstate, hfrom, State.held_of_feeders hfeeders e⟩
  · unfold State.evac
    rw [if_neg (by simp [he]), h2]
    exact if_neg (by rw [hm]; decide)
  · unfold State.return_
    have hsome : s.cfg.isNone = false := by rw [← Option.not_isSome, hc]; rfl
    rw [if_neg (by simp [he, hsome]), h0]
    rfl
  · unfold State.selfTested
    rw [if_neg (by simp [ht, h1]), hu]
    exact if_pos rfl
  · unfold State.selfTested
    rw [if_neg (by simp [ht, h1]), hu]
    exact if_neg Bool.false_ne_true
  · unfold State.migration
    rw [if_neg (by simp [hk, hd])]
    exact if_neg (by rw [hsw]; decide)

end Sys2Proof.Machine
end

section
/-! Partners and their caps (R386 to R390). -/

namespace Sys2Proof.Machine

/-- A management client's entry that an earlier image gave no frames and no bytes a second, one second after its last frame; the image's
rule now gives the default caps (R388). -/
def capsChanged : State :=
  { cfg := some { rules := [{}] }
    now := 1200000000
    partners := [(0, { kind := 4, ftok := 1, btok := 100 })] }

/-- The entry takes the caps of the rule before its buckets are refilled: 20 frames less one are left. -/
theorem capsChanged_judged : (((capsChanged.judgeDynamic 0 4 0 0 0 0 {}).2).partner 0).ftok = 19 := by decide +kernel

/-- Refutes O38: an entry whose caps are not those of the rule that matches the present frame is refilled under the rule's caps, not under
the ones it had. -/
theorem not_partnerCommandsComplete : ¬ Obligations.PartnerCommandsComplete := by
  intro h
  obtain ⟨_, _, _, hjudge⟩ := h
  obtain ⟨_, hdynamic⟩ := hjudge capsChanged 0 4 0 0 0 ((capsChanged.partner 0).refill capsChanged.now) {} (by decide +kernel) rfl
    (by decide +kernel) (by decide +kernel)
  obtain ⟨u, hu, hftok, _⟩ := hdynamic 0 0 (by decide +kernel)
  have hjudged := capsChanged_judged
  rw [hu] at hjudged
  have hold : ((capsChanged.partner 0).refill capsChanged.now).ftok - 1 = 0 := by decide +kernel
  rw [hftok, hold] at hjudged
  exact absurd hjudged (by decide +kernel)

end Sys2Proof.Machine
end

section
/-! The management service: requests that are served and their answers, and change sessions (R392 to R396). -/

namespace Sys2Proof.Machine

/-! ## A queue of requests in lanes out of order -/

/-- A client's request for page 0. -/
def pageRequest : MgmtMsg := { lane := 31, ip := 9, port := 8, toIp := 77, code := 1, reqId := 4 }

/-- The same, with its CRC. -/
def sealedPageRequest : MgmtMsg := { pageRequest with crc := mgmtCrc (headOf pageRequest 1) [] }

/-- A station port with 128 requests of another client in its queue, listed behind a lane of a higher number. -/
def lanesOutOfOrder : State :=
  ({ cfg := some { rules := [{}], lanes := [(31, { mode := .eth1g, sb := true, ipv4 := 77 })] }
     lanes := [(32, {}), (31, { ethQ := List.replicate 128 { cls := 4, mgmt := some (1, 0) } })]
     partners := [(0, { kind := 4, lane := 31, key := 9 * 65536 + 8, ftok := 4, btok := 6088 })] } : State).setF F.LN_STAT_UP 31 1

theorem lanesOutOfOrder_mgmtFill : lanesOutOfOrder.mgmtFill = 128 := by decide +kernel

/-- The time stamps of the received frame are noted in a new entry before the lane that is out of order, whose queue is counted twice. -/
theorem lanesOutOfOrder_judged : (lanesOutOfOrder.judgeMgmt sealedPageRequest).2.mgmtFill = 256 := by decide +kernel

/-- Refutes O46: a state whose lanes are not in the order of their numbers counts a queue of 128 requests twice, and a request within
every cap is not served. -/
theorem not_managementRequestsAreAnswered : ¬ Obligations.ManagementRequestsAreAnswered := by
  intro h
  obtain ⟨_, _, _, _, _, _, _, hserved⟩ := h lanesOutOfOrder lanesOutOfOrder sealedPageRequest 0
  obtain ⟨w, ⟨u, hu, _, _, _, hfill, _⟩, _⟩ := hserved (((lanesOutOfOrder.partner 0).under 0 {}).refill lanesOutOfOrder.now) 1 0 {} none
    (by decide +kernel) (by decide +kernel) (by decide +kernel) (by decide +kernel) (by decide +kernel) (by decide +kernel) rfl
    (by decide +kernel) (by decide +kernel) (by decide +kernel) (by decide +kernel) (by decide +kernel)
    (by rw [lanesOutOfOrder_mgmtFill]; decide) (fun b hb => nomatch hb)
  have hjudged := lanesOutOfOrder_judged
  rw [hu] at hjudged
  exact absurd hfill (by rw [show u.mgmtFill = 256 from hjudged]; decide)

/-! ## What judging a request leaves -/

/-- Admission changes registers, partners and the stamps of a lane, and writes records where it refuses. -/
theorem State.takeCaps_admitted {s u : State} {n lane len : Nat} (h : s.takeCaps n lane len = (true, u)) :
    ∃ partners, u = { s with partners := partners } := by
  unfold State.takeCaps at h
  dsimp only at h
  split at h
  · exact absurd (congrArg Prod.fst h) Bool.false_ne_true
  · exact ⟨_, (congrArg Prod.snd h).symm⟩

theorem State.judgeDynamic_admitted {s u : State} {lane kind id key id0 id1 n : Nat} {x : Sender}
    (h : s.judgeDynamic lane kind id key id0 id1 x = (some n, u)) :
    ∃ regs w1c partners, u = { s with regs := regs, w1c := w1c, partners := partners } := by
  unfold State.judgeDynamic at h
  split at h
  · exact absurd (congrArg Prod.fst h) (by simp)
  dsimp only at h
  split at h
  · exact absurd (congrArg Prod.fst h) (by simp)
  next m v hfound =>
    have hv : ∃ regs w1c partners, v = { s with regs := regs, w1c := w1c, partners := partners } := by
      split at hfound
      · rw [← (Prod.mk.inj (Option.some.inj hfound)).2]
        exact ⟨s.regs, s.w1c, _, rfl⟩
      · obtain ⟨k, _, hk⟩ := Option.map_eq_some_iff.1 hfound
        rw [← (Prod.mk.inj hk).2]
        exact ⟨_, _, _, rfl⟩
    obtain ⟨regs, w1c, partners, rfl⟩ := hv
    split at h
    next w hcaps =>
      obtain ⟨partners', rfl⟩ := State.takeCaps_admitted hcaps
      exact ⟨regs, w1c, partners', (Prod.mk.inj h).2.symm⟩
    · exact absurd (congrArg Prod.fst h) (by simp)

theorem State.captureRx_lanes (s : State) (lane : Nat) : ∃ lanes, s.captureRx lane = { s with lanes := lanes } := by
  unfold State.captureRx
  split
  · exact ⟨_, rfl⟩
  · exact ⟨s.lanes, rfl⟩

/-- The state in which a served request acts. -/
theorem State.Serves.state {s v : State} {m : MgmtMsg} {code n : Nat} {priv : Option Nat} (h : s.Serves m code priv n v) :
    ∃ regs w1c partners lanes, v = { s with regs := regs, w1c := w1c, partners := partners, lanes := lanes } := by
  obtain ⟨u, hu, _, _, _, _, hv, _⟩ := h
  obtain ⟨lanes, hl⟩ := s.captureRx_lanes m.lane
  unfold State.judgeMgmt at hu
  dsimp only at hu
  rw [hl] at hu
  split at hu
  · exact absurd (congrArg Prod.fst hu) (by simp)
  split at hu
  · exact absurd (congrArg Prod.fst hu) (by simp)
  split at hu
  · exact absurd (congrArg Prod.fst hu) (by simp)
  obtain ⟨regs, w1c, partners, hu'⟩ := State.judgeDynamic_admitted hu
  rw [hv, hu']
  exact ⟨_, _, _, _, rfl⟩

theorem State.Serves.pkgBuf {s v : State} {m : MgmtMsg} {code n : Nat} {priv : Option Nat} (h : s.Serves m code priv n v) :
    v.pkgBuf = s.pkgBuf := by
  obtain ⟨_, _, _, _, hv⟩ := h.state
  rw [hv]

/-! ## Answers -/

section
variable (s : State) (lane : Nat) (f : EthFrame)

theorem State.queueEth_resps : (s.queueEth lane f).resps = s.resps := by
  obtain ⟨_, _, _, _, _, hq⟩ := (s.queueEth_pubOnly lane f).rest
  rw [hq]

theorem State.queueEth_pkgBuf : (s.queueEth lane f).pkgBuf = s.pkgBuf := by
  obtain ⟨_, _, _, _, _, hq⟩ := (s.queueEth_pubOnly lane f).rest
  rw [hq]

theorem State.queueEth_session : (s.queueEth lane f).session = s.session := by
  obtain ⟨_, _, _, _, _, hq⟩ := (s.queueEth_pubOnly lane f).rest
  rw [hq]

theorem State.queueEth_dev : (s.queueEth lane f).dev = s.dev := (s.queueEth_pubOnly lane f).dev
end

/-- What an answer leaves: the response heads the list, and beside it only the queues of the publication change. -/
theorem State.answer_spec (s : State) (m : MgmtMsg) (code : Nat) (a : Ans) (n : Option Nat) :
    (s.answer m code a n).Answers m code a.status a.payload ∧ (s.answer m code a n).pkgBuf = s.pkgBuf ∧
      (s.answer m code a n).session = s.session ∧ (s.answer m code a n).dev = s.dev := by
  unfold State.answer
  cases a.arg0 <;>
  · dsimp only
    refine ⟨⟨_, congrArg List.head? (State.queueEth_resps _ _ _), ?_⟩, State.queueEth_pkgBuf _ _ _, State.queueEth_session _ _ _, State.queueEth_dev _ _ _⟩
    exact ⟨rfl, rfl, rfl, rfl, rfl, rfl, rfl⟩

/-- A served request that is well formed: its effect, its answer, and a violation where the answer counts as one. -/
theorem State.Serves.request {s v : State} {m : MgmtMsg} {code n b : Nat} (h : s.Serves m code (some b) n v) (act : State → Ans × State) :
    s.request m code (some b) true act =
      (if badStatus (act v).1.status then (act v).2.violation n m.lane 5 else (act v).2).answer m code (act v).1 (some n) := by
  obtain ⟨u, hu, hhead, hout, hcap, hfill, hv, hpriv⟩ := h
  unfold State.request
  rw [hu]
  dsimp only
  rw [if_neg (by rw [hhead]; decide), if_neg (by rw [hout]; decide), if_neg (Nat.not_le.2 hcap), if_neg (Nat.not_le.2 hfill), ← hv]
  simp only [Bool.not_true, Bool.false_eq_true, if_false, hpriv b rfl, if_true]

/-- A served request whose answer is no violation. -/
theorem State.Serves.request_of_good {s v : State} {m : MgmtMsg} {code n b : Nat} (h : s.Serves m code (some b) n v) {wf : Bool} (hwf : wf = true)
    (act : State → Ans × State) {a : Ans} {t : State} (ha : act v = (a, t)) (hgood : badStatus a.status = false) :
    s.request m code (some b) wf act = t.answer m code a (some n) := by
  rw [hwf, h.request act, ha, hgood]
  rfl

/-! ## Change sessions (R393) -/

theorem State.ageSession_of_fresh {v : State} {x : Session} (h : v.session = some x) (ht : v.now < x.lastAt + 60000 * msClk) :
    v.ageSession = v := by
  unfold State.ageSession
  rw [h]
  exact if_neg (Nat.not_le.2 ht)

theorem State.ageSession_now (v : State) : v.ageSession.now = v.now := by
  unfold State.ageSession
  split
  · split <;> rfl
  · rfl

theorem State.ageSession_dev (v : State) : v.ageSession.dev = v.dev := by
  unfold State.ageSession
  split
  · split <;> rfl
  · rfl

theorem State.ageSession_change (v : State) : v.ageSession.change = v.change := by
  unfold State.ageSession
  split
  · split <;> rfl
  · rfl

theorem State.beginChange_accepted {v : State} {m : MgmtMsg} (hf : v.ageSession.foreign m = false) (hs : v.dev.storing = false)
    (hc : v.change = none) (hlen : m.arg0 ≤ 8 * 2 ^ 20) : v.beginChange m =
      ({}, { v.ageSession with session := some { client := clientOf m, len := m.arg0, lastAt := v.now }, pkgBuf := [] }) := by
  unfold State.beginChange
  dsimp only
  rw [hf, v.ageSession_dev, v.ageSession_change, hs, hc, if_neg (by decide), if_neg (Nat.not_lt.2 hlen), v.ageSession_now]

section
variable {v : State} {m : MgmtMsg} {x : Session} (hx : v.session = some x) (hc : x.client = clientOf m)
  (ht : v.now < x.lastAt + 60000 * msClk)
include hx hc ht

theorem State.changeData_eq : v.changeData m =
    if x.len < m.arg0 + m.payload.length then ({ status := 6 }, v)
    else ({}, { v with session := some { x with lastAt := v.now }, pkgBuf := Mem.writeN 0 v.pkgBuf m.arg0 m.payload }) := by
  unfold State.changeData
  rw [State.ageSession_of_fresh hx ht]
  dsimp only
  rw [hx]
  exact if_neg (not_not.2 hc)

theorem State.own_of_client : v.own m = true := by
  unfold State.own
  rw [hx]
  exact beq_iff_eq.2 hc

theorem State.foreign_of_client : v.foreign m = false := by
  unfold State.foreign
  rw [hx]
  exact bne_eq_false_iff_eq.2 hc

theorem State.endChange_eq : v.endChange m = ({ status := 10 }, { v with session := none, dev := { v.dev with storing := true } }) := by
  unfold State.endChange
  rw [State.ageSession_of_fresh hx ht]
  exact if_pos (State.own_of_client hx hc ht)

theorem State.mgmtAbort_own : v.mgmtAbort m = ({}, { v with session := none }) := by
  unfold State.mgmtAbort
  rw [State.ageSession_of_fresh hx ht]
  dsimp only
  rw [State.foreign_of_client hx hc ht, State.own_of_client hx hc ht]
  rfl
end

/-- Without a session the pending package, if any, is aborted. -/
theorem State.mgmtAbort_of_none {v : State} (m : MgmtMsg) (h : v.session = none) : v.mgmtAbort m = ({}, v.abortChange) := by
  have hage : v.ageSession = v := by
    unfold State.ageSession
    rw [h]
  unfold State.mgmtAbort State.foreign State.own
  dsimp only
  rw [hage, h]
  rfl

theorem bareMsg_of_nil {m : MgmtMsg} (h : m.payload = []) : bareMsg m = true := by rw [bareMsg, h]; rfl

/-- Settles O47, request by request. -/
theorem changeSessionCommandsComplete : Obligations.ChangeSessionCommandsComplete := by
  refine ⟨fun s v m n => ⟨fun hs hp hf hst hch hlen => ?_, fun x hx hc ht => ⟨fun hs hp => ⟨fun hlen => ?_, fun hlen => ?_⟩,
    fun hs hp => ?_, fun hs hp => ?_⟩, fun hs hp hn => ?_, fun hs hp => ?_⟩, fun s x hx => congrArg Host.Outcome.next ?_⟩
  · refine ⟨_, congrArg Host.Outcome.next (hs.request_of_good (bareMsg_of_nil hp) _ (State.beginChange_accepted hf hst hch hlen) rfl), ?_⟩
    obtain ⟨hans, hbuf, hses, _⟩ := State.answer_spec { v.ageSession with
      session := some { client := clientOf m, len := m.arg0, lastAt := v.now }, pkgBuf := [] } m 6 {} (some n)
    exact ⟨hans, hbuf, hses⟩
  · have hact := State.changeData_eq hx hc ht
    rw [if_neg (Nat.not_lt.2 hlen)] at hact
    refine ⟨_, congrArg Host.Outcome.next (hs.request_of_good (decide_eq_true hp) _ hact rfl), ?_⟩
    obtain ⟨hans, hbuf, hses, _⟩ := State.answer_spec { v with
      session := some { x with lastAt := v.now }, pkgBuf := Mem.writeN 0 v.pkgBuf m.arg0 m.payload } m 7 {} (some n)
    refine ⟨hans, hses, fun i hi => ?_, fun a ha => ?_⟩
    · rw [hbuf]
      dsimp only
      rw [Mem.read_writeN_inside _ _ _ _ _ hi]
      simp [List.getD, hi]
    · rw [hbuf, ← hs.pkgBuf]
      exact Mem.read_writeN_outside _ _ _ _ _ ha
  · have hact := State.changeData_eq hx hc ht
    rw [if_pos hlen] at hact
    refine ⟨_, congrArg Host.Outcome.next (hs.request_of_good (decide_eq_true hp) _ hact rfl), ?_⟩
    obtain ⟨hans, hbuf, _⟩ := State.answer_spec v m 7 { status := 6 } (some n)
    exact ⟨hans, hbuf.trans hs.pkgBuf⟩
  · refine ⟨_, congrArg Host.Outcome.next (hs.request_of_good (bareMsg_of_nil hp) _ (State.endChange_eq hx hc ht) rfl), ?_⟩
    obtain ⟨hans, _, hses, hdev⟩ := State.answer_spec { v with session := none, dev := { v.dev with storing := true } } m 8 { status := 10 } (some n)
    exact ⟨hans, hses, by rw [hdev]⟩
  · refine ⟨_, congrArg Host.Outcome.next (hs.request_of_good (bareMsg_of_nil hp) _ (State.mgmtAbort_own hx hc ht) rfl), ?_⟩
    obtain ⟨hans, _, hses, _⟩ := State.answer_spec { v with session := none } m 10 {} (some n)
    exact ⟨hans, hses⟩
  · exact ⟨_, congrArg Host.Outcome.next (hs.request_of_good (bareMsg_of_nil hp) _ (State.mgmtAbort_of_none m hn) rfl),
      (State.answer_spec _ m 10 {} (some n)).1⟩
  · exact ⟨_, congrArg Host.Outcome.next (hs.request_of_good (bareMsg_of_nil hp) _ rfl rfl), (State.answer_spec _ m 9 _ (some n)).1⟩
  · rw [hx]

end Sys2Proof.Machine
end

section
/-! The check units (R354 to R362). -/

namespace Sys2Proof.Machine

/-- A job that appends runs with its destination at the last byte of the check buffer, where a START would refuse it (R359): the byte
copied is the last that the register can name. -/
def appendsAtTheEnd : State :=
  ((((({} : State).setF F.CK_STAT_STATE 0 1).setF F.CK_CFG_MODE 0 1).setF F.CK_LEN_LEN 0 1).setF F.CK_DST_DST 0 0x7FFF).setF
    F.CK_XOROUT_XOROUT 0 0xFF

/-- CK_DST has 15 bits: the check value goes to address 0. -/
theorem appendsAtTheEnd_completed : ∃ t, exec (.ckJobComplete 0 false) appendsAtTheEnd = .next t ∧
    Mem.read 0 t.ckBuf 0x8000 = 0 ∧ Mem.read 0 t.ckBuf 0 = 0xFF := ⟨_, rfl, by decide +kernel⟩

/-- What the statement asks for: the check value behind the byte copied. -/
theorem appendsAtTheEnd_asked : Mem.read 0 (Mem.writeN 0 (Mem.writeN 0 appendsAtTheEnd.ckBuf (appendsAtTheEnd.getF F.CK_DST_DST 0)
      (appendsAtTheEnd.spaceRead (appendsAtTheEnd.getF F.CK_CFG_SSPACE 0) (appendsAtTheEnd.getF F.CK_SRC_SRC 0)
        (appendsAtTheEnd.getF F.CK_LEN_LEN 0))) (appendsAtTheEnd.getF F.CK_DST_DST 0 + appendsAtTheEnd.getF F.CK_LEN_LEN 0)
      (leBytes (appendsAtTheEnd.ckParam 0).bytes (crcOut (appendsAtTheEnd.ckParam 0) (crcRun (appendsAtTheEnd.ckParam 0)
        (appendsAtTheEnd.getF F.CK_VALUE_VALUE 0) (appendsAtTheEnd.spaceRead (appendsAtTheEnd.getF F.CK_CFG_SSPACE 0)
          (appendsAtTheEnd.getF F.CK_SRC_SRC 0) (appendsAtTheEnd.getF F.CK_LEN_LEN 0)) % 2 ^ 32)))) 0x8000 = 0xFF := by
  decide +kernel

/-- Refutes O8: an appending job whose destination ends beyond the check buffer puts the check value at its wrapped address; the statement
bounds the destination by 2^32 alone, where CK_DST has 15 bits. -/
theorem not_checkUnitCommandsComplete : ¬ Obligations.CheckUnitCommandsComplete := by
  intro h
  obtain ⟨_, _, _, _, _, hjob⟩ := h
  obtain ⟨_, happend, _⟩ := hjob appendsAtTheEnd 0 _ _ _ _ 0 _ _ (by decide) (by decide +kernel) rfl rfl rfl rfl rfl rfl rfl rfl
  obtain ⟨t, ht, _, _, _, _, _, hbuf⟩ := happend (by decide +kernel) rfl (by decide +kernel)
  obtain ⟨u, hu, hread, _⟩ := appendsAtTheEnd_completed
  obtain rfl : t = u := by simpa using ht.symm.trans hu
  rw [hbuf] at hread
  exact absurd (appendsAtTheEnd_asked.symm.trans hread) (by decide)

end Sys2Proof.Machine
end

section
/-! The filter chains (R64 to R76): what delivery, a stop and a start leave, and what a shift computes. -/

namespace Sys2Proof.Machine

/-! ## A list changed at one place -/

theorem modAt_eq_mapIdx {α : Type} (l : List α) (i : Nat) (f : α → α) :
    modAt l i f = l.mapIdx (fun k x => if k = i then f x else x) := by
  refine List.ext_getElem (by simp [modAt]) fun k h1 h2 => ?_
  simp [modAt]

@[simp] theorem length_modAt {α : Type} (l : List α) (i : Nat) (f : α → α) : (modAt l i f).length = l.length := by
  rw [modAt_eq_mapIdx, List.length_mapIdx]

theorem getD_modAt_same {α : Type} {l : List α} {i : Nat} (f : α → α) (d : α) (h : i < l.length) : (modAt l i f).getD i d = f (l.getD i d) := by
  simp [modAt_eq_mapIdx, List.getD, h]

/-- What the change keeps of each entry is kept. -/
theorem getD_modAt_keeps {α β : Type} (p : α → β) (l : List α) (i k : Nat) (f : α → α) (d : α) (h : ∀ x, p (f x) = p x) :
    p ((modAt l i f).getD k d) = p (l.getD k d) := by
  by_cases hk : k < l.length
  · have he : (modAt l i f).getD k d = if k = i then f l[k] else l[k] := by simp [modAt_eq_mapIdx, List.getD, hk]
    have hl : l.getD k d = l[k] := by simp [List.getD, hk]
    rw [he, hl]
    split
    · exact h _
    · rfl
  · rw [List.getD_eq_default _ _ (by rw [length_modAt]; omega), List.getD_eq_default _ _ (by omega)]

/-! ## What delivery changes -/

/-- The fields of a chain's status and counters. -/
def chainFields : List Fld := [F.FC_STAT_REFILL, F.FC_STAT_DIRTY, F.FC_STAT_STATE, F.FC_QCNT_OVR]

/-- `s` differs from `r` in registers of the chains, the chains and the sections alone. -/
structure State.ChainOnly (r s : State) : Prop where
  rest : ∃ regs w1c chains secs, s = { r with regs := regs, w1c := w1c, chains := chains, secs := secs }
  regs : State.RegsIn chainFields r s

theorem State.ChainOnly.refl (s : State) : s.ChainOnly s := ⟨⟨s.regs, s.w1c, s.chains, s.secs, rfl⟩, State.RegsIn.refl _ _⟩

theorem State.ChainOnly.trans {a b c : State} (h : a.ChainOnly b) (g : b.ChainOnly c) : a.ChainOnly c := by
  obtain ⟨⟨_, _, _, _, rfl⟩, hr⟩ := h
  obtain ⟨⟨_, _, _, _, rfl⟩, gr⟩ := g
  exact ⟨⟨_, _, _, _, rfl⟩, hr.trans gr⟩

theorem State.ChainOnly.setF {r s : State} (h : r.ChainOnly s) {f : Fld} (hf : f ∈ chainFields) (i v : Nat) : r.ChainOnly (s.setF f i v) :=
  h.trans ⟨⟨_, _, _, _, rfl⟩, (State.RegsIn.refl _ s).setF hf i v⟩

theorem State.ChainOnly.updChain {r s : State} (h : r.ChainOnly s) (n : Nat) (f : ChainSt → ChainSt) : r.ChainOnly (s.updChain n f) :=
  h.trans ⟨⟨_, _, _, _, rfl⟩, State.RegsIn.refl _ s⟩

theorem State.ChainOnly.updSec {r s : State} (h : r.ChainOnly s) (k : Nat) (f : SecSt → SecSt) : r.ChainOnly (s.updSec k f) :=
  h.trans ⟨⟨_, _, _, _, rfl⟩, State.RegsIn.refl _ s⟩

section
variable {r s : State} (h : r.ChainOnly s)
include h
theorem State.ChainOnly.now : s.now = r.now := by obtain ⟨_, _, _, _, rfl⟩ := h.rest; rfl
theorem State.ChainOnly.convs : s.convs = r.convs := by obtain ⟨_, _, _, _, rfl⟩ := h.rest; rfl
end

/-- Delivery on chain `n`: the shifts that are being computed stay, and so does the line of FIR outputs of each input. -/
structure State.Delivers (n : Nat) (r s : State) : Prop where
  only : r.ChainOnly s
  due : (s.chain n).due = (r.chain n).due
  fir : ∀ i, ((s.chain n).inps.getD i {}).fir = ((r.chain n).inps.getD i {}).fir

section
variable {n : Nat} {r s t : State}

theorem State.Delivers.refl (n : Nat) (s : State) : State.Delivers n s s := ⟨State.ChainOnly.refl s, rfl, fun _ => rfl⟩

theorem State.Delivers.trans (h : State.Delivers n r s) (g : State.Delivers n s t) : State.Delivers n r t :=
  ⟨h.only.trans g.only, g.due.trans h.due, fun i => (g.fir i).trans (h.fir i)⟩

theorem State.Delivers.setF (h : State.Delivers n r s) {f : Fld} (hf : f ∈ chainFields) (i v : Nat) : State.Delivers n r (s.setF f i v) :=
  ⟨h.only.setF hf i v, h.due, h.fir⟩

theorem State.Delivers.updSec (h : State.Delivers n r s) (k : Nat) (f : SecSt → SecSt) : State.Delivers n r (s.updSec k f) :=
  ⟨h.only.updSec k f, h.due, h.fir⟩

theorem State.Delivers.updChain (h : State.Delivers n r s) (f : ChainSt → ChainSt) (hd : (f (s.chain n)).due = (s.chain n).due)
    (hf : ∀ i, ((f (s.chain n)).inps.getD i {}).fir = ((s.chain n).inps.getD i {}).fir) : State.Delivers n r (s.updChain n f) := by
  refine ⟨h.only.updChain n f, ?_, fun i => ?_⟩
  · rw [State.chain_updChain, hd, h.due]
  · rw [State.chain_updChain, hf, h.fir]

theorem State.Delivers.updInp (h : State.Delivers n r s) (inp : Nat) (f : InpChain → InpChain) (hf : ∀ x, (f x).fir = x.fir) :
    State.Delivers n r (s.updChain n (fun c => { c with inps := modAt c.inps inp f })) :=
  h.updChain _ rfl fun i => getD_modAt_keeps InpChain.fir _ _ _ _ _ hf

theorem State.Delivers.foldl {α : Type} (f : State → α → State) (hf : ∀ s x, State.Delivers n s (f s x)) (l : List α) (s : State) :
    State.Delivers n s (l.foldl f s) :=
  List.foldlRecOn (motive := fun t => State.Delivers n s t) l f (State.Delivers.refl n s) (fun t ht x _ => ht.trans (hf t x))
end

section
variable (s : State) (n : Nat)

theorem State.deliver_delivers (inp e : Nat) (v : Int) (q : Quality) : State.Delivers n s (s.deliver n inp e v q) := by
  unfold State.deliver
  exact ((State.Delivers.refl n s).updChain _ rfl fun _ => rfl).updSec _ _

theorem State.countOvr_delivers (inp e : Nat) : State.Delivers n s (s.countOvr n inp e) := by
  unfold State.countOvr
  split
  · exact (State.Delivers.refl n s).setF (by decide) _ _
  · exact State.Delivers.refl n s

theorem State.deliverZeros_delivers (inp e : Nat) : State.Delivers n s (s.deliverZeros n inp e) := by
  unfold State.deliverZeros
  dsimp only
  refine State.Delivers.updInp (State.Delivers.foldl _ (fun t i => ?_) _ s) _ _ (fun _ => rfl)
  exact (t.countOvr_delivers n _ _).trans (State.deliver_delivers _ _ _ _ _ _)

theorem State.deliverFormed_delivers (inp e : Nat) (v : Int) : State.Delivers n s (s.deliverFormed n inp e v) := by
  unfold State.deliverFormed
  dsimp only
  refine State.Delivers.updInp ((State.Delivers.trans ?_ (State.countOvr_delivers _ _ _ _)).trans (State.deliver_delivers _ _ _ _ _ _)) _ _ (fun _ => rfl)
  split
  · exact s.deliverZeros_delivers n _ _
  · exact State.Delivers.refl n s

theorem State.release_delivers (inp : Nat) : State.Delivers n s (s.release n inp) :=
  State.Delivers.foldl (fun s (p : Nat × Int) => s.deliverFormed n inp p.1 p.2) (fun t p => t.deliverFormed_delivers n inp p.1 p.2) _ s

theorem State.releaseAll_delivers : State.Delivers n s (s.releaseAll n) := by
  refine State.Delivers.foldl _ (fun t i => ?_) _ s
  dsimp only
  split
  · exact (t.release_delivers n i).trans (State.deliverZeros_delivers _ _ _ _)
  · exact State.Delivers.refl n t

/-! ## Stopping and starting (R74 to R76) -/

theorem State.chainStopNow_only : s.ChainOnly (s.chainStopNow n) := by
  unfold State.chainStopNow
  exact (((s.releaseAll_delivers n).only.updChain _ _).setF (by decide) _ _).setF (by decide) _ _

theorem State.chainStopNow_spec : (s.chainStopNow n).getF F.FC_STAT_STATE n = 0 ∧ (s.chainStopNow n).flag F.FC_STAT_DIRTY n = true := by
  unfold State.chainStopNow
  rw [State.getF_setF_apart _ _ _ _ (by decide), State.getF_setF_same, State.flag_setF_one _ _ _ _ (by decide)]
  exact ⟨rfl, rfl⟩

theorem State.chainDisable_only : s.ChainOnly (s.chainDisable n) := by
  unfold State.chainDisable
  split
  · exact s.chainStopNow_only n
  · exact (State.ChainOnly.refl s).setF (by decide) _ _

theorem State.setRefill_only : s.ChainOnly (s.setRefill n) := by
  unfold State.setRefill
  split
  · exact (State.ChainOnly.refl s).setF (by decide) _ _
  · exact (State.ChainOnly.refl s).setF (by decide) _ _

theorem State.setRefill_chain (m : Nat) : (s.setRefill n).chain m = s.chain m := by
  unfold State.setRefill
  split <;> rfl

theorem State.setRefill_regsIn : State.RegsIn [F.FC_STAT_REFILL] s (s.setRefill n) := by
  unfold State.setRefill
  split
  · exact (State.RegsIn.refl _ s).setF (by decide) _ _
  · exact (State.RegsIn.refl _ s).setF (by decide) _ _

theorem State.chainRun_only (a : Nat) : s.ChainOnly (s.chainRun n a) := by
  have h : ∀ f : ChainSt → ChainSt, s.ChainOnly ((((s.updChain n f).setF F.FC_STAT_DIRTY n 0).setF F.FC_STAT_STATE n 1).setRefill n) :=
    fun f => ((((State.ChainOnly.refl s).updChain n f).setF (by decide) _ _).setF (by decide) _ _).trans (State.setRefill_only _ _)
  unfold State.chainRun
  dsimp only
  split
  · exact State.ChainOnly.refl s
  split
  · exact ((h _).updChain _ _).trans (State.chainDisable_only _ _)
  · exact h _

/-- A start at its slot instant, with no stop that waits. -/
theorem State.chainRun_spec (a : Nat) (hw : (s.chain n).startWait = true) (hp : (s.chain n).pendOff = false) :
    (s.chainRun n a).getF F.FC_STAT_STATE n = 1 ∧ (s.chainRun n a).flag F.FC_STAT_DIRTY n = false ∧
      ((s.chainRun n a).chain n).startWait = false ∧ ((s.chainRun n a).chain n).startAngle = some a := by
  unfold State.chainRun
  rw [if_neg (by rw [hw]; decide)]
  dsimp only
  rw [if_neg (by rw [hp]; decide), State.setRefill_chain, State.setRefill_regsIn _ _ _ _ (by decide), (State.setRefill_regsIn _ _).flag (by decide),
    State.getF_setF_same, State.flag_setF_apart _ _ _ _ (by decide), State.flag_setF_zero, State.setF_chain, State.setF_chain, State.chain_updChain]
  exact ⟨rfl, rfl, rfl, rfl⟩

/-- A shift: its FIR output heads the line of its input, and it is no longer being computed. -/
theorem State.runShift_spec (inp : Nat) (j : Int) (hk : (s.slotOfInput n inp).isSome = true) (hi : inp < (s.chain n).inps.length) :
    ((s.runShift n inp j).chain n).due = (s.chain n).due.filter (fun d => !(d.1 == inp && d.2 == j)) ∧
      (((s.runShift n inp j).chain n).inps.getD inp {}).fir = (((s.chain n).inps.getD inp {}).shift (s.chain n).coefs j).fir := by
  obtain ⟨k, hk⟩ := Option.isSome_iff_exists.1 hk
  unfold State.runShift
  rw [hk]
  dsimp only
  generalize hu : s.updChain n (fun c => { c with inps := modAt c.inps inp (fun x => x.shift c.coefs j)
                                                  due := c.due.filter (fun (d : Nat × Int) => !(d.1 == inp && d.2 == j)) }) = u
  have hchain : u.chain n = { s.chain n with
      inps := modAt (s.chain n).inps inp (fun x => x.shift (s.chain n).coefs j)
      due := (s.chain n).due.filter (fun (d : Nat × Int) => !(d.1 == inp && d.2 == j)) } := by rw [← hu, State.chain_updChain]
  have hspec : (u.chain n).due = (s.chain n).due.filter (fun d => !(d.1 == inp && d.2 == j)) ∧
      ((u.chain n).inps.getD inp {}).fir = (((s.chain n).inps.getD inp {}).shift (s.chain n).coefs j).fir := by
    rw [hchain]
    exact ⟨rfl, congrArg InpChain.fir (getD_modAt_same (fun x => x.shift (s.chain n).coefs j) {} hi)⟩
  split
  · exact hspec
  · have hd := ((State.Delivers.refl n u).updInp inp (fun y => { y with formed := y.formed ++
      [((epochOfShift (u.corr n inp) k j).toNat, ((u.chain n).inps.getD inp {}).sample (u.corr n inp) k (epochOfShift (u.corr n inp) k j).toNat)] })
      (fun _ => rfl)).trans (State.release_delivers _ n inp)
    exact ⟨hd.due.trans hspec.1, (hd.fir inp).trans hspec.2⟩

theorem State.runShift_only (inp : Nat) (j : Int) : s.ChainOnly (s.runShift n inp j) := by
  unfold State.runShift
  split
  · exact State.ChainOnly.refl s
  dsimp only
  split
  · exact (State.ChainOnly.refl s).updChain _ _
  · exact (((State.ChainOnly.refl s).updChain _ _).updChain _ _).trans (State.release_delivers _ n inp).only

theorem State.runShifts_only : s.ChainOnly (s.runShifts n) :=
  List.foldlRecOn (motive := fun t => s.ChainOnly t) (s.chain n).due _ (State.ChainOnly.refl s) (fun t ht d _ => ht.trans (t.runShift_only n d.1 d.2))
end

/-- The default coefficients meet R66's count, gain and symmetry, whether they are the free values or not. -/
theorem defaultCoefs_spec : defaultCoefs.length = 64 ∧ defaultCoefs.sum = 2 ^ 23 ∧ defaultCoefs.reverse = defaultCoefs := by
  unfold defaultCoefs
  dsimp only
  split
  next h =>
    simp only [meetsR66, Bool.and_eq_true, beq_iff_eq] at h
    obtain ⟨⟨⟨⟨⟨hlen, hrev⟩, hsum⟩, _⟩, _⟩, _⟩ := h
    exact ⟨hlen, hsum, hrev⟩
  next => decide

theorem getD_setCoef (l : List Int) (i k : Nat) (v : Int) (hk : k < 64) : (setCoef l i v).getD k 0 = if k = i then v else l.getD k 0 := by
  simp [setCoef, hk]

/-- Settles O12, command by command. -/
theorem filterChainCommandsComplete : Obligations.FilterChainCommandsComplete := by
  refine ⟨fun s n hn h1 hw => ?_, fun s n h2 hp => congrArg Host.Outcome.next ?_, fun s n hn h0 => congrArg Host.Outcome.next ?_,
    fun s n hw hr hp => ?_, fun s n inp k d x hd hk hi hx => ?_, fun s n => rfl, fun s n w h0 ht => ?_, fun s n inp w h0 hlo hhi => ?_,
    fun s n inp w h0 => ⟨congrArg Host.Outcome.next (if_pos (by simp [h0])), congrArg Host.Outcome.next (if_pos (by simp [h0]))⟩,
    fun c hc => ?_⟩
  · have hstop : s.chainStop n = s.chainDisable n := by
      unfold State.chainStop
      rw [if_neg (by simp [hn]), h1]
      exact if_neg (by rw [hw]; decide)
    refine ⟨_, congrArg Host.Outcome.next hstop, fun hd => if_neg (by simp [hd]), fun hd => ?_⟩
    have hnow : s.chainDisable n = s.chainStopNow n := if_pos (by rw [hd]; rfl)
    rw [hnow]
    exact s.chainStopNow_spec n
  · have hpend : (((s.runShifts n).releaseAll n).setF F.FC_STAT_STATE n 0).flag F.FC_STAT_PENDING n = false := by
      rw [State.flag_setF_apart _ _ _ _ (by decide), (State.releaseAll_delivers _ n).only.regs.flag (by decide),
        (s.runShifts_only n).regs.flag (by decide), hp]
    unfold State.chainStopDone
    rw [if_neg (by rw [h2]; decide)]
    exact if_neg (by rw [hpend]; decide)
  · unfold State.chainStart
    rw [if_neg (by simp [hn]), h0]
    rfl
  · have hgo : ((s.chain n).startWait && (s.sec (s.convSec n)).running) = true := by rw [hw, hr]; rfl
    obtain ⟨hstate, hdirty, hwait, hangle⟩ := (s.advanceTo (s.nextSlotClk n)).chainRun_spec n (s.conv n).slotTick hw hp
    exact ⟨_, congrArg Host.Outcome.next (if_pos hgo), (State.chainRun_only _ _ _).now, hstate, hdirty, hwait, hangle⟩
  · have h1 : d.1 = inp := by simpa using List.find?_some hd
    obtain ⟨hdue, hfir⟩ := s.runShift_spec n inp d.2 (by rw [hk]; rfl) hi
    refine ⟨s.runShift n inp d.2, ?_, hdue, hfir.trans ?_⟩
    · change execFilterShift n inp s = _
      unfold execFilterShift
      rw [hd, ← h1]
    · rw [hx]
      rfl
  · refine ⟨_, congrArg Host.Outcome.next (if_neg (by simp [h0])), fun i hi => ?_, ?_⟩
    · rw [State.nextTap, State.bumpF, State.setF_chain, State.chain_updChain]
      exact getD_setCoef _ _ _ _ hi
    · exact State.getF_setF_same _ _ _ _ _
  · refine congrArg Host.Outcome.next ((if_neg (by simp [h0])).trans (if_neg ?_))
    omega
  · have hfir : c.fir = defaultCoefs := if_pos (by rw [hc]; rfl)
    rw [hfir]
    exact defaultCoefs_spec

end Sys2Proof.Machine
end

section
/-! The converters: slot and urgent conversions, the result queue, open-wire tests and references (R39 to R57). -/

namespace Sys2Proof.Machine

variable (s : State) (n : Nat)

/-! ## The start of a conversion (R39, R42, R49) -/

/-- The fields that show the running conversion. -/
def convFields : List Fld := [F.CV_CONV_BUSY, F.CV_CONV_OWT, F.CV_CONV_URG, F.CV_CONV_CHSEL]

theorem State.showConv_regsIn : State.RegsIn convFields s (s.showConv n) := by
  unfold State.showConv
  split
  · exact ((((State.RegsIn.refl _ s).setF (by decide) _ _).setF (by decide) _ _).setF (by decide) _ _).setF (by decide) _ _
  · exact (((State.RegsIn.refl _ s).setF (by decide) _ _).setF (by decide) _ _).setF (by decide) _ _

@[simp] theorem State.showConv_convs : (s.showConv n).convs = s.convs := by
  unfold State.showConv
  split <;> rfl

@[simp] theorem State.showConv_conv (m : Nat) : (s.showConv n).conv m = s.conv m := by
  unfold State.conv
  rw [State.showConv_convs]

@[simp] theorem State.showConv_now : (s.showConv n).now = s.now := by
  unfold State.showConv
  split <;> rfl

theorem State.showConv_busy (h : (s.conv n).cur.isSome = true) : (s.showConv n).flag F.CV_CONV_BUSY n = true := by
  obtain ⟨c, hc⟩ := Option.isSome_iff_exists.1 h
  unfold State.showConv
  rw [hc]
  dsimp only
  rw [State.flag_setF_apart _ _ _ _ (by decide), State.flag_setF_apart _ _ _ _ (by decide), State.flag_setF_apart _ _ _ _ (by decide),
    State.flag_setF_one _ _ _ _ (by decide)]

theorem State.RegsIn.updConv {l : List Fld} {r s : State} (h : State.RegsIn l r s) (n : Nat) (f : ConvSt → ConvSt) :
    State.RegsIn l r (s.updConv n f) := h.of_regs (State.updConv_regs _ _ _)

/-- A conversion stamped with the present instant and angle. -/
def State.stamped (s : State) (n : Nat) (c : Conversion) : Conversion := { c with at_ := s.now, angle := s.ticks (s.convSec n) }

theorem State.startConv_regsIn (c : Conversion) : State.RegsIn (F.CV_SLIP_MAXSLIP :: convFields) s (s.startConv n c) := by
  have h := ((State.RegsIn.refl convFields s).updConv n (fun x => { x with cur := some (s.stamped n c) })).trans (State.showConv_regsIn _ n)
  unfold State.startConv
  dsimp only
  split
  · exact h.mono (List.subset_cons_self _ _)
  · exact (h.mono (List.subset_cons_self _ _)).setF (by decide) _ _

theorem State.startConv_conv (c : Conversion) : (s.startConv n c).conv n = { s.conv n with cur := some (s.stamped n c) } := by
  unfold State.startConv
  dsimp only
  split
  · rw [State.showConv_conv, State.conv_updConv]; rfl
  · rw [State.setF_conv, State.showConv_conv, State.conv_updConv]; rfl

@[simp] theorem State.startConv_now (c : Conversion) : (s.startConv n c).now = s.now := by
  unfold State.startConv
  dsimp only
  split
  · rw [State.showConv_now]; rfl
  · rw [State.setF_now, State.showConv_now]; rfl

theorem State.startConv_busy (c : Conversion) : (s.startConv n c).flag F.CV_CONV_BUSY n = true := by
  have h := State.showConv_busy (s.updConv n (fun x => { x with cur := some (s.stamped n c) })) n (by rw [State.conv_updConv]; rfl)
  unfold State.startConv
  dsimp only
  split
  · exact h
  · rw [State.flag_setF_apart _ _ _ _ (by decide)]
    exact h

/-! ## Open-wire attempts (R50, R54 to R57) -/

theorem ConvSt.unaskTest_eq (x : ConvSt) (inp : Nat) : ∃ p, x.unaskTest inp = { x with pendUrg := p } := by
  unfold ConvSt.unaskTest
  split
  · split
    · exact ⟨_, rfl⟩
    · exact ⟨x.pendUrg, rfl⟩
  · exact ⟨x.pendUrg, rfl⟩

/-- An abandoned attempt changes the states of the tests and the pending request alone. -/
theorem State.dropAttempt_conv (inp : Nat) : ∃ p, (s.dropAttempt n inp).conv n =
    { s.conv n with ow := modAt (s.conv n).ow inp (fun o => { o with pull := none, due := o.due || o.pull.isSome }), pendUrg := p } := by
  unfold State.dropAttempt State.updOw
  rw [State.conv_updConv, State.conv_updConv]
  exact ConvSt.unaskTest_eq _ _

@[simp] theorem State.dropAttempt_regs (inp : Nat) : (s.dropAttempt n inp).regs = s.regs := rfl
@[simp] theorem State.dropAttempt_now (inp : Nat) : (s.dropAttempt n inp).now = s.now := rfl

theorem State.owOff_conv (inp : Nat) : ∃ ow p, (s.owOff n inp).conv n = { s.conv n with ow := ow, pendUrg := p } := by
  unfold State.owOff
  split
  · obtain ⟨p, hp⟩ := s.dropAttempt_conv n inp
    exact ⟨_, p, hp⟩
  · exact ⟨_, _, rfl⟩

@[simp] theorem State.owOff_now (inp : Nat) : (s.owOff n inp).now = s.now := by
  unfold State.owOff
  split <;> rfl

/-! ## Slot conversions (R41) -/

/-- The enable bit and the channel of a slot lie apart from the chain's fields. -/
theorem slotEnF_apart : ∀ k, k < 8 → chainFields.all (slotEnF k).apart = true := by decide
theorem slotChF_apart : ∀ k, k < 8 → chainFields.all (slotChF k).apart = true := by decide

/-- The slot instant of an idle converter starts the conversion of an enabled position. -/
theorem State.slot_spec {k : Nat} (hk : k = (s.conv n).slotTick % 16 / 2) (hen : s.flag (slotEnF k) n = true) (hc : (s.conv n).cur = none) :
    ∃ c, (s.slot n).now = max s.now (s.nextSlotClk n) ∧ ((s.slot n).conv n).slotTick = (s.conv n).slotTick + 2 ∧
      ((s.slot n).conv n).cur = some c ∧ c.inp = s.getF (slotChF k) n ∧ c.slotAngle = (s.conv n).slotTick ∧ c.at_ = (s.slot n).now ∧
      (s.slot n).flag F.CV_CONV_BUSY n = true := by
  have hk8 : k < 8 := by omega
  have honly := (s.advanceTo (s.nextSlotClk n)).chainRun_only n (s.conv n).slotTick
  unfold State.slot
  dsimp only
  rw [← hk]
  generalize (s.advanceTo (s.nextSlotClk n)).chainRun n (s.conv n).slotTick = u at honly
  have hconv : u.conv n = s.conv n := congrArg (fun t => Tab.get t ({} : ConvSt) n) honly.convs
  have hnow : u.now = max s.now (s.nextSlotClk n) := honly.now
  have hen' : u.flag (slotEnF k) n = true := (honly.regs.flag (slotEnF_apart k hk8)).trans hen
  have hch : u.getF (slotChF k) n = s.getF (slotChF k) n := honly.regs _ _ (slotChF_apart k hk8)
  rw [if_neg (by rw [State.updConv_flag, hen']; decide), State.updConv_getF, hch]
  obtain ⟨ow, p, how⟩ := (u.updConv n (fun x => { x with slotTick := (s.conv n).slotTick + 2 })).owOff_conv n (s.getF (slotChF k) n)
  have hown := (u.updConv n (fun x => { x with slotTick := (s.conv n).slotTick + 2 })).owOff_now n (s.getF (slotChF k) n)
  generalize (u.updConv n (fun x => { x with slotTick := (s.conv n).slotTick + 2 })).owOff n (s.getF (slotChF k) n) = v at how hown
  rw [State.conv_updConv, hconv] at how
  have hcur : (v.conv n).cur = none := by rw [how]; exact hc
  rw [hcur]
  dsimp only
  rw [State.startConv_now, State.startConv_conv, State.startConv_busy, how]
  exact ⟨_, hown.trans hnow, rfl, rfl, rfl, rfl, rfl, rfl⟩

/-! ## The queue (R43 to R45) -/

theorem State.showQueue_regsIn : State.RegsIn [F.CV_QSTAT_FILL, F.CV_QSTAT_BRIM] s (s.showQueue n) := by
  unfold State.showQueue
  exact ((State.RegsIn.refl _ s).setF (by decide) _ _).setF (by decide) _ _

@[simp] theorem State.showQueue_conv (m : Nat) : (s.showQueue n).conv m = s.conv m := rfl
@[simp] theorem State.showQueue_now : (s.showQueue n).now = s.now := rfl

/-- What a completed conversion leaves in the queue: the next number, and its entry where there is room. -/
structure State.Entered (r : State) (n : Nat) (c : Conversion) (code : Int) (ovr : Bool) (s : State) : Prop where
  seq : (s.conv n).seq = ((r.conv n).seq + 1) % 256
  last : s.getF F.CV_QSTAT_LASTSEQ n = (r.conv n).seq % 256
  room : (r.conv n).fill < 64 → (s.conv n).fill = (r.conv n).fill + 1 ∧
    s.getF F.CV_QLAST_ENTRY n = entryWord c ovr (r.conv n).seq code % 2 ^ 32
  now : s.now = r.now

theorem ConvSt.fill_append (q : List QEnt) (e : QEnt) (he : e.dropped = false) :
    ((q ++ [e]).filter (fun e => !e.dropped)).length = (q.filter (fun e => !e.dropped)).length + 1 := by
  rw [List.filter_append, List.length_append, List.filter_singleton, he]
  rfl

theorem State.enterQueue_entered (c : Conversion) (code : Int) (ovr : Bool) : s.Entered n c code ovr (s.enterQueue n c code ovr) := by
  unfold State.enterQueue
  dsimp only
  split
  next hfull =>
    have hseq : ∀ q, (({ s.conv n with seq := ((s.conv n).seq + 1) % 256, queue := q } : ConvSt)).seq = ((s.conv n).seq + 1) % 256 := fun _ => rfl
    have hlast : (((s.setF F.CV_QSTAT_LASTSEQ n (s.conv n).seq).updConv n (fun x => { x with seq := (x.seq + 1) % 256 })).incF
        F.CV_DROPCNT_DROP n |>.setF F.CV_STAT_DROP n 1).getF F.CV_QSTAT_LASTSEQ n = (s.conv n).seq % 256 := by
      rw [State.getF_setF_apart _ _ _ _ (by decide), State.incF, State.getF_setF_apart _ _ _ _ (by decide), State.updConv_getF, State.getF_setF_same]
      rfl
    split
    · refine ⟨?_, hlast, fun h => absurd h (Nat.not_lt.2 hfull), rfl⟩
      rw [State.setF_conv, State.incF, State.setF_conv, State.conv_updConv]
      rfl
    · refine ⟨?_, hlast, fun h => absurd h (Nat.not_lt.2 hfull), rfl⟩
      rw [State.conv_updConv, State.setF_conv, State.incF, State.setF_conv, State.conv_updConv]
      rfl
  next hroom =>
    refine ⟨?_, ?_, fun _ => ⟨?_, ?_⟩, rfl⟩
    · rw [State.showQueue_conv, State.setF_conv, State.conv_updConv, State.conv_updConv]
      rfl
    · rw [State.showQueue_regsIn _ _ _ _ (by decide), State.getF_setF_apart _ _ _ _ (by decide), State.updConv_getF, State.updConv_getF,
        State.getF_setF_same]
      rfl
    · rw [State.showQueue_conv, State.setF_conv, State.conv_updConv, State.conv_updConv]
      exact ConvSt.fill_append _ _ rfl
    · rw [State.showQueue_regsIn _ _ _ _ (by decide), State.getF_setF_same]
      rfl

/-! ## What follows a completion -/

/-- The fields that the judgement of a test, the next conversion and the records write. -/
def completionFields : List Fld :=
  [F.CV_OWCNT_TESTS, F.CV_OWCNT_URGTESTS, F.CV_OWSTAT_SUSPECT, F.CV_OWSTAT_FLAG, F.CV_STAT_OWCHG, F.CV_SLIP_MAXSLIP, F.CV_CONV_BUSY,
    F.CV_CONV_OWT, F.CV_CONV_URG, F.CV_CONV_CHSEL]

/-- As `RegsIn`, with records written besides. -/
def State.RegsOrLog (l : List Fld) (r s : State) : Prop :=
  ∀ (g : Fld) (m : Nat), l.all g.apart = true → (∀ f ∈ logFields, g.key m 0 ≠ f.key 0 0) → s.getF g m = r.getF g m

theorem State.RegsIn.orLog {l l' : List Fld} {r s : State} (h : State.RegsIn l r s) (hl : l ⊆ l') : State.RegsOrLog l' r s :=
  fun g m hg _ => h.mono hl g m hg

theorem State.RegsOrLog.trans {l : List Fld} {a b c : State} (h : State.RegsOrLog l a b) (k : State.RegsOrLog l b c) : State.RegsOrLog l a c :=
  fun g m hg hf => (k g m hg hf).trans (h g m hg hf)

theorem State.event_regsOrLog (l : List Fld) (s : State) (code subj sub2 : Nat) (sec : EvEpoch) (data : List Nat) :
    State.RegsOrLog l s (s.event code subj sub2 sec data) := fun g m _ hf => State.event_getF _ _ _ _ _ _ g m 0 hf

/-- The registers of the queue lie below those of the log. -/
theorem queue_key_ne_logFields {n : Nat} (hn : n < 32) : ∀ g ∈ [F.CV_QSTAT_LASTSEQ, F.CV_QLAST_ENTRY], ∀ f ∈ logFields, g.key n 0 ≠ f.key 0 0 := by
  have hin : ∀ g ∈ [F.CV_QSTAT_LASTSEQ, F.CV_QLAST_ENTRY], 32 * 0x50000 ≤ g.key n 0 ∧ g.key n 0 < 32 * 0x54000 := by
    simp [Fld.key, Fld.addr, F.CV_QSTAT_LASTSEQ, F.CV_QLAST_ENTRY]
    omega
  have hout : ∀ f ∈ logFields, f.key 0 0 < 32 * 0x50000 ∨ 32 * 0x54000 ≤ f.key 0 0 := by decide
  intro g hg f hf he
  have h1 := hin g hg
  have h2 := hout f hf
  omega

/-- The queue of the converter, its numbers and the time stay. -/
structure State.QueueStays (n : Nat) (r s : State) : Prop where
  seq : (s.conv n).seq = (r.conv n).seq
  queue : (s.conv n).queue = (r.conv n).queue
  now : s.now = r.now
  regs : State.RegsOrLog completionFields r s

section
variable {n : Nat} {r s t : State}

theorem State.QueueStays.refl (n : Nat) (s : State) : State.QueueStays n s s := ⟨rfl, rfl, rfl, fun _ _ _ _ => rfl⟩

theorem State.QueueStays.trans (h : State.QueueStays n r s) (g : State.QueueStays n s t) : State.QueueStays n r t :=
  ⟨g.seq.trans h.seq, g.queue.trans h.queue, g.now.trans h.now, h.regs.trans g.regs⟩

theorem State.QueueStays.setF (h : State.QueueStays n r s) {f : Fld} (hf : f ∈ completionFields) (i v : Nat) :
    State.QueueStays n r (s.setF f i v) := ⟨h.seq, h.queue, h.now, h.regs.trans (((State.RegsIn.refl _ s).setF hf i v).orLog (List.Subset.refl _))⟩

theorem State.QueueStays.updConv (h : State.QueueStays n r s) (f : ConvSt → ConvSt) (hf : (f (s.conv n)).seq = (s.conv n).seq)
    (hq : (f (s.conv n)).queue = (s.conv n).queue) : State.QueueStays n r (s.updConv n f) :=
  ⟨by rw [State.conv_updConv, hf, h.seq], by rw [State.conv_updConv, hq, h.queue], h.now, h.regs.trans (((State.RegsIn.refl [] s).updConv n f).orLog (List.nil_subset _))⟩

theorem State.QueueStays.updOw (h : State.QueueStays n r s) (inp : Nat) (f : OwSt → OwSt) : State.QueueStays n r (s.updOw n inp f) :=
  h.updConv _ rfl rfl

theorem State.QueueStays.event (h : State.QueueStays n r s) (code subj sub2 : Nat) (sec : EvEpoch) (data : List Nat) :
    State.QueueStays n r (s.event code subj sub2 sec data) := by
  refine ⟨?_, ?_, by rw [State.event_now, h.now], h.regs.trans (State.event_regsOrLog _ _ _ _ _ _ _)⟩
  · rw [State.event_conv, h.seq]
  · rw [State.event_conv, h.queue]

theorem State.QueueStays.dropAttempt (h : State.QueueStays n r s) (inp : Nat) : State.QueueStays n r (s.dropAttempt n inp) := by
  obtain ⟨p, hp⟩ := s.dropAttempt_conv n inp
  refine h.trans ⟨?_, ?_, rfl, ((State.RegsIn.refl [] s).of_regs rfl).orLog (List.nil_subset _)⟩
  · rw [hp]
  · rw [hp]

theorem State.QueueStays.startConv (h : State.QueueStays n r s) (c : Conversion) : State.QueueStays n r (s.startConv n c) := by
  refine h.trans ⟨?_, ?_, State.startConv_now _ _ _, (s.startConv_regsIn n c).orLog (by decide)⟩
  · rw [State.startConv_conv]
  · rw [State.startConv_conv]
end

theorem State.owResult_stays (inp : Nat) (fail : Bool) : State.QueueStays n s (s.owResult n inp fail) := by
  have hflag : ∀ (u : State) (v : Bool), State.QueueStays n s u → State.QueueStays n s (u.setOwFlag n inp v) := fun u v hu =>
    ((hu.setF (by decide) _ _).setF (by decide) _ _).event _ _ _ _ _
  have hsusp : ∀ (u : State) (v : Bool), State.QueueStays n s u → State.QueueStays n s (u.setBitF F.CV_OWSTAT_SUSPECT n inp v) :=
    fun u v hu => hu.setF (by decide) _ _
  have h1 : State.QueueStays n s (if fail then s.setBitF F.CV_OWSTAT_SUSPECT n inp true
      else if bitOf (s.getF F.CV_OWSTAT_FLAG n) inp then s else s.setBitF F.CV_OWSTAT_SUSPECT n inp false) := by
    split
    · exact hsusp _ _ (State.QueueStays.refl n s)
    split
    · exact State.QueueStays.refl n s
    · exact hsusp _ _ (State.QueueStays.refl n s)
  unfold State.owResult
  dsimp only
  generalize (if fail then s.setBitF F.CV_OWSTAT_SUSPECT n inp true
      else if bitOf (s.getF F.CV_OWSTAT_FLAG n) inp then s else s.setBitF F.CV_OWSTAT_SUSPECT n inp false) = u at h1
  have h2 : ∀ set clear : Bool, State.QueueStays n s
      (if set then u.setOwFlag n inp true else if clear then u.setOwFlag n inp false else u) := by
    intro set clear
    split
    · exact hflag _ _ h1
    split
    · exact hflag _ _ h1
    · exact h1
  exact (h2 _ _).updOw _ _

theorem State.owComplete_stays (c : Conversion) (code : Int) (ovr : Bool) : State.QueueStays n s (s.owComplete n c code ovr) := by
  have h1 : State.QueueStays n s (s.incF F.CV_OWCNT_TESTS n) := (State.QueueStays.refl n s).setF (by decide) _ _
  have h2 : State.QueueStays n s (if c.urg then (s.incF F.CV_OWCNT_TESTS n).incF F.CV_OWCNT_URGTESTS n else s.incF F.CV_OWCNT_TESTS n) := by
    split
    · exact h1.setF (by decide) _ _
    · exact h1
  unfold State.owComplete
  dsimp only
  generalize (if c.urg then (s.incF F.CV_OWCNT_TESTS n).incF F.CV_OWCNT_URGTESTS n else s.incF F.CV_OWCNT_TESTS n) = u at h2
  split
  · exact h2
  split
  · exact h2.updOw _ _
  · exact h2.trans (State.owResult_stays _ n _ _)

theorem State.owPull_stays (inp : Nat) (code : Int) : State.QueueStays n s (s.owPull n inp code) := by
  unfold State.owPull
  split
  · exact (State.QueueStays.refl n s).updOw _ _
  · exact State.QueueStays.refl n s

theorem State.calAverage_stays (inp : Nat) (code : Int) (ovr : Bool) : State.QueueStays n s (s.calAverage n inp code ovr) := by
  unfold State.calAverage
  dsimp only
  split
  · exact State.QueueStays.refl n s
  · refine (State.QueueStays.refl n s).updConv _ ?_ ?_ <;>
    · split
      · split <;> rfl
      · rfl

theorem State.startWaiting_stays : State.QueueStays n s (s.startWaiting n) := by
  unfold State.startWaiting
  split
  · exact ((State.QueueStays.refl n s).updConv _ rfl rfl).startConv _
  · exact State.QueueStays.refl n s

theorem State.resume_stays : State.QueueStays n s (s.resume n) := by
  have h1 : State.QueueStays n s (s.updConv n (fun x => { x with aborted := none })) := (State.QueueStays.refl n s).updConv _ rfl rfl
  unfold State.resume
  dsimp only
  split
  · split
    · refine State.QueueStays.trans ?_ (State.startWaiting_stays _ n)
      split
      · exact h1.dropAttempt _
      · exact h1
    · exact h1.startConv _
  · exact s.startWaiting_stays n

/-- The reference voltage noted at a completion. -/
theorem State.foldl_setF_keeps {β : Type} (p : State → β) (f : Fld) (i : Nat → Nat) (v : Nat) (h : ∀ (s : State) k w, p (s.setF f k w) = p s) (l : List Nat) :
    p (l.foldl (fun s k => s.setF f (i k) v) s) = p s :=
  State.foldl_keeps p (fun s k => s.setF f (i k) v) (fun s k => h s _ _) l s

/-- A completed conversion: its number, its entry and its instant. -/
theorem State.complete_entered (hn : n < 32) (c : Conversion) (vdiff vref : Int) :
    (s.advanceTo (c.at_ + convClk)).Entered n c (convCode vdiff vref).1 (convCode vdiff vref).2 (s.complete n c vdiff vref) := by
  unfold State.complete
  dsimp only
  generalize hu : (List.range 8).foldl (fun s i => s.setF F.CV_REF_VMON (n / 8 * 8 + i) (vref / 1000000).toNat) (s.advanceTo (c.at_ + convClk)) = u
  have hconv : u.conv n = (s.advanceTo (c.at_ + convClk)).conv n := by
    rw [← hu]
    exact State.foldl_setF_keeps _ (State.conv · n) F.CV_REF_VMON (n / 8 * 8 + ·) _ (fun _ _ _ => rfl) _
  have hnow : u.now = (s.advanceTo (c.at_ + convClk)).now := by
    rw [← hu]
    exact State.foldl_setF_keeps _ State.now F.CV_REF_VMON (n / 8 * 8 + ·) _ (fun _ _ _ => rfl) _
  obtain ⟨hseq, hlast, hroom, hnow'⟩ := u.enterQueue_entered n c (convCode vdiff vref).1 (convCode vdiff vref).2
  generalize u.enterQueue n c (convCode vdiff vref).1 (convCode vdiff vref).2 = w at hseq hlast hroom hnow'
  have hjudged : State.QueueStays n w (if c.owt then w.owComplete n c (convCode vdiff vref).1 (convCode vdiff vref).2
      else if c.urg then w else (w.owPull n c.inp (convCode vdiff vref).1).calAverage n c.inp (convCode vdiff vref).1 (convCode vdiff vref).2) := by
    split
    · exact w.owComplete_stays n _ _ _
    split
    · exact State.QueueStays.refl n w
    · exact (w.owPull_stays n _ _).trans (State.calAverage_stays _ n _ _ _)
  generalize (if c.owt then w.owComplete n c (convCode vdiff vref).1 (convCode vdiff vref).2
      else if c.urg then w else (w.owPull n c.inp (convCode vdiff vref).1).calAverage n c.inp (convCode vdiff vref).1 (convCode vdiff vref).2) = x at hjudged
  have hshown := hjudged.updConv (fun x => { x with cur := none, urgBy := [] }) rfl rfl
  have hend := (hshown.trans (⟨by rw [State.showConv_conv], by rw [State.showConv_conv], State.showConv_now _ _,
    (State.showConv_regsIn _ n).orLog (by decide)⟩ : State.QueueStays n _ (State.showConv _ n))).trans (State.resume_stays _ n)
  rw [hconv] at hseq hlast hroom
  refine ⟨hend.seq.trans hseq, (hend.regs _ _ (by decide) (queue_key_ne_logFields hn _ (by decide))).trans hlast, fun h => ?_, hend.now.trans (hnow'.trans hnow)⟩
  obtain ⟨hfill, hentry⟩ := hroom h
  refine ⟨?_, (hend.regs _ _ (by decide) (queue_key_ne_logFields hn _ (by decide))).trans hentry⟩
  rw [← hfill]
  unfold ConvSt.fill
  rw [hend.queue]

/-- The head of the queue leaves alone where no report of a dropped entry follows it. -/
theorem State.transfer_of_kept {e : QEnt} {q : List QEnt} (hq : (s.conv n).queue = e :: q) (hd : ∀ d, q.head? = some d → d.dropped = false) :
    s.transfer n = ((s.updConv n (fun x => { x with queue := q })).consume n e).showQueue n := by
  have htake : q.takeWhile (fun d => d.dropped) = [] ∧ q.dropWhile (fun d => d.dropped) = q := by
    cases q with
    | nil => exact ⟨rfl, rfl⟩
    | cons d r =>
      have := hd d rfl
      exact ⟨List.takeWhile_cons_of_neg (by simp [this]), List.dropWhile_cons_of_neg (by simp [this])⟩
  unfold State.transfer
  rw [hq]
  dsimp only
  rw [htake.1, htake.2]
  rfl

/-! ## Urgent conversions (R47, R48) -/

/-- What a request leaves of the converter: its running conversion and its queue; the marks of the tests and the pending request may change. -/
theorem State.urgPull_conv (inp : Nat) (b : Requester) : ∃ ow p m, (s.urgPull n inp b).conv n =
    { s.conv n with ow := ow, pendUrg := p, pulledUrg := m } := by
  unfold State.urgPull
  split
  · obtain ⟨p, hp⟩ := s.dropAttempt_conv n inp
    rw [State.conv_updConv, hp]
    exact ⟨_, p, _, rfl⟩
  · exact ⟨_, _, _, rfl⟩

@[simp] theorem State.urgPull_regs (inp : Nat) (b : Requester) : (s.urgPull n inp b).regs = s.regs := by
  unfold State.urgPull
  split <;> rfl

@[simp] theorem State.urgPull_now (inp : Nat) (b : Requester) : (s.urgPull n inp b).now = s.now := by
  unfold State.urgPull
  split <;> rfl

/-- A request that is taken marks plies alone. -/
theorem State.urgTaken_plies (inp : Nat) (b : Requester) : ∃ plies, s.urgTaken n inp b = { s with plies := plies } := by
  unfold State.urgTaken
  split
  · exact ⟨_, rfl⟩
  · exact ⟨_, rfl⟩

/-- An urgent start: the conversion, its instant, and the count. -/
theorem State.startUrgent_spec (inp : Nat) (l : List Requester) : ∃ c, ((s.startUrgent n inp l).conv n).cur = some c ∧ c.inp = inp ∧
    c.urg = true ∧ c.at_ = s.now ∧ ((s.startUrgent n inp l).conv n).lastUrg = some s.now ∧
    ((s.startUrgent n inp l).conv n).pendUrg = none ∧ (s.startUrgent n inp l).now = s.now ∧
    (s.startUrgent n inp l).getF F.CV_URGCNT_URG n = satAdd F.CV_URGCNT_URG.width (s.getF F.CV_URGCNT_URG n) 1 := by
  have key : ∀ u : State, u.now = s.now → u.getF F.CV_URGCNT_URG n = s.getF F.CV_URGCNT_URG n →
      ∀ t : State, t = ((u.incF F.CV_URGCNT_URG n).updConv n (fun x => { x with
          lastUrg := some u.now, urgBy := l, pendUrg := none, pulledUrg := false })).startConv n
        { inp := inp, urg := true, owt := l.all (fun r => r == .openWire), pulled := (u.conv n).pulledUrg } →
      ∃ c, (t.conv n).cur = some c ∧ c.inp = inp ∧ c.urg = true ∧ c.at_ = s.now ∧ (t.conv n).lastUrg = some s.now ∧
        (t.conv n).pendUrg = none ∧ t.now = s.now ∧
        t.getF F.CV_URGCNT_URG n = satAdd F.CV_URGCNT_URG.width (s.getF F.CV_URGCNT_URG n) 1 := by
    intro u hn hc t ht
    rw [ht, State.startConv_conv, State.startConv_now, State.startConv_regsIn _ _ _ _ _ (by decide), State.conv_updConv, State.updConv_getF,
      State.getF_incF, hc]
    exact ⟨_, rfl, rfl, rfl, hn, congrArg some hn, rfl, hn, rfl⟩
  unfold State.startUrgent
  dsimp only
  split
  · refine key _ ?_ ?_ _ rfl
    · rfl
    · exact State.getF_setF_apart _ _ _ _ (by decide)
  · exact key s rfl rfl _ rfl

section
variable {s n} {inp : Nat} (hn : n < 32) (hs : (s.slotOfInput n inp).isSome = true) (hr : s.slotsRun n = true)
include hn hs hr

theorem State.urgent_of_reached (b : Requester) : s.urgent n inp b = match s.urgHeld n with
    | some (i, l) =>
      if i = inp then s.urgMerge n inp l b
      else match s.tookNow n with
        | some x => if requesterBefore b x.first then s.urgDisplace n inp i l x b else s.urgRefuseNow n inp false b
        | none => s.urgRefuse n inp false b
    | none => (if s.urgFree n then ((s.urgPull n inp b).updConv n (fun x => { x with took := some { at_ := s.now, first := b } })).startUrgent n inp [b]
        else (((s.urgPull n inp b).updConv n (fun x => { x with took := some { at_ := s.now, first := b } })).incF
          F.CV_URGREF_DEFERRED n).updConv n (fun x => { x with pendUrg := some (inp, [b]) })).urgTaken n inp b := by
  obtain ⟨k, hk⟩ := Option.isSome_iff_exists.1 hs
  unfold State.urgent
  rw [if_neg (by simp [hn]), if_neg (by simp [hk, hr])] <;> rfl


theorem State.slotsRun_lt (h : s.slotsRun n = true) : n < 32 := by
  simp only [State.slotsRun, State.convOn, Bool.and_eq_true, decide_eq_true_eq] at h
  exact h.1.1

/-- A request that nothing holds back starts at once. -/
theorem State.urgent_of_free {b : Requester} (hh : s.urgHeld n = none) (hf : s.urgFree n = true) :
    ∃ c, ((s.urgent n inp b).conv n).cur = some c ∧ c.inp = inp ∧ c.urg = true ∧ c.at_ = s.now ∧
      ((s.urgent n inp b).conv n).lastUrg = some s.now ∧
      (s.urgent n inp b).getF F.CV_URGCNT_URG n = satAdd F.CV_URGCNT_URG.width (s.getF F.CV_URGCNT_URG n) 1 := by
  rw [State.urgent_of_reached hn hs hr, hh]
  dsimp only
  rw [if_pos hf]
  generalize hu : (s.urgPull n inp b).updConv n (fun x => { x with took := some { at_ := s.now, first := b } }) = u
  have hnow : u.now = s.now := by rw [← hu]; exact State.urgPull_now s n inp b
  have hregs : State.RegsIn [] s u := (State.RegsIn.refl [] s).of_regs (by rw [← hu]; exact State.urgPull_regs s n inp b)
  obtain ⟨c, h1, h2, h3, h4, h5, _, _, h8⟩ := u.startUrgent_spec n inp [b]
  obtain ⟨plies, hp⟩ := (u.startUrgent n inp [b]).urgTaken_plies n inp b
  rw [hp]
  exact ⟨c, h1, h2, h3, h4.trans hnow, h5.trans (congrArg some hnow), h8.trans (by rw [hregs _ _ rfl])⟩

/-- One that comes within 4 µs of the last urgent start is deferred. -/
theorem State.urgent_of_deferred {b : Requester} (hh : s.urgHeld n = none) (hf : s.urgFree n = false) :
    ((s.urgent n inp b).conv n).pendUrg = some (inp, [b]) ∧ ((s.urgent n inp b).conv n).cur = (s.conv n).cur ∧
      (s.urgent n inp b).getF F.CV_URGREF_DEFERRED n = satAdd F.CV_URGREF_DEFERRED.width (s.getF F.CV_URGREF_DEFERRED n) 1 := by
  rw [State.urgent_of_reached hn hs hr, hh]
  dsimp only
  rw [if_neg (by rw [hf]; decide)]
  obtain ⟨ow, p, m, hconv⟩ := s.urgPull_conv n inp b
  have hregs : State.RegsIn [] s (s.urgPull n inp b) := (State.RegsIn.refl [] s).of_regs (State.urgPull_regs s n inp b)
  generalize s.urgPull n inp b = u at hconv hregs
  generalize hw : ((u.updConv n (fun x => { x with took := some { at_ := s.now, first := b } })).incF F.CV_URGREF_DEFERRED n).updConv n
    (fun x => { x with pendUrg := some (inp, [b]) }) = w
  obtain ⟨plies, hp⟩ := w.urgTaken_plies n inp b
  have hwc : w.conv n = { s.conv n with
      ow := ow, pulledUrg := m, took := some { at_ := s.now, first := b }, pendUrg := some (inp, [b]) } := by
    rw [← hw, State.conv_updConv, State.incF, State.setF_conv, State.conv_updConv, hconv]
  have hwr : w.getF F.CV_URGREF_DEFERRED n = satAdd F.CV_URGREF_DEFERRED.width (s.getF F.CV_URGREF_DEFERRED n) 1 := by
    rw [← hw, State.updConv_getF, State.getF_incF, State.updConv_getF, hregs _ _ rfl]
  rw [hp]
  refine ⟨?_, ?_, hwr⟩
  · exact (congrArg ConvSt.pendUrg hwc : _)
  · exact (congrArg ConvSt.cur hwc : _)

/-- One for the input of the pending request joins it. -/
theorem State.urgent_of_pending {l : List Requester} {b : Requester} (hp : (s.conv n).pendUrg = some (inp, l)) :
    ∃ l', ((s.urgent n inp b).conv n).pendUrg = some (inp, l') ∧ b ∈ l' ∧ ((s.urgent n inp b).conv n).cur = (s.conv n).cur ∧
      (s.urgent n inp b).getF F.CV_URGREF_MERGED n = satAdd F.CV_URGREF_MERGED.width (s.getF F.CV_URGREF_MERGED n) 1 := by
  have hh : s.urgHeld n = some (inp, l) := by unfold State.urgHeld; rw [hp]
  have hpend : (s.conv n).pendUrg.isSome = true := by rw [hp]; rfl
  rw [State.urgent_of_reached hn hs hr, hh]
  dsimp only
  rw [if_pos rfl]
  unfold State.urgMerge State.setUrgHeld
  rw [hpend]
  obtain ⟨ow, p, m, hconv⟩ := (s.incF F.CV_URGREF_MERGED n).urgPull_conv n inp b
  have hregs : State.RegsIn [] (s.incF F.CV_URGREF_MERGED n) ((s.incF F.CV_URGREF_MERGED n).urgPull n inp b) :=
    (State.RegsIn.refl [] _).of_regs (State.urgPull_regs _ n inp b)
  generalize (s.incF F.CV_URGREF_MERGED n).urgPull n inp b = u at hconv hregs
  rw [if_pos rfl]
  generalize hl : (if (s.ow n inp).pull.isSome && b != .openWire then l.filter (fun r => r != .openWire) else l) ++ [b] = l'
  generalize hw : (u.updConv n (fun x => { x with pendUrg := some (inp, l') })).updConv n (fun x => { x with took := x.took.map (fun y => y.lead b) }) = w
  obtain ⟨plies, hpl⟩ := w.urgTaken_plies n inp b
  have hwc : w.conv n = { s.conv n with
      ow := ow, pulledUrg := m, took := (s.conv n).took.map (fun y => y.lead b), pendUrg := some (inp, l') } := by
    rw [← hw, State.conv_updConv, State.conv_updConv, hconv]
    rfl
  have hwr : w.getF F.CV_URGREF_MERGED n = satAdd F.CV_URGREF_MERGED.width (s.getF F.CV_URGREF_MERGED n) 1 := by
    rw [← hw, State.updConv_getF, State.updConv_getF, hregs _ _ rfl, State.getF_incF]
  rw [hpl]
  exact ⟨l', (congrArg ConvSt.pendUrg hwc : _), by rw [← hl]; simp, (congrArg ConvSt.cur hwc : _), hwr⟩

/-- One for another input is refused: the pending request stands. -/
theorem State.urgent_of_other {i : Nat} {l : List Requester} {b : Requester} (hp : (s.conv n).pendUrg = some (i, l)) (hi : i ≠ inp)
    (ht : s.tookNow n = none) :
    (s.urgent n inp b).flag F.CV_STAT_URGREF n = true ∧ (s.urgent n inp b).conv n = s.conv n ∧
      (s.urgent n inp b).getF F.CV_URGREF_REFUSED n = satAdd F.CV_URGREF_REFUSED.width (s.getF F.CV_URGREF_REFUSED n) 1 := by
  have hh : s.urgHeld n = some (i, l) := by unfold State.urgHeld; rw [hp]
  have hrefuse : s.urgent n inp b = s.urgRefuse n inp false b := by
    rw [State.urgent_of_reached hn hs hr, hh, ht]
    exact if_neg hi
  have hpub : ((s.setF F.CV_STAT_URGREF n 1).incF F.CV_URGREF_REFUSED n).PubOnly (s.urgRefuse n inp false b) := by
    unfold State.urgRefuse
    dsimp only
    split
    · exact State.squashAll_pubOnly _ _ _
    · exact State.PubOnly.refl _
  rw [hrefuse, hpub.regs.flag (by decide), hpub.regs _ _ (by decide), State.getF_incF, State.incF, State.flag_setF_apart _ _ _ _ (by decide),
    State.flag_setF_one _ _ _ _ (by decide), State.getF_setF_apart _ _ _ _ (by decide)]
  refine ⟨rfl, ?_, rfl⟩
  obtain ⟨_, _, _, _, _, hrest⟩ := hpub.rest
  rw [hrest]
  rfl
end

/-- Settles O9, command by command. -/
theorem conversionsRunInOrder : Obligations.ConversionsRunInOrder := by
  refine ⟨⟨fun s n a k hr ha hk hen hc => ?_, fun s n c vdiff vref hn hc => ?_, fun s n e q hq hd => congrArg Host.Outcome.next (s.transfer_of_kept n hq hd)⟩,
    fun s n inp b hn hs hr hh hf => ?_, fun s n inp b hn hs hr hh hf => ⟨_, rfl, State.urgent_of_deferred hn hs hr hh hf⟩,
    fun s n inp l b hn hs hr hp => ?_, fun s n inp i l b hn hs hr hp hi ht => ?_, fun s n inp t0 l hp hl => ?_⟩
  · rw [ha] at hk ⊢
    obtain ⟨c, h⟩ := s.slot_spec n hk hen hc
    exact ⟨_, c, congrArg Host.Outcome.next (if_pos hr), h⟩
  · obtain ⟨hseq, hlast, hroom, hnow⟩ := s.complete_entered n hn c vdiff vref
    refine ⟨s.complete n c vdiff vref, ?_, hseq, hlast, hnow, hroom⟩
    change execConversionComplete n vdiff vref s = _
    unfold execConversionComplete
    rw [hc]
  · obtain ⟨c, h⟩ := State.urgent_of_free (b := b) hn hs hr hh hf
    exact ⟨_, c, rfl, h⟩
  · obtain ⟨l', h⟩ := State.urgent_of_pending (b := b) hn hs hr hp
    exact ⟨_, l', rfl, h⟩
  · obtain ⟨hflag, hconv, hcount⟩ := State.urgent_of_other (b := b) hn hs hr hp hi ht
    exact ⟨_, rfl, hflag, hcount, by rw [hconv, hp], by rw [hconv]⟩
  · obtain ⟨c, h1, h2, h3, _, h5, h6, h7, _⟩ := (s.advanceTo (t0 + 4 * usClk)).startUrgent_spec n inp l
    refine ⟨(s.advanceTo (t0 + 4 * usClk)).startUrgent n inp l, c, ?_, h7, h6, h1, h2, h3, by rw [h5, h7]⟩
    change execDeferredUrgentStart n s = _
    unfold execDeferredUrgentStart
    rw [hp, hl]

/-! ## Open-wire tests (R54 to R57) -/

/-- A withdrawn request asks for no test of the input. -/
theorem ConvSt.unaskTest_testing (x : ConvSt) (inp : Nat) (h : x.started inp = false) : (x.unaskTest inp).testing inp = false := by
  have hset : ∀ p : Option (Nat × List Requester), ({ x with pendUrg := p } : ConvSt).testing inp =
      (match p with | some (i, l) => i == inp && l.contains .openWire | none => false) := by
    intro p
    have hs : ({ x with pendUrg := p } : ConvSt).started inp = false := h
    unfold ConvSt.testing
    rw [hs, Bool.false_or] <;> cases p <;> rfl
  unfold ConvSt.unaskTest
  cases hp : x.pendUrg with
  | none =>
    dsimp only
    unfold ConvSt.testing
    rw [h, hp] <;> rfl
  | some q =>
    obtain ⟨i, l⟩ := q
    dsimp only
    by_cases hi : i = inp
    · rw [if_pos hi, hset]
      by_cases he : (l.filter (fun r => r != .openWire)).isEmpty = true
      · rw [if_pos he]
      · rw [if_neg he]
        simp
    · rw [if_neg hi]
      unfold ConvSt.testing
      rw [h, hp]
      simp [hi]

theorem State.ow_of_pull {s : State} {n inp : Nat} {p : Nat × Int} (h : (s.ow n inp).pull = some p) : inp < (s.conv n).ow.length := by
  by_contra hlen
  have hd : s.ow n inp = {} := List.getD_eq_default _ _ (by omega)
  rw [hd] at h
  exact absurd h (by simp)

/-- An attempt that ends without a start: the currents go off and the attempt is counted. -/
theorem State.attemptEnded_spec {s : State} {n inp : Nat} {p : Nat × Int} (hp : (s.ow n inp).pull = some p) (hs : (s.conv n).started inp = false)
    (t : State) (ht : t = (s.dropAttempt n inp).updOw n inp (fun o => { o with attempts := o.attempts + 1 })) :
    (t.ow n inp).pull = none ∧ (t.ow n inp).due = true ∧ (t.ow n inp).attempts = (s.ow n inp).attempts + 1 ∧
      (t.conv n).cur = (s.conv n).cur ∧ (t.conv n).testing inp = false := by
  have hlen := State.ow_of_pull hp
  obtain ⟨q, hq⟩ := s.dropAttempt_conv n inp
  have hconv : t.conv n = { (s.dropAttempt n inp).conv n with
      ow := modAt ((s.dropAttempt n inp).conv n).ow inp (fun o => { o with attempts := o.attempts + 1 }) } := by
    rw [ht, State.updOw, State.conv_updConv]
  have how : t.ow n inp = { s.ow n inp with pull := none, due := (s.ow n inp).due || (s.ow n inp).pull.isSome, attempts := (s.ow n inp).attempts + 1 } := by
    unfold State.ow
    rw [hconv, hq]
    exact (getD_modAt_same (fun o : OwSt => { o with attempts := o.attempts + 1 }) {} (by rw [length_modAt]; exact hlen)).trans
      (congrArg (fun o : OwSt => { o with attempts := o.attempts + 1 })
        (getD_modAt_same (fun o : OwSt => { o with pull := none, due := o.due || o.pull.isSome }) {} hlen))
  refine ⟨by rw [how], by rw [how, hp]; simp, by rw [how], by rw [hconv, hq], ?_⟩
  have hun : ((s.dropAttempt n inp).conv n).testing inp = false := by
    rw [State.dropAttempt, State.conv_updConv]
    exact ConvSt.unaskTest_testing _ _ (by rw [State.updOw, State.conv_updConv]; exact hs)
  rw [hconv]
  exact hun

/-! ## References (R12, R51, R52) -/

/-- What an operation on a converter sets of its own and leaves of the others, it sets of the whole group. -/
theorem State.forGroup_sets {α : Type} (p : State → Nat → α) (f : State → Nat → State) (v : Nat → α) (hset : ∀ s n, p (f s n) n = v n)
    (hkeep : ∀ s n m, m ≠ n → p (f s n) m = p s m) (s : State) (g i : Nat) (hi : i < 8) : p (s.forGroup g f) (8 * g + i) = v (8 * g + i) := by
  have key : ∀ (l : List Nat) (s : State), i ∈ l ∨ p s (8 * g + i) = v (8 * g + i) →
      p (l.foldl (fun s j => f s (8 * g + j)) s) (8 * g + i) = v (8 * g + i) := by
    intro l
    induction l with
    | nil => intro s h; exact h.resolve_left (List.not_mem_nil)
    | cons j l ih =>
      intro s h
      rw [List.foldl_cons]
      refine ih _ ?_
      by_cases hj : i = j
      · exact Or.inr (by rw [hj]; exact hset _ _)
      · rcases h with h | h
        · exact Or.inl ((List.mem_cons.1 h).resolve_left hj)
        · exact Or.inr ((hkeep _ _ _ (by omega)).trans h)
  exact key _ s (Or.inl (List.mem_range.2 hi))

/-- What it leaves alone, the group leaves alone. -/
theorem State.forGroup_keeps {α : Type} (p : State → α) (f : State → Nat → State) (h : ∀ s n, p (f s n) = p s) (s : State) (g : Nat) :
    p (s.forGroup g f) = p s := State.foldl_keeps p (fun s i => f s (8 * g + i)) (fun s i => h s _) _ s

/-- A converter's flag is not another's. -/
theorem Fld.key_ne_of_number {f : Fld} {n m : Nat} (hs : 0 < f.stride) (h : m ≠ n) : f.key m 0 ≠ f.key n 0 := by
  rw [Fld.key_eq_add f m, Fld.key_eq_add f n]
  intro he
  have h1 : 32 * f.stride * m = 32 * f.stride * n := Nat.add_left_cancel he
  exact h (Nat.eq_of_mul_eq_mul_left (by positivity) h1)

theorem State.flag_setF_number (s : State) {f : Fld} {n m v : Nat} (hs : 0 < f.stride) (h : m ≠ n) :
    (s.setF f n v).flag f m = s.flag f m :=
  congrArg (· == 1) (State.getF_setF_other _ _ _ _ _ _ _ _ (Fld.key_ne_of_number hs h))

theorem State.calEnd_regsIn (s : State) (n r : Nat) :
    State.RegsIn [F.CV_CALSTAT_RESULT, F.CV_CALSTAT_STATE, F.CV_STAT_CALDONE] s (s.calEnd n r) := by
  unfold State.calEnd
  exact ((((State.RegsIn.refl _ s).setF (by decide) _ _).setF (by decide) _ _).setF (by decide) _ _).updConv _ _

/-- One converter of a group that loses its reference. -/
def State.refLoseOne (s : State) (n : Nat) : State :=
  let s := s.setF F.CV_STAT_REFRDY n 0
  let st := s.getF F.CV_CALSTAT_STATE n
  let averaging := match (s.conv n).cal with | some c => c.newCoef.isNone | none => false
  if st == 1 || (st == 3 && averaging) then s.calEnd n 3 else s

theorem State.refLose_eq (s : State) (g : Nat) : s.refLose g = s.forGroup g State.refLoseOne := rfl

theorem State.refLoseOne_spec (s : State) (n : Nat) : (s.refLoseOne n).flag F.CV_STAT_REFRDY n = false ∧
    (∀ m, m ≠ n → (s.refLoseOne n).flag F.CV_STAT_REFRDY m = s.flag F.CV_STAT_REFRDY m) ∧
    (s.refLoseOne n).cfg = s.cfg ∧ (s.refLoseOne n).refs = s.refs := by
  have h1 : (s.setF F.CV_STAT_REFRDY n 0).flag F.CV_STAT_REFRDY n = false := State.flag_setF_zero _ _ _ _
  have h2 : ∀ m, m ≠ n → (s.setF F.CV_STAT_REFRDY n 0).flag F.CV_STAT_REFRDY m = s.flag F.CV_STAT_REFRDY m :=
    fun m hm => s.flag_setF_number (by decide) hm
  have hend := (s.setF F.CV_STAT_REFRDY n 0).calEnd_regsIn n 3
  have key : ∀ (c : Bool) (u : State), u = (if c then (s.setF F.CV_STAT_REFRDY n 0).calEnd n 3 else s.setF F.CV_STAT_REFRDY n 0) →
      u.flag F.CV_STAT_REFRDY n = false ∧ (∀ m, m ≠ n → u.flag F.CV_STAT_REFRDY m = s.flag F.CV_STAT_REFRDY m) ∧ u.cfg = s.cfg ∧
        u.refs = s.refs := by
    intro c u hu
    rw [hu]
    split
    · exact ⟨(hend.flag (by decide)).trans h1, fun m hm => (hend.flag (by decide)).trans (h2 m hm), rfl, rfl⟩
    · exact ⟨h1, h2, rfl, rfl⟩
  exact key _ _ rfl

/-- The measured voltage of a group leaves all but its registers and the free values. -/
theorem State.measureRef_spec (s : State) (g : Nat) : State.RegsIn [F.CV_REF_VMON] s (s.measureRef g) ∧ (s.measureRef g).cfg = s.cfg ∧
    (s.measureRef g).refs = s.refs := by
  unfold State.measureRef
  refine ⟨?_, ?_, ?_⟩
  · refine List.foldlRecOn (motive := fun t => State.RegsIn [F.CV_REF_VMON] s t) _ _ ?_ (fun t ht i _ => ht.setF (by decide) _ _)
    exact (State.RegsIn.refl _ s).of_regs rfl
  · exact State.forGroup_keeps State.cfg (fun (s : State) m => s.setF F.CV_REF_VMON m (s.fresh 16).1) (fun _ _ => rfl) _ g
  · exact State.forGroup_keeps State.refs (fun (s : State) m => s.setF F.CV_REF_VMON m (s.fresh 16).1) (fun _ _ => rfl) _ g

theorem State.groupSource_of_cfg {s t : State} (h : t.cfg = s.cfg) (g : Nat) : t.groupSource g = s.groupSource g := by
  unfold State.groupSource State.img
  rw [h]

theorem State.ref_of_refs {s t : State} (h : t.refs = s.refs) (g : Nat) : t.ref g = s.ref g := by
  unfold State.ref
  rw [h]

/-- The group's own source leaves its range. -/
theorem State.refOut_own {s : State} {g : Nat} (hp : (s.ref g).powered = true) :
    (s.refOut g (s.groupSource g)).refInRange g = false ∧ ∀ i, i < 8 →
      (s.refOut g (s.groupSource g)).flag F.CV_STAT_REFRDY (8 * g + i) = false ∧
        (s.refOut g (s.groupSource g)).flag F.CV_STAT_REFLOSS (8 * g + i) = true := by
  have hmine : ((s.ref g).powered && decide (s.groupSource g = s.groupSource g)) = true := by rw [hp]; simp
  have hopen : s.refOut g (s.groupSource g) = (((s.updRef g (fun r => { r with out := s.groupSource g :: r.out })).measureRef g).forGroup g
      State.refLoseOne).forGroup g (fun s n => s.setF F.CV_STAT_REFLOSS n 1) := if_pos hmine
  obtain ⟨_, hmcfg, hmrefs⟩ := (s.updRef g (fun r => { r with out := s.groupSource g :: r.out })).measureRef_spec g
  rw [hopen]
  generalize (s.updRef g (fun r => { r with out := s.groupSource g :: r.out })).measureRef g = u at hmcfg hmrefs
  have hcfg : ((u.forGroup g State.refLoseOne).forGroup g (fun s n => s.setF F.CV_STAT_REFLOSS n 1)).cfg = s.cfg :=
    (State.forGroup_keeps State.cfg (fun (s : State) n => s.setF F.CV_STAT_REFLOSS n 1) (fun _ _ => rfl) _ g).trans
      ((State.forGroup_keeps State.cfg State.refLoseOne (fun v n => (v.refLoseOne_spec n).2.2.1) u g).trans hmcfg)
  have hrefs : ((u.forGroup g State.refLoseOne).forGroup g (fun s n => s.setF F.CV_STAT_REFLOSS n 1)).refs =
      (s.updRef g (fun r => { r with out := s.groupSource g :: r.out })).refs :=
    (State.forGroup_keeps State.refs (fun (s : State) n => s.setF F.CV_STAT_REFLOSS n 1) (fun _ _ => rfl) _ g).trans
      ((State.forGroup_keeps State.refs State.refLoseOne (fun v n => (v.refLoseOne_spec n).2.2.2) u g).trans hmrefs)
  refine ⟨?_, fun i hi => ⟨?_, ?_⟩⟩
  · rw [State.refInRange, State.groupSource_of_cfg hcfg, State.ref_of_refs hrefs, State.ref_updRef]
    simp
  · have hkeep := State.forGroup_keeps (State.flag · F.CV_STAT_REFRDY (8 * g + i)) (fun (s : State) n => s.setF F.CV_STAT_REFLOSS n 1)
      (fun v n => State.flag_setF_apart _ _ _ _ (by decide)) (u.forGroup g State.refLoseOne) g
    exact hkeep.trans (State.forGroup_sets (fun s n => s.flag F.CV_STAT_REFRDY n) State.refLoseOne (fun _ => false)
      (fun v n => (v.refLoseOne_spec n).1) (fun v n m hm => (v.refLoseOne_spec n).2.1 m hm) u g i hi)
  · exact State.forGroup_sets (fun s n => s.flag F.CV_STAT_REFLOSS n) (fun s n => s.setF F.CV_STAT_REFLOSS n 1) (fun _ => true)
      (fun v n => State.flag_setF_one _ _ _ _ (by decide)) (fun v n m hm => v.flag_setF_number (by decide) hm) _ g i hi

/-- The group's own source returns and settles. -/
theorem State.refBack_own {s : State} {g : Nat} (hp : (s.ref g).powered = true) :
    (s.refBack g (s.groupSource g)).refInRange g = true ∧ ((s.refBack g (s.groupSource g)).ref g).settleAt = s.now ∧
      ∀ i, (s.refBack g (s.groupSource g)).flag F.CV_STAT_REFRDY i = s.flag F.CV_STAT_REFRDY i := by
  have hmine : ((s.ref g).powered && decide (s.groupSource g = s.groupSource g)) = true := by rw [hp]; simp
  have hopen : s.refBack g (s.groupSource g) = ((s.updRef g (fun r => { r with out := r.out.filter (fun x => x != s.groupSource g) })).settleRef
      g).measureRef g := if_pos hmine
  obtain ⟨hregs, hcfg, hrefs⟩ := ((s.updRef g (fun r => { r with out := r.out.filter (fun x => x != s.groupSource g) })).settleRef g).measureRef_spec g
  rw [hopen]
  generalize ((s.updRef g (fun r => { r with out := r.out.filter (fun x => x != s.groupSource g) })).settleRef g).measureRef g = u at hregs hcfg hrefs
  rw [State.refInRange, State.groupSource_of_cfg (hcfg.trans (rfl : _ = s.cfg)), State.ref_of_refs hrefs, State.settleRef, State.ref_updRef, State.ref_updRef]
  refine ⟨by simp, rfl, fun i => ?_⟩
  exact (hregs.flag (by decide)).trans rfl

/-- The settling time has passed in range. -/
theorem State.refrdy_spec (u : State) (g i v : Nat) (hi : i < 8) (t : State)
    (ht : t = u.forGroup g (fun s n => (s.setF F.CV_STAT_REFRDY n 1).setF F.CV_STAT_RATIO n v)) :
    t.now = u.now ∧ t.flag F.CV_STAT_REFRDY (8 * g + i) = true ∧ t.getF F.CV_STAT_RATIO (8 * g + i) = v % 2 := by
  rw [ht]
  refine ⟨State.forGroup_keeps State.now (fun (s : State) n => (s.setF F.CV_STAT_REFRDY n 1).setF F.CV_STAT_RATIO n v) (fun _ _ => rfl) u g, ?_, ?_⟩
  · refine State.forGroup_sets (fun s n => s.flag F.CV_STAT_REFRDY n) _ (fun _ => true) (fun w n => ?_) (fun w n m hm => ?_) u g i hi
    · rw [State.flag_setF_apart _ _ _ _ (by decide), State.flag_setF_one _ _ _ _ (by decide)]
    · rw [State.flag_setF_apart _ _ _ _ (by decide), State.flag_setF_number _ (by decide) hm]
  · refine State.forGroup_sets (fun s n => s.getF F.CV_STAT_RATIO n) _ (fun _ => v % 2) (fun w n => ?_) (fun w n m hm => ?_) u g i hi
    · exact State.getF_setF_same _ _ _ _ _
    · rw [State.getF_setF_other _ _ _ _ _ _ _ _ (Fld.key_ne_of_number (by decide) hm), State.getF_setF_apart _ _ _ _ (by decide)]

/-- The source of a group is the same for each of its converters. -/
theorem State.refrdySet_eq {s : State} {g : Nat} (h : ((s.ref g).powered && s.refInRange g) = true) :
    exec (.refrdySet g) s = .next ((s.advanceTo ((s.ref g).settleAt + (s.groupSource g).settle)).forGroup g (fun u n =>
      (u.setF F.CV_STAT_REFRDY n 1).setF F.CV_STAT_RATIO n (b2n (decide (s.groupSource g = .supply))))) := by
  change execRefrdySet g s = _
  unfold execRefrdySet
  rw [if_pos h]
  refine congrArg Host.Outcome.next (State.foldl_congr_of (P := fun t => t.cfg = s.cfg)
    (g := fun (u : State) i => (u.setF F.CV_STAT_REFRDY (8 * g + i) 1).setF F.CV_STAT_RATIO (8 * g + i) (b2n (decide (s.groupSource g = .supply))))
    (fun t x ht => ht) (fun t x ht => ?_) _ _ rfl)
  have hsrc' : t.groupSource g = s.groupSource g := State.groupSource_of_cfg ht g
  dsimp only
  rw [hsrc']

/-- Settles O10, command by command. -/
theorem openWireTestsAndReferencesRun : Obligations.OpenWireTestsAndReferencesRun := by
  refine ⟨⟨fun s n inp hr hi ho hd hp hc => congrArg Host.Outcome.next (if_pos ?_), fun s n inp t0 r hp ht ha hc hroom => ?_, fun s n inp t0 r hp ht ha => ?_,
    fun s n inp a p hp ha hs => ?_⟩, fun s g _ hp hr => ?_, fun s g _ hp hr => ?_, fun s g x hx ho => ?_, fun s g _ hp hr => ?_⟩
  · simp [hr, hi, ho, hd, hp, hc]
  · change execOpenWireTestStart n inp s = _
    unfold execOpenWireTestStart
    rw [hp]
    dsimp only
    rw [if_neg (by rw [ht]; decide)]
    have ha' : ¬8 ≤ ((s.advanceTo (t0 + 1800)).ow n inp).attempts := Nat.not_le.2 ha
    have hc' : (((s.advanceTo (t0 + 1800)).conv n).cur.isNone && (s.advanceTo (t0 + 1800)).roomForTest n) = true := by
      rw [hroom, State.advanceTo_conv, hc]
      rfl
    exact congrArg Host.Outcome.next ((if_neg ha').trans (if_pos hc'))
  · change execOpenWireTestStart n inp s = _
    unfold execOpenWireTestStart
    rw [hp]
    dsimp only
    rw [if_neg (by rw [ht]; decide)]
    exact congrArg Host.Outcome.next (if_pos ha)
  · obtain ⟨h1, h2, h3, h4, h5⟩ := State.attemptEnded_spec (s := s.advanceTo ((s.sec (s.convSec n)).clockOf (a : Rat) - 480)) hp hs _ rfl
    refine ⟨_, ?_, rfl, h1, h2, h3, h4, h5⟩
    change execOpenWireAttemptTimeout n inp s = _
    unfold execOpenWireAttemptTimeout
    rw [hp, ha]
    exact congrArg Host.Outcome.next (if_neg (by rw [hs]; decide))
  · have hin : (s.ref g).out.contains (s.groupSource g) = false := by simpa [State.refInRange] using hr
    obtain ⟨hrange, hflags⟩ := State.refOut_own (s := s) hp
    exact ⟨_, congrArg Host.Outcome.next (if_neg (by rw [hin]; decide)), hrange, hflags⟩
  · have hout : (s.ref g).out.contains (s.groupSource g) = true := by simpa [State.refInRange] using hr
    obtain ⟨hrange, hat, hflags⟩ := State.refBack_own (s := s) hp
    exact ⟨_, congrArg Host.Outcome.next (if_pos hout), hrange, hat, fun i _ => hflags _⟩
  · have hmine : ((s.ref g).powered && decide (s.groupSource g = x)) = false := by simp [hx]
    have hleft : s.refOut g x = s.updRef g (fun r => { r with out := x :: r.out }) := if_neg (by rw [hmine]; decide)
    have hexec : exec (.referenceOutOfRange { grp := g, src := x }) s = .next (s.refOut g x) :=
      congrArg Host.Outcome.next (if_neg (by rw [ho]; decide))
    refine ⟨_, hexec.trans (congrArg Host.Outcome.next hleft), ?_, rfl⟩
    rw [State.ref_updRef]
  · have hgo : ((s.ref g).powered && s.refInRange g) = true := by rw [hp, hr]; rfl
    have hspec := fun i hi => State.refrdy_spec (s.advanceTo ((s.ref g).settleAt + (s.groupSource g).settle)) g i
      (b2n (decide (s.groupSource g = .supply))) hi _ rfl
    refine ⟨_, State.refrdySet_eq hgo, (hspec 0 (by decide)).1, fun i hi => ?_⟩
    obtain ⟨_, hready, hratio⟩ := hspec i hi
    refine ⟨hready, ?_⟩
    rw [State.flag, hratio]
    cases decide (s.groupSource g = .supply) <;> rfl

end Sys2Proof.Machine
end

section
/-! Calibration sessions (R59 to R61, R336). -/

namespace Sys2Proof.Machine

/-- An event that nothing holds back joins the queue (R344). -/
theorem State.enqueue_of_room {s : State} (r : EvRec) (hp : s.log.present = true) (hfull : s.flag F.EL_STAT_FULL = false)
    (hhold : s.flag F.EL_STAT_HOLD = false) (hq : s.log.queue.length < 1024) :
    s.enqueue r = (s.brim F.DEV_BRIM1_EVENT (s.log.queue.length + 1)).updLog (fun l => { l with queue := l.queue ++ [r] }) := by
  unfold State.enqueue
  rw [if_neg (by simp [hp]), if_neg (by simp [hfull]), if_neg (by simp [hhold]), if_neg (by omega)]

/-- An event of another subject closes its code's open run: REPEAT goes into the slot that the run names (R348). -/
theorem State.event_closes_run {s : State} {code subj w slot : Nat} {x : FloodSt} (sub2 : Nat) (e : EvEpoch) (d : List Nat)
    (hp : s.log.present = true) (hfull : s.flag F.EL_STAT_FULL = false) (hhold : s.flag F.EL_STAT_HOLD = false)
    (hready : s.flag F.EL_STAT_READY = false) (hm : s.floodMode code = .rep w) (hx : Tab.find s.log.flood code = some x)
    (hopen : x.open_ = true) (hused : x.used = true) (hsubj : x.subj ≠ subj) (hslot : x.slot = some slot)
    (hcount : x.count = 0xFFFFFF) (hq : s.log.queue.length < 1024) :
    (s.event code subj sub2 e d).evNvm = Mem.programN s.evNvm (64 * slot + 60) (leBytes 3 0) := by
  have hget : Tab.get s.log.flood {} code = x := by simp [Tab.get, hx]
  have hclose : (s.closeRun code).evNvm = Mem.programN s.evNvm (64 * slot + 60) (leBytes 3 0) := by
    simp [State.closeRun, hx, hslot, hcount, State.evProgram]
  have hflag : ∀ f : Fld, (s.closeRun code).flag f = s.flag f := by
    intro f
    simp [State.closeRun, hx, hslot, hcount, State.evProgram, State.flag, State.getF, State.updLog]
  have henq : ∀ (g : LogSt → LogSt) (r : EvRec), (g (s.closeRun code).log).present = true →
      (g (s.closeRun code).log).queue = s.log.queue →
      ((((s.closeRun code).updLog g).enqueue r).startWrite).evNvm = (s.closeRun code).evNvm := by
    intro g r hgp hgq
    have hf : ∀ f : Fld, ((s.closeRun code).updLog g).flag f = s.flag f := hflag
    have henq := State.enqueue_of_room (s := (s.closeRun code).updLog g) r hgp ((hf _).trans hfull) ((hf _).trans hhold)
      (lt_of_eq_of_lt (congrArg List.length hgq) hq)
    have hr : (((s.closeRun code).updLog g).enqueue r).flag F.EL_STAT_READY = false := by
      rw [henq]
      exact (State.flag_setF_apart _ _ _ _ (by decide)).trans ((hf _).trans hready)
    rw [State.startWrite, if_pos (by simp [State.mayWrite, hr]), henq]
    rfl
  rw [← hclose]
  unfold State.event State.post
  have hrec : ∀ r : EvRec, r.subj = subj → x.repeat r s.now w = (true, { x with
      used := true, open_ := true, subj := r.subj, sub2 := r.sub2, lastAt := s.now, count := 0, slot := none }) := by
    intro r hr
    exact if_neg (by simp [hr, hsubj])
  simp only [hget, hm, hp, hfull, hhold]
  rw [hrec _ rfl]
  simp only [hopen, hused, Bool.true_and, Bool.and_true, if_true, Bool.not_true, Bool.or_false, Bool.false_eq_true, if_false,
    decide_eq_true_eq, if_neg (Nat.not_le.2 hq)]
  refine henq _ _ ?_ ?_
  · simp [State.closeRun, hx, hslot, hcount, State.evProgram, State.updLog, hp]
  · simp [State.closeRun, hx, hslot, hcount, State.evProgram, State.updLog]

/-- A session of input 1 of converter 0 whose new coefficients wait for their storage, while an open run of event 0x0202 names as
its record's slot the 64 bytes of sector 1 in which the entry will stand. -/
def storesUnderRun : State :=
  { cfg := some { flood := [(0x0202, .rep 1000)] }
    convs := [(0, { cal := some { inp := 1, newCoef := some (0, 0x40000000) } })]
    log := { present := true, flood := [(0x0202, { used := true, open_ := true, subj := 5, count := 0xFFFFFF, slot := some 64 })] } }

def storesUnderRun.entry : List Nat :=
  calEntry 1 0 0x40000000 (storesUnderRun.opTime % 2 ^ 48) (storesUnderRun.getF F.EL_PWRCNT_PCC)

/-- The state in which the storage logs its event. -/
def storesUnderRun.stored : State :=
  (((storesUnderRun.calStore 1 entry).calEnd 0 1).setBitF F.CV_CALSTAT_UNCAL 0 1 false).updConv 0
    (fun x => { x with newCoef := some (1, 0, 0x40000000) })

theorem storesUnderRun.stored_eq : storesUnderRun.calStored 0 { inp := 1, newCoef := some (0, 0x40000000) } 0 0x40000000 true =
    stored.event 0x0202 0 1 (.sec (stored.convSec 0)) (le4 (unsext 32 0) ++ le4 0x40000000) := by
  have hholds : (storesUnderRun.calStore 1 entry).calHolds (storesUnderRun.calSpare 0) 1 entry = true :=
    storesUnderRun.calHolds_of_ready 1 entry (by decide +kernel) (by decide +kernel) (by decide +kernel)
  unfold State.calStored
  rw [if_neg (by decide), if_neg (by decide), if_neg (by decide)]
  have hheld : ¬ (!(storesUnderRun.calStore 1 entry).calHolds (storesUnderRun.calSpare 0) 1 entry) = true := by
    rw [hholds]
    decide
  exact if_neg hheld

/-- The event 0x0202 of the storage closes the run, whose REPEAT is programmed over the entry's CRC. -/
theorem storesUnderRun_stored : ∃ t, exec (.calStoreComplete 0 true) storesUnderRun = .next t ∧
    t.evNvm = Mem.programN storesUnderRun.stored.evNvm (64 * 64 + 60) (leBytes 3 0) := 
  ⟨_, congrArg Host.Outcome.next storesUnderRun.stored_eq, State.event_closes_run (x := _) _ _ _ rfl rfl rfl rfl rfl rfl rfl rfl (by decide) rfl rfl (by decide)⟩

/-- The entry's CRC does not begin with the byte 0 that the REPEAT leaves there. -/
theorem storesUnderRun.entry_crc : entry.getD 28 0 ≠ 0 := by decide +kernel

/-- Refutes O11: where the flood filter's open run of 0x0202 names a slot inside the spare calibration sector, the event of the storage
programs the run's REPEAT into the entry; the statement keeps the log's writing position above the calibration area, not the slots
of its runs. -/
theorem not_calibrationSessionCommandsComplete : ¬ Obligations.CalibrationSessionCommandsComplete := by
  intro h
  obtain ⟨_, _, _, hstore, _⟩ := h
  obtain ⟨⟨t, ht, _, _, _, _, _, hentry⟩, _⟩ := hstore storesUnderRun 0 1 1 _ _ _ storesUnderRun.entry (by decide) rfl rfl rfl rfl
    (by decide +kernel) (by decide +kernel) rfl
  obtain ⟨u, hu, hnvm⟩ := storesUnderRun_stored
  obtain rfl : t = u := by simpa using ht.symm.trans hu
  have hread : t.evRead 4128 32 = storesUnderRun.entry := hentry (by decide)
  have hbyte : (t.evRead 4128 32).getD 28 0 = (Mem.read 0xFF t.evNvm 4156).toNat := rfl
  rw [hread, hnvm, show 4156 = 64 * 64 + 60 + 0 from rfl, Mem.read_programN_inside _ _ _ _ (by decide)] at hbyte
  exact storesUnderRun.entry_crc (hbyte.trans (congrArg BitVec.toNat (BitVec.and_zero)))

end Sys2Proof.Machine
end

section
/-! The tile: its commands, its configuration and its own events (R231 to R255, R435). -/

namespace Sys2Proof.Machine

/-- A bit that was set reads as it was set. -/
theorem bitOf_setBit (x b : Nat) (v : Bool) : bitOf (setBit x b v) b = v := by
  have hp : 0 < 2 ^ b := Nat.two_pow_pos b
  have hdiv : x / 2 ^ b * 2 ^ b ≤ x := Nat.div_mul_le_self x _
  have hsub : (x - 2 ^ b) / 2 ^ b = x / 2 ^ b - 1 := by simpa using Nat.sub_mul_div x (2 ^ b) 1
  have hadd : ∀ y, (y + 2 ^ b) / 2 ^ b = y / 2 ^ b + 1 := fun y => Nat.add_div_right y hp
  by_cases h : x / 2 ^ b % 2 = 1
  · have hle : 2 ^ b ≤ x := by
      by_contra hlt
      rw [Nat.div_eq_of_lt (by omega)] at h
      exact absurd h (by decide)
    cases v
    · simp only [setBit, bitOf, h, beq_self_eq_true, if_true, Bool.false_eq_true, if_false, Nat.add_zero, hsub]
      simp only [beq_eq_false_iff_ne]
      generalize x / 2 ^ b = q at h
      omega
    · simp only [setBit, bitOf, h, beq_self_eq_true, if_true, Nat.sub_add_cancel hle]
  · have hoff : (x / 2 ^ b % 2 == 1) = false := beq_eq_false_iff_ne.2 h
    cases v
    · simp only [setBit, bitOf, hoff, Bool.false_eq_true, if_false, Nat.add_zero]
    · simp only [setBit, bitOf, hoff, Bool.false_eq_true, if_false, if_true, hadd, beq_iff_eq]
      generalize x / 2 ^ b = q at h
      omega

/-! ## What the passage of time changes at a tile -/

theorem TileSt.catchUp_eq (x : TileSt) (now : Nat) : ∃ acc tie fault safe first, x.catchUp now =
    { x with west := x.west.age now x.fourP, east := x.east.age now x.fourP, accepted := acc, tie := tie, outFault := fault
             safe := safe, firstAcc := first } ∧ (x.lastAcc + x.timeout ≤ now → safe = true) := by
  have key : ∀ y : TileSt, (∃ acc tie fault, y = { x with
      west := x.west.age now x.fourP, east := x.east.age now x.fourP, accepted := acc, tie := tie, outFault := fault }) →
      ∃ acc tie fault safe first, (if y.lastAcc + y.timeout ≤ now then
          { y with safe := true, firstAcc := if y.safe then y.firstAcc else none } else y) =
        { x with west := x.west.age now x.fourP, east := x.east.age now x.fourP, accepted := acc, tie := tie, outFault := fault
                 safe := safe, firstAcc := first } ∧ (x.lastAcc + x.timeout ≤ now → safe = true) := by
    rintro y ⟨acc, tie, fault, rfl⟩
    by_cases h : x.lastAcc + x.timeout ≤ now
    · exact ⟨acc, tie, fault, true, _, if_pos h, fun _ => rfl⟩
    · exact ⟨acc, tie, fault, x.safe, x.firstAcc, if_neg h, fun h' => absurd h' h⟩
  refine key _ ?_
  unfold TileSt.arbitrate
  dsimp only
  split
  · exact ⟨_, _, _, rfl⟩
  split
  · exact ⟨_, _, _, rfl⟩
  split <;> exact ⟨_, _, _, rfl⟩

section
variable (x : TileSt) (now : Nat)

@[simp] theorem TileSt.catchUp_powered : (x.catchUp now).powered = x.powered := by
  obtain ⟨_, _, _, _, _, h, _⟩ := x.catchUp_eq now
  rw [h]
@[simp] theorem TileSt.catchUp_serial : (x.catchUp now).serial = x.serial := by
  obtain ⟨_, _, _, _, _, h, _⟩ := x.catchUp_eq now
  rw [h]
@[simp] theorem TileSt.catchUp_addr : (x.catchUp now).addr = x.addr := by
  obtain ⟨_, _, _, _, _, h, _⟩ := x.catchUp_eq now
  rw [h]
@[simp] theorem TileSt.catchUp_conf : (x.catchUp now).conf = x.conf := by
  obtain ⟨_, _, _, _, _, h, _⟩ := x.catchUp_eq now
  rw [h]
@[simp] theorem TileSt.catchUp_ctag : (x.catchUp now).ctag = x.ctag := by
  obtain ⟨_, _, _, _, _, h, _⟩ := x.catchUp_eq now
  rw [h]
@[simp] theorem TileSt.catchUp_stage : (x.catchUp now).stage = x.stage := by
  obtain ⟨_, _, _, _, _, h, _⟩ := x.catchUp_eq now
  rw [h]
@[simp] theorem TileSt.catchUp_stageTag : (x.catchUp now).stageTag = x.stageTag := by
  obtain ⟨_, _, _, _, _, h, _⟩ := x.catchUp_eq now
  rw [h]
@[simp] theorem TileSt.catchUp_items : (x.catchUp now).items = x.items := by
  obtain ⟨_, _, _, _, _, h, _⟩ := x.catchUp_eq now
  rw [h]
@[simp] theorem TileSt.catchUp_configured : (x.catchUp now).configured = x.configured := by
  obtain ⟨_, _, _, _, _, h, _⟩ := x.catchUp_eq now
  rw [h]
@[simp] theorem TileSt.catchUp_item (i : Nat) : (x.catchUp now).item i = x.item i := by
  simp [TileSt.item]

end

/-- A record older than 4 × P counts as claim 0 (R243). -/
theorem TileSt.catchUp_claim {x : TileSt} {now : Nat} {east : Bool} (h : (x.port east).at_ + x.fourP < now) :
    ((x.catchUp now).port east).claim = 0 := by
  obtain ⟨_, _, _, _, _, hx, _⟩ := x.catchUp_eq now
  rw [hx]
  cases east <;> exact congrArg PortSt.claim (if_pos h)

theorem TileSt.catchUp_safe {x : TileSt} {now : Nat} (h : x.lastAcc + x.timeout ≤ now) : (x.catchUp now).safe = true := by
  obtain ⟨_, _, _, _, _, hx, hs⟩ := x.catchUp_eq now
  rw [hx]
  exact hs h

/-! ## Frames at a tile -/

theorem TileSt.port_updPort (x : TileSt) (east : Bool) (f : PortSt → PortSt) : (x.updPort east f).port east = f (x.port east) := by
  cases east <;> rfl

/-- A tile with its two ports replaced is otherwise the tile. -/
theorem TileSt.updPort_eq (x : TileSt) (east : Bool) (f : PortSt → PortSt) :
    ∃ w e, x.updPort east f = { x with west := w, east := e } := by
  cases east <;> exact ⟨_, _, rfl⟩

/-- The answer of a tile: what is sent, and the tile that is left (R244). -/
theorem TileSt.answer_spec (x : TileSt) (type : Nat) (east : Bool) (seq : Nat) (data : List Nat) : ∃ (u : UpFrame) (w e : PortSt),
    x.answer type east seq data = { x with sent := some (east, u), west := w, east := e } ∧ u.type = type ∧ u.eseq = seq ∧
    u.data = data ∧ ((x.answer type east seq data).port east).claim = (x.port east).claim ∧
    ((x.answer type east seq data).port east).seqRec = (x.port east).seqRec := by
  cases east <;> exact ⟨_, _, _, rfl, rfl, rfl, rfl, rfl, rfl⟩

/-- A command that the tile accepts: its state and the records of its ports (R245, R246). -/
theorem TileSt.accept_spec (x : TileSt) (f : DownFrame) (now : Nat) (east : Bool) :
    (x.accept f now).cmd = f.cmd % 256 ∧ (x.accept f now).lastAcc = now ∧ (x.accept f now).fwd = x.fwd ∧
    ((x.accept f now).port east).claim = (x.port east).claim ∧ ((x.accept f now).port east).seqRec = (x.port east).seqRec := by
  have key : ∀ v : TileSt, v.port east = x.port east → v.fwd = x.fwd → ∀ z : TileSt,
      z = (if mixedGroups v.groups f.cmd = 0 then
          { (v.setCmd f.cmd now) with lastAcc := now, grpBad := mixedGroups v.groups f.cmd }
        else (({ (v.setCmd f.cmd now) with lastAcc := now, grpBad := mixedGroups v.groups f.cmd } : TileSt).updPort false
          (fun p => { p with grpmm := true })).updPort true (fun p => { p with grpmm := true })) →
      z.cmd = f.cmd % 256 ∧ z.lastAcc = now ∧ z.fwd = x.fwd ∧ (z.port east).claim = (x.port east).claim ∧
        (z.port east).seqRec = (x.port east).seqRec := by
    intro v hport hfwd z hz
    rw [← hport, ← hfwd]
    split at hz
    · rw [hz]
      cases east <;> exact ⟨rfl, rfl, rfl, rfl, rfl⟩
    · rw [hz]
      cases east <;> exact ⟨rfl, rfl, rfl, rfl, rfl⟩
  refine key _ ?_ ?_ _ rfl
  · split
    · split
      · split <;> cases east <;> rfl
      · cases east <;> rfl
    · rfl
  · split
    · split
      · split <;> rfl
      · rfl
    · rfl

theorem TileSt.arbitrate_eq (x : TileSt) : ∃ acc tie, x.arbitrate = { x with accepted := acc, tie := tie } := by
  unfold TileSt.arbitrate
  dsimp only
  split
  · exact ⟨_, _, rfl⟩
  split
  · exact ⟨_, _, rfl⟩
  split <;> exact ⟨_, _, rfl⟩

theorem State.atTile_reached {s : State} {lane pos : Nat} {east : Bool} (h : s.tileReached lane pos east = true)
    (f : TileSt → TileSt) : s.atTile lane pos east f = s.updTile lane pos (fun _ => f (s.tile lane pos)) := if_pos h

/-! ## Command frames (O26) -/

theorem TileSt.arbitrate_forward (x : TileSt) (e : Bool) (l : TileChars) :
    (x.forward e l).arbitrate = x.arbitrate.forward e l := by
  unfold TileSt.arbitrate TileSt.forward
  dsimp only
  split
  · rfl
  split
  · rfl
  split <;> rfl

theorem TileSt.updPort_forward (x : TileSt) (e east : Bool) (l : TileChars) (f : PortSt → PortSt) :
    (x.forward e l).updPort east f = (x.updPort east f).forward e l := by
  cases east <;> rfl

/-- The tile with the record of a valid frame on its port, arbitrated (R243). -/
def TileSt.recorded (x : TileSt) (east : Bool) (f : DownFrame) (now : Nat) : TileSt :=
  (x.updPort east (fun p => { p with claim := f.claim, seqRec := some f.seq, at_ := now })).arbitrate

theorem TileSt.recorded_port (x : TileSt) (east : Bool) (f : DownFrame) (now : Nat) :
    ((x.recorded east f now).port east).claim = f.claim ∧ ((x.recorded east f now).port east).seqRec = some f.seq := by
  unfold TileSt.recorded
  obtain ⟨acc, tie, h⟩ := (x.updPort east (fun p => { p with claim := f.claim, seqRec := some f.seq, at_ := now })).arbitrate_eq
  rw [h]
  cases east <;> exact ⟨rfl, rfl⟩

/-- What a frame of one of the types 0x01 to 0x03 does at a tile that has caught up. -/
def TileSt.carry (x : TileSt) (type : Nat) (east : Bool) (l : TileChars) (f : DownFrame) (now : Nat) : TileSt :=
  if frameOk 32 l && f.type == type && x.valid east f then
    if (x.recorded east f now).accepted = some east then (((x.recorded east f now).forward east l).accept f now).answer 0x81 east f.seq []
    else (x.recorded east f now).forward east l
  else if x.addr = some f.addr then (x.forward east l).updPort east (fun p => { p with ferr := true })
  else x.forward east l

theorem TileSt.take_eq {x : TileSt} (type : Nat) (east : Bool) (l : TileChars) (now : Nat) (hitems : x.items = 0) :
    x.take type east l now = (x.catchUp now).carry type east l (downRead l) now := by
  have hi : (x.catchUp now).items = 0 := (x.catchUp_items now).trans hitems
  unfold TileSt.take TileSt.carry
  generalize x.catchUp now = y at hi
  generalize downRead l = f
  have hrec : ((y.forward east l).updPort east (fun p => { p with claim := f.claim, seqRec := some f.seq, at_ := now })).arbitrate =
      (y.recorded east f now).forward east l := by
    rw [TileSt.updPort_forward, TileSt.arbitrate_forward]
    rfl
  have hvalid : (y.forward east l).valid east f = y.valid east f := rfl
  have hacc : ((y.recorded east f now).forward east l).accepted = (y.recorded east f now).accepted := rfl
  have hi' : ¬ (y.forward east l).items ≠ 0 := fun h => h hi
  have haddr : (y.forward east l).addr = y.addr := rfl
  dsimp only
  rw [if_neg hi', hvalid, hrec, hacc, haddr]
  rfl

/-- A frame of the accepted claim is carried out and answered. -/
theorem TileSt.carry_accepted {x : TileSt} {type : Nat} {east : Bool} {l : TileChars} {f : DownFrame} {now : Nat}
    (hok : frameOk 32 l = true) (htype : f.type = type) (hvalid : x.valid east f = true)
    (hacc : (x.recorded east f now).accepted = some east) :
    x.carry type east l f now = (((x.recorded east f now).forward east l).accept f now).answer 0x81 east f.seq [] := by
  unfold TileSt.carry
  rw [if_pos (by simp [hok, htype, hvalid]), if_pos hacc]

/-- A frame addressed to the tile that fails a check leaves its frame error. -/
theorem TileSt.carry_discarded {x : TileSt} {type : Nat} {east : Bool} {l : TileChars} {f : DownFrame} {now : Nat}
    (hbad : (frameOk 32 l && x.valid east f) = false) (haddr : x.addr = some f.addr) :
    x.carry type east l f now = (x.forward east l).updPort east (fun p => { p with ferr := true }) := by
  have hcond : ¬ (frameOk 32 l && f.type == type && x.valid east f) = true := by
    intro h
    simp only [Bool.and_eq_true] at h
    obtain ⟨⟨hok, _⟩, hv⟩ := h
    simp [hok, hv] at hbad
  unfold TileSt.carry
  rw [if_neg hcond, if_pos haddr]

/-- A byte between the ends of a correct frame. -/
theorem frame_byte_lt {l : TileChars} (h : frameOk 32 l = true) {i : Nat} (hi : i < 30) : l.getD (i + 1) 0 < 256 := by
  obtain ⟨hl, _, _, hbytes, _⟩ := (frameOk_32 l).1 h
  rw [List.getD_eq_getElem l 0 (by omega)]
  refine hbytes _ (List.mem_iff_getElem.2 ⟨i, by simp [hl]; omega, ?_⟩)
  simp [Nat.add_comm]

/-- Settles O26: the three command frames do the same at the tile, by the branches of `TileSt.carry`. -/
theorem commandFramesActAtTheTile : Obligations.CommandFramesActAtTheTile := by
  rintro s lane pos east l f x y hreach rfl hitems hf
  have hitems' : (s.tile lane pos).items = 0 := by simpa using hitems
  have hexec : ∀ (type : Nat) (z : TileSt), ((s.tile lane pos).catchUp s.now).carry type east l f s.now = z →
      Host.Outcome.next (s.atTile lane pos east (fun x => x.take type east l s.now)) =
        (.next (s.updTile lane pos (fun _ => z)) : Host.Outcome State Fault Refusal) := by
    rintro type _ rfl
    rw [State.atTile_reached hreach, TileSt.take_eq _ _ _ _ hitems', hf]
  generalize (s.tile lane pos).catchUp s.now = x at *
  constructor
  · rintro hok hvalid rfl hacc
    have hcmd : f.cmd < 256 := by
      rw [hf]
      exact frame_byte_lt hok (i := 7) (by decide)
    obtain ⟨hz1, hz2, hz3, hz4, hz5⟩ := ((x.recorded east f s.now).forward east l).accept_spec f s.now east
    obtain ⟨hc, hs⟩ := x.recorded_port east f s.now
    obtain ⟨u, w, e, hz, htype, hseq, _, hclaim, hrec⟩ :=
      (((x.recorded east f s.now).forward east l).accept f s.now).answer_spec 0x81 east f.seq []
    have hrun := fun type (ht : f.type = type) => hexec type _ (TileSt.carry_accepted hok ht hvalid hacc)
    refine ⟨_, ?_, ?_, ?_, ?_, hclaim.trans (hz4.trans hc), hrec.trans (hz5.trans hs), hrun 1, hrun 2, hrun 3⟩
    · rw [hz]
      exact hz1.trans (Nat.mod_eq_of_lt hcmd)
    · rw [hz]
      exact hz2
    · rw [hz]
      simp [htype, hseq]
    · rw [hz]
      exact hz3
  · intro hbad haddr
    have hrun := fun type => hexec type _ (TileSt.carry_discarded hbad haddr)
    exact ⟨hrun 1, hrun 2, hrun 3⟩

/-! ## Enumeration and configuration frames (O27) -/

section
variable (x : TileSt) (east : Bool) (l : TileChars)

@[simp] theorem TileSt.forward_addr : (x.forward east l).addr = x.addr := rfl
@[simp] theorem TileSt.forward_serial : (x.forward east l).serial = x.serial := rfl
@[simp] theorem TileSt.forward_conf : (x.forward east l).conf = x.conf := rfl
@[simp] theorem TileSt.forward_ctag : (x.forward east l).ctag = x.ctag := rfl
@[simp] theorem TileSt.forward_stage : (x.forward east l).stage = x.stage := rfl
@[simp] theorem TileSt.forward_configured : (x.forward east l).configured = x.configured := rfl
@[simp] theorem TileSt.forward_item (i : Nat) : (x.forward east l).item i = x.item i := rfl

end

/-- An enumerate frame at an unconfigured tile (R254). -/
theorem TileSt.enumerate_eq {x : TileSt} {east : Bool} {l : TileChars} {f : DownFrame} {now : Nat} (hf : f = downRead l)
    (hok : frameOk 32 l = true) (htype : f.type = 5) (hconf : x.configured = false) :
    x.enumerate east l now = ({ ((x.catchUp now).forward east (hopped l)) with addr := some (enumAddr east f.hop f.item) }).answer 0x82
      east f.seq (enumData x.serial x.ctag true Config.tileFirmwareRev) := by
  have hc : ((x.catchUp now).forward east (hopped l)).configured = false := by simp [hconf]
  have hs : ((x.catchUp now).forward east (hopped l)).serial = x.serial := by simp
  have ht : ((x.catchUp now).forward east (hopped l)).ctag = x.ctag := by simp
  unfold TileSt.enumerate
  generalize (x.catchUp now).forward east (hopped l) = y at *
  simp only [← hf, hok, htype, hc, hs, ht, beq_self_eq_true, Bool.and_self, if_true, Bool.false_eq_true, if_false]

/-- A tile that takes a configuration write frame, before it settles and answers. -/
def TileSt.written (x : TileSt) (east : Bool) (l : TileChars) (f : DownFrame) : TileSt :=
  ((x.forward east l).updPort east (fun p => { p with seqRec := none })).putItem f.item f.len f.data

theorem TileSt.confWrite_eq {x : TileSt} {east : Bool} {l : TileChars} {f : DownFrame} {now : Nat} (hf : f = downRead l)
    (hok : frameOk 32 l = true) (htype : f.type = 6) (haddr : x.addr = some f.addr) :
    x.confWrite east l now = (((x.catchUp now).written east l f).settle).answer 0x82 east f.seq (padTo 16 []) := by
  have ha : ((x.catchUp now).forward east l).addr = some f.addr := by simp [haddr]
  unfold TileSt.confWrite TileSt.written
  generalize (x.catchUp now).forward east l = y at *
  simp only [← hf, ha, hok, htype, ne_eq, not_true_eq_false, if_false, beq_self_eq_true, Bool.and_self, if_true]

theorem TileSt.confRead_eq {x : TileSt} {east : Bool} {l : TileChars} {f : DownFrame} {now : Nat} (hf : f = downRead l)
    (hok : frameOk 32 l = true) (htype : f.type = 7) (haddr : x.addr = some f.addr) :
    x.confRead east l now = ((x.catchUp now).forward east l).answer 0x82 east f.seq (padTo 16 (x.item f.item)) := by
  have ha : ((x.catchUp now).forward east l).addr = some f.addr := by simp [haddr]
  have hi : ((x.catchUp now).forward east l).item f.item = x.item f.item := by simp
  unfold TileSt.confRead
  generalize (x.catchUp now).forward east l = y at *
  simp only [← hf, ha, hi, hok, htype, ne_eq, not_true_eq_false, if_false, beq_self_eq_true, Bool.and_self, if_true]

/-- What a write frame leaves of the tile's bytes: the item in the stage, and its bit in the items written. -/
theorem TileSt.written_spec (x : TileSt) (east : Bool) (l : TileChars) (f : DownFrame) (hitem : f.item < 4)
    (hlen : f.len = if f.item < 3 then 12 else 2) :
    (x.written east l f).items = setBit x.items f.item true ∧ (x.written east l f).conf = x.conf ∧
    (x.written east l f).ctag = x.ctag ∧ (x.written east l f).configured = x.configured ∧
    ((x.written east l f).port east).seqRec = none ∧
    (f.item < 3 → (x.written east l f).stageTag = x.stageTag ∧
      ∀ j, j < 12 → (x.written east l f).stage.getD (12 * f.item + j) 0 = f.data.getD j 0) ∧
    (f.item = 3 → (x.written east l f).stage = x.stage ∧ (x.written east l f).stageTag = leNat (f.data.take 2)) := by
  unfold TileSt.written TileSt.putItem
  by_cases h : f.item < 3
  · rw [if_pos h] at hlen
    rw [if_pos ⟨h, hlen⟩]
    refine ⟨by cases east <;> rfl, by cases east <;> rfl, by cases east <;> rfl, by cases east <;> rfl, by cases east <;> rfl,
      fun _ => ⟨by cases east <;> rfl, fun j hj => ?_⟩, fun h3 => absurd h3 (by omega)⟩
    simp only [List.getD, List.getElem?_map]
    rw [List.getElem?_range (by omega)]
    simp [hj]
  · rw [if_neg h] at hlen
    have h3 : f.item = 3 := by omega
    rw [if_neg (fun hh => h hh.1), if_pos ⟨h3, hlen⟩]
    refine ⟨by rw [h3]; cases east <;> rfl, by cases east <;> rfl, by cases east <;> rfl, by cases east <;> rfl, by cases east <;> rfl,
      fun hh => absurd hh h, fun _ => ⟨by cases east <;> rfl, ?_⟩⟩
    rcases f.data with _ | ⟨a, _ | ⟨b, r⟩⟩ <;> simp [leNat]

/-- Settles O27: each frame that the tile takes ends in its answer; with the fourth item the stage becomes its configuration. -/
theorem tileConfigurationFramesAct : Obligations.TileConfigurationFramesAct := by
  rintro s lane pos east l f x hreach hf hok rfl
  refine ⟨?_, ?_, ?_⟩
  · rintro n m hl htype hconf
    have hexec : exec (.enumerateFrame lane pos east n m) s = .next (s.updTile lane pos
        (fun _ => (s.tile lane pos).enumerate east l s.now)) := by
      rw [hl]
      exact congrArg Host.Outcome.next (State.atTile_reached hreach _)
    rw [TileSt.enumerate_eq hf hok htype hconf] at hexec
    generalize (s.tile lane pos).catchUp s.now = y at hexec
    obtain ⟨u, w, e, hz, hu, hseq, hdata, _⟩ := TileSt.answer_spec ({ (y.forward east (hopped l)) with
      addr := some (enumAddr east f.hop f.item) }) 0x82 east f.seq
      (enumData (s.tile lane pos).serial (s.tile lane pos).ctag true Config.tileFirmwareRev)
    rw [hz] at hexec
    exact ⟨_, u, rfl, rfl, rfl, hu, hseq, hdata, hexec⟩
  · rintro n htype haddr hitem hlen rfl
    have hexec : exec (.configurationWriteFrame lane pos east l) s = .next (s.updTile lane pos (fun _ =>
        ((((s.tile lane pos).catchUp s.now).written east l f).settle).answer 0x82 east f.seq (padTo 16 []))) := by
      rw [← TileSt.confWrite_eq hf hok htype haddr]
      exact congrArg Host.Outcome.next (State.atTile_reached hreach _)
    obtain ⟨hitems, hconf, hctag, hcfd, hrec, hlow, hhigh⟩ := ((s.tile lane pos).catchUp s.now).written_spec east l f hitem hlen
    simp only [TileSt.catchUp_items, TileSt.catchUp_conf, TileSt.catchUp_ctag, TileSt.catchUp_configured, TileSt.catchUp_stageTag,
      TileSt.catchUp_stage] at hitems hconf hctag hcfd hlow hhigh
    generalize ((s.tile lane pos).catchUp s.now).written east l f = y at *
    obtain ⟨u, w, e, hz, hu, hseq, _, _, hport⟩ := y.settle.answer_spec 0x82 east f.seq (padTo 16 [])
    refine ⟨_, hport.trans ?_, by rw [hz]; simp [hu, hseq], fun hn => ?_, fun hn => ?_, hexec⟩
    · unfold TileSt.settle
      split
      · cases east <;> rfl
      · exact hrec
    · rw [hz, TileSt.settle, if_neg (by rw [hitems]; exact hn)]
      exact ⟨hitems, hconf, hctag, hcfd, fun h => (hlow h).2, fun h => (hhigh h).2⟩
    · rw [hz, TileSt.settle, if_pos (by rw [hitems]; exact hn)]
      exact ⟨rfl, rfl, rfl, hlow, hhigh⟩
  · intro htype haddr
    have hexec : exec (.configurationReadFrame lane pos east l) s = .next (s.updTile lane pos
        (fun _ => (s.tile lane pos).confRead east l s.now)) := congrArg Host.Outcome.next (State.atTile_reached hreach _)
    rw [TileSt.confRead_eq hf hok htype haddr] at hexec
    have hconf := (s.tile lane pos).catchUp_conf s.now
    have hstage := (s.tile lane pos).catchUp_stage s.now
    generalize (s.tile lane pos).catchUp s.now = y at hexec hconf hstage
    obtain ⟨u, w, e, hz, hu, hseq, hdata, _⟩ := (y.forward east l).answer_spec 0x82 east f.seq
      (padTo 16 ((s.tile lane pos).item f.item))
    rw [hz] at hexec
    exact ⟨{ (y.forward east l) with sent := some (east, u), west := w, east := e }, u, rfl, hu, hseq, hdata, hconf, hstage, hexec⟩

end Sys2Proof.Machine
end

section
/-! The tile's own events (R231, R236, R243 to R252, R254). -/

namespace Sys2Proof.Machine

/-! ## What an input's sample changes (R252) -/

/-- A tile of which at most the inputs and the ports' records of them differ. -/
def TileSt.Sampled (x y : TileSt) : Prop :=
  ∃ inp wbc cand w e, y = { x with inp := inp, wbc := wbc, cand := cand, west := w, east := e }

theorem TileSt.Sampled.refl (x : TileSt) : x.Sampled x := ⟨_, _, _, _, _, rfl⟩

theorem TileSt.Sampled.trans {x y z : TileSt} (h : x.Sampled y) (k : y.Sampled z) : x.Sampled z := by
  obtain ⟨_, _, _, _, _, rfl⟩ := h
  obtain ⟨_, _, _, _, _, rfl⟩ := k
  exact ⟨_, _, _, _, _, rfl⟩

theorem TileSt.sample_sampled (x : TileSt) (n uA now : Nat) : x.Sampled (x.sample n uA now) := by
  have hwait : ∀ c since, x.Sampled (if since + x.debounce n ≤ now then x.report n c
      else { x with cand := (List.range 16).map (fun m => if m = n then some (c, since) else x.cand.getD m none) }) := by
    intro c since
    split <;> exact ⟨_, _, _, _, _, rfl⟩
  unfold TileSt.sample
  dsimp only
  generalize classOf (x.hasWb n) uA _ = c
  split
  · split <;> exact ⟨_, _, _, _, _, rfl⟩
  split
  · exact ⟨_, _, _, _, _, rfl⟩
  exact hwait c _

/-- A word at the logic side: inputs sampled, output voltages read back (R247, R248). -/
theorem TileSt.toLogic_sampled (x : TileSt) (w : FieldWord) (now : Nat) :
    ({ x with xerr := false, logicAt := now, rb := w.volts % 256 } : TileSt).Sampled (x.toLogic w now) := by
  unfold TileSt.toLogic
  generalize ({ x with xerr := false, logicAt := now, rb := w.volts % 256 } : TileSt) = y
  induction List.range 16 generalizing y with
  | nil => exact .refl y
  | cons n r ih => exact (y.sample_sampled n _ now).trans (ih _)

/-- The class that an input is to report is the one that it reports. -/
theorem TileSt.reported_report (x : TileSt) {n c : Nat} (h : c ≤ 2) : (x.report n c).reported n = c := by
  unfold TileSt.reported TileSt.report
  simp only [bitOf_setBit]
  interval_cases c <;> rfl

theorem TileSt.cand_report (x : TileSt) {n : Nat} (c : Nat) (h : n < 16) : (x.report n c).cand.getD n none = none := by
  simp [TileSt.report, List.getD, List.getElem?_range h]

theorem TileSt.drive_off {x : TileSt} (h : x.powered = false) : x.drive = 0 := by simp [TileSt.drive, h]

/-- A change of a tile that is the same for every tile is the tile that it makes. -/
theorem State.updTile_const (s : State) (lane pos : Nat) (f : TileSt → TileSt) :
    s.updTile lane pos f = s.updTile lane pos (fun _ => f (s.tile lane pos)) := rfl

/-! ## The words of the crossing (R247) -/

theorem TileSt.word_spec (x : TileSt) (field : Bool) (w : Option FieldWord) (now : Nat) :
    (∀ v : FieldWord, w = some v → (x.word field w now).rb = v.volts % 256 ∧ (x.word field w now).xerr = false ∧
      (x.word field w now).logicAt = now) ∧
    (field = true → x.items = 0 → (x.word field w now).fieldSafe = false ∧ (x.word field w now).fcmd = (x.word field w now).want ∧
      (x.word field w now).fpat = (x.word field w now).safePat ∧ (x.word field w now).fieldAt = now) ∧
    (field = false → (x.word field w now).fcmd = x.fcmd ∧ (x.word field w now).fieldSafe = x.fieldSafe) ∧
    (w = none → (x.word field w now).rb = x.rb ∧ (x.word field w now).xerr = x.xerr) := by
  obtain ⟨_, _, _, _, _, hx, _⟩ := x.catchUp_eq now
  have key : ∀ y : TileSt, y.items = x.items → y.fcmd = x.fcmd → y.fieldSafe = x.fieldSafe →
      (∀ v : FieldWord, w = some v → y.rb = v.volts % 256 ∧ y.xerr = false ∧ y.logicAt = now) →
      (w = none → y.rb = x.rb ∧ y.xerr = x.xerr) → ∀ z, z = (if field then y.toField now else y) →
      (∀ v : FieldWord, w = some v → z.rb = v.volts % 256 ∧ z.xerr = false ∧ z.logicAt = now) ∧
      (field = true → x.items = 0 → z.fieldSafe = false ∧ z.fcmd = z.want ∧ z.fpat = z.safePat ∧ z.fieldAt = now) ∧
      (field = false → z.fcmd = x.fcmd ∧ z.fieldSafe = x.fieldSafe) ∧ (w = none → z.rb = x.rb ∧ z.xerr = x.xerr) := by
    intro y hi hc hs hw hn z hz
    cases field with
    | false =>
      obtain rfl : z = y := hz
      exact ⟨hw, fun h => absurd h (by decide), fun _ => ⟨hc, hs⟩, hn⟩
    | true =>
      obtain rfl : z = y.toField now := hz
      unfold TileSt.toField
      split
      · next hne => exact ⟨hw, fun _ h => absurd (hi.trans h) hne, fun h => absurd h (by decide), hn⟩
      · exact ⟨hw, fun _ _ => ⟨rfl, rfl, rfl, rfl⟩, fun h => absurd h (by decide), hn⟩
  cases w with
  | none =>
    refine key (x.catchUp now) (x.catchUp_items now) ?_ ?_ (fun v h => nomatch h) (fun _ => ?_) _ rfl
    · rw [hx]
    · rw [hx]
    · rw [hx]
      exact ⟨rfl, rfl⟩
  | some v =>
    obtain ⟨_, _, _, _, _, hy⟩ := (x.catchUp now).toLogic_sampled v now
    refine key ((x.catchUp now).toLogic v now) ?_ ?_ ?_ (fun u h => ?_) (fun h => nomatch h) _ rfl
    · rw [hy]
      exact x.catchUp_items now
    · rw [hy, hx]
    · rw [hy, hx]
    · obtain rfl : v = u := Option.some.inj h
      rw [hy]
      exact ⟨rfl, rfl, rfl⟩

/-- Settles O29: each event acts on the tile that has caught up with its time. -/
theorem tileEventsComplete : Obligations.TileEventsComplete := by
  rintro s lane pos x rfl
  refine ⟨?_, ?_, ?_, ?_, ?_, ?_, ?_, rfl, ?_⟩
  · intro east hp hc
    have hexec : exec (.claimAgeOut lane pos east) s = .next ((s.advanceTo (((s.tile lane pos).port east).at_ +
        (s.tile lane pos).fourP + 1)).updTile lane pos (fun x => x.catchUp (max s.now (((s.tile lane pos).port east).at_ +
        (s.tile lane pos).fourP + 1)))) := congrArg Host.Outcome.next (if_neg (by simp [hp, hc]))
    refine ⟨_, hexec, rfl, ?_⟩
    rw [State.tile_updTile]
    exact TileSt.catchUp_claim (lt_of_lt_of_le (Nat.lt_succ_self _) (le_max_right _ _))
  · intro hp hcfd hsafe
    have hexec : exec (.safeStateTimeout lane pos) s = .next ((s.advanceTo ((s.tile lane pos).lastAcc +
        (s.tile lane pos).timeout)).updTile lane pos (fun x => x.catchUp (max s.now ((s.tile lane pos).lastAcc +
        (s.tile lane pos).timeout)))) := congrArg Host.Outcome.next (if_neg (by simp [hp, hcfd, hsafe]))
    refine ⟨_, hexec, rfl, ?_⟩
    rw [State.tile_updTile]
    exact TileSt.catchUp_safe (le_max_right _ _)
  · intro toField w hp
    obtain ⟨h1, h2, h3, h4⟩ := (s.tile lane pos).word_spec toField w s.now
    have hexec : exec (.crossingWord lane pos toField w) s = .next (s.updTile lane pos (fun _ => (s.tile lane pos).word toField w s.now)) := by
      change execCrossingWord lane pos toField w s = _
      rw [execCrossingWord, if_pos hp, State.updTile_const]
    exact ⟨_, h1, h2, h3, h4, hexec⟩
  · intro logic hp
    generalize ht : (if logic then (s.tile lane pos).logicAt else (s.tile lane pos).fieldAt) + 4 * usClk = due
    have hexec : exec (.crossingLoss lane pos logic) s = .next ((s.advanceTo due).updTile lane pos (fun x =>
        if logic then { (x.catchUp (max s.now due)) with xerr := true } else { (x.catchUp (max s.now due)) with fieldSafe := true })) := by
      rw [← ht]
      exact congrArg Host.Outcome.next (if_neg (by simp [hp]))
    refine ⟨_, hexec, rfl, fun h => ?_, fun h => ?_⟩
    · rw [State.tile_updTile, if_pos h]
    · rw [State.tile_updTile, if_neg (by simp [h])]
  · intro out hp hout hbit
    have hcond : ((s.tile lane pos).powered && decide (out < 8) && bitOf ((s.tile lane pos).catchUp s.now).drive out) = true := by
      simp [hp, hout, hbit]
    change execOutputOvercurrent lane pos out s = _
    rw [execOutputOvercurrent, State.updTile_const]
    dsimp only
    rw [if_pos hcond]
  · intro inp c t0 hinp hc hp hcand hlight
    have hexec : exec (.inputDebounce lane pos inp) s = .next ((s.advanceTo (t0 + (s.tile lane pos).debounce inp)).updTile lane pos
        (fun x => (x.catchUp (max s.now (t0 + (s.tile lane pos).debounce inp))).report inp c)) := by
      change execInputDebounce lane pos inp s = _
      unfold execInputDebounce
      dsimp only
      rw [hcand]
      exact congrArg Host.Outcome.next (if_pos (by simp [hp, hlight]))
    refine ⟨_, hexec, rfl, ?_, ?_⟩
    · rw [State.tile_updTile]
      exact TileSt.reported_report _ hc
    · rw [State.tile_updTile]
      exact TileSt.cand_report _ _ hinp
  · intro serial hp
    exact congrArg Host.Outcome.next (if_neg (by simp [hp]))
  · intro low hp
    obtain ⟨_, _, _, _, _, hx, _⟩ := (s.tile lane pos).catchUp_eq s.now
    have hexec : exec (.fieldSupplyChange lane pos low) s =
        .next (s.updTile lane pos (fun _ => { ((s.tile lane pos).catchUp s.now) with fsup := low })) := by
      change execFieldSupplyChange lane pos low s = _
      rw [execFieldSupplyChange, if_pos hp, State.updTile_const]
    refine ⟨_, rfl, ?_, ?_, hexec⟩
    · rw [hx]
    · rw [hx]

end Sys2Proof.Machine
end

section
/-! The device's end of a tile lane (R237 to R241, R366). -/

namespace Sys2Proof.Machine

/-- A tile lane that is ON with a refresh frame in its queue, before protection is active. -/
def queuesBeforeProtection : State :=
  { (({} : State).setF F.LN_CFG_MODE 0 1).setF F.LN_STAT_STATE 0 2 with lanes := [(0, { refreshQ := [0] })] }

/-- No tile receives a command yet: nothing leaves (R366). -/
theorem queuesBeforeProtection_starts : ∃ t, exec (.laneFrameStart 0) queuesBeforeProtection = .next t ∧ (t.lane 0).tx = none :=
  ⟨_, rfl, by decide +kernel⟩

/-- Refutes O30: before protection is active a queued refresh frame does not leave; the statement does not ask DEV_STAT.STATE to be 3. -/
theorem not_tileLaneCommandsComplete : ¬ Obligations.TileLaneCommandsComplete := by
  intro h
  obtain ⟨_, hstart, _⟩ := h
  obtain ⟨_, _, hrefresh, _⟩ := hstart queuesBeforeProtection _ 0 (by decide +kernel) (by decide +kernel) rfl
  obtain ⟨t, f, ht, _, htx, _⟩ := hrefresh 0 [] (by decide +kernel) (by decide +kernel) (by decide +kernel)
  obtain ⟨u, hu, hnone⟩ := queuesBeforeProtection_starts
  obtain rfl : t = u := by simpa using ht.symm.trans hu
  rw [hnone] at htx
  exact absurd htx (by simp)

end Sys2Proof.Machine
end

section
/-! Ethernet transmission with launch conditions (R288 to R291, R300). -/

namespace Sys2Proof.Machine

/-- A held frame that can start within 2 µs of its target leaves (R290). -/
theorem State.launch_sent {s : State} {lane : Nat} {f : EthFrame}
    (h : max (s.heldDue f) (s.lane lane).txFree ≤ s.heldDue f + 2 * usClk) : s.launch lane f =
    (((s.updLane lane (fun l => { l with resv := false })).advanceTo (max (s.heldDue f) (s.lane lane).txFree)).emit lane f).incF
      F.LN_LAUNCH_SENT lane := if_neg (Nat.not_lt.2 h)

/-- Another is discarded and counted. -/
theorem State.launch_late {s : State} {lane : Nat} {f : EthFrame}
    (h : s.heldDue f + 2 * usClk < max (s.heldDue f) (s.lane lane).txFree) : s.launch lane f =
    (((s.updLane lane (fun l => { l with resv := false })).advanceTo (s.heldDue f)).updLane lane (fun l =>
      { l with ethQ := l.ethQ.erase f })).incF F.LN_LAUNCH_LATE lane := if_pos h

theorem foldl_ne_none {α : Type} {g : Option α → α → Option α} (hg : ∀ a b, g (some a) b ≠ none) (l : List α) (a : α) :
    l.foldl g (some a) ≠ none := by
  induction l generalizing a with
  | nil => exact Option.some_ne_none a
  | cons b r ih =>
    obtain ⟨c, hc⟩ := Option.ne_none_iff_exists'.1 (hg a b)
    rw [List.foldl_cons, hc]
    exact ih c

/-- No frame is found first exactly where none qualifies. -/
theorem State.firstHeld_eq_none (s : State) (lane : Nat) (p : EthFrame → Bool) : s.firstHeld lane p = none ↔
    (s.lane lane).ethQ.filter (fun f => !f.ready && p f && (s.lane lane).inTurn f) = [] := by
  unfold State.firstHeld
  cases (s.lane lane).ethQ.filter (fun f => !f.ready && p f && (s.lane lane).inTurn f) with
  | nil => exact ⟨fun _ => rfl, fun _ => rfl⟩
  | cons a r =>
    refine ⟨fun h => ?_, fun h => nomatch h⟩
    refine absurd h (foldl_ne_none (fun x y => ?_) r a)
    dsimp only
    split <;> exact Option.some_ne_none _

/-- Where no frame qualifies, none qualifies under a further condition. -/
theorem State.firstHeld_none_and {s : State} {lane : Nat} {p : EthFrame → Bool} (q : EthFrame → Bool)
    (h : s.firstHeld lane p = none) : s.firstHeld lane (fun f => p f && q f) = none := by
  rw [State.firstHeld_eq_none, List.filter_eq_nil_iff] at h ⊢
  intro f hf hc
  refine h f hf ?_
  simp only [Bool.and_eq_true] at hc ⊢
  obtain ⟨⟨hr, hp, _⟩, ht⟩ := hc
  exact ⟨⟨hr, hp⟩, ht⟩

/-- With no target reached, the next frame without a condition leaves where it fits before the next held one (R290, R291). -/
theorem State.transmit_eq {s u : State} {lane : Nat} {f : EthFrame} (hu : u = s.takeStamps lane)
    (hheld : u.firstHeld lane (fun f => decide (u.heldDue f ≤ u.now)) = none) (hnext : (u.lane lane).nextEth = some f) :
    s.transmit lane = if (match u.firstHeld lane (fun _ => true) with
        | some h => !((u.lane lane).resv || decide (u.heldDue h ≤ max u.now (u.lane lane).txFree + windowClk (u.is10g lane))) ||
            decide (max u.now (u.lane lane).txFree + frameClk (u.is10g lane) f.len ≤ u.heldDue h)
        | none => true) then (u.advanceTo (max u.now (u.lane lane).txFree)).emit lane f else u := by
  unfold State.transmit
  simp only [← hu, State.firstHeld_none_and u.launchTurn hheld, hnext] <;> rfl

/-- Settles O35: the four launch and transmission events follow the branches of `launch` and `transmit`. -/
theorem ethernetTransmissionCompletes : Obligations.EthernetTransmissionCompletes := by
  refine ⟨?_, ?_, ?_, ?_, ?_, ?_⟩
  · rintro s lane f due start hf rfl rfl
    have hexec : exec (.timeLaunch lane) s = .next (s.launch lane f) := by
      change execTimeLaunch lane s = _
      rw [execTimeLaunch, hf]
    exact ⟨fun h => hexec.trans (congrArg Host.Outcome.next (State.launch_sent h)),
      fun h => hexec.trans (congrArg Host.Outcome.next (State.launch_late h))⟩
  · rintro s lane f due start hf rfl rfl hturn
    have hexec : exec (.angleLaunch lane) s = .next (s.launch lane f) := by
      change execAngleLaunch lane s = _
      rw [execAngleLaunch, hf]
      exact congrArg Host.Outcome.next (if_pos hturn)
    exact ⟨fun h => hexec.trans (congrArg Host.Outcome.next (State.launch_sent h)),
      fun h => hexec.trans (congrArg Host.Outcome.next (State.launch_late h))⟩
  · intro s lane f hf
    change execReservationWindow lane s = _
    rw [execReservationWindow, hf]
  · intro s u lane f hu hheld hnext hresv hlater
    refine (congrArg Host.Outcome.next (State.transmit_eq hu hheld hnext)).trans (congrArg Host.Outcome.next (if_pos ?_))
    cases hh : u.firstHeld lane (fun _ => true) with
    | none => rfl
    | some h =>
      have := hlater h hh
      simp only [hresv, Bool.false_or, Bool.or_eq_true, Bool.not_eq_true', decide_eq_false_iff_not]
      omega
  · intro s u lane f h hu hheld hnext hresv hh hlate
    refine (congrArg Host.Outcome.next (State.transmit_eq hu hheld hnext)).trans (congrArg Host.Outcome.next (if_neg ?_))
    simp only [hh, hresv, Bool.true_or, Bool.not_true, Bool.false_or, decide_eq_true_eq]
    omega
  · intro s lane id ns r h
    change execTsqheadRead lane s = _
    rw [execTsqheadRead, State.popStamp, h]

end Sys2Proof.Machine
end

section
/-! GOOSE (R285 to R287). -/

namespace Sys2Proof.Machine

/-! ## Acceptance -/

theorem State.judgePinned_admitted {s u : State} {lane kind key n : Nat} {src : Option Nat} {x : Sender}
    (h : s.judgePinned lane kind key src x = (some n, u)) : ∃ partners, u = { s with partners := partners } := by
  unfold State.judgePinned at h
  split at h
  · exact absurd (congrArg Prod.fst h) (by simp)
  split at h
  · exact absurd (congrArg Prod.fst h) (by simp)
  dsimp only at h
  split at h
  next m _ _ _ w hcaps =>
    obtain ⟨partners, rfl⟩ := State.takeCaps_admitted hcaps
    refine ⟨partners, (Prod.mk.inj h).2.symm.trans ?_⟩
    split <;> rfl
  · exact absurd (congrArg Prod.fst h) (by simp)

theorem State.adoptSt_subs (s : State) (g : GooseMsg) : (s.adoptSt g).subs = s.subs := by
  unfold State.adoptSt
  refine State.foldl_keeps (fun t => t.subs) _ (fun t p => ?_) _ _
  split <;> rfl

theorem State.acceptGoose_sub (s : State) (i : Nat) (c : GoSub) (g : GooseMsg) : Tab.get (s.acceptGoose i c g).subs {} i =
    { last := some (g.stNum, g.sqNum), expireAt := s.now + g.ttlMs * msClk, expired := false } := by
  unfold State.acceptGoose
  rw [(State.published_pubOnly _).subs, State.adoptSt_subs]
  have hnow : ∀ b : Bool, (s.onlyIf b (fun s => s.event 0x0A02 i 0xFFFF .none (le4 g.stNum))).now = s.now := by
    intro b
    cases b
    · rfl
    · exact State.event_now _ _ _ _ _ _
  rw [hnow]
  rw [State.foldl_keeps (fun t => t.subs) _ (fun t m => ?_)]
  · exact Tab.get_set_same _ _ _ _
  · split
    · exact State.putSig_subs _ _ _
    · rfl

/-! ## Expiry -/

/-- A signal keeps its value with validity invalid (R287). -/
def State.invalidate (s : State) (id : Nat) : State :=
  s.putSig id { s.sigBelow id with q := { (s.sigBelow id).q with validity := .invalid }, forced := false }

theorem State.foldl_invalidate {α : Type} (f : α → Nat) {id : Nat} (hd : ¬(123648 ≤ id ∧ id < 123904)) (l : List α) : ∀ s : State,
    ((l.foldl (fun s m => s.invalidate (f m)) s).sigBelow id).value = (s.sigBelow id).value ∧
    (((∃ m ∈ l, f m = id) ∨ (s.sigBelow id).q.validity = .invalid) →
      ((l.foldl (fun s m => s.invalidate (f m)) s).sigBelow id).q.validity = .invalid) := by
  induction l with
  | nil => exact fun s => ⟨rfl, fun h => h.resolve_left (by simp)⟩
  | cons m r ih =>
    intro s
    rw [List.foldl_cons]
    obtain ⟨hv, hq⟩ := ih (s.invalidate (f m))
    by_cases hm : f m = id
    · have hs : (s.invalidate (f m)).sigBelow id =
          { s.sigBelow id with q := { (s.sigBelow id).q with validity := .invalid }, forced := false } := by
        rw [hm]
        exact State.sigBelow_putSig_same _ _ _ hd
      rw [hs] at hv hq
      exact ⟨hv, fun _ => hq (.inr rfl)⟩
    · have hs : (s.invalidate (f m)).sigBelow id = s.sigBelow id := State.sigBelow_putSig_other _ _ _ _ (Ne.symm hm)
      rw [hs] at hv hq
      refine ⟨hv, fun h => hq (h.imp_left ?_)⟩
      rintro ⟨x, hx, he⟩
      exact ⟨x, (List.mem_cons.1 hx).resolve_left (fun hxm => hm (hxm ▸ he)), he⟩

theorem State.invalidate_subs (s : State) (id : Nat) : (s.invalidate id).subs = s.subs := State.putSig_subs _ _ _

theorem State.invalidate_now (s : State) (id : Nat) : (s.invalidate id).now = s.now := State.putSig_now _ _ _

theorem State.sigBelow_event (s : State) {id : Nat} (code subj sub2 : Nat) (e : EvEpoch) (d : List Nat)
    (h : ¬(123648 ≤ id ∧ id < 123904)) : (s.event code subj sub2 e d).sigBelow id = s.sigBelow id := by
  obtain ⟨regs, w1c, log, nvm, he⟩ := (s.event_logOnly code subj sub2 e d).rest
  rw [he]
  unfold State.sigBelow State.sig
  rw [if_neg h, if_neg h]
  rfl

/-- Settles O36: repetition and discard are branches of the model; acceptance and expiry set the subscription before its signals. -/
theorem gooseCommandsComplete : Obligations.GooseCommandsComplete := by
  refine ⟨?_, ?_, ?_⟩
  · rintro s u i t0 n p x y hp rfl hnext hpub rfl rfl rfl
    change Host.Outcome.next (s.repeatGoose i) = _
    unfold State.repeatGoose
    rw [hp, hnext]
    exact congrArg Host.Outcome.next (if_neg (by simp [hpub]))
  · intro s u lane i n g c hrx hlo hhi hsub hjudge
    have hlen : frameLenOk g.snd.len = true := by simp [frameLenOk, hlo, hhi]
    have hu : u.now = s.now := by
      obtain ⟨lanes, hl⟩ := s.captureRx_lanes lane
      obtain ⟨partners, rfl⟩ := State.judgePinned_admitted hjudge
      rw [hl]
    have hgoose : s.goose lane g = if !c.passes g then (u.violation n lane 2).goDiscard lane
        else if (Tab.get u.subs {} i).stale g.stNum g.sqNum then u else (u.bumpF F.LN_GORX_ACC lane).acceptGoose i c g := by
      have hrx' : (s.captureRx lane).ethRx lane = true := by
        obtain ⟨lanes, hl⟩ := s.captureRx_lanes lane
        rw [hl]
        exact hrx
      have hsub' : (s.captureRx lane).img.goSubOf lane g = some (i, c) := by
        obtain ⟨lanes, hl⟩ := s.captureRx_lanes lane
        rw [hl]
        exact hsub
      unfold State.goose
      dsimp only
      rw [if_neg (by simp [hrx']), if_neg (by simp [hlen]), hsub']
      dsimp only
      rw [hjudge]
    refine ⟨fun hpass hstale => ⟨_, ?_, rfl, ?_⟩, fun hfail => ?_⟩
    · refine congrArg Host.Outcome.next (hgoose.trans ?_)
      rw [if_neg (by simp [hpass]), if_neg (by simp [hstale])]
    · rw [State.acceptGoose_sub]
      exact congrArg (fun t => ({ last := some (g.stNum, g.sqNum), expireAt := t + g.ttlMs * msClk } : SubSt)) hu
    · refine congrArg Host.Outcome.next (hgoose.trans ?_)
      rw [if_pos (by simp [hfail])]
  · intro s i st sq c hc hlast hexp
    have hexec : exec (.timeAllowedToLiveExpiry i) s = .next (((c.map.foldl (fun (s : State) (m : Nat × Nat) => s.invalidate m.2)
        { (s.advanceTo (Tab.get s.subs {} i).expireAt) with subs := Tab.set s.subs i { (Tab.get s.subs {} i) with expired := true } }).event
        0x0A01 i 0xFFFF .none (le4 st)).published) := by
      change Host.Outcome.next (s.expireGoose i) = _
      unfold State.expireGoose
      dsimp only
      rw [hc, hlast]
      exact congrArg Host.Outcome.next (if_neg (by rw [hexp]; decide))
    refine ⟨_, hexec, ?_, ?_, fun m hm hd => ?_⟩
    · rw [(State.published_pubOnly _).subs, State.event_subs, State.foldl_keeps (fun t => t.subs) _ (fun t (m : Nat × Nat) => t.invalidate_subs m.2)]
      rw [Tab.get_set_same]
    · rw [(State.published_pubOnly _).now, State.event_now, State.foldl_keeps (fun t => t.now) _ (fun t (m : Nat × Nat) => t.invalidate_now m.2)]
      rfl
    · have hd' : ¬(123648 ≤ m.2 ∧ m.2 < 123904) := by omega
      rw [State.sigBelow_published _ hd', State.sigBelow_event _ _ _ _ _ _ hd']
      obtain ⟨hv, hq⟩ := State.foldl_invalidate (fun m : Nat × Nat => m.2) hd' c.map
        { (s.advanceTo (Tab.get s.subs {} i).expireAt) with subs := Tab.set s.subs i { (Tab.get s.subs {} i) with expired := true } }
      exact ⟨hq (.inl ⟨m, hm, rfl⟩), hv⟩

end Sys2Proof.Machine
end

section
/-! PTP (R299 to R301). -/

namespace Sys2Proof.Machine

/-! ## What queueing and port records leave -/

/-- A queued frame leaves every port's PTP records. -/
theorem State.queueEth_ptp (s : State) (lane k : Nat) (f : EthFrame) : ((s.queueEth lane f).lane k).ptp = (s.lane k).ptp := by
  have hkeep : ∀ g : LaneSt → LaneSt, (∀ l, (g l).ptp = l.ptp) → ((s.updLane lane g).lane k).ptp = (s.lane k).ptp := by
    intro g hg
    by_cases h : k = lane
    · rw [h, State.lane_updLane, hg]
    · rw [State.lane_updLane_other _ _ _ _ h]
  unfold State.queueEth
  split
  · rfl
  split
  · split
    · rfl
    · exact hkeep _ (fun _ => rfl)
  · split
    · rfl
    · exact hkeep _ (fun _ => rfl)
  · exact hkeep _ (fun _ => rfl)

theorem State.queueEth_cfg (s : State) (lane : Nat) (f : EthFrame) : (s.queueEth lane f).cfg = s.cfg := by
  obtain ⟨_, _, _, _, _, h⟩ := (s.queueEth_pubOnly lane f).rest
  rw [h]

theorem State.queueEth_img (s : State) (lane : Nat) (f : EthFrame) : (s.queueEth lane f).img = s.img :=
  congrArg (fun c => c.getD {}) (s.queueEth_cfg lane f)

theorem State.lane_updPtp (s : State) (lane : Nat) (f : PtpSt → PtpSt) :
    (s.updPtp lane f).lane lane = { s.lane lane with ptp := f (s.lane lane).ptp } := State.lane_updLane _ _ _

theorem State.lane_updPtp_other (s : State) {lane k : Nat} (f : PtpSt → PtpSt) (h : k ≠ lane) :
    (s.updPtp lane f).lane k = s.lane k := State.lane_updLane_other _ _ _ _ h

theorem State.originate_master (s : State) (lane : Nat) (follow : Bool) :
    ((s.originate lane follow).lane lane).ptp.master = (s.lane lane).ptp.master ∧
    ((s.originate lane follow).lane lane).ptp.listening = (s.lane lane).ptp.listening := by
  unfold State.originate
  rw [State.queueEth_ptp, State.lane_updPtp]
  exact ⟨rfl, rfl⟩

theorem State.forwardPtp_none {s : State} {lane : Nat} (f : EthFrame) (h : (s.img.lane lane).pairLane = none) :
    s.forwardPtp lane f = s := by
  unfold State.forwardPtp
  rw [h]

theorem State.forwardPtp_some {s : State} {lane o : Nat} (f : EthFrame) (h : (s.img.lane lane).pairLane = some o) :
    s.forwardPtp lane f = (s.bumpF F.LN_PTPFWD_FWD lane).queueEth o f := by
  unfold State.forwardPtp
  rw [h]

theorem State.forwardPtp_ptp (s : State) (lane k : Nat) (f : EthFrame) : ((s.forwardPtp lane f).lane k).ptp = (s.lane k).ptp := by
  unfold State.forwardPtp
  split
  · exact State.queueEth_ptp _ _ _ _
  · rfl

/-! ## Messages that the port judges -/

section
variable {s u : State} {lane n : Nat} {m : PtpMsg}

/-- The port after a Sync of its clock (R299). -/
def State.synced (u : State) (lane : Nat) (m : PtpMsg) : State :=
  if u.fromMaster lane m = false then u else if m.twoStep then u.updPtp lane (fun p => { p with syncSeq := some m.seqId })
  else u.ptpUpdate lane m

theorem State.ptpSync_eq (h : s.judgePtp lane 2 m = (some n, u)) : s.ptpSync lane m =
    if ((u.synced lane m).img.lane lane).pairLane.isNone then u.synced lane m
    else
      let v := u.synced lane m
      let hold := m.twoStep && decide ((v.heldSums lane).length < 8)
      let w := if hold then v.updPtp lane (fun p => { p with
        held := v.heldSums lane ++ [(m.seqId, m.source, p.linkDelay, v.now)] }) else v
      w.forwardPtp lane { cls := 1, oneStep := !m.twoStep, corr := m.correction
                          resid := if hold || !m.twoStep then some (lane, m.seqId, m.source, w.rxStamp lane) else none } := by
  unfold State.ptpSync State.synced
  rw [h]
  simp only [Bool.not_eq_true'] <;> rfl

/-- The port after a Follow_Up to the Sync of its clock (R299). -/
def State.followed (u : State) (lane : Nat) (m : PtpMsg) : State :=
  if u.fromMaster lane m && (u.lane lane).ptp.syncSeq == some m.seqId
  then (u.updPtp lane (fun p => { p with syncSeq := none })).ptpUpdate lane m else u

theorem State.ptpFollowUp_eq (h : s.judgePtp lane 2 m = (some n, u)) : s.ptpFollowUp lane m =
    if ((u.followed lane m).img.lane lane).pairLane.isNone then u.followed lane m
    else
      let v := u.followed lane m
      let w := v.updPtp lane (fun p => { p with
        held := (v.heldSums lane).filter (fun h => !(h.1 == m.seqId && h.2.1 == m.source)) })
      match ((v.heldSums lane).find? (fun h => h.1 == m.seqId && h.2.1 == m.source)).map (fun h => h.2.2.1) with
      | some d => w.forwardPtp lane { cls := 1, corr := m.correction + d, await := w.syncWaits lane m }
      | none => w.incF F.LN_PTPFWD_NOMATCH lane := by
  unfold State.ptpFollowUp State.followed
  rw [h] <;> rfl

/-- The port after an Announce (R299). -/
theorem State.ptpAnnounce_eq (best : Bool) (h : s.judgePtp lane 2 m = (some n, u)) : s.ptpAnnounce lane m best =
    (if u.fromMaster lane m then u.updPtp lane (fun p => { p with announceAt := u.now })
      else if best then u.selectMaster lane m.source else u).forwardPtp lane { cls := 1 } := by
  unfold State.ptpAnnounce
  rw [h]

theorem State.ptpPass_eq (h : s.judgePtp lane 2 m = (some n, u)) : s.ptpPass lane m = u.forwardPtp lane { cls := 1 } := by
  unfold State.ptpPass
  rw [h]

end

/-- The port selects its master; the other ports of its time base have none. -/
theorem State.selectMaster_spec (s : State) (lane src : Nat) : ((s.selectMaster lane src).lane lane).ptp.master = some src ∧
    ∀ k, k < 32 → k ≠ lane → s.portTb k = s.portTb lane → ((s.selectMaster lane src).lane k).ptp.master = none := by
  unfold State.selectMaster
  dsimp only
  refine ⟨by rw [State.lane_updPtp], fun k hk hne htb => ?_⟩
  rw [State.lane_updPtp_other _ _ hne]
  have key : ∀ (l : List Nat) (t : State), t.cfg = s.cfg → (k ∈ l ∨ (t.lane k).ptp.master = none) →
      ((l.foldl (fun (s' : State) n => if n ≠ lane ∧ s'.portTb n = s.portTb lane then s'.updPtp n (fun p => { p with master := none })
        else s') t).lane k).ptp.master = none := by
    intro l
    induction l with
    | nil => exact fun t _ h => h.resolve_left (by simp)
    | cons n r ih =>
      intro t ht h
      rw [List.foldl_cons]
      by_cases hn : n = k
      · have hcond : n ≠ lane ∧ t.portTb n = s.portTb lane := by
          refine ⟨hn ▸ hne, ?_⟩
          rw [← htb, hn]
          unfold State.portTb State.img
          rw [ht]
        rw [if_pos hcond]
        exact ih _ ht (.inr (by rw [hn, State.lane_updPtp]))
      · refine ih _ ?_ (h.imp (fun h => (List.mem_cons.1 h).resolve_left (Ne.symm hn)) (fun h => ?_))
        · split
          · exact ht
          · exact ht
        · split
          · rw [State.lane_updPtp_other _ _ (Ne.symm hn)]
            exact h
          · exact h
  exact key _ s rfl (.inl (List.mem_range.2 hk))

/-- Settles O37: a message that the port judges good goes on with its branch; queueing and forwarding leave the port's records. -/
theorem ptpCommandsComplete : Obligations.PtpCommandsComplete := by
  refine ⟨?_, ?_, ?_, ?_, ?_, ?_, ?_, ?_, ?_⟩
  · intro s u v lane n m hj hv
    have heq := State.ptpSync_eq hj
    rw [show u.synced lane m = v from hv.symm] at heq
    refine ⟨fun hp => ?_, fun o hp h2 => ?_, fun o hp h2 hlt => ?_⟩
    · refine congrArg Host.Outcome.next (heq.trans (if_pos ?_))
      rw [hp]
      rfl
    · refine congrArg Host.Outcome.next (heq.trans ((if_neg ?_).trans ?_))
      · simp [hp]
      · simp only [h2, Bool.false_and, Bool.false_eq_true, if_false, Bool.not_false, Bool.or_true, if_true]
        exact State.forwardPtp_some _ hp
    · refine congrArg Host.Outcome.next (heq.trans ((if_neg ?_).trans ?_))
      · simp [hp]
      · have hstamp : ∀ f : PtpSt → PtpSt, (v.updPtp lane f).rxStamp lane = v.rxStamp lane := by
          intro f
          unfold State.rxStamp
          rw [State.lane_updPtp]
          rfl
        simp only [h2, hlt, decide_true, Bool.and_true, if_true, Bool.true_or, Bool.not_true, hstamp]
        exact State.forwardPtp_some _ hp
  · intro s u v lane n m hj hv
    have heq := State.ptpFollowUp_eq hj
    rw [show u.followed lane m = v from hv.symm] at heq
    refine ⟨fun hp => ?_, fun o w h hp hh hw => ?_⟩
    · refine congrArg Host.Outcome.next (heq.trans (if_pos ?_))
      rw [hp]
      rfl
    · have hw' : (w.img.lane lane).pairLane = some o := by
        rw [hw]
        exact hp
      rw [if_neg (by simp [hp])] at heq
      dsimp only at heq
      rw [← hw, ← hh] at heq
      refine ⟨fun hn => congrArg Host.Outcome.next (heq.trans ?_), fun x hx => congrArg Host.Outcome.next (heq.trans ?_)⟩
      · rw [hn]
        rfl
      · rw [hx]
        exact State.forwardPtp_some _ hw'
  · intro s u lane n m hj
    refine ⟨?_, fun hasked => ?_, fun d hseq => ?_⟩
    · change Host.Outcome.next (s.ptpPdelayReq lane m) = _
      rw [State.ptpPdelayReq, hj]
    · change Host.Outcome.next (s.ptpPdelayResp lane m) = _
      rw [State.ptpPdelayResp, hj]
      exact congrArg Host.Outcome.next (if_pos hasked)
    · have hexec : exec (.pdelayRespFollowUp lane m d) s =
          .next (u.updPtp lane (fun p => { p with pdelaySeq := none, linkDelay := (d : Int) })) := by
        change Host.Outcome.next (s.ptpPdelayFollow lane m d) = _
        rw [State.ptpPdelayFollow, hj]
        exact congrArg Host.Outcome.next (if_pos hseq)
      refine ⟨_, hexec, ?_, ?_, rfl⟩
      · rw [State.lane_updPtp]
      · rw [State.lane_updPtp]
  · intro s u lane n m hj hm
    obtain ⟨h1, h2⟩ := u.selectMaster_spec lane m.source
    have hexec : exec (.announce lane m true) s = .next ((u.selectMaster lane m.source).forwardPtp lane { cls := 1 }) := by
      refine congrArg Host.Outcome.next ((State.ptpAnnounce_eq true hj).trans ?_)
      rw [if_neg (by simp [hm]), if_pos rfl]
    refine ⟨_, hexec, ?_, fun k hk hne htb => ?_⟩
    · rw [State.forwardPtp_ptp, h1]
    · rw [State.forwardPtp_ptp, h2 k hk hne htb]
  · intro s u lane n m best hj hp
    refine ⟨fun hm => congrArg Host.Outcome.next ((State.ptpAnnounce_eq best hj).trans ?_),
      fun hm => congrArg Host.Outcome.next ((State.ptpAnnounce_eq false hj).trans ?_)⟩
    · rw [if_pos hm]
      exact State.forwardPtp_none _ hp
    · rw [if_neg (by simp [hm]), if_neg (by decide)]
      exact State.forwardPtp_none _ hp
  · intro s lane src hm
    refine ⟨_, congrArg Host.Outcome.next (if_pos ?_), ?_, rfl⟩
    · rw [hm]
      rfl
    · rw [State.lane_updPtp]
  · intro s u lane n o m hj hp
    have hpass : Host.Outcome.next (s.ptpPass lane m) =
        (.next ((u.bumpF F.LN_PTPFWD_FWD lane).queueEth o { cls := 1 }) : Host.Outcome State Fault Refusal) :=
      congrArg Host.Outcome.next ((State.ptpPass_eq hj).trans (State.forwardPtp_some _ hp))
    exact ⟨hpass, hpass⟩
  · intro s lane tb src htb hon hm
    have hport : ((((s.advanceTo (s.lane lane).ptp.nextAt).updPtp lane (fun p => { p with
        nextAt := max s.now (s.lane lane).ptp.nextAt + 1000 * msClk, pdelayAsked := true, pdelaySeq := none })).originate
        lane false).lane lane).ptp.master = some src := by
      rw [(State.originate_master _ _ _).1, State.lane_updPtp]
      exact hm
    change Host.Outcome.next (s.ptpInterval lane) = _
    unfold State.ptpInterval
    rw [htb]
    refine congrArg Host.Outcome.next ((if_neg (by simp [hon])).trans (if_pos ?_))
    exact (congrArg (fun o => Option.isSome o || _ || _) hport).trans rfl
  · intro s u lane tb htb hon hm hl hslave hu
    obtain ⟨hmaster, hlisten⟩ := u.originate_master lane false
    have hmaster' : ((u.originate lane false).lane lane).ptp.master = none := by
      rw [hmaster, hu, State.lane_updPtp]
      exact hm
    have hlisten' : ((u.originate lane false).lane lane).ptp.listening = false := by
      rw [hlisten, hu, State.lane_updPtp]
      exact hl
    have himg : (u.originate lane false).img = s.img := by
      rw [State.originate, State.queueEth_img, hu]
      rfl
    have hinterval : s.ptpInterval lane = if ((u.originate lane false).lane lane).ptp.master.isSome ||
          ((u.originate lane false).lane lane).ptp.listening || ((u.originate lane false).img.tb tb).slaveOnly then u.originate lane false
        else ((u.originate lane false).queueEth lane { cls := 1, prio := some (((u.originate lane false).img.tb tb).prio1,
          ((u.originate lane false).img.tb tb).prio2) }).originate lane true := by
      unfold State.ptpInterval
      rw [htb, hu]
      exact if_neg (by simp [hon])
    refine congrArg Host.Outcome.next (hinterval.trans ?_)
    rw [himg]
    exact if_neg (by simp [hmaster', hlisten', hslave])

end Sys2Proof.Machine
end

section
/-! The time bases (R292 to R298). -/

namespace Sys2Proof.Machine

/-! ## The counter (R292, R294) -/

/-- A step moves the counter by the step, modulo 2^32. -/
theorem State.tbNs_stepTb (s : State) (k : Nat) (d : Int) : (s.stepTb k d).tbNs k = unsext 32 (s.tbNs k + d) := by
  have hacc : (s.stepTb k d).tbAcc k s.now = s.tbAcc k s.now := by
    have hrate : (s.stepTb k d).getF F.TB_RATE_RATE k = s.getF F.TB_RATE_RATE k := State.getF_setF_apart _ _ _ _ (by decide)
    have htb : ∀ t t0 : Nat, (s.tb k).acc = t → (s.tb k).t0 = t0 → ((s.stepTb k d).tb k).acc = t ∧ ((s.stepTb k d).tb k).t0 = t0 := by
      rintro t t0 rfl rfl
      unfold State.stepTb
      rw [State.setF_tb, State.tb_updTb]
      exact ⟨rfl, rfl⟩
    obtain ⟨h1, h2⟩ := htb _ _ rfl rfl
    unfold State.tbAcc
    dsimp only
    rw [hrate, h1, h2]
  have hstep : ((s.stepTb k d).tb k).step = (s.tb k).step + s.stepBy k d := by
    unfold State.stepTb
    rw [State.setF_tb, State.tb_updTb]
  have hnow : (s.stepTb k d).now = s.now := rfl
  unfold State.tbNs State.tbNsAt
  rw [hnow, hacc, hstep, State.stepBy]
  generalize ((s.tbAcc k s.now / (6 * 2 ^ 40) : Nat) : Int) = a
  generalize (s.tb k).step = b
  unfold unsext
  split <;> omega

/-! ## The fields that the time bases' commands set -/

theorem State.aimPps_regsIn (s : State) (k : Nat) : State.RegsIn [F.TB_PPSAT_AT] s (s.aimPps k) := by
  unfold State.aimPps
  split
  · exact .refl _ _
  · exact (State.RegsIn.refl _ _).setF (by decide) _ _

/-- The next second aimed at is a register of its own. -/
theorem State.aimPps_rest (s : State) (k : Nat) : (s.aimPps k).tbs = s.tbs ∧ (s.aimPps k).now = s.now ∧
    (s.aimPps k).pins = s.pins := by
  unfold State.aimPps
  split <;> exact ⟨rfl, rfl, rfl⟩

theorem State.tb_of_tbs {s t : State} (h : t.tbs = s.tbs) (k : Nat) : t.tb k = s.tb k := by
  unfold State.tb
  rw [h]

theorem State.tbNs_congr {s t : State} {k : Nat} (htbs : t.tbs = s.tbs) (hnow : t.now = s.now)
    (hrate : t.getF F.TB_RATE_RATE k = s.getF F.TB_RATE_RATE k) : t.tbNs k = s.tbNs k := by
  unfold State.tbNs State.tbNsAt State.tbAcc
  rw [State.tb_of_tbs htbs, hnow, hrate]

/-- LOCK changes (R295): what setting it to 0 leaves. -/
theorem State.setLock_false_spec (s : State) (k : Nat) : (s.setLock k false).flag F.TB_STAT_LOCK k = false ∧
    (s.setLock k false).now = s.now ∧
    State.RegsIn ([F.TB_STAT_LOCK, F.TB_STAT_LOCKEVT, F.TB_STAT_HOLDOVER] ++ pubFields) s (s.setLock k false) ∧
    (s.flag F.TB_STAT_LOCK k = true → (s.setLock k false).flag F.TB_STAT_LOCKEVT k = true ∧
      (s.setLock k false).flag F.TB_STAT_HOLDOVER k = false) := by
  by_cases h : s.flag F.TB_STAT_LOCK k = false
  · have heq : s.setLock k false = s := if_pos h
    rw [heq]
    exact ⟨h, rfl, .refl _ _, fun h' => absurd (h.symm.trans h') (by decide)⟩
  · have heq : s.setLock k false = (((((s.setF F.TB_STAT_LOCK k (b2n false)).setF F.TB_STAT_LOCKEVT k 1).updTb k
        (fun x => { x with unlockedAt := s.now })).setF F.TB_STAT_HOLDOVER k 0)).published := if_neg h
    rw [heq]
    have hset : State.RegsIn ([F.TB_STAT_LOCK, F.TB_STAT_LOCKEVT, F.TB_STAT_HOLDOVER] ++ pubFields) s
        ((((s.setF F.TB_STAT_LOCK k (b2n false)).setF F.TB_STAT_LOCKEVT k 1).updTb k
          (fun x => { x with unlockedAt := s.now })).setF F.TB_STAT_HOLDOVER k 0) :=
      (((((State.RegsIn.refl _ s).setF (by decide) k _).setF (by decide) k _).of_regs (State.updTb_regs _ _ _)).setF
        (by decide) k _)
    have hpub := State.published_pubOnly ((((s.setF F.TB_STAT_LOCK k (b2n false)).setF F.TB_STAT_LOCKEVT k 1).updTb k
          (fun x => { x with unlockedAt := s.now })).setF F.TB_STAT_HOLDOVER k 0)
    refine ⟨?_, hpub.now, hset.trans (hpub.regs.mono (List.subset_append_right _ _)), fun _ => ⟨?_, ?_⟩⟩
    · rw [hpub.regs.flag (by decide), State.flag_setF_apart _ _ _ _ (by decide), State.updTb_flag,
        State.flag_setF_apart _ _ _ _ (by decide)]
      exact State.flag_setF_zero _ _ _ _
    · rw [hpub.regs.flag (by decide), State.flag_setF_apart _ _ _ _ (by decide), State.updTb_flag]
      exact State.flag_setF_one _ _ _ _ (by decide)
    · rw [hpub.regs.flag (by decide)]
      exact State.flag_setF_zero _ _ _ _

/-- The word of TB_RATE. -/
theorem State.writeWord_tbRate (s : State) {k : Nat} (hk : k < 4) (w : Nat) : s.writeWord (0x60010 + 0x100 * k) w = s.writeRate k w := by
  have hl : locate (0x60010 + 0x100 * k) = some (.tb, k, 0x10) := by
    interval_cases k <;> rfl
  unfold State.writeWord
  rw [hl]
  rfl

/-- The low 30 bits of a base pair's counter value are those of its nanoseconds (R296). -/
theorem baseCount_low (c ns : Nat) : (c + 2 ^ 32 - (c + 2 ^ 32 - ns % 2 ^ 30) % 2 ^ 30) % 2 ^ 32 % 2 ^ 30 = ns % 2 ^ 30 := by
  omega

/-- Settles O39: each command is a branch of its function; setting LOCK and aiming the PPS touch no register that a clause reads. -/
theorem timeBaseCommandsComplete : Obligations.TimeBaseCommandsComplete := by
  refine ⟨fun s k hk => ⟨?_, ?_, ?_, ?_, ?_, ?_, ?_, ?_, rfl⟩, fun s k w hk => ⟨fun hsrc => ?_, fun hsrc => ?_⟩⟩
  · rintro u hen hstep hupd rfl
    have hexec : exec (.timeBaseStep k) s = .next (((s.advanceTo (s.tb k).stepFrom).stepTb k
        (sext 32 (s.getF F.TB_OFFSET_OFFSET k))).aimPps k) := congrArg Host.Outcome.next (if_pos (by simp [hen, hstep, hupd]))
    generalize hu : s.advanceTo (s.tb k).stepFrom = u at hexec
    obtain ⟨htbs, hnow, _⟩ := (u.stepTb k (sext 32 (s.getF F.TB_OFFSET_OFFSET k))).aimPps_rest k
    have haim := (u.stepTb k (sext 32 (s.getF F.TB_OFFSET_OFFSET k))).aimPps_regsIn k
    refine ⟨_, hexec, ?_, ?_, ?_⟩
    · rw [haim.flag (by decide)]
      exact State.flag_setF_one _ _ _ _ (by decide)
    · rw [State.tbNs_congr htbs hnow (haim _ _ (by decide)), State.tbNs_stepTb, ← hu]
      rfl
    · rw [hnow, ← hu]
      rfl
  · rintro u hen rfl
    have hexec : exec (.enable k) s = .next ((((s.setF F.TB_STAT_EN k 1).setF F.TB_STAT_STEPPED k 0).updTb k
        (fun x => { x with enabledAt := s.now, lastUpd := none, okRun := 0, badRun := 0 })).aimPps k) :=
      congrArg Host.Outcome.next (if_neg (by simp [hen]))
    have hsrc : (((s.setF F.TB_STAT_EN k 1).setF F.TB_STAT_STEPPED k 0).updTb k
        (fun x => { x with enabledAt := s.now, lastUpd := none, okRun := 0, badRun := 0 })).tbSrc k = s.getF F.TB_CFG_SRC k := by
      unfold State.tbSrc
      rw [State.updTb_getF, State.getF_setF_apart _ _ _ _ (by decide), State.getF_setF_apart _ _ _ _ (by decide)]
    exact ⟨fun h => hexec.trans (congrArg Host.Outcome.next (if_pos (hsrc.trans h))),
      fun h => hexec.trans (congrArg Host.Outcome.next (if_neg (fun h' => h (hsrc.symm.trans h'))))⟩
  · obtain ⟨hlock, _, hregs, _⟩ := (s.setF F.TB_STAT_EN k 0).setLock_false_spec k
    refine ⟨_, rfl, ?_, hlock, ?_⟩
    · exact (hregs.flag (by decide)).trans (State.flag_setF_zero _ _ _ _)
    · exact (hregs _ _ (by decide)).trans (State.getF_setF_apart _ _ _ _ (by decide))
  · intro t0 hlock hupd
    have hexpiry : exec (.holdoverExpiry k) s =
        .next ((s.advanceTo (t0 + s.getF F.TB_CFG_HOLD k * 1000 * msClk)).setLock k false) := by
      change execHoldoverExpiry k s = _
      rw [execHoldoverExpiry, hlock, hupd]
    obtain ⟨hoff, hnow, _, hset⟩ := (s.advanceTo (t0 + s.getF F.TB_CFG_HOLD k * 1000 * msClk)).setLock_false_spec k
    obtain ⟨hevt, hhold⟩ := hset hlock
    refine ⟨⟨_, hexpiry, hoff, hevt, hhold, hnow⟩, ?_⟩
    change execHoldoverFlag k s = _
    rw [execHoldoverFlag, hlock, hupd]
  · intro rising o hedge hsrc
    have hsrc' : ((s.setF F.TB_PPSCAP_CAP k (s.tbNs k)).setF F.TB_STAT_PPSEVT k 1).tbSrc k = s.getF F.TB_CFG_SRC k := by
      unfold State.tbSrc
      rw [State.getF_setF_apart _ _ _ _ (by decide), State.getF_setF_apart _ _ _ _ (by decide)]
    refine congrArg Host.Outcome.next ((if_neg hedge).trans ?_)
    exact if_neg (fun h => hsrc (hsrc'.symm.trans h))
  · intro t0 hdue hout
    have hexec : exec (.ppsOutputRise k) s = .next ((((s.advanceTo t0).updTb k (fun x => { x with
        ppsHigh := some (max s.now t0) })).updPins (fun p => { p with ppsOut := setBit p.ppsOut k true })).aimPps k) := by
      change execPpsOutputRise k s = _
      rw [execPpsOutputRise, hdue]
      exact congrArg (fun t : State => Host.Outcome.next (t.aimPps k)) (if_pos (.inl hout))
    obtain ⟨htbs, hnow, hpins⟩ := (((s.advanceTo t0).updTb k (fun x => { x with
        ppsHigh := some (max s.now t0) })).updPins (fun p => { p with ppsOut := setBit p.ppsOut k true })).aimPps_rest k
    refine ⟨_, hexec, ?_, ?_, hnow⟩
    · rw [State.tb_of_tbs htbs, State.updPins_tb, State.tb_updTb]
    · rw [hpins]
      exact bitOf_setBit _ _ _
  · intro t0 hhigh
    have hexec : exec (.ppsOutputFall k) s = .next (((s.advanceTo (t0 + 100 * msClk)).updTb k (fun x => { x with
        ppsHigh := none })).updPins (fun p => { p with ppsOut := setBit p.ppsOut k false })) := by
      change execPpsOutputFall k s = _
      rw [execPpsOutputFall, hhigh]
    refine ⟨_, hexec, ?_, bitOf_setBit _ _ _, rfl, rfl⟩
    rw [State.updPins_tb, State.tb_updTb]
  · intro secs ns hlock hk0
    generalize hbase : (s.tbNs k + 2 ^ 32 - (s.tbNs k + 2 ^ 32 - ns % 2 ^ 30) % 2 ^ 30) % 2 ^ 32 = base
    have hexec : exec (.basePairWrite k secs ns) s = .next ((((s.updTb k (fun x => { x with
        baseC := base, baseS := secs, baseNs := ns })).setF F.TB_STAT_BASE k 1).setF F.TB_BASENS_BASENS k base).aimPps k) := by
      rw [← hbase]
      refine congrArg Host.Outcome.next ((if_neg (by simp [hlock])).trans ?_)
      exact if_neg (fun h => hk0 h.1)
    obtain ⟨htbs, _, _⟩ := (((s.updTb k (fun x => { x with
        baseC := base, baseS := secs, baseNs := ns })).setF F.TB_STAT_BASE k 1).setF F.TB_BASENS_BASENS k base).aimPps_rest k
    have haim := (((s.updTb k (fun x => { x with
        baseC := base, baseS := secs, baseNs := ns })).setF F.TB_STAT_BASE k 1).setF F.TB_BASENS_BASENS k base).aimPps_regsIn k
    have htb : ∀ t : State, t.tbs = (s.updTb k (fun x => { x with baseC := base, baseS := secs, baseNs := ns })).tbs →
        (t.tb k).baseS = secs ∧ (t.tb k).baseNs = ns := by
      intro t ht
      rw [State.tb_of_tbs ht, State.tb_updTb]
      exact ⟨rfl, rfl⟩
    obtain ⟨hs, hn⟩ := htb _ htbs
    refine ⟨_, hexec, ?_, hs, hn, ?_⟩
    · rw [haim.flag (by decide), State.flag_setF_apart _ _ _ _ (by decide)]
      exact State.flag_setF_one _ _ _ _ (by decide)
    · rw [haim _ _ (by decide), State.getF_setF_same, ← baseCount_low (s.tbNs k) ns, ← hbase]
      exact congrArg (· % 2 ^ 30) (Nat.mod_mod _ _)
  · refine ⟨congrArg Host.Outcome.next (if_pos hsrc), congrArg Host.Outcome.next (if_pos hsrc),
      congrArg Host.Outcome.next (if_pos hsrc), congrArg Host.Outcome.next ((s.writeWord_tbRate hk _).trans (if_pos hsrc))⟩
  · have hsrc' : ¬ s.tbSrc k ≠ 0 := fun h => h hsrc
    exact ⟨fun h => congrArg Host.Outcome.next ((if_neg hsrc').trans (if_pos h)),
      fun h => congrArg Host.Outcome.next ((if_neg hsrc').trans (if_neg (by simp [h]))),
      congrArg Host.Outcome.next (if_neg hsrc'), congrArg Host.Outcome.next (if_neg hsrc')⟩

end Sys2Proof.Machine
end

section
/-! Change packages (R373 to R379). -/

namespace Sys2Proof.Machine

/-- A change whose section 0 has sampled past its switch-over in cycle 1, while evaluation deadlines before it are still to come. -/
def samplesBeforeDeadlines : State :=
  { (({} : State).setF F.SEC_SWCYC_CYCLE 0 1) with change := some { image := {}, left := [0] }, secs := [(0, { nextSample := 129 })] }

/-- The switch-over waits for the deadlines (R36). -/
theorem samplesBeforeDeadlines_switches : ∃ t, exec (.switchOver 0) samplesBeforeDeadlines = .next t ∧
    t.flag F.SEC_SWSTAT_DONE 0 = false := ⟨_, rfl, by decide +kernel⟩

/-- Refutes O48: a section that has sampled past its switch-over does not switch while a deadline before it is to come; the statement asks
for the sampling alone. -/
theorem not_changePackageCommandsComplete : ¬ Obligations.ChangePackageCommandsComplete := by
  intro h
  obtain ⟨_, _, hswitch, _⟩ := h
  obtain ⟨t, ht, _, _, hdone, _⟩ := hswitch samplesBeforeDeadlines 0 1 { image := {}, left := [0] } (by decide) rfl (by decide)
    (by decide +kernel) (by decide +kernel)
  obtain ⟨u, hu, hnot⟩ := samplesBeforeDeadlines_switches
  obtain rfl : t = u := by simpa using ht.symm.trans hu
  exact absurd (hdone.symm.trans hnot) (by decide)

end Sys2Proof.Machine
end

section
/-! Sampled values: the cutoff, reception and publication (R79, R281, R284). -/

namespace Sys2Proof.Machine

/-! ## The registers that reception writes -/

def svFields : List Fld := [F.SEC_SVCNT_REJECT, F.SEC_SVCNT_INVAL, F.SEC_SVCNT_QUAD]

/-- `s` differs from `r`, as to registers, in the counters of sampled values alone. -/
def State.SvRegs (r s : State) : Prop := State.RegsIn svFields r s

theorem State.SvRegs.incF {r s : State} (h : r.SvRegs s) {f : Fld} (hf : f ∈ svFields) (i : Nat) : r.SvRegs (s.incF f i) :=
  State.RegsIn.incF h hf i _

theorem State.SvRegs.of_regs {r s t : State} (h : r.SvRegs s) (ht : t.regs = s.regs) : r.SvRegs t := State.RegsIn.of_regs h ht

theorem State.SvRegs.foldl {α : Type} {r s : State} (h : r.SvRegs s) (f : State → α → State) (l : List α)
    (hf : ∀ t x, r.SvRegs t → r.SvRegs (f t x)) : r.SvRegs (l.foldl f s) :=
  List.foldlRecOn (motive := fun t => r.SvRegs t) l f h (fun t ht x _ => hf t x ht)

theorem State.noteRow_regs (s : State) (k grp row at_ chan word : Nat) : (s.noteRow k grp row at_ chan word).regs = s.regs := by
  unfold State.noteRow
  split
  · dsimp only
    split
    · rfl
    · split <;> rfl
  · rfl

theorem State.svRow_regs (s : State) (k : Nat) (c : SvSub) (g : Nat) (vals : List (Int × Nat)) : (s.svRow k c g vals).regs = s.regs := by
  unfold State.svRow
  exact State.foldl_keeps (fun t => t.regs) _ (fun t p => State.foldl_keeps (fun t => t.regs) _ (fun t fc => t.noteRow_regs _ _ _ _ _ _) _ _) _ _

theorem State.SvRegs.addPoint {r s : State} (h : r.SvRegs s) (sub : Nat) (c : SvSub) (n synch : Nat) (vals : List (Int × Nat)) :
    r.SvRegs (s.addPoint sub c n synch vals) := by
  unfold State.addPoint
  simp only []
  split
  · exact h.incF (by decide) _
  split
  · exact h
  split
  · exact h
  · exact h.of_regs ((State.svRow_regs _ _ _ _ _).trans (State.updSec_regs _ _ _))

theorem State.SvRegs.svForm {r s : State} (h : r.SvRegs s) (sub : Nat) (c : SvSub) (e : Nat) (pts : List (Option (List (Int × Nat))))
    (mu : Rat) : r.SvRegs (s.svForm sub c e pts mu) := by
  unfold State.svForm
  dsimp only
  split
  · exact (h.incF (f := F.SEC_SVCNT_QUAD) (by decide) _).of_regs (State.updSec_regs _ _ _)
  split
  · exact (h.incF (f := F.SEC_SVCNT_INVAL) (by decide) _).of_regs (State.updSec_regs _ _ _)
  · exact h.of_regs (State.updSec_regs _ _ _)

theorem State.SvRegs.svRun {r s : State} (h : r.SvRegs s) (sub : Nat) (c : SvSub) : r.SvRegs (s.svRun sub c) := by
  unfold State.svRun
  refine h.foldl _ _ (fun t x ht => ?_)
  dsimp only
  split
  · exact ht.svForm _ _ _ _ _
  · exact ht

theorem State.svAccept_acc (s : State) (lane sub : Nat) (c : SvSub) (f : SvFrame) :
    (s.svAccept lane sub c f).getF F.LN_SVRX_ACC lane = (s.getF F.LN_SVRX_ACC lane + 1) % 2 ^ F.LN_SVRX_ACC.width := by
  have h : (s.bumpF F.LN_SVRX_ACC lane).SvRegs (s.svAccept lane sub c f) := by
    unfold State.svAccept
    exact (State.SvRegs.foldl (State.RegsIn.refl _ _) _ _ (fun t x ht => ht.addPoint _ _ _ _ _)).svRun _ _
  exact (h _ _ (by decide)).trans (State.getF_setF_same _ _ _ _ _)

/-! ## The cutoff (R79) -/

/-- The epoch formed is behind the next one to form. -/
theorem nextForm_gt (l : List Nat) (e : Nat) : e < nextForm (e :: l) e := by
  unfold nextForm
  cases h : (List.range ((e :: l).length + 1)).find? (fun i => !(e :: l).contains (e + i)) with
  | none => exact Nat.lt_succ_of_le (Nat.le_add_right _ _)
  | some i =>
    have hi := List.find?_some h
    have hpos : i ≠ 0 := by
      rintro rfl
      simp at hi
    exact Nat.lt_add_of_pos_right (Nat.pos_of_ne_zero hpos)

/-- Forming an epoch of a stream moves that stream's next epoch on, and no other's. -/
theorem State.svForm_next (s : State) (sub : Nat) (c : SvSub) (e : Nat) (pts : List (Option (List (Int × Nat)))) (mu : Rat)
    (h : Tab.get (s.sec c.section_).svNext 0 sub = e) :
    e < Tab.get ((s.svForm sub c e pts mu).sec c.section_).svNext 0 sub ∧
    (∀ m, m ≠ sub → Tab.get ((s.svForm sub c e pts mu).sec c.section_).svNext 0 m = Tab.get (s.sec c.section_).svNext 0 m) ∧
    (s.svForm sub c e pts mu).now = s.now := by
  have key : ∀ (u : State) (items : List IngressItem), u.secs = s.secs → u.now = s.now →
      e < Tab.get ((u.updSec c.section_ (fun x => { x with toIngress := x.toIngress ++ items }.svFormed sub e)).sec c.section_).svNext 0 sub ∧
      (∀ m, m ≠ sub → Tab.get ((u.updSec c.section_ (fun x => { x with toIngress := x.toIngress ++ items }.svFormed sub e)).sec
        c.section_).svNext 0 m = Tab.get (s.sec c.section_).svNext 0 m) ∧
      (u.updSec c.section_ (fun x => { x with toIngress := x.toIngress ++ items }.svFormed sub e)).now = s.now := by
    intro u items hu hnow
    have hsec : u.sec c.section_ = s.sec c.section_ := by
      unfold State.sec
      rw [hu]
    rw [State.sec_updSec, hsec]
    unfold SecSt.svFormed
    dsimp only
    refine ⟨?_, fun m hm => Tab.get_set_other _ _ _ _ _ hm, hnow⟩
    rw [Tab.get_set_same, h]
    simp only [List.filter_cons, beq_self_eq_true, if_true, List.map_cons]
    exact nextForm_gt _ _
  unfold State.svForm
  dsimp only
  split
  · exact key _ _ rfl rfl
  split
  · exact key _ _ rfl rfl
  · exact key _ _ rfl rfl

/-- What the cutoff does for one stream. -/
def State.cutoffOne (s : State) (k e : Nat) (r : EpochRec) (p : Nat × SvSub) : State :=
  if Tab.get (s.sec k).svNext 0 p.1 = e then s.svForm p.1 p.2 e (s.svAround p.1 p.2 r).1 (s.svAround p.1 p.2 r).2 else s

theorem State.cutoffOne_next (s : State) {k e : Nat} (r : EpochRec) {p : Nat × SvSub} (hp : p.2.section_ = k) (m : Nat) :
    (e < Tab.get (s.sec k).svNext 0 m → e < Tab.get ((s.cutoffOne k e r p).sec k).svNext 0 m) ∧
    (Tab.get (s.sec k).svNext 0 m = e → if p.1 = m then e < Tab.get ((s.cutoffOne k e r p).sec k).svNext 0 m
      else Tab.get ((s.cutoffOne k e r p).sec k).svNext 0 m = e) ∧ (s.cutoffOne k e r p).now = s.now := by
  unfold State.cutoffOne
  by_cases h : Tab.get (s.sec k).svNext 0 p.1 = e
  · rw [if_pos h]
    obtain ⟨hsame, hother, hnow⟩ := s.svForm_next p.1 p.2 e (s.svAround p.1 p.2 r).1 (s.svAround p.1 p.2 r).2 (hp ▸ h)
    rw [hp] at hsame hother
    by_cases hm : p.1 = m
    · rw [← hm, if_pos rfl]
      exact ⟨fun _ => hsame, fun _ => hsame, hnow⟩
    · rw [if_neg hm, hother m (Ne.symm hm)]
      exact ⟨id, id, hnow⟩
  · rw [if_neg h]
    refine ⟨id, fun hm => ?_, rfl⟩
    split
    next he => exact absurd (he ▸ hm) h
    · exact hm

/-- After the cutoff every stream that lacked the epoch is past it. -/
theorem State.foldl_cutoffOne {k e : Nat} (r : EpochRec) (m : Nat) (l : List (Nat × SvSub)) (hl : ∀ p ∈ l, p.2.section_ = k) : ∀ s : State,
    ((e < Tab.get (s.sec k).svNext 0 m ∨ Tab.get (s.sec k).svNext 0 m = e ∧ ∃ p ∈ l, p.1 = m) →
      e < Tab.get ((l.foldl (fun s p => s.cutoffOne k e r p) s).sec k).svNext 0 m) ∧
    (l.foldl (fun s p => s.cutoffOne k e r p) s).now = s.now := by
  induction l with
  | nil => exact fun s => ⟨fun h => h.resolve_right (by simp), rfl⟩
  | cons p q ih =>
    intro s
    rw [List.foldl_cons]
    obtain ⟨hgt, heq, hnow⟩ := s.cutoffOne_next r (hl p List.mem_cons_self) m
    obtain ⟨ih1, ih2⟩ := ih (fun x hx => hl x (List.mem_cons_of_mem _ hx)) (s.cutoffOne k e r p)
    refine ⟨fun h => ih1 ?_, ih2.trans hnow⟩
    obtain h | ⟨h, x, hx, hxm⟩ := h
    · exact .inl (hgt h)
    · have := heq h
      by_cases hpm : p.1 = m
      · rw [if_pos hpm] at this
        exact .inl this
      · rw [if_neg hpm] at this
        exact .inr ⟨this, x, (List.mem_cons.1 hx).resolve_left (fun hxp => hpm (hxp ▸ hxm)), hxm⟩

/-- Settles O13: the cutoff moves each stream past the epoch, reception counts in a register of its own, the publication is one store. -/
theorem sampledValueCommandsComplete : Obligations.SampledValueCommandsComplete := by
  refine ⟨?_, ?_, ?_⟩
  · intro s k e r hmin hrec
    generalize hl : s.img.svSubs.filter (fun p => p.2.section_ == k) = l at hmin
    have hexec : exec (.resampleCutoff k) s = .next (l.foldl (fun s p => s.cutoffOne k e r p)
        (s.advanceTo ((s.sec k).clockOf ((512 * (e + (s.img.sec k).delay) : Nat) - 32 : Rat)))) := by
      change Host.Outcome.next (s.svCutoff k) = _
      unfold State.svCutoff
      simp only [hl, hmin, hrec]
      rfl
    have hsec : ∀ p ∈ l, p.2.section_ = k := by
      rw [← hl]
      intro p hp
      simpa using (List.mem_filter.1 hp).2
    refine ⟨_, hexec, ?_, fun p hp hk hnext => ?_⟩
    · rw [(State.foldl_cutoffOne r 0 l hsec _).2]
      exact le_max_left _ _
    · refine (State.foldl_cutoffOne r p.1 l hsec _).1 (.inr ⟨hnext, p, ?_, rfl⟩)
      rw [← hl]
      exact List.mem_filter.2 ⟨hp, by simpa using hk⟩
  · intro s u lane n sub c f _ _ hrx hlen hsub hjudge hpass
    obtain ⟨lanes, hcap⟩ := s.captureRx_lanes lane
    have hexec : exec (.svFrame lane f) s = .next (u.svAccept lane sub c f) := by
      have hrx' : (s.captureRx lane).ethRx lane = true := by
        rw [hcap]
        exact hrx
      have hsub' : (s.captureRx lane).img.svSubOf lane f = some (sub, c) := by
        rw [hcap]
        exact hsub
      change Host.Outcome.next (s.svFrame lane f) = _
      unfold State.svFrame
      simp only []
      rw [if_neg (by simp [hrx']), if_neg (by simp [hlen]), hsub']
      simp only []
      rw [hjudge]
      exact congrArg Host.Outcome.next (if_pos hpass)
    exact ⟨_, hexec, rfl, u.svAccept_acc lane sub c f⟩
  · intro s pub n g p c hp hc hdate hpub hrun hn
    generalize ho : ({ n := n, synch := s.smpSynch (s.img.sec (p.feeder / 64)).stampTb
                       values := (List.range 8).map (fun ch => s.svValue (p.feeder / 64) c ch (g * 1000000000 / 4800)) } : SvOut) = o
    have hexec : exec (.svPublication pub n) s = .next (p.lanes.foldl (fun s l => s.queueEth l
        { cls := 3, len := p.frameLen, sv := some (pub, o) }) { s with svOuts := Tab.set s.svOuts pub o }) := by
      have hcast : (((g * 1000000000 : Nat) : Rat) / 4800) = g * 1000000000 / 4800 := by push_cast; rfl
      change Host.Outcome.next (s.svPublish pub n) = _
      unfold State.svPublish
      simp only [hp, hc, hdate, hcast]
      rw [if_neg (by simp [hpub, hrun, hn]), ho]
    refine ⟨_, hexec, ?_⟩
    have hkeep : ∀ (t : State) (l : Nat) (x : EthFrame), (t.queueEth l x).svOuts = t.svOuts := by
      intro t l x
      obtain ⟨_, _, _, _, _, h⟩ := (t.queueEth_pubOnly l x).rest
      rw [h]
    rw [State.foldl_keeps (fun t => t.svOuts) _ (fun t l => hkeep t l _)]
    exact Tab.find_set_same _ _ _

end Sys2Proof.Machine
end

section
/-! The rank ingress and the section board (R16, R84, R161 to R164, R196). -/

namespace Sys2Proof.Machine

/-! ## What the confirm unit leaves of bursts (R196, R201) -/

/-- Time, the items on their way and the bursts that feeders hold are the same. -/
structure State.HoldsBursts (r s : State) : Prop where
  now : s.now = r.now
  items : ∀ k, (s.sec k).toIngress = (r.sec k).toIngress
  bursts : ∀ f, (s.feeder f).bursts = (r.feeder f).bursts

theorem State.HoldsBursts.refl (s : State) : s.HoldsBursts s := ⟨rfl, fun _ => rfl, fun _ => rfl⟩

theorem State.HoldsBursts.trans {a b c : State} (h : a.HoldsBursts b) (g : b.HoldsBursts c) : a.HoldsBursts c :=
  ⟨g.now.trans h.now, fun k => (g.items k).trans (h.items k), fun f => (g.bursts f).trans (h.bursts f)⟩

theorem State.HoldsBursts.foldl {α : Type} {r s : State} (h : r.HoldsBursts s) (f : State → α → State)
    (hf : ∀ (t : State) x, t.HoldsBursts (f t x)) (l : List α) : r.HoldsBursts (l.foldl f s) :=
  List.foldlRecOn (motive := fun t => r.HoldsBursts t) l f h (fun t ht x _ => ht.trans (hf t x))

theorem State.PubOnly.holdsBursts {r s : State} (h : r.PubOnly s) : r.HoldsBursts s := by
  refine ⟨h.now, fun k => ?_, fun f => ?_⟩
  · unfold State.sec
    rw [h.secs]
  · unfold State.feeder
    rw [h.feeders]

theorem State.updSec_holdsBursts (s : State) (k : Nat) {g : SecSt → SecSt} (hg : ∀ x, (g x).toIngress = x.toIngress) :
    s.HoldsBursts (s.updSec k g) := by
  refine ⟨rfl, fun m => ?_, fun _ => rfl⟩
  by_cases h : m = k
  · rw [h, State.sec_updSec, hg]
  · rw [State.sec_updSec_other _ _ _ _ h]

theorem State.updFeeder_holdsBursts (s : State) (f : Nat) {g : FeederSt → FeederSt} (hg : ∀ x, (g x).bursts = x.bursts) :
    s.HoldsBursts (s.updFeeder f g) := by
  refine ⟨rfl, fun _ => rfl, fun m => ?_⟩
  by_cases h : m = f
  · rw [h, State.feeder_updFeeder, hg]
  · rw [State.feeder_updFeeder_other _ _ _ _ h]

theorem State.examineGrid_holdsBursts (s : State) (id f n e : Nat) (c : FeederCfg) (v : Rat) (q : Quality) :
    s.HoldsBursts (s.examineGrid id f n e c v q) := by
  unfold State.examineGrid
  split
  · exact .refl s
  split
  · exact .refl s
  split
  · exact (s.squash_pubOnly _ _).holdsBursts
  · exact ⟨rfl, fun _ => rfl, fun _ => rfl⟩

theorem State.auditGrid_holdsBursts (s : State) (eng f n e : Nat) (c : FeederCfg) (v : Rat) :
    s.HoldsBursts (s.auditGrid eng f n e c v) := by
  unfold State.auditGrid
  refine (State.HoldsBursts.refl s).foldl _ (fun t p => ?_) _
  split
  · exact .refl t
  split
  · exact .refl t
  have hinc : t.HoldsBursts (t.incF F.SEC_PLYSTAT_AUDIT (eng / 8)) := ⟨rfl, fun _ => rfl, fun _ => rfl⟩
  dsimp only
  split
  · exact hinc.trans (State.updSec_holdsBursts _ _ (fun _ => rfl))
  · exact hinc.trans (State.updFeeder_holdsBursts _ _ (fun _ => rfl))

theorem State.examine_holdsBursts (s : State) (f src e : Nat) (l : List (Option (Int × Quality))) : s.HoldsBursts (s.examine f src e l) := by
  unfold State.examine
  split
  · exact .refl s
  refine (State.HoldsBursts.refl s).foldl _ (fun t n => ?_) _
  split
  · exact .refl t
  split
  · exact .refl t
  exact ((State.HoldsBursts.refl t).foldl _ (fun u id => u.examineGrid_holdsBursts _ _ _ _ _ _ _) _).foldl _
    (fun u r => u.auditGrid_holdsBursts _ _ _ _ _ _) _

/-- A burst that arrives in time with room joins the bursts of its feeder. -/
theorem State.burstArrives_taken {s : State} {k f src e : Nat} {l : List (Option (Int × Quality))}
    (hdue : ¬(e < (s.sec k).nextDue ∨ s.arrived k (s.dueAngle k e) = true)) (hroom : s.heldBursts k < 2048) :
    ((s.burstArrives k f src e l).sec k).toIngress = (s.sec k).toIngress ∧
    ((s.burstArrives k f src e l).feeder f).bursts = (s.feeder f).bursts ++ [(src, e, l)] ∧ (s.burstArrives k f src e l).now = s.now := by
  generalize hu : ((s.bumpF F.SEC_INGSTAT_BURSTS k).brim F.DEV_BRIM0_INGR (s.heldBursts k + 1)).updFeeder f
    (fun x => { x with bursts := x.bursts ++ [(src, e, l)] }) = u
  have heq : s.burstArrives k f src e l = (u.examine f src e l).updEngine ((u.examine f src e l).feeder f).engine
      (fun g => { g with roundDue := true }) := by
    unfold State.burstArrives
    rw [if_neg hdue]
    dsimp only
    rw [if_neg (Nat.not_le.2 hroom), hu]
  have hkeep := u.examine_holdsBursts f src e l
  have hfeeder : (u.feeder f).bursts = (s.feeder f).bursts ++ [(src, e, l)] := by
    rw [← hu, State.feeder_updFeeder]
    rfl
  have hsec : u.sec k = s.sec k := by
    rw [← hu]
    rfl
  have hnow : u.now = s.now := by
    rw [← hu]
    rfl
  rw [heq]
  refine ⟨?_, ?_, hkeep.now.trans hnow⟩
  · rw [State.updEngine_sec, hkeep.items, hsec]
  · rw [State.updEngine_feeder, hkeep.bursts, hfeeder]

/-! ## Measurement parts (R161 to R164) -/

theorem SecSt.page_epoch (x : SecSt) (e : Nat) : (x.page e).epoch = e := by
  unfold SecSt.page
  dsimp only
  split
  · assumption
  · rfl

/-- A page written reads as written. -/
theorem State.page_updPage (s : State) (k e : Nat) {g : Page → Page} (hg : ∀ p, (g p).epoch = p.epoch) :
    ((s.updPage k e g).sec k).page e = g ((s.sec k).page e) := by
  unfold State.updPage
  rw [State.sec_updSec]
  unfold SecSt.page
  dsimp only
  rw [Tab.get_set_same]
  exact if_pos ((hg _).trans ((s.sec k).page_epoch e))

theorem State.substRecord_page (s : State) (k e f part : Nat) : ((s.substRecord k e f part).sec k).page e = ((s.sec k).page e) ∧
    (s.substRecord k e f part).now = s.now := by
  unfold State.substRecord
  refine ⟨?_, by rw [State.event_now]; rfl⟩
  have hpages : ∀ t : State, ((t.updSec k (fun x => { x with substNow := true })).sec k).page e = (t.sec k).page e := by
    intro t
    rw [State.sec_updSec]
    rfl
  unfold State.sec
  rw [State.event_secs]
  exact hpages _

/-- The part of a feeder that is missing at the cutoff is substituted (R163). -/
def State.substMeas (s : State) (k e f : Nat) : State :=
  if (Tab.find ((s.sec k).page e).meas f).isSome then s
  else (s.updPage k e (fun g => { g with meas := Tab.set g.meas f MeasPart.substituted })).substRecord k e f 0

theorem State.substMeas_spec (s : State) (k e f m : Nat) : (s.substMeas k e f).now = s.now ∧
    Tab.find (((s.substMeas k e f).sec k).page e).meas m = if m = f
      then some ((Tab.find ((s.sec k).page e).meas m).getD MeasPart.substituted) else Tab.find ((s.sec k).page e).meas m := by
  unfold State.substMeas
  split
  next h =>
    obtain ⟨v, hv⟩ := Option.isSome_iff_exists.1 h
    refine ⟨rfl, ?_⟩
    split
    next hm => rw [hm, hv]; rfl
    · rfl
  next h =>
    have hnone : Tab.find ((s.sec k).page e).meas f = none := by simpa using h
    obtain ⟨hpage, hnow⟩ := (s.updPage k e (fun g => { g with meas := Tab.set g.meas f MeasPart.substituted })).substRecord_page k e f 0
    refine ⟨hnow, ?_⟩
    rw [hpage, State.page_updPage]
    · dsimp only
      split
      next hm => rw [hm, hnone, Tab.find_set_same]; rfl
      next hm => exact Tab.find_set_other _ _ _ _ hm
    · exact fun _ => rfl

/-- After the cutoff every listed feeder has its part, or a substituted one. -/
theorem State.foldl_substMeas {α : Type} (f : α → Nat) (k e m : Nat) (l : List α) : ∀ s : State,
    (l.foldl (fun s p => s.substMeas k e (f p)) s).now = s.now ∧
    Tab.find (((l.foldl (fun s p => s.substMeas k e (f p)) s).sec k).page e).meas m = if (∃ p ∈ l, f p = m)
      then some ((Tab.find ((s.sec k).page e).meas m).getD MeasPart.substituted) else Tab.find ((s.sec k).page e).meas m := by
  induction l with
  | nil => exact fun s => ⟨rfl, by simp⟩
  | cons p r ih =>
    intro s
    obtain ⟨hnow, hfind⟩ := s.substMeas_spec k e (f p) m
    obtain ⟨ih1, ih2⟩ := ih (s.substMeas k e (f p))
    rw [List.foldl_cons]
    refine ⟨ih1.trans hnow, ih2.trans ?_⟩
    rw [hfind]
    by_cases hp : m = f p
    · have hex : ∃ q ∈ p :: r, f q = m := ⟨p, List.mem_cons_self, hp.symm⟩
      rw [if_pos hp, if_pos hex]
      split <;> rfl
    · have hiff : (∃ q ∈ p :: r, f q = m) ↔ ∃ q ∈ r, f q = m := by
        simp only [List.mem_cons, exists_eq_or_imp]
        exact or_iff_right (Ne.symm hp)
      simp only [hiff, if_neg hp]

/-- Taking an item off the way to the ingress leaves what a burst is judged by. -/
theorem State.arrived_eraseItem (s : State) (k n e : Nat) {u : State}
    (hu : u = s.updSec k (fun x => { x with toIngress := x.toIngress.eraseIdx n })) :
    (u.sec k).nextDue = (s.sec k).nextDue ∧ u.arrived k (u.dueAngle k e) = s.arrived k (s.dueAngle k e) := by
  have hsec : u.sec k = { s.sec k with toIngress := (s.sec k).toIngress.eraseIdx n } := by
    rw [hu, State.sec_updSec]
  have himg : u.img = s.img ∧ u.oldCfg = s.oldCfg ∧ u.now = s.now := by
    rw [hu]
    exact ⟨rfl, rfl, rfl⟩
  obtain ⟨hi, ho, hn⟩ := himg
  unfold State.arrived State.dueAngle State.delayOf State.imgAt State.theta
  rw [hsec, hi, ho, hn]
  exact ⟨rfl, rfl⟩

/-- Settles O16: what the ingress, the board and the cutoff do is a branch each; the substituted parts need the induction over the feeders. -/
theorem ingressAndBoardCommandsComplete : Obligations.IngressAndBoardCommandsComplete := by
  refine ⟨?_, ?_, ?_, ?_, ?_, ?_⟩
  · intro s k n f src e l hitem hnext harr hroom
    have hexec : exec (.ingressArrival k n) s =
        .next ((s.updSec k (fun x => { x with toIngress := x.toIngress.eraseIdx n })).burstArrives k f src e l) := by
      change Host.Outcome.next (s.ingress k n) = _
      unfold State.ingress
      rw [hitem]
    generalize hu : s.updSec k (fun x => { x with toIngress := x.toIngress.eraseIdx n }) = u at hexec
    obtain ⟨hdue, harr'⟩ := s.arrived_eraseItem k n e hu.symm
    have hin : ¬(e < (u.sec k).nextDue ∨ u.arrived k (u.dueAngle k e) = true) := by
      rw [hdue, harr', harr]
      exact fun h => h.elim (Nat.not_lt.2 hnext) (by decide)
    have hroom' : u.heldBursts k < 2048 := by
      rw [← hu]
      exact hroom
    obtain ⟨hitems, hbursts, hnow⟩ := State.burstArrives_taken (l := l) (f := f) (src := src) hin hroom'
    refine ⟨_, hexec, hitems.trans ?_, hbursts.trans ?_, hnow.trans ?_⟩
    · rw [← hu, State.sec_updSec]
    · rw [← hu]
      rfl
    · rw [← hu]
      rfl
  · intro s k n f src e l hitem hlate
    change Host.Outcome.next (s.ingress k n) = _
    unfold State.ingress
    rw [hitem]
    dsimp only
    generalize hu : s.updSec k (fun x => { x with toIngress := x.toIngress.eraseIdx n }) = u
    obtain ⟨hdue, harr⟩ := s.arrived_eraseItem k n e hu.symm
    exact congrArg Host.Outcome.next (if_pos (by rw [hdue, harr]; exact hlate))
  · intro s f e hopen hlate
    have hwrite : s.writeMeas f = if s.partLate (f / 64) e f || !s.boardRoom (f / 64)
        then (s.updFeeder f (fun x => { x.clearSat with measOpen := none })).lateCount (f / 64)
        else ((s.updFeeder f (fun x => { x.clearSat with measOpen := none })).updPage (f / 64) e (fun g =>
          { g with meas := Tab.set g.meas f (s.feeder f).clearSat.measPart })).brim F.DEV_BRIM1_BOARD (s.boardFill (f / 64) + 1) := by
      unfold State.writeMeas
      rw [hopen]
      rfl
    refine ⟨fun hroom => congrArg Host.Outcome.next (hwrite.trans (if_neg ?_)),
      fun hroom => congrArg Host.Outcome.next (hwrite.trans (if_pos ?_))⟩
    · simp [hlate, hroom]
    · simp [hroom]
  · intro s k f hlate
    change Host.Outcome.next (s.lateContribution k) = _
    unfold State.lateContribution
    rw [hlate]
    rfl
  · intro s k e hopen
    have hexec : exec (.contributionCutoff k) s = .next (((s.imgAt k e).feedersOf k).foldl (fun s p => s.substMeas k e p.1)
        (s.advanceTo (s.angleClk k (s.cutoffAngle k e)))) := by
      change Host.Outcome.next (s.cutoff k) = _
      unfold State.cutoff
      rw [hopen]
      rfl
    have hspec := fun m => State.foldl_substMeas (fun p : Nat × FeederCfg => p.1) k e m ((s.imgAt k e).feedersOf k)
      (s.advanceTo (s.angleClk k (s.cutoffAngle k e)))
    refine ⟨_, hexec, (hspec 0).1, fun p hp => ?_⟩
    rw [(hspec p.1).2, if_pos ⟨p, hp, rfl⟩]
    rfl
  · intro s f i c src hc hsrc hrun hlost
    change execSourceLost f i s = _
    unfold execSourceLost
    rw [hc]
    dsimp only [Option.bind_some]
    rw [hsrc]
    exact congrArg Host.Outcome.next (if_pos (by simp [hrun, hlost]))

end Sys2Proof.Machine
end

section
/-! Events with an instant of their own inside an evaluation (R96, R122, R153), and events inside the section evaluation (R172, R175, R180). -/

namespace Sys2Proof.Machine

/-! ## Inside a feeder's evaluation -/

/-- The index that `findIdx?` gives holds the value looked for. -/
theorem getElem?_of_findIdx? {l : List Nat} {n i : Nat} (h : l.findIdx? (fun j => j == n) = some i) : l[i]? = some n := by
  obtain ⟨hi, hp, -⟩ := List.findIdx?_eq_some_iff_getElem.mp h
  rw [List.getElem?_eq_getElem hi, beq_iff_eq.mp hp]

/-- The evaluation of the element at the next place of the order evaluates that element alone. -/
theorem FeederSt.evalTo_next {x : FeederSt} {c : FeederCfg} {e now inst : Nat} {g : ElemCfg} (hi : c.order[x.evalNext]? = some inst)
    (hg : Tab.find c.elems inst = some g) :
    (x.evalTo c e now (x.evalNext + 1)).elem inst = (x.ctx c e now).step g (x.elem inst) := by
  have hone : x.evalNext + 1 - x.evalNext = 1 := Nat.add_sub_cancel_left ..
  simp [FeederSt.evalTo, hone, FeederSt.evalOne, hi, hg, FeederSt.elem, Tab.get_set_same]

/-- What an event inside a feeder's evaluation leaves where it comes about at the next element in order. -/
theorem State.within_spec {s : State} {f inst e : Nat} {c : FeederCfg} {g : ElemCfg} {p : ElemSt → ElemSt → Bool} {b : ElemSt}
    (hev : s.evaluating f = some (c, e)) (hi : c.order.findIdx? (fun j => j == inst) = some (s.feeder f).evalNext)
    (hg : Tab.find c.elems inst = some g) (hb : b = ((s.feeder f).clearSat.ctx c e s.now).step g ((s.feeder f).elem inst))
    (hp : p ((s.feeder f).elem inst) b = true) :
    ((s.within f inst p).feeder f).elem inst = b ∧ (s.within f inst p).now = s.now ∧ (s.within f inst p).sigs = s.sigs ∧
      (s.within f inst p).regs = s.regs := by
  have hy : ((s.feeder f).clearSat.evalTo c e s.now ((s.feeder f).evalNext + 1)).elem inst = b :=
    (FeederSt.evalTo_next (x := (s.feeder f).clearSat) (getElem?_of_findIdx? hi) hg).trans hb.symm
  have hw : s.within f inst p =
      s.updFeeder f (fun _ => (s.feeder f).clearSat.evalTo c e s.now ((s.feeder f).evalNext + 1)) := by
    unfold State.within
    simp only [hev, hi]
    refine if_pos ⟨Nat.le_refl _, ?_⟩
    rw [hy]
    exact hp
  rw [hw]
  exact ⟨by rw [feeder_updFeeder]; exact hy, rfl, rfl, rfl⟩

/-- A pulse without its condition lasts its time (R153). -/
theorem ElemSt.pulses_bits (el : ElemSt) (k : BfCfg) (now : Nat) : (el.pulses k false false now).bits = b2n el.active +
    2 * b2n (bitOf el.bits 1 && !decide (el.taR + (k.tp * 1200000000).floor.toNat ≤ now)) +
    4 * b2n (bitOf el.bits 2 && !decide (el.taB + (k.tp * 1200000000).floor.toNat ≤ now)) := by
  simp only [ElemSt.pulses]
  cases bitOf el.bits 1 <;> cases bitOf el.bits 2 <;> cases decide (el.taR + (k.tp * 1200000000).floor.toNat ≤ now) <;>
    cases decide (el.taB + (k.tp * 1200000000).floor.toNat ≤ now) <;> rfl

theorem bitOf_triple (a b c : Bool) : bitOf (b2n a + 2 * b2n b + 4 * b2n c) 1 = b ∧ bitOf (b2n a + 2 * b2n b + 4 * b2n c) 2 = c := by
  cases a <;> cases b <;> cases c <;> decide

/-- A pulse without its condition is over at the end of its time (R153). -/
theorem ElemSt.pulses_ends (el : ElemSt) (k : BfCfg) (back : Bool) {now : Nat}
    (ht : (if back then el.taB else el.taR) + (k.tp * 1200000000).floor.toNat ≤ now) :
    bitOf (el.pulses k false false now).bits (if back then 2 else 1) = false := by
  rw [ElemSt.pulses_bits]
  cases back
  · exact (bitOf_triple ..).1.trans (by rw [decide_eq_true (show el.taR + _ ≤ now from ht)]; simp)
  · exact (bitOf_triple ..).2.trans (by rw [decide_eq_true (show el.taB + _ ≤ now from ht)]; simp)

/-- A breaker-failure element whose current check is clear ends a pulse whose time has passed (R153). -/
theorem EvCtx.bf_pulse_ends {x : EvCtx} {k : BfCfg} {quest back : Bool} {el : ElemSt} {l : List Nat}
    (hl : l = [0, 1, 2].filter x.c.has ++ k.resChans x.c) (hm : x.missing l = false) (hq : blocks quest (x.m.qHalfOf l) = false)
    (hb : el.blocked = false) (hcb : k.cbMode = false) (hc : x.bfCheck k el.check = false)
    (ht : (if back then el.taB else el.taR) + (k.tp * 1200000000).floor.toNat ≤ x.now) :
    bitOf (x.bf k quest el).bits (if back then 2 else 1) = false ∧ (x.bf k quest el).active = false := by
  subst hl
  have hu : el.unblock = el := if_neg (by simp [hb])
  have he : x.bf k quest el = { ({ el with active := false, bfT := 0, check := false } : ElemSt).pulses k false false x.now with
      q := (x.m.qHalfOf ([0, 1, 2].filter x.c.has ++ k.resChans x.c)).join (Quality.when (x.bfDoubt k) Quality.quest) } := by
    cases ha : el.active <;> simp [EvCtx.bf, hm, hq, hu, hcb, hc, ha]
  rw [he]
  exact ⟨ElemSt.pulses_ends { el with active := false, bfT := 0, check := false } k back ht, rfl⟩

/-! ## Inside the section evaluation -/

/-- What an event inside the section evaluation leaves where it comes about. -/
theorem State.secWithin_spec {s : State} {k e : Nat} {p : MasterSt → MasterSt → Bool} (hopen : (s.sec k).evalOpen = some e)
    (hev : (s.sec k).evald = false) (hr : s.secReady k e = true)
    (hp : p (s.sec k).mst ((s.secCtx k e).eval (s.sec k).mst) = true) :
    ((s.secWithin k p).sec k).mst = (s.secCtx k e).eval (s.sec k).mst ∧ ((s.secWithin k p).sec k).evald = true ∧
      (s.secWithin k p).now = s.now ∧ (s.secWithin k p).sigs = s.sigs ∧ (s.secWithin k p).regs = s.regs := by
  have hn : s.secNext k e = (s.secCtx k e).eval (s.sec k).mst := if_neg (by simp [hev])
  have hw : s.secWithin k p = s.updSec k (fun x => { x with mst := (s.secCtx k e).eval (s.sec k).mst, evald := true }) := by
    unfold State.secWithin
    simp only [hopen, hev, hr, hn, hp]
    rfl
  rw [hw]
  exact ⟨by rw [sec_updSec], by rw [sec_updSec], rfl, rfl, rfl⟩

theorem SecCtx.eval_bdOp (x : SecCtx) (o : MasterSt) : (x.eval o).bdOp = (x.bd o).bdOp := rfl
theorem SecCtx.eval_bdBlk (x : SecCtx) (o : MasterSt) : (x.eval o).bdBlk = (x.bd o).bdBlk := rfl
theorem SecCtx.eval_alarm (x : SecCtx) (o : MasterSt) : (x.eval o).alarm = (x.bd o).alarm := rfl

/-- An element of the list of the three phases. -/
theorem getD_map_phases {α : Type} (f : Nat → α) (d : α) {p : Nat} (hp : p < 3) : ([0, 1, 2].map f).getD p d = f p := by
  obtain rfl | rfl | rfl : p = 0 ∨ p = 1 ∨ p = 2 := by omega
  all_goals rfl

/-- The state of an arc zone after the section evaluation. -/
theorem SecCtx.eval_arcs (x : SecCtx) (o : MasterSt) {i : Nat} {a : ArcCfg} (ha : x.c.arcs[i]? = some a) :
    (x.eval o).arcs.getD i {} = x.arc a (o.arcs.getD i {}) := by
  obtain ⟨hi, hai⟩ := List.getElem?_eq_some_iff.mp ha
  simp [SecCtx.eval, List.getD, hi, hai]

/-- The differential of a phase that has run for its delay operates, and is not blocked (R172). -/
theorem SecCtx.bd_operates {x : SecCtx} {o : MasterSt} {p : Nat} (hp : p < 3) (hen : x.c.bd.enabled = true) (hm : x.mainBlocked p = false)
    (hc : x.checkBlocked p = false) (hb : x.bdStart o p = true) (hz : x.czStart o p = true) (hr : o.bdRun.getD p false = true)
    (hd : x.c.bd.delay ≤ o.bdT.getD p 0 + x.dt) :
    (x.bd o).bdOp.getD p false = true ∧ (x.bd o).bdBlk.getD p false = false := by
  simp only [SecCtx.bd, hen, Bool.not_true, Bool.false_eq_true, if_false, getD_map_phases _ _ hp, hm, hc, hb, hz, hr]
  simpa using hd

/-- A differential current at the alarm level without a start, for the alarm delay, gives the alarm (R175). -/
theorem SecCtx.bd_alarms {x : SecCtx} {o : MasterSt} {p : Nat} {v : Rat} (hp : p < 3) (hen : x.c.bd.enabled = true)
    (hm : x.mainBlocked p = false) (hb : x.bdStart o p = false) (hi : x.c.bd.ialarm * x.c.ibase ≤ (x.diff x.main p).lo)
    (hv : o.alarmT.getD p none = some v) (hd : x.c.bd.alarmDelay ≤ v + x.dt) : (x.bd o).alarm = true := by
  have ht : x.alarmT o (([0, 1, 2].map (x.bdStart o)).getD p false) p = some (v + x.dt) := by
    rw [getD_map_phases _ _ hp, hb]
    simp only [SecCtx.alarmT, hm, hi, hv]
    rfl
  have hmem : some (v + x.dt) ∈ [0, 1, 2].map (fun p => x.alarmT o (([0, 1, 2].map (x.bdStart o)).getD p false) p) :=
    List.mem_map.mpr ⟨p, by simp; omega, ht⟩
  simp only [SecCtx.bd, hen, Bool.not_true, Bool.false_eq_true, if_false, SecCtx.alarm]
  refine if_pos (List.any_eq_true.mpr ⟨_, hmem, ?_⟩)
  simpa using hd

/-- An arc zone is blocked only where it has check feeders and the phasors of all are invalid (R179). -/
theorem SecCtx.arc_not_blocked {x : SecCtx} {l : List Nat} (h : l = [] ∨ l.all x.checkBad = false) :
    (!l.isEmpty && l.all x.checkBad) = false := by
  obtain rfl | h := h
  · rfl
  · rw [h, Bool.and_false]

/-- Light without current for its delay is noted (R180). -/
theorem SecCtx.arc_lightWithoutCurrent {x : SecCtx} {a : ArcCfg} {o : ArcSt} {v : Rat}
    (hn : x.m.arcChecks x.k a = [] ∨ (x.m.arcChecks x.k a).all x.checkBad = false)
    (hl : (a.lights.map x.light).any (fun l => l.1 && l.2.usable) = true) (hp : (x.m.arcChecks x.k a).any (x.passes a.iaf) = false)
    (hv : o.lightT = some v) (hd : a.lwcDelay ≤ v + x.dt) : (x.arc a o).lwc = true := by
  simp only [SecCtx.arc, SecCtx.arc_not_blocked hn, hl, hp, hv]
  simp [hd]

/-- Without light, the output of an arc zone ends with its 100 ms (R180). -/
theorem SecCtx.arc_ends {x : SecCtx} {a : ArcCfg} {o : ArcSt}
    (hn : x.m.arcChecks x.k a = [] ∨ (x.m.arcChecks x.k a).all x.checkBad = false)
    (hl : (a.lights.map x.light).any (fun l => l.1 && l.2.usable) = false) (ht : o.opAt + 100 * msClk ≤ x.now) :
    (x.arc a o).op = false := by
  simp only [SecCtx.arc, SecCtx.arc_not_blocked hn, hl]
  simp [ht]

/-! ## The obligation -/

theorem exec_minimumPulseExpiry {s : State} {f inst e v : Nat} {c : FeederCfg} {g : ElemCfg} {k : BfCfg} {back : Bool} {el : ElemSt}
    (hev : s.evaluating f = some (c, e)) (hg : Tab.find c.elems inst = some g) (hk : g.kind = .bf k) (hel : el = (s.feeder f).elem inst)
    (hv : v = max s.now ((if back then el.taB else el.taR) + (k.tp * 1200000000).floor.toNat)) :
    exec (.minimumPulseExpiry f inst back) s = .next (({ s with now := v } : State).within f inst
      (fun a b => bitOf a.bits (if back then 2 else 1) && !bitOf b.bits (if back then 2 else 1))) := by
  have hc : s.elemCfg f inst = some g := by simp [State.elemCfg, hev, hg]
  subst hel hv
  change execMinimumPulseExpiry f inst back s = _
  unfold execMinimumPulseExpiry
  simp only [hc, hk]
  rfl

/-- A pulse ends tp after it asserted (R153). -/
theorem minimumPulseExpiry_ends {s : State} {f inst e v : Nat} {c : FeederCfg} {g : ElemCfg} {k : BfCfg} {back : Bool} {el : ElemSt}
    {l : List Nat} {z : EvCtx} (hev : s.evaluating f = some (c, e))
    (hi : c.order.findIdx? (fun j => j == inst) = some (s.feeder f).evalNext) (hg : Tab.find c.elems inst = some g)
    (hk : g.kind = .bf k) (hel : el = (s.feeder f).elem inst)
    (hv : v = max s.now ((if back then el.taB else el.taR) + (k.tp * 1200000000).floor.toNat))
    (hz : z = (s.feeder f).clearSat.ctx c e v) (hl : l = [0, 1, 2].filter c.has ++ k.resChans c) (hm : z.missing l = false)
    (hq : blocks g.blockOnQuest (z.m.qHalfOf l) = false) (hb : el.blocked = false) (hcb : k.cbMode = false)
    (hc : z.bfCheck k el.check = false) (hon : bitOf el.bits (if back then 2 else 1) = true) :
    ∃ u, exec (.minimumPulseExpiry f inst back) s = .next u ∧ bitOf ((u.feeder f).elem inst).bits (if back then 2 else 1) = false ∧
      ((u.feeder f).elem inst).active = false ∧ u.now = v ∧ u.sigs = s.sigs ∧ u.regs = s.regs := by
  have hnow : (if back then el.taB else el.taR) + (k.tp * 1200000000).floor.toNat ≤ z.now := by
    subst hz hv
    exact Nat.le_max_right ..
  obtain ⟨hoff, hact⟩ := EvCtx.bf_pulse_ends (x := z) (quest := g.blockOnQuest) (by subst hz; exact hl) hm hq hb hcb hc hnow
  have hstep : z.step g el = z.bf k g.blockOnQuest el := by simp [EvCtx.step, hk]
  obtain ⟨hu, hw, hsig, hreg⟩ := State.within_spec (s := { s with now := v }) (b := z.bf k g.blockOnQuest el)
    (p := fun a b => bitOf a.bits (if back then 2 else 1) && !bitOf b.bits (if back then 2 else 1)) hev hi hg
    (by subst hz hel; exact hstep.symm) (by subst hel; simp [State.feeder] at hon ⊢; exact ⟨hon, hoff⟩)
  exact ⟨_, exec_minimumPulseExpiry hev hg hk hel hv, by rw [hu]; exact hoff, by rw [hu]; exact hact, hw, hsig, hreg⟩

theorem exec_memoryExpiry {s : State} {f inst e : Nat} {c : FeederCfg} (hev : s.evaluating f = some (c, e))
    (hold : ∀ m, ((s.feeder f).elem inst).mem = some m → m.2.2.1 + 1024 < e) (hmem : ((s.feeder f).elem inst).mem ≠ none) :
    exec (.memoryExpiry f inst) s = .next (s.updFeeder f (fun x => x.updElem inst (fun el => { el with mem := none }))) := by
  obtain ⟨m, hm⟩ := Option.ne_none_iff_exists'.mp hmem
  change execMemoryExpiry f inst s = _
  unfold execMemoryExpiry
  simp only [hev, hm, if_pos (hold m hm)]

theorem exec_saturationFlagClear {s : State} {f ch : Nat} (hm : (s.feeder f).measOpen.isSome = true)
    (hd : satDue ((s.feeder f).satRun.getD ch none) = true) :
    exec (.saturationFlagClear f ch) s = .next (s.updFeeder f (fun x => { x with satRun := modAt x.satRun ch (fun _ => none) })) := by
  change execSaturationFlagClear f ch s = _
  unfold execSaturationFlagClear
  rw [hm, hd]
  rfl

theorem exec_afOpHoldExpiry {s : State} {k i : Nat} (hop : ((s.sec k).mst.arcs.getD i {}).op = true) :
    exec (.afOpHoldExpiry k i) s = .next ((s.advanceTo (((s.sec k).mst.arcs.getD i {}).opAt + 100 * msClk)).secWithin k
      (fun a b => (a.arcs.getD i {}).op && !(b.arcs.getD i {}).op)) := by
  change execAfOpHoldExpiry k i s = _
  unfold execAfOpHoldExpiry
  simp only [hop]
  rfl

/-- Settles O15: each event comes about in the evaluation that its command computes, of one element or of the section. -/
theorem sectionEventsAndExpiriesComplete : Obligations.SectionEventsAndExpiriesComplete := by
  refine ⟨⟨?_, fun s f inst e c => exec_memoryExpiry, fun s f ch => exec_saturationFlagClear⟩, ?_⟩
  · intro s f inst e v c g k back el l z
    exact minimumPulseExpiry_ends
  · intro s k e o z hopen hev hparts ho hz
    subst ho hz
    have hr : s.secReady k e = true := List.all_eq_true.mpr hparts
    refine ⟨fun p hp hen hm => ⟨fun hc hb hcz hrun hop hd => ?_, fun v hb hi hv hal hd => ?_⟩,
      fun i a v l ha hl hn hlight hpass hv hlwc hd => ?_, fun i a l ha hl hn hlight hop => ?_⟩
    · obtain ⟨hon, hblk⟩ := SecCtx.bd_operates hp hen hm hc hb hcz hrun hd
      obtain ⟨hmst, hd⟩ := State.secWithin_spec (p := fun a b => !a.bdOp.getD p false && b.bdOp.getD p false && !b.bdBlk.getD p false)
        hopen hev hr (by rw [hop, SecCtx.eval_bdOp, hon, SecCtx.eval_bdBlk, hblk]; rfl)
      exact ⟨_, rfl, by rw [hmst]; exact hon, hd⟩
    · have hon := SecCtx.bd_alarms hp hen hm hb hi hv hd
      obtain ⟨hmst, hd⟩ := State.secWithin_spec (p := fun a b => !a.alarm && b.alarm) hopen hev hr
        (by rw [hal, SecCtx.eval_alarm, hon]; rfl)
      exact ⟨_, rfl, by rw [hmst]; exact hon, hd⟩
    · subst hl
      have hon : (((s.secCtx k e).eval (s.sec k).mst).arcs.getD i {}).lwc = true := by
        rw [SecCtx.eval_arcs _ _ ha]
        exact SecCtx.arc_lightWithoutCurrent hn hlight hpass hv hd
      obtain ⟨hmst, hd⟩ := State.secWithin_spec (p := fun a b => !(a.arcs.getD i {}).lwc && (b.arcs.getD i {}).lwc) hopen hev hr
        (by rw [hlwc, hon]; rfl)
      exact ⟨_, rfl, by rw [hmst]; exact hon, hd⟩
    · subst hl
      have hoff : ((((s.advanceTo (((s.sec k).mst.arcs.getD i {}).opAt + 100 * msClk)).secCtx k e).eval
          (s.sec k).mst).arcs.getD i {}).op = false := by
        rw [SecCtx.eval_arcs (x := (s.advanceTo (((s.sec k).mst.arcs.getD i {}).opAt + 100 * msClk)).secCtx k e) _ ha]
        exact SecCtx.arc_ends hn hlight (Nat.le_max_right ..)
      obtain ⟨hmst, hev, hnow, hsig, hreg⟩ := State.secWithin_spec (s := s.advanceTo (((s.sec k).mst.arcs.getD i {}).opAt + 100 * msClk))
        (p := fun a b => (a.arcs.getD i {}).op && !(b.arcs.getD i {}).op) hopen hev hr
        (by rw [show ((s.advanceTo _).sec k).mst = (s.sec k).mst from rfl, hop, hoff]; rfl)
      exact ⟨_, exec_afOpHoldExpiry hop, by rw [hmst]; exact hoff, hev, hnow, hsig, hreg⟩

end Sys2Proof.Machine
end

section
/-! Evaluations of an epoch (R15, R17, R165 to R168, R204): a feeder number beyond the device's 1,536, whose signals lie among the device's
own. -/

namespace Sys2Proof.Machine

/-- A feeder with one inrush element. -/
def strayFeeder : FeederCfg := { elems := [(0, { kind := .inr {} })] }

/-- An image with feeder 1,546, whose first element has the signal number 123,680; its evaluation of epoch 0 has done every element. -/
def stateWithFeederBeyondRange : State :=
  { State.reset with
    cfg := some { feeders := [(1546, strayFeeder)] }
    feeders := [(1546, { evalOpen := some 0, evalNext := 1, elems := [(0, { bits := 1 })] })] }

theorem exec_feederEvaluationComplete_stateWithFeederBeyondRange : ∃ t,
    exec (.feederEvaluationComplete 1546) stateWithFeederBeyondRange = .next t ∧
      t.sigBelow (feederSig 1546 0) ≠ Entry.mk' ((t.feeder 1546).elem 0).shown.1 ((t.feeder 1546).elem 0).shown.2 :=
  ⟨_, rfl, by decide +kernel⟩

/-- Refutes O17: the statement asks a signal of every feeder number that an image may name, also beyond the device's 1,536; those of
feeders 1,546 to 1,548 fall among the device signals (R206), which read as the device gives them and not as a write leaves them. -/
theorem not_evaluationsOpenAndComplete : ¬ Obligations.EvaluationsOpenAndComplete := by
  rintro ⟨-, hfeeder, -⟩
  obtain ⟨t, ht, -, -, -, -, hsig, -⟩ := hfeeder stateWithFeederBeyondRange 1546 0 strayFeeder (by decide +kernel) (by decide +kernel)
  obtain ⟨u, hu, hne⟩ := exec_feederEvaluationComplete_stateWithFeederBeyondRange
  obtain rfl : u = t := by simpa using hu.symm.trans ht
  exact hne (hsig (0, { kind := .inr {} }) (List.mem_singleton.mpr rfl) (by decide))

end Sys2Proof.Machine
end

section
/-! Staging (R185, R186, R192, R193, R195): a round publishes nothing and uses no time; a ply takes its slot and one closed gate for each
frame that it would send. -/

namespace Sys2Proof.Machine

/-! ## What a round may change -/

/-- `s` differs from `r` in the registers, plies, lanes, publications, converters and engines alone, and in none of the rounds due. -/
structure State.PlyOnly (r s : State) : Prop where
  rest : ∃ regs w1c plies lanes pubs convs engines, s = { r with regs := regs, w1c := w1c, plies := plies, lanes := lanes, pubs := pubs, convs := convs, engines := engines }
  round : ∀ e, (s.engine e).roundDue = (r.engine e).roundDue

theorem State.PubOnly.plyOnly {r s : State} (h : r.PubOnly s) : r.PlyOnly s := by
  refine ⟨?_, fun e => by unfold State.engine; rw [h.engines]⟩
  obtain ⟨regs, w1c, plies, lanes, pubs, rfl⟩ := h.rest
  exact ⟨regs, w1c, plies, lanes, pubs, r.convs, r.engines, rfl⟩

theorem State.PlyOnly.refl (s : State) : s.PlyOnly s := (State.PubOnly.refl s).plyOnly

theorem State.PlyOnly.trans {a b c : State} (h : a.PlyOnly b) (g : b.PlyOnly c) : a.PlyOnly c := by
  refine ⟨?_, fun e => (g.round e).trans (h.round e)⟩
  obtain ⟨_, _, _, _, _, _, _, rfl⟩ := h.rest
  obtain ⟨r, w, p, l, u, c, e, rfl⟩ := g.rest
  exact ⟨r, w, p, l, u, c, e, rfl⟩

theorem State.PlyOnly.foldl {α : Type} {r s : State} (h : r.PlyOnly s) {f : State → α → State} (hf : ∀ (s : State) x, s.PlyOnly (f s x))
    (l : List α) : r.PlyOnly (l.foldl f s) :=
  List.foldlRecOn (motive := fun t => r.PlyOnly t) l f h (fun t ht x _ => ht.trans (hf t x))

section
variable {r s : State} (h : r.PlyOnly s)
include h

theorem State.PlyOnly.setF (f : Fld) (i v : Nat) : r.PlyOnly (s.setF f i v) :=
  h.trans ⟨⟨_, _, s.plies, s.lanes, s.pubs, s.convs, s.engines, rfl⟩, fun _ => rfl⟩
theorem State.PlyOnly.incF (f : Fld) (i : Nat) : r.PlyOnly (s.incF f i) := h.setF f i _
theorem State.PlyOnly.updConv (n : Nat) (g : ConvSt → ConvSt) : r.PlyOnly (s.updConv n g) :=
  h.trans ⟨⟨s.regs, s.w1c, s.plies, s.lanes, s.pubs, _, s.engines, rfl⟩, fun _ => rfl⟩
theorem State.PlyOnly.updLane (n : Nat) (g : LaneSt → LaneSt) : r.PlyOnly (s.updLane n g) :=
  h.trans ⟨⟨s.regs, s.w1c, s.plies, _, s.pubs, s.convs, s.engines, rfl⟩, fun _ => rfl⟩
theorem State.PlyOnly.withPlies (p : Tab Ply) : r.PlyOnly { s with plies := p } :=
  h.trans ⟨⟨s.regs, s.w1c, p, s.lanes, s.pubs, s.convs, s.engines, rfl⟩, fun _ => rfl⟩
theorem State.PlyOnly.updEngine (n : Nat) {g : EngSt → EngSt} (hg : ∀ x, (g x).roundDue = x.roundDue) : r.PlyOnly (s.updEngine n g) := by
  refine h.trans ⟨⟨s.regs, s.w1c, s.plies, s.lanes, s.pubs, s.convs, _, rfl⟩, fun e => ?_⟩
  unfold State.engine State.updEngine
  by_cases he : e = n
  · subst he
    rw [Tab.get_upd_same, hg]
  · rw [Tab.get_upd_other _ _ _ _ _ he]
theorem State.PlyOnly.squashAll (c : SqCause) (p : Ply → Bool) : r.PlyOnly (s.squashAll c p) := h.trans (State.squashAll_pubOnly ..).plyOnly
theorem State.PlyOnly.squash (id : Nat) (c : SqCause) : r.PlyOnly (s.squash id c) := h.trans (State.squash_pubOnly ..).plyOnly
theorem State.PlyOnly.sync (e k : Nat) : r.PlyOnly ((s.syncPlies e).syncGates k) :=
  h.trans ((State.syncPlies_pubOnly ..).trans (State.syncGates_pubOnly ..)).plyOnly

theorem State.PlyOnly.now : s.now = r.now := by obtain ⟨_, _, _, _, _, _, _, rfl⟩ := h.rest; rfl
theorem State.PlyOnly.sigs : s.sigs = r.sigs := by obtain ⟨_, _, _, _, _, _, _, rfl⟩ := h.rest; rfl
theorem State.PlyOnly.hidden : s.hidden = r.hidden := by obtain ⟨_, _, _, _, _, _, _, rfl⟩ := h.rest; rfl
theorem State.PlyOnly.evNvm : s.evNvm = r.evNvm := by obtain ⟨_, _, _, _, _, _, _, rfl⟩ := h.rest; rfl
theorem State.PlyOnly.feeders : s.feeders = r.feeders := by obtain ⟨_, _, _, _, _, _, _, rfl⟩ := h.rest; rfl
theorem State.PlyOnly.img : s.img = r.img := by obtain ⟨_, _, _, _, _, _, _, rfl⟩ := h.rest; rfl

/-! ## Urgent requests (R48) -/

theorem State.PlyOnly.showConv (n : Nat) : r.PlyOnly (s.showConv n) := by
  unfold State.showConv
  split
  · exact (((h.setF _ _ _).setF _ _ _).setF _ _ _).setF _ _ _
  · exact ((h.setF _ _ _).setF _ _ _).setF _ _ _

theorem State.PlyOnly.startConv (n : Nat) (c : Conversion) : r.PlyOnly (s.startConv n c) := by
  unfold State.startConv
  have hs := fun x => (h.updConv n (fun y => { y with cur := some x })).showConv n
  dsimp only
  split
  · exact hs _
  · exact (hs _).setF _ _ _

theorem State.PlyOnly.urgTaken (n inp : Nat) (b : Requester) : r.PlyOnly (s.urgTaken n inp b) := by
  unfold State.urgTaken
  split
  · exact h.withPlies _
  · exact h

theorem State.PlyOnly.urgPull (n inp : Nat) (b : Requester) : r.PlyOnly (s.urgPull n inp b) := by
  unfold State.urgPull State.dropAttempt State.updOw
  split
  · exact ((h.updConv n _).updConv n _).updConv n _
  · exact h

theorem State.PlyOnly.urgRefuse (n inp : Nat) (d : Bool) (b : Requester) : r.PlyOnly (s.urgRefuse n inp d b) := by
  unfold State.urgRefuse
  have hs := (h.setF F.CV_STAT_URGREF n 1).incF F.CV_URGREF_REFUSED n
  dsimp only
  split
  · exact hs.squashAll _ _
  · exact hs

theorem State.PlyOnly.urgRefuseNow (n inp : Nat) (d : Bool) (b : Requester) : r.PlyOnly (s.urgRefuseNow n inp d b) :=
  (h.urgRefuse n inp d b).updConv n _

theorem State.PlyOnly.setUrgHeld (n inp : Nat) (l : List Requester) (pending : Bool) : r.PlyOnly (s.setUrgHeld n inp l pending) := by
  unfold State.setUrgHeld
  split
  · exact h.updConv n _
  · exact (h.updConv n _).showConv n

theorem State.PlyOnly.urgMerge (n inp : Nat) (l : List Requester) (b : Requester) : r.PlyOnly (s.urgMerge n inp l b) :=
  ((((h.incF _ n).urgPull n inp b).setUrgHeld n inp _ _).updConv n _).urgTaken n inp b

theorem State.PlyOnly.startUrgent (n inp : Nat) (l : List Requester) : r.PlyOnly (s.startUrgent n inp l) := by
  unfold State.startUrgent
  dsimp only
  refine State.PlyOnly.startConv (State.PlyOnly.updConv (State.PlyOnly.incF ?_ _ n) n _) n _
  split
  · exact (h.incF _ n).updConv n _
  · exact h

theorem State.PlyOnly.unsquash (x : Nat × Ply × List (Nat × Gate)) : r.PlyOnly (s.unsquash x) := by
  unfold State.unsquash
  dsimp only
  split
  · exact h
  · exact (((h.setF _ _ _).withPlies _).foldl (fun t g => (State.PlyOnly.refl t).updLane _ _) _).sync _ _

theorem State.PlyOnly.unrefuse (n : Nat) (x : UrgRefusal) : r.PlyOnly (s.unrefuse n x) :=
  (((h.setF _ _ _).incF _ _).foldl (fun t y => (State.PlyOnly.refl t).unsquash y) _).urgTaken n _ _

theorem State.PlyOnly.urgDisplace (n inp i : Nat) (l : List Requester) (x : UrgClk) (b : Requester) : r.PlyOnly (s.urgDisplace n inp i l x b) := by
  unfold State.urgDisplace
  dsimp only
  refine State.PlyOnly.foldl (State.PlyOnly.urgTaken (State.PlyOnly.foldl ?_ (fun t b => (State.PlyOnly.refl t).urgRefuseNow n i true b) _) n inp b)
    (fun t y => (State.PlyOnly.refl t).unrefuse n y) _
  refine (State.PlyOnly.setUrgHeld ?_ n inp _ _).updConv n _
  exact ((h.setF _ _ _).updConv n _).foldl (fun t b => (State.PlyOnly.refl t).urgPull n inp b) _

theorem State.PlyOnly.urgent (n inp : Nat) (b : Requester) : r.PlyOnly (s.urgent n inp b) := by
  unfold State.urgent
  split
  · exact h
  split
  · exact h.urgRefuse _ _ _ _
  split
  · split
    · exact h.urgMerge _ _ _ _
    split
    · split
      · exact h.urgDisplace _ _ _ _ _ _
      · exact h.urgRefuseNow _ _ _ _
    · exact h.urgRefuse _ _ _ _
  · extract_lets free t
    have hs : r.PlyOnly t := (h.urgPull n inp b).updConv n _
    clear_value free t
    refine State.PlyOnly.urgTaken ?_ n inp b
    split
    · exact hs.startUrgent _ _ _
    · exact (hs.incF _ _).updConv n _

/-! ## Staging (R185 to R187, R191 to R195) -/

theorem State.PlyOnly.examineGrid (id f n e : Nat) (c : FeederCfg) (v : Rat) (q : Quality) : r.PlyOnly (s.examineGrid id f n e c v q) := by
  unfold State.examineGrid
  split
  · exact h
  split
  · exact h
  split
  · exact h.squash _ _
  · exact h.withPlies _

theorem State.PlyOnly.examineHeld (id : Nat) : r.PlyOnly (s.examineHeld id) := by
  unfold State.examineHeld
  split
  · exact h
  · refine h.foldl (fun t d => ?_) _
    split
    · exact State.PlyOnly.refl t
    · refine (State.PlyOnly.refl t).foldl (fun t e => ?_) _
      split
      · exact (State.PlyOnly.refl t).examineGrid _ _ _ _ _ _ _
      · exact State.PlyOnly.refl t

theorem State.PlyOnly.sendUrgent (id : Nat) : r.PlyOnly (s.sendUrgent id) := by
  unfold State.sendUrgent
  split
  · exact h
  · refine h.foldl (fun t d => ?_) _
    split
    · exact State.PlyOnly.refl t
    split
    · exact (State.PlyOnly.refl t).urgent _ _ _
    · exact State.PlyOnly.refl t

/-- Taking a gate appends it to its lane. -/
def State.takeGate (s : State) (id : Nat) (g : Nat × Nat × Nat) : State :=
  s.updLane g.1 (fun l => { l with gates := l.gates ++
    [{ ply := id, addr := g.2.1, bits := g.2.2, flags := s.frameFlags g.1 g.2.1, ctag := (Tab.get (s.lane g.1).tiles {} g.2.1).ctag }] })

/-- The gates of a ply, one closed gate for each frame that it would send (R193). -/
def State.takeGates (s : State) (id : Nat) (l : List (Nat × Nat × Nat)) : State := l.foldl (fun s g => s.takeGate id g) s

/-- A ply as it stands in the pool. -/
def Ply.inSlot (p : Ply) (slot : Nat) : Ply := { p with shared := decide (16 ≤ slot), slot := slot }

/-- The state in which a ply has its slot and its gates, before samples at hand are examined. -/
def State.placed (s : State) (p : Ply) (id slot : Nat) : State :=
  let t := (({ s with plies := Tab.set s.plies id (p.inSlot slot) } : State).takeGates id p.gates).incF F.PE_PLYCNT_STAGED p.engine
  let t := (t.syncPlies p.engine).syncGates (p.engine / 8)
  t.brim F.DEV_BRIM0_GATE (t.gatesUsed (p.engine / 8))

theorem State.PlyOnly.placed (p : Ply) (id slot : Nat) : r.PlyOnly (s.placed p id slot) :=
  (((((h.withPlies _).foldl (fun t g => (State.PlyOnly.refl t).updLane _ _) p.gates).incF _ _).sync _ _).setF _ _ _)

theorem State.PlyOnly.stage (p : Ply) : r.PlyOnly (s.stage p) := by
  unfold State.stage
  dsimp only
  split
  · exact h.incF _ _
  split
  next id slot _ _ =>
    have hs := (h.placed p id slot).examineHeld id
    split
    · exact hs.sendUrgent id
    · exact hs
  · exact h.incF _ _

theorem State.PlyOnly.endTry (e : Nat) (t : Try) : r.PlyOnly (s.endTry e t) := by
  unfold State.endTry
  split
  · exact h
  · exact h.stage _
  · exact h.updEngine e fun _ => rfl
  · exact h.updEngine e fun _ => rfl

theorem State.PlyOnly.tryKind (f i : Nat) (c : FeederCfg) (g : ElemCfg) (kind : Nat) : r.PlyOnly (s.tryKind f i c g kind) := h.endTry _ _

theorem State.PlyOnly.tryInst (f i : Nat) (c : FeederCfg) (g : ElemCfg) : r.PlyOnly (s.tryInst f i c g) := by
  unfold State.tryInst
  extract_lets el mask
  split
  · exact h
  · exact ((h.tryKind f i c g 0).tryKind f i c g 1).tryKind f i c g 2

theorem State.PlyOnly.trySections (k : Nat) : r.PlyOnly (s.trySections k) := by
  unfold State.trySections
  dsimp only
  refine State.PlyOnly.foldl ?_ (fun t z => ?_) _
  · split
    · exact h.foldl (fun t kind => (State.PlyOnly.refl t).endTry _ _) _
    · exact h
  · split
    · exact State.PlyOnly.refl t
    · exact (State.PlyOnly.refl t).foldl (fun t kind => (State.PlyOnly.refl t).endTry _ _) _

end

/-! ## The round (R186) -/

/-- The attempts of a round for one feeder. -/
def State.tryFeeder (s : State) (f : Nat) : State :=
  match s.img.feeder f with
  | some c => c.order.foldl (fun s i => match Tab.find c.elems i with
      | some g => s.tryInst f i c g
      | none => s) s
  | none => s

theorem State.PlyOnly.tryFeeder {r s : State} (h : r.PlyOnly s) (f : Nat) : r.PlyOnly (s.tryFeeder f) := by
  unfold State.tryFeeder
  split
  · refine h.foldl (fun t i => ?_) _
    split
    · exact (State.PlyOnly.refl t).tryInst _ _ _ _
    · exact State.PlyOnly.refl t
  · exact h

theorem State.PlyOnly.heldBySlot {r s : State} (h : r.PlyOnly s) (e : Nat) : s.heldBySlot e = r.heldBySlot e := by
  unfold State.heldBySlot State.held State.feeder
  rw [h.feeders]

/-- The attempts for the section elements, where the engine is master. -/
def State.tryAsMaster (s : State) (e : Nat) : State := if s.master (e / 8) = e then s.trySections (e / 8) else s

theorem State.PlyOnly.tryAsMaster {r s : State} (h : r.PlyOnly s) (e : Nat) : r.PlyOnly (s.tryAsMaster e) := by
  unfold State.tryAsMaster
  split
  · exact h.trySections _
  · exact h

theorem exec_plyRound {s u : State} {e : Nat} (hdue : (s.engine e).roundDue = true) (hact : s.plyActive e = true) (hidle : s.idleEngine e = true)
    (hnext : (s.sec (e / 8)).nextDue ≠ 0) (hu : u = s.updEngine e (fun g => { g with roundDue := false })) :
    exec (.plyRound e) s = .next ((u.heldBySlot e).foldl (fun s f => s.tryFeeder f) (u.tryAsMaster e)) := by
  subst hu
  have hnone : (!(s.engine e).roundDue || !s.plyActive e || !s.idleEngine e || (s.sec (e / 8)).nextDue == 0) = false := by
    simp [hdue, hact, hidle, hnext]
  rw [← ((State.PlyOnly.refl _).tryAsMaster e).heldBySlot e]
  change execPlyRound e s = _
  unfold execPlyRound State.plyRound
  simp only [hnone]
  rfl

theorem State.roundDue_plyRound (s : State) (e : Nat) :
    ((s.updEngine e (fun g => { g with roundDue := false })).engine e).roundDue = false := by
  unfold State.engine State.updEngine
  rw [Tab.get_upd_same]

/-! ## A ply in the pool -/

/-- What staging comes to where the ply has its gates, its number and its slot. -/
theorem State.stage_of_free {s : State} {p : Ply} {id slot : Nat} (hg : s.gatesUsed (p.engine / 8) + p.gates.length ≤ 128)
    (hon : ∀ g, g ∈ p.gates → s.getF F.LN_STAT_STATE g.1 = 2) (hid : Tab.freeKey s.plies 4096 = some id)
    (hslot : s.freeSlot p.engine = some slot) :
    s.stage p = if p.urgent then ((s.placed p id slot).examineHeld id).sendUrgent id else (s.placed p id slot).examineHeld id := by
  have hroom : (decide (128 < s.gatesUsed (p.engine / 8) + p.gates.length) || p.gates.any (fun g => s.getF F.LN_STAT_STATE g.1 != 2)) = false := by
    rw [decide_eq_false (by omega), Bool.false_or, List.any_eq_false]
    exact fun g hg => by simp [hon g hg]
  unfold State.stage
  simp only [hroom, hid, hslot]
  rfl

/-- A loop whose every turn leaves the state leaves it. -/
theorem foldl_eq_self {α β : Type} {f : α → β → α} {a : α} {l : List β} (h : ∀ x ∈ l, f a x = a) : l.foldl f a = a := by
  induction l with
  | nil => rfl
  | cons x r ih => rw [List.foldl_cons, h x List.mem_cons_self, ih fun y hy => h y (List.mem_cons_of_mem _ hy)]

/-- Without a sample at hand nothing is examined (R196). -/
theorem State.examineHeld_of_none {s : State} {id : Nat} {p : Ply} (hp : Tab.find s.plies id = some p)
    (hn : ∀ d ∈ p.deps, ∀ x ∈ d.wait, ∀ c, s.img.feeder d.feeder = some c → (s.feeder d.feeder).burst (c.srcOf d.ch) x = none) :
    s.examineHeld id = s := by
  unfold State.examineHeld
  rw [hp]
  refine foldl_eq_self fun d hd => ?_
  dsimp only
  split
  · rfl
  next c hc => exact foldl_eq_self fun e he => if_neg (by rw [hn d hd e he c hc]; exact Bool.false_ne_true)

theorem State.takeGate_keeps (s : State) (id : Nat) (g : Nat × Nat × Nat) (n : Nat) : (s.lane n).gates ⊆ ((s.takeGate id g).lane n).gates := by
  unfold State.takeGate
  by_cases hn : n = g.1
  · rw [hn, State.lane_updLane]
    exact List.subset_append_left _ _
  · rw [State.lane_updLane_other _ _ _ _ hn]
    exact List.Subset.refl _

/-- Taking gates keeps the gates taken before. -/
theorem State.takeGates_keeps (id n : Nat) (l : List (Nat × Nat × Nat)) (s : State) : (s.lane n).gates ⊆ ((s.takeGates id l).lane n).gates :=
  List.foldlRecOn (motive := fun t : State => (s.lane n).gates ⊆ (t.lane n).gates) l _ (List.Subset.refl _)
    fun t ht g _ => List.Subset.trans ht (t.takeGate_keeps id g n)

/-- Every gate asked for is on its lane, closed. -/
theorem State.takeGates_closed (id : Nat) (l : List (Nat × Nat × Nat)) : ∀ s : State, ∀ g ∈ l,
    ∃ h ∈ ((s.takeGates id l).lane g.1).gates, h.ply = id ∧ h.addr = g.2.1 ∧ h.bits = g.2.2 ∧ h.open_ = false := by
  induction l with
  | nil => exact fun s g hg => absurd hg List.not_mem_nil
  | cons a r ih =>
    intro s g hg
    obtain rfl | hr := List.mem_cons.mp hg
    · refine ⟨{ ply := id, addr := g.2.1, bits := g.2.2, flags := s.frameFlags g.1 g.2.1, ctag := (Tab.get (s.lane g.1).tiles {} g.2.1).ctag },
        (s.takeGate id g).takeGates_keeps id g.1 r ?_, rfl, rfl, rfl, rfl⟩
      unfold State.takeGate
      rw [State.lane_updLane]
      exact List.mem_append_right _ (List.mem_singleton.mpr rfl)
    · exact ih (s.takeGate id a) g hr

theorem State.takeGates_plies (s : State) (id : Nat) (l : List (Nat × Nat × Nat)) : (s.takeGates id l).plies = s.plies :=
  State.foldl_keeps (fun t => t.plies) _ (fun (t : State) (g : Nat × Nat × Nat) => (rfl : (t.takeGate id g).plies = t.plies)) l s

/-- The numbers of plies and gates that the registers show are read from both and change neither. -/
theorem State.sync_pliesLanes (s : State) (e k : Nat) : ((s.syncPlies e).syncGates k).plies = s.plies ∧ ((s.syncPlies e).syncGates k).lanes = s.lanes := by
  unfold State.syncGates
  split <;> exact ⟨rfl, rfl⟩

/-- A ply with its slot and its gates stands in the pool, its gates closed. -/
theorem State.placed_spec (s : State) (p : Ply) (id slot : Nat) : Tab.find (s.placed p id slot).plies id = some (p.inSlot slot) ∧
    ∀ g ∈ p.gates, ∃ h ∈ ((s.placed p id slot).lane g.1).gates, h.ply = id ∧ h.addr = g.2.1 ∧ h.bits = g.2.2 ∧ h.open_ = false := by
  obtain ⟨hplies, hlanes⟩ := State.sync_pliesLanes ((({ s with plies := Tab.set s.plies id (p.inSlot slot) } : State).takeGates id p.gates).incF
    F.PE_PLYCNT_STAGED p.engine) p.engine (p.engine / 8)
  constructor
  · refine (congrArg (fun t => Tab.find t id) hplies).trans ?_
    exact (congrArg (fun t => Tab.find t id) (State.takeGates_plies _ _ _)).trans (Tab.find_set_same ..)
  · intro g hg
    have hl : (s.placed p id slot).lane g.1 = (({ s with plies := Tab.set s.plies id (p.inSlot slot) } : State).takeGates id p.gates).lane g.1 :=
      congrArg (fun t : Tab LaneSt => Tab.get t {} g.1) hlanes
    rw [hl]
    exact State.takeGates_closed id p.gates _ g hg

/-- A staged ply that no sample at hand concerns. -/
theorem State.stage_spec {s : State} {p : Ply} {id slot : Nat} (hg : s.gatesUsed (p.engine / 8) + p.gates.length ≤ 128)
    (hon : ∀ g, g ∈ p.gates → s.getF F.LN_STAT_STATE g.1 = 2) (hid : Tab.freeKey s.plies 4096 = some id)
    (hslot : s.freeSlot p.engine = some slot) (hu : p.urgent = false)
    (hn : ∀ d, d ∈ p.deps → ∀ x, x ∈ d.wait → ∀ c, s.img.feeder d.feeder = some c → (s.feeder d.feeder).burst (c.srcOf d.ch) x = none) :
    s.stage p = s.placed p id slot := by
  have hkeep := (State.PlyOnly.refl s).placed p id slot
  rw [State.stage_of_free hg hon hid hslot, if_neg (by simp [hu])]
  refine State.examineHeld_of_none (s.placed_spec p id slot).1 fun d hd x hx c hc => ?_
  unfold State.feeder
  rw [hkeep.feeders]
  exact hn d hd x hx c (by rw [← hkeep.img]; exact hc)

end Sys2Proof.Machine
end

section
/-! Commit (R192 to R199, R202): a grant takes every confirmed ply out of its slot, opens its gates, and lets its outputs stand in its
signals. -/

namespace Sys2Proof.Machine

/-! ## Plies leave, open gates stay -/

theorem Tab.find_map_val {α : Type} (g : Nat → α → α) (t : Tab α) (k : Nat) :
    Tab.find (t.map (fun c => (c.1, g c.1 c.2))) k = (Tab.find t k).map (g k) := by
  induction t with
  | nil => rfl
  | cons c r ih =>
    obtain ⟨a, v⟩ := c
    rw [List.map_cons]
    unfold Tab.find
    split
    next h => rw [← h]; rfl
    · exact ih

/-- A gate of a lane lies on a lane that stands in the table, and a map over the table maps that lane. -/
theorem Tab.get_map_of_gate {t : Tab LaneSt} {n : Nat} {h : Gate} (g : Nat → LaneSt → LaneSt) (hg : h ∈ (Tab.get t {} n).gates) :
    Tab.get (t.map (fun c => (c.1, g c.1 c.2))) {} n = g n (Tab.get t {} n) := by
  unfold Tab.get at hg ⊢
  rw [Tab.find_map_val]
  cases hf : Tab.find t n with
  | none => rw [hf] at hg; exact absurd hg List.not_mem_nil
  | some l => rfl

/-- From `r` to `s` no ply is added, no open gate goes, and no time passes. -/
structure State.Releases (r s : State) : Prop where
  plies : ∀ id, Tab.find r.plies id = none → Tab.find s.plies id = none
  gates : ∀ n (h : Gate), h ∈ (r.lane n).gates → h.open_ = true → h ∈ (s.lane n).gates
  now : s.now = r.now

theorem State.Releases.refl (s : State) : s.Releases s := ⟨fun _ h => h, fun _ _ h _ => h, rfl⟩

theorem State.Releases.trans {a b c : State} (h : a.Releases b) (g : b.Releases c) : a.Releases c :=
  ⟨fun id hi => g.plies id (h.plies id hi), fun n x hx ho => g.gates n x (h.gates n x hx ho) ho, g.now.trans h.now⟩

theorem State.Releases.foldl {α : Type} {r s : State} (h : r.Releases s) {f : State → α → State} (hf : ∀ (s : State) x, s.Releases (f s x))
    (l : List α) : r.Releases (l.foldl f s) :=
  List.foldlRecOn (motive := fun t => r.Releases t) l f h (fun t ht x _ => ht.trans (hf t x))

theorem State.Releases.of_same {r s t : State} (h : r.Releases s) (hp : t.plies = s.plies) (hl : t.lanes = s.lanes) (hn : t.now = s.now) :
    r.Releases t :=
  h.trans ⟨fun _ hi => by rw [hp]; exact hi, fun _ _ hx _ => by unfold State.lane; rw [hl]; exact hx, hn⟩

theorem State.Releases.updLane {r s : State} (h : r.Releases s) (k : Nat) {f : LaneSt → LaneSt} (hf : ∀ l, (f l).gates = l.gates) :
    r.Releases (s.updLane k f) := by
  refine h.trans ⟨fun _ hi => hi, fun n x hx _ => ?_, rfl⟩
  by_cases hn : n = k
  · rw [hn] at hx ⊢
    rw [State.lane_updLane, hf]
    exact hx
  · rw [State.lane_updLane_other _ _ _ _ hn]
    exact hx

section
variable {r s : State} (h : r.Releases s)
include h

theorem State.Releases.incF (f : Fld) (i : Nat) : r.Releases (s.incF f i) := h.of_same rfl rfl rfl
theorem State.Releases.updFeeder (f : Nat) (g : FeederSt → FeederSt) : r.Releases (s.updFeeder f g) := h.of_same rfl rfl rfl
theorem State.Releases.updSec (k : Nat) (g : SecSt → SecSt) : r.Releases (s.updSec k g) := h.of_same rfl rfl rfl

theorem State.Releases.dropPly (id : Nat) : r.Releases (s.dropPly id) := by
  unfold State.dropPly
  split
  · exact h
  next p _ =>
    obtain ⟨hplies, hlanes⟩ := State.sync_pliesLanes ({ s with
      plies := Tab.del s.plies id
      lanes := s.lanes.map (fun l => (l.1, { l.2 with gates := l.2.gates.filter (fun g => g.open_ || g.ply != id) })) } : State)
      p.engine (p.engine / 8)
    refine h.trans ⟨fun j hj => ?_, fun n x hx ho => ?_, ((State.syncPlies_pubOnly ..).trans (State.syncGates_pubOnly ..)).now⟩
    · rw [hplies]
      by_cases he : j = id
      · rw [he]; exact Tab.find_del_same ..
      · exact (Tab.find_del_other _ _ _ he).trans hj
    · unfold State.lane at hx ⊢
      rw [hlanes]
      refine (congrArg (fun l : LaneSt => x ∈ l.gates) (Tab.get_map_of_gate
        (fun _ l => { l with gates := l.gates.filter (fun g => g.open_ || g.ply != id) }) hx)).mpr ?_
      exact List.mem_filter.mpr ⟨hx, by rw [ho]; rfl⟩

theorem State.Releases.squash (id : Nat) (c : SqCause) : r.Releases (s.squash id c) := by
  unfold State.squash
  split
  · exact h
  · refine State.Releases.dropPly ?_ id
    cases c <;> exact h.incF _ _

theorem State.Releases.squashAll (c : SqCause) (p : Ply → Bool) : r.Releases (s.squashAll c p) :=
  h.foldl (fun t id => (State.Releases.refl t).squash id c) _

theorem State.Releases.queueEth (lane : Nat) (f : EthFrame) : r.Releases (s.queueEth lane f) := by
  unfold State.queueEth
  split
  · exact h
  split
  · split
    · exact h.of_same rfl rfl rfl
    · exact h.updLane _ fun _ => rfl
  · split
    · exact h.of_same rfl rfl rfl
    · exact h.updLane _ fun _ => rfl
  · exact h.updLane _ fun _ => rfl

theorem State.Releases.sendGoose (i : Nat) (p : GoPub) (x : PubSt) (tt at_ : Option (Nat × Nat)) : r.Releases (s.sendGoose i p x tt at_) :=
  h.foldl (fun t n => (State.Releases.refl t).queueEth n _) _

theorem State.Releases.formOne (i : Nat) (p : GoPub) : r.Releases (s.formOne i p) := by
  unfold State.formOne
  dsimp only
  split
  · exact h
  · refine State.Releases.sendGoose ?_ _ _ _ _ _
    exact h.of_same rfl rfl rfl

theorem State.Releases.noteRises : r.Releases s.noteRises := by
  refine h.foldl (fun t c => (State.Releases.refl t).foldl (fun t a => ?_) _) _
  dsimp only
  split
  · exact State.Releases.refl t
  · exact (State.Releases.refl t).updLane _ fun _ => rfl

theorem State.Releases.published : r.Releases s.published :=
  (h.noteRises.squashAll _ _).foldl (fun t (p : Nat × GoPub) => (State.Releases.refl t).formOne p.1 p.2) _

theorem State.Releases.event (code subj sub2 : Nat) (e : EvEpoch) (d : List Nat) : r.Releases (s.event code subj sub2 e d) :=
  h.of_same (State.event_plies ..) (State.event_lanes ..) (State.event_now ..)

theorem State.Releases.putSig (id : Nat) (e : Entry) : r.Releases (s.putSig id e) :=
  h.of_same (State.putSig_plies ..) (State.putSig_lanes ..) (State.putSig_now ..)

theorem State.Releases.openGates (id : Nat) : r.Releases (s.openGates id) := by
  refine h.trans ⟨fun _ hi => hi, fun n x hx ho => ?_, rfl⟩
  unfold State.lane at hx ⊢
  refine (congrArg (fun l : LaneSt => x ∈ l.gates) (Tab.get_map_of_gate (fun m l => l.openGates id (s.inRange m)) hx)).mpr ?_
  exact List.mem_append_left _ (List.mem_append_left _ (List.mem_filter.mpr ⟨hx, ho⟩))

theorem State.Releases.putTrip (e f : Nat) (l : List Cause) : r.Releases (s.putTrip e f l) := by
  unfold State.putTrip
  dsimp only
  split
  · exact (h.putSig _ _).event _ _ _ _ _
  · exact h.putSig _ _

theorem State.Releases.commitFeeder (p : Ply) : r.Releases (s.commitFeeder p) := by
  unfold State.commitFeeder
  exact ((h.putSig _ _).updFeeder _ _).event _ _ _ _ _

/-- The outputs of a section ply in its own signals. -/
def State.putOutputs (s : State) (k : Nat) (p : Ply) : State :=
  if p.inst = 0 then
    ([0, 1, 2].foldl (fun s x => if bitOf p.commit.bits x then s.putSec k (10 + x) true p.q else s) s).putSec k 13 true p.q
  else s.putSec k (15 + p.inst) true p.q

theorem State.Releases.putOutputs (k : Nat) (p : Ply) : r.Releases (s.putOutputs k p) := by
  unfold State.putOutputs
  split
  · refine (h.foldl (fun t x => ?_) _).putSig _ _
    split
    · exact (State.Releases.refl t).putSig _ _
    · exact State.Releases.refl t
  · exact h.putSig _ _

theorem State.Releases.commitSection (k : Nat) (p : Ply) : r.Releases (s.commitSection k p) := by
  have hs := h.putOutputs k p
  unfold State.putOutputs at hs
  unfold State.commitSection
  exact ((hs.updSec _ _).event _ _ _ _ _).foldl (fun t f => (State.Releases.refl t).putTrip _ _ _) _

/-- The outputs of a confirmed ply. -/
def State.commitOutputs (s : State) (p : Ply) : State :=
  match p.sec with
  | some k => s.commitSection k p
  | none => s.commitFeeder p

/-- An urgent ply is kept for the audit of its grid samples (R201). -/
def State.keepAudit (s : State) (p : Ply) : State :=
  if p.urgent then
    let deps := p.deps.map (fun d => { d with wait := (List.range (p.target - d.er)).map (fun i => d.er + 1 + i) })
    s.updEngine p.engine (fun g => { g with audits := { p with deps := deps } :: g.audits.filter (fun a => decide ((s.sec (p.engine / 8)).nextDue ≤ a.target)) })
  else s

theorem State.Releases.commitOutputs (p : Ply) : r.Releases (s.commitOutputs p) := by
  unfold State.commitOutputs
  split
  · exact h.commitSection _ p
  · exact h.commitFeeder p

theorem State.Releases.keepAudit (p : Ply) : r.Releases (s.keepAudit p) := by
  unfold State.keepAudit
  split
  · exact h.of_same rfl rfl rfl
  · exact h

end

/-! ## One ply and a grant -/

/-- The state in which a ply has left its slot, its gates open. -/
def State.released (s : State) (id : Nat) (p : Ply) : State := ((s.openGates id).dropPly id).incF F.PE_PLYCNT_COMMIT p.engine

/-- A confirmed ply commits. -/
theorem State.commitPly_eq {s : State} {id : Nat} {p : Ply} (hp : Tab.find s.plies id = some p) :
    s.commitPly id = (((s.released id p).commitOutputs p).keepAudit p).squashAll .super
      (fun o => o.sec == p.sec && o.feeder == p.feeder && o.inst == p.inst) := by
  unfold State.commitPly State.commitOutputs
  rw [hp]
  rfl

theorem State.Releases.commitPly {r s : State} (h : r.Releases s) (id : Nat) : r.Releases (s.commitPly id) := by
  cases hp : Tab.find s.plies id with
  | none =>
    unfold State.commitPly
    rw [hp]
    exact h
  | some p =>
    have hs : r.Releases (s.released id p) := ((h.openGates id).dropPly id).incF _ _
    rw [State.commitPly_eq hp]
    exact ((hs.commitOutputs p).keepAudit p).squashAll _ _

theorem State.find_dropPly (s : State) (id : Nat) : Tab.find (s.dropPly id).plies id = none := by
  unfold State.dropPly
  split
  next h => exact h
  next p _ =>
    rw [(State.sync_pliesLanes _ p.engine (p.engine / 8)).1]
    exact Tab.find_del_same ..

theorem State.find_commitPly (s : State) (id : Nat) : Tab.find (s.commitPly id).plies id = none := by
  cases hp : Tab.find s.plies id with
  | none => exact ((State.Releases.refl s).commitPly id).plies id hp
  | some p =>
    rw [State.commitPly_eq hp]
    exact ((((State.Releases.refl (s.released id p)).commitOutputs p).keepAudit p).squashAll _ _).plies id ((s.openGates id).find_dropPly id)

/-- After the plies of a list have committed, none of them is left. -/
theorem State.find_foldl_commitPly (l : List Nat) : ∀ s : State, ∀ id ∈ l, Tab.find (l.foldl (fun s id => s.commitPly id) s).plies id = none := by
  induction l with
  | nil => exact fun s id hi => absurd hi List.not_mem_nil
  | cons a r ih =>
    intro s id hi
    obtain rfl | hr := List.mem_cons.mp hi
    · exact ((State.Releases.refl (s.commitPly id)).foldl (fun t j => (State.Releases.refl t).commitPly j) r).plies id (s.find_commitPly id)
    · exact ih (s.commitPly a) id hr

theorem State.Releases.grantTime {r s : State} (h : r.Releases s) (k : Nat) : r.Releases (s.grantTime k) := h.of_same rfl rfl rfl

theorem exec_commitGrant {s : State} (h : s.grantOrder ≠ []) : exec .commitGrant s = .next
    (((((s.grantOrder.filterMap (fun id => (Tab.find s.plies id).map (fun p => p.engine / 8))).eraseDups).foldl (fun s k => s.grantTime k)
      (s.grantOrder.foldl (fun s id => s.commitPly id) s))).published) := by
  change Host.Outcome.next s.grant = _
  unfold State.grant
  exact congrArg Host.Outcome.next (if_neg (by simpa using h))

/-- A grant takes no time and leaves none of its plies. -/
theorem commitGrant_releases {s : State} (h : s.grantOrder ≠ []) : ∃ t, exec .commitGrant s = .next t ∧ t.now = s.now ∧
    ∀ id, id ∈ s.grantOrder → Tab.find t.plies id = none := by
  have hcommit := (State.Releases.refl s).foldl (fun t id => (State.Releases.refl t).commitPly id) s.grantOrder
  have htail := fun l : List Nat => ((State.Releases.refl (s.grantOrder.foldl (fun s id => s.commitPly id) s)).foldl
    (fun t k => (State.Releases.refl t).grantTime k) l).published
  exact ⟨_, exec_commitGrant h, (hcommit.trans (htail _)).now, fun id hi => (htail _).plies id (State.find_foldl_commitPly _ s id hi)⟩

/-- A grant of one ply. -/
theorem exec_commitGrant_single {s : State} {id : Nat} {p : Ply} (h : s.grantOrder = [id]) (hp : Tab.find s.plies id = some p) :
    exec .commitGrant s = .next (((s.commitPly id).grantTime (p.engine / 8)).published) := by
  rw [exec_commitGrant (by rw [h]; exact List.cons_ne_nil _ _), h]
  simp only [List.filterMap_cons, hp, Option.map_some, List.filterMap_nil, List.eraseDups_cons, List.filter_nil, List.eraseDups_nil,
    List.foldl_cons, List.foldl_nil]

/-! ## The gates and the outputs of a ply -/

/-- A gate of the ply in the effective range stands open after its release. -/
theorem State.released_opens {s : State} {id n : Nat} {p : Ply} {x : Gate} (hx : x ∈ (s.lane n).gates) (hi : x.ply = id) (ho : x.open_ = false)
    (hr : s.inRange n x.addr = true) : { x with open_ := true } ∈ ((s.released id p).lane n).gates := by
  refine (((State.Releases.refl (s.openGates id)).dropPly id).incF F.PE_PLYCNT_COMMIT p.engine).gates n _ ?_ rfl
  unfold State.lane at hx ⊢
  refine (congrArg (fun l : LaneSt => { x with open_ := true } ∈ l.gates)
    (Tab.get_map_of_gate (fun m l => l.openGates id (s.inRange m)) hx)).mpr ?_
  refine List.mem_append_left _ (List.mem_append_right _ (List.mem_map.mpr ⟨x, List.mem_filter.mpr ⟨hx, ?_⟩, rfl⟩))
  simp [ho, hi, hr]

/-! ### What readers see -/

/-- `t` shows the signals, the sections and the feeders of `s`. -/
structure State.Shows (s t : State) : Prop where
  sigs : t.sigs = s.sigs
  hidden : t.hidden = s.hidden
  forces : t.forces = s.forces
  secs : t.secs = s.secs
  feeders : t.feeders = s.feeders

theorem State.Shows.trans {a b c : State} (h : a.Shows b) (g : b.Shows c) : a.Shows c :=
  ⟨g.sigs.trans h.sigs, g.hidden.trans h.hidden, g.forces.trans h.forces, g.secs.trans h.secs, g.feeders.trans h.feeders⟩

theorem State.PubOnly.shows {r s : State} (h : r.PubOnly s) : r.Shows s := ⟨h.sigs, h.hidden, h.forces, h.secs, h.feeders⟩

theorem State.Shows.forcedSig {s t : State} (h : s.Shows t) (id : Nat) : t.forcedSig id = s.forcedSig id := by
  unfold State.forcedSig
  rw [h.forces]

theorem State.Shows.sigBelow {s t : State} (h : s.Shows t) {id : Nat} (hd : ¬(123648 ≤ id ∧ id < 123904)) : t.sigBelow id = s.sigBelow id := by
  unfold State.sigBelow State.sig
  rw [h.forcedSig, h.hidden, if_neg hd, if_neg hd, h.sigs]

theorem State.Shows.feeder {s t : State} (h : s.Shows t) (f : Nat) : t.feeder f = s.feeder f := by
  unfold State.feeder
  rw [h.feeders]

theorem State.Shows.sec {s t : State} (h : s.Shows t) (k : Nat) : t.sec k = s.sec k := by
  unfold State.sec
  rw [h.secs]

theorem State.incF_shows (s : State) (f : Fld) (i : Nat) : s.Shows (s.incF f i) := ⟨rfl, rfl, rfl, rfl, rfl⟩

theorem State.released_shows (s : State) (id : Nat) (p : Ply) : s.Shows (s.released id p) := by
  have hopen : s.Shows (s.openGates id) := ⟨rfl, rfl, rfl, rfl, rfl⟩
  exact (hopen.trans ((s.openGates id).dropPly_pubOnly id).shows).trans (State.incF_shows _ _ _)

theorem State.keepAudit_shows (s : State) (p : Ply) : s.Shows (s.keepAudit p) := by
  unfold State.keepAudit
  split <;> exact ⟨rfl, rfl, rfl, rfl, rfl⟩

theorem State.grantTime_shows (s : State) (k : Nat) : s.Shows (s.grantTime k) := ⟨rfl, rfl, rfl, rfl, rfl⟩

theorem State.sigBelow_of_free {s : State} {id : Nat} (h : s.forcedSig id = false) : s.sigBelow id = s.sig id := if_neg (by simp [h])

/-! ### The grant of one ply -/

theorem State.grantTime_latency (s : State) (k : Nat) : (s.grantTime k).getF F.SEC_COMMITLAT_LASTLAT k ≤ 800 := by
  unfold State.grantTime
  dsimp only
  rw [State.getF_setF_apart _ _ _ _ (by decide), State.getF_setF_same]
  exact (Nat.mod_le _ _).trans (Nat.le_of_lt_succ (Nat.mod_lt _ (by decide)))

/-- What the grant of one ply leaves: its outputs as they were written, its gates open, and its latency. -/
theorem commitGrant_single {s : State} {id : Nat} {p : Ply} (h : s.grantOrder = [id]) (hp : Tab.find s.plies id = some p) :
    ∃ t, exec .commitGrant s = .next t ∧ ((s.released id p).commitOutputs p).Shows t ∧
      (∀ n x, x ∈ (s.lane n).gates → x.ply = id → x.open_ = false → s.inRange n x.addr = true →
        { x with open_ := true } ∈ (t.lane n).gates) ∧
      t.getF F.SEC_COMMITLAT_LASTLAT (p.engine / 8) ≤ 800 := by
  refine ⟨_, exec_commitGrant_single h hp, ?_, fun n x hx hi ho hr => ?_, ?_⟩
  · rw [State.commitPly_eq hp]
    exact ((State.keepAudit_shows _ p).trans (State.squashAll_pubOnly ..).shows).trans
      ((State.grantTime_shows _ _).trans (State.published_pubOnly _).shows)
  · rw [State.commitPly_eq hp]
    exact ((((((State.Releases.refl (s.released id p)).commitOutputs p).keepAudit p).squashAll _ _).grantTime _).published).gates n _
      (State.released_opens hx hi ho hr) rfl
  · rw [(State.published_pubOnly _).regs _ _ (by decide)]
    exact State.grantTime_latency _ _

/-! ### A feeder's ply (R192) -/

theorem State.commitFeeder_sig (s : State) {p : Ply} {g : Nat} (hg : g = feederSig p.feeder p.inst) (hd : g < 123648) :
    (s.commitFeeder p).sigBelow g = Entry.mk' ((s.sigBelow g).value.toNat ||| p.commit.bits) p.q := by
  have hn : ¬(123648 ≤ g ∧ g < 123904) := fun h => absurd hd (by omega)
  subst hg
  unfold State.commitFeeder
  rw [State.sigBelow_event _ _ _ _ _ _ hn]
  exact State.sigBelow_putSig_same _ _ _ hn

theorem State.commitFeeder_committed (s : State) (p : Ply) :
    (((s.commitFeeder p).feeder p.feeder).elem p.inst).committed = some { p.commit with q := p.q } := by
  unfold State.commitFeeder
  rw [State.event_feeder, State.feeder_updFeeder]
  unfold FeederSt.elem FeederSt.updElem
  rw [Tab.get_upd_same]

theorem State.commitFeeder_forces (s : State) (p : Ply) : (s.commitFeeder p).forces = s.forces := by
  unfold State.commitFeeder
  rw [State.event_forces]
  exact State.putSig_forces ..

/-! ### A section's ply (R199) -/

/-- SECTRIP is written as the causes give it. -/
theorem State.putTrip_sigBelow (s : State) (e f : Nat) (l : List Cause) {id : Nat} (hd : ¬(123648 ≤ id ∧ id < 123904)) :
    (s.putTrip e f l).sigBelow id = (s.putSig (feederSig f 73) (Entry.mk' (b2n (secTrip l).1) (secTrip l).2)).sigBelow id := by
  unfold State.putTrip
  dsimp only
  split
  · exact State.sigBelow_event _ _ _ _ _ _ hd
  · rfl

theorem State.putTrip_others (s : State) (e f : Nat) (l : List Cause) : (s.putTrip e f l).forces = s.forces ∧ (s.putTrip e f l).secs = s.secs := by
  unfold State.putTrip
  dsimp only
  split
  · rw [State.event_forces, State.event_secs]
    exact ⟨State.putSig_forces .., State.putSig_secs ..⟩
  · exact ⟨State.putSig_forces .., State.putSig_secs ..⟩

/-- The SECTRIP of every target of a section ply. -/
theorem State.foldl_putTrip_sig (e : Nat) (l : List Cause) {f : Nat} (hf : f < 1536) (targets : List Nat) : ∀ s : State,
    f ∈ targets ∨ s.sigBelow (feederSig f 73) = Entry.mk' (b2n (secTrip l).1) (secTrip l).2 →
    (targets.foldl (fun s f => s.putTrip e f l) s).sigBelow (feederSig f 73) = Entry.mk' (b2n (secTrip l).1) (secTrip l).2 := by
  have hd : ¬(123648 ≤ feederSig f 73 ∧ feederSig f 73 < 123904) := by unfold feederSig; omega
  induction targets with
  | nil => exact fun s h => h.resolve_left List.not_mem_nil
  | cons a r ih =>
    intro s h
    refine ih _ ?_
    by_cases ha : a = f
    · refine .inr ?_
      rw [ha, State.putTrip_sigBelow _ _ _ _ hd, State.sigBelow_putSig_same _ _ _ hd]
    · refine h.imp (fun hm => (List.mem_cons.mp hm).resolve_left (Ne.symm ha)) (fun hs => ?_)
      rw [State.putTrip_sigBelow _ _ _ _ hd, State.sigBelow_putSig_other _ _ _ _ (by unfold feederSig; omega), hs]

/-- The signal of a section element's operation. -/
def opSig (k inst : Nat) : Nat := sectionSig k (if inst = 0 then 13 else 15 + inst)

/-- It lies among no device signals, and no feeder's SECTRIP has its number. -/
theorem opSig_apart {k inst : Nat} (hk : k < 24) (hi : inst ≤ 8) :
    ¬(123648 ≤ opSig k inst ∧ opSig k inst < 123904) ∧ ∀ f, opSig k inst ≠ feederSig f 73 := by
  unfold opSig sectionSig feederSig
  split <;> exact ⟨by omega, fun f => by omega⟩

theorem State.putOutputs_sig (s : State) {k : Nat} {p : Ply} (hk : k < 24) (hi : p.inst ≤ 8) :
    (s.putOutputs k p).sigBelow (opSig k p.inst) = Entry.mk' 1 p.q := by
  obtain ⟨hd, -⟩ := opSig_apart hk hi
  by_cases h0 : p.inst = 0
  · rw [opSig, if_pos h0] at hd ⊢
    rw [State.putOutputs, if_pos h0]
    exact State.sigBelow_putSig_same _ _ _ hd
  · rw [opSig, if_neg h0] at hd ⊢
    rw [State.putOutputs, if_neg h0]
    exact State.sigBelow_putSig_same _ _ _ hd

theorem State.putOutputs_forces (s : State) (k : Nat) (p : Ply) : (s.putOutputs k p).forces = s.forces := by
  unfold State.putOutputs
  split
  · refine (State.putSig_forces ..).trans (State.foldl_keeps (fun t => t.forces) _ (fun t x => ?_) _ s)
    split
    · exact State.putSig_forces ..
    · rfl
  · exact State.putSig_forces ..

/-- The state in which a section ply's own outputs and commit stand, before the SECTRIP of its targets. -/
def State.beforeTrips (s : State) (k : Nat) (p : Ply) : State :=
  ((s.putOutputs k p).updSec k (fun x => { x with committed := Tab.set x.committed p.inst { p.commit with q := p.q } })).event 0x0506 k 0xFFFF
    (.at p.target) [p.inst, if p.inst = 0 then p.commit.bits else 0, 1]

theorem State.commitSection_eq (s : State) (k : Nat) (p : Ply) : s.commitSection k p =
    p.targets.foldl (fun s f => s.putTrip p.target f [(if p.inst = 0 then 0 else 1, true, p.q, 0)]) (s.beforeTrips k p) := rfl

theorem State.commitSection_forces (s : State) (k : Nat) (p : Ply) : (s.commitSection k p).forces = s.forces := by
  rw [State.commitSection_eq]
  refine (State.foldl_keeps (fun t => t.forces) _ (fun t f => (t.putTrip_others _ f _).1) _ _).trans ?_
  unfold State.beforeTrips
  rw [State.event_forces]
  exact s.putOutputs_forces k p

theorem State.commitSection_committed (s : State) (k : Nat) (p : Ply) :
    Tab.find ((s.commitSection k p).sec k).committed p.inst = some { p.commit with q := p.q } := by
  have hsec : ((s.commitSection k p).sec k) = (s.beforeTrips k p).sec k := by
    unfold State.sec
    rw [State.commitSection_eq]
    exact congrArg (fun t : Tab SecSt => Tab.get t {} k) (State.foldl_keeps (fun t => t.secs) _ (fun t f => (t.putTrip_others _ f _).2) _ _)
  rw [hsec]
  unfold State.beforeTrips
  rw [State.event_sec, State.sec_updSec]
  exact Tab.find_set_same ..

theorem State.commitSection_sig (s : State) {k : Nat} {p : Ply} (hk : k < 24) (hi : p.inst ≤ 8) :
    (s.commitSection k p).sigBelow (opSig k p.inst) = Entry.mk' 1 p.q := by
  obtain ⟨hd, hapart⟩ := opSig_apart hk hi
  rw [State.commitSection_eq]
  refine (State.foldl_keeps (fun t => t.sigBelow (opSig k p.inst)) _ (fun t f => ?_) _ _).trans ?_
  · rw [State.putTrip_sigBelow _ _ _ _ hd]
    exact State.sigBelow_putSig_other _ _ _ _ (hapart f)
  · unfold State.beforeTrips
    rw [State.sigBelow_event _ _ _ _ _ _ hd]
    exact s.putOutputs_sig hk hi

theorem State.commitSection_trip (s : State) (k : Nat) {p : Ply} {f : Nat} (hm : f ∈ p.targets) (hf : f < 1536) :
    (s.commitSection k p).sigBelow (feederSig f 73) = Entry.mk' 1 (secTrip [(if p.inst = 0 then 0 else 1, true, p.q, 0)]).2 := by
  rw [State.commitSection_eq]
  exact State.foldl_putTrip_sig p.target _ hf p.targets _ (.inl hm)

/-! ## The obligation -/

/-- Settles O18: a round changes only plies, gates, converters and counts, and a grant writes what its plies decided. -/
theorem pliesStageAndCommit : Obligations.PliesStageAndCommit := by
  refine ⟨fun s u e hdue hact hidle hnext hu => ?_, fun s p id slot hg hon hid hslot hurg hn => ?_, fun s => commitGrant_releases,
    fun s id g p h hp _ hsec hg hlt hfree => ?_, fun s id k g p h hp _ hsec hk hg hi hfree => ?_⟩
  · have hround := ((State.PlyOnly.refl u).tryAsMaster e).foldl (fun t f => (State.PlyOnly.refl t).tryFeeder f) (u.heldBySlot e)
    refine ⟨_, exec_plyRound hdue hact hidle hnext hu, ?_, ?_, ?_, ?_, ?_, ?_⟩
    · rw [hround.round, hu, State.roundDue_plyRound]
    · rw [hround.sigs, hu]; rfl
    · rw [hround.hidden, hu]; rfl
    · rw [hround.now, hu]; rfl
    · rw [hround.evNvm, hu]; rfl
    · subst hu
      rfl
  · obtain ⟨hply, hgates⟩ := s.placed_spec p id slot
    rw [State.stage_spec hg hon hid hslot hurg hn]
    exact ⟨hply, ((State.PlyOnly.refl s).placed p id slot).sigs, hgates⟩
  · obtain ⟨t, ht, hshow, hgates, hlat⟩ := commitGrant_single h hp
    have hout : (s.released id p).commitOutputs p = (s.released id p).commitFeeder p := by
      unfold State.commitOutputs
      rw [hsec]
    rw [hout] at hshow
    have hd : ¬(123648 ≤ g ∧ g < 123904) := fun hc => absurd hlt (by omega)
    have hforce : t.forcedSig g = false := by
      rw [← hfree]
      unfold State.forcedSig
      rw [hshow.forces, State.commitFeeder_forces, (s.released_shows id p).forces]
    refine ⟨t, ht, ?_, ?_, hgates, hlat⟩
    · rw [← State.sigBelow_of_free hforce, ← State.sigBelow_of_free hfree, hshow.sigBelow hd, State.commitFeeder_sig _ hg hlt,
        (s.released_shows id p).sigBelow hd]
    · rw [hshow.feeder]
      exact State.commitFeeder_committed _ p
  · obtain ⟨t, ht, hshow, hgates, hlat⟩ := commitGrant_single h hp
    have hout : (s.released id p).commitOutputs p = (s.released id p).commitSection k p := by
      unfold State.commitOutputs
      rw [hsec]
    rw [hout] at hshow
    have hforce : ∀ i, t.forcedSig i = s.forcedSig i := by
      intro i
      unfold State.forcedSig
      rw [hshow.forces, State.commitSection_forces, (s.released_shows id p).forces]
    refine ⟨t, ht, ?_, ?_, fun f hf hlt hnf => ?_, hgates, hlat⟩
    · rw [← State.sigBelow_of_free ((hforce g).trans hfree), hg]
      exact (hshow.sigBelow (opSig_apart hk hi).1).trans (State.commitSection_sig _ hk hi)
    · rw [hshow.sec]
      exact State.commitSection_committed _ k p
    · rw [← State.sigBelow_of_free ((hforce _).trans hnf)]
      exact (hshow.sigBelow (by unfold feederSig; omega)).trans (State.commitSection_trip _ k hf hlt)

end Sys2Proof.Machine
end

section
/-! What every command keeps (R339, R412): the queue's rest, the order of time and of the free values, and the stores' canonical form. -/

namespace Sys2Proof.Machine

/-- The queue, the clock, the count of free values and the four stores. -/
structure Kept where
  pending : List Instr
  now : Nat
  free : Nat
  cfgNvm : Mem
  evNvm : Mem
  ckBuf : Mem
  pkgBuf : Mem

/-- What of a state every command keeps or lets grow. -/
def State.kept (s : State) : Kept := ⟨s.pending, s.now, s.free, s.cfgNvm, s.evNvm, s.ckBuf, s.pkgBuf⟩

/-- The stores in canonical form. -/
def Kept.Canonical (a : Kept) : Prop :=
  Mem.wf 0xFF a.cfgNvm = true ∧ Mem.wf 0xFF a.evNvm = true ∧ Mem.wf 0 a.ckBuf = true ∧ Mem.wf 0 a.pkgBuf = true

/-- `b` may come after `a`: the queue is the same, neither the clock nor the count of free values goes back, and the stores keep
their canonical form. -/
structure Kept.After (a b : Kept) : Prop where
  pending : b.pending = a.pending
  now : a.now ≤ b.now
  free : a.free ≤ b.free
  stores : a.Canonical → b.Canonical

@[simp] theorem Kept.After.refl (a : Kept) : a.After a := ⟨rfl, Nat.le_refl _, Nat.le_refl _, id⟩

theorem Kept.After.trans {a b c : Kept} (h : a.After b) (g : b.After c) : a.After c :=
  ⟨g.pending.trans h.pending, h.now.trans g.now, h.free.trans g.free, fun hc => g.stores (h.stores hc)⟩

@[simp] theorem foldl_kept {α : Type} {f : State → α → State} (hf : ∀ s x, (f s x).kept = s.kept) (l : List α) (s : State) :
    (l.foldl f s).kept = s.kept := State.foldl_keeps State.kept f hf l s

@[simp] theorem foldl_after {α : Type} {f : State → α → State} {a : Kept} {s : State} (hf : ∀ (s : State) (x : α), s.kept.After (f s x).kept) (l : List α)
    (h : a.After s.kept) : a.After (l.foldl f s).kept :=
  List.foldlRecOn (motive := fun t : State => a.After t.kept) l f h (fun t ht x _ => ht.trans (hf t x))

@[simp] theorem kept_ite (p : Prop) [Decidable p] (a b : State) : (if p then a else b).kept = if p then a.kept else b.kept := apply_ite ..

@[simp] theorem Kept.after_ite (a : Kept) (p : Prop) [Decidable p] (b c : Kept) : a.After (if p then b else c) ↔ if p then a.After b else a.After c :=
  iff_of_eq (apply_ite ..)

/-- A record update beside the queue, the clock, the count of free values and the stores. -/
@[simp] theorem kept_with (s : State) (regs : Tab Nat) (w1c : W1cSt) (cfg : Option Image) (oldCfg : Option Image) (pins : Pins) (dev : DevSt) (secs : Tab SecSt) (convs : Tab ConvSt) (chains : Tab ChainSt) (refs : Tab RefSt) (feeders : Tab FeederSt) (engines : Tab EngSt) (plies : Tab Ply) (sigs : Tab Entry) (hidden : Tab Entry) (forces : Tab Force) (cores : Tab CoreSt) (lanes : Tab LaneSt) (tiles : Tab TileSt) (tbs : Tab TbSt) (pubs : Tab PubSt) (svOuts : Tab SvOut) (subs : Tab SubSt) (pair : PairSt) (log : LogSt) (recs : Tab DrRec) (cks : Tab CkJob) (partners : Tab Partner) (resps : List Resp) (session : Option Session) (change : Option Change) (snaps : Tab SnapSt) :
    ({ s with regs := regs, w1c := w1c, cfg := cfg, oldCfg := oldCfg, pins := pins, dev := dev, secs := secs, convs := convs, chains := chains, refs := refs, feeders := feeders, engines := engines, plies := plies, sigs := sigs, hidden := hidden, forces := forces, cores := cores, lanes := lanes, tiles := tiles, tbs := tbs, pubs := pubs, svOuts := svOuts, subs := subs, pair := pair, log := log, recs := recs, cks := cks, partners := partners, resps := resps, session := session, change := change, snaps := snaps } : State).kept = s.kept := rfl

/-- Values taken from the free ones, and time that passes, beside a record update. -/
@[simp] theorem after_with {κ : Kept} (s : State) (time next : Nat) (regs : Tab Nat) (w1c : W1cSt) (cfg : Option Image) (oldCfg : Option Image) (pins : Pins) (dev : DevSt) (secs : Tab SecSt) (convs : Tab ConvSt) (chains : Tab ChainSt) (refs : Tab RefSt) (feeders : Tab FeederSt) (engines : Tab EngSt) (plies : Tab Ply) (sigs : Tab Entry) (hidden : Tab Entry) (forces : Tab Force) (cores : Tab CoreSt) (lanes : Tab LaneSt) (tiles : Tab TileSt) (tbs : Tab TbSt) (pubs : Tab PubSt) (svOuts : Tab SvOut) (subs : Tab SubSt) (pair : PairSt) (log : LogSt) (recs : Tab DrRec) (cks : Tab CkJob) (partners : Tab Partner) (resps : List Resp) (session : Option Session) (change : Option Change) (snaps : Tab SnapSt) (h : κ.After s.kept) (ht : s.now ≤ time) (hn : s.free ≤ next) :
    κ.After ({ s with now := time, free := next, regs := regs, w1c := w1c, cfg := cfg, oldCfg := oldCfg, pins := pins, dev := dev, secs := secs, convs := convs, chains := chains, refs := refs, feeders := feeders, engines := engines, plies := plies, sigs := sigs, hidden := hidden, forces := forces, cores := cores, lanes := lanes, tiles := tiles, tbs := tbs, pubs := pubs, svOuts := svOuts, subs := subs, pair := pair, log := log, recs := recs, cks := cks, partners := partners, resps := resps, session := session, change := change, snaps := snaps } : State).kept :=
  h.trans ⟨rfl, ht, hn, id⟩

@[simp] theorem State.forN_kept {f : State → Nat → State} (hf : ∀ s n, (f s n).kept = s.kept) (s : State) (n : Nat) : (s.forN n f).kept = s.kept :=
  foldl_kept hf _ s

@[simp] theorem State.forGroup_kept {f : State → Nat → State} (hf : ∀ s n, (f s n).kept = s.kept) (s : State) (n : Nat) : (s.forGroup n f).kept = s.kept :=
  foldl_kept (fun s i => hf s _) _ s

@[simp] theorem State.onlyIf_kept {f : State → State} (hf : ∀ s, (f s).kept = s.kept) (s : State) (c : Bool) : (s.onlyIf c f).kept = s.kept := by
  unfold State.onlyIf
  split
  · exact hf s
  · rfl

@[simp] theorem State.forN_after {κ : Kept} {f : State → Nat → State} (hf : ∀ (s : State) n, s.kept.After (f s n).kept) (s : State) (n : Nat)
    (hκ : κ.After s.kept) : κ.After (s.forN n f).kept := foldl_after hf _ hκ

@[simp] theorem State.forGroup_after {κ : Kept} {f : State → Nat → State} (hf : ∀ (s : State) n, s.kept.After (f s n).kept) (s : State) (n : Nat)
    (hκ : κ.After s.kept) : κ.After (s.forGroup n f).kept := foldl_after (fun t i => hf t _) _ hκ

/-- Every state that the command leads to may come after `a`. -/
def Kept.Leads (a : Kept) (o : Host.Outcome State Fault Refusal) : Prop := ∀ t, o = .next t → a.After t.kept

@[simp] theorem Kept.leads_next (a : Kept) (s : State) : a.Leads (.next s) ↔ a.After s.kept := by
  simp [Kept.Leads]

/-! ## The operations that move the clock, take a free value or write a store -/

@[simp] theorem State.advanceTo_after {κ : Kept} (s : State) (t : Nat) (hκ : κ.After s.kept) : κ.After (s.advanceTo t).kept :=
  hκ.trans ⟨rfl, Nat.le_max_left .., Nat.le_refl _, id⟩

@[simp] theorem State.fresh_after {κ : Kept} (s : State) (w : Nat) (hκ : κ.After s.kept) : κ.After (s.fresh w).2.kept :=
  hκ.trans ⟨rfl, Nat.le_refl _, Nat.le_succ _, id⟩

@[simp] theorem State.evProgram_after {κ : Kept} (s : State) (n : Nat) (l : List Nat) (hκ : κ.After s.kept) :
    κ.After (s.evProgram n l).kept :=
  hκ.trans ⟨rfl, Nat.le_refl _, Nat.le_refl _, fun ⟨hc, he, hb, hp⟩ => ⟨hc, Mem.wf_programN _ _ _ he, hb, hp⟩⟩

@[simp] theorem State.evErase_after {κ : Kept} (s : State) (n : Nat) (hκ : κ.After s.kept) : κ.After (s.evErase n).kept :=
  hκ.trans ⟨rfl, Nat.le_refl _, Nat.le_refl _, fun ⟨hc, he, hb, hp⟩ => ⟨hc, Mem.wf_erase _ _ _ _ he, hb, hp⟩⟩

/-- A write of the check buffer. -/
theorem ckBuf_after {κ : Kept} (s : State) (n : Nat) (l : List Nat) (hκ : κ.After s.kept) :
    κ.After ({ s with ckBuf := Mem.writeN 0 s.ckBuf n l } : State).kept :=
  hκ.trans ⟨rfl, Nat.le_refl _, Nat.le_refl _, fun ⟨hc, he, hb, hp⟩ => ⟨hc, he, Mem.wf_writeN _ _ _ _ hb, hp⟩⟩

/-- New contents of the configuration NVM, in canonical form where those before were. -/
theorem cfgNvm_after {κ : Kept} (s : State) (m : Mem) (hm : Mem.wf 0xFF s.cfgNvm = true → Mem.wf 0xFF m = true) (hκ : κ.After s.kept) :
    κ.After ({ s with cfgNvm := m } : State).kept :=
  hκ.trans ⟨rfl, Nat.le_refl _, Nat.le_refl _, fun ⟨hc, he, hb, hp⟩ => ⟨hm hc, he, hb, hp⟩⟩

end Sys2Proof.Machine
end

section
/-! What every command keeps:
registers, the parts of the state, the filter chains, the signal table and the angle clock. -/

namespace Sys2Proof.Machine

variable {κ : Kept}

/-! ## Register fields -/

@[simp] theorem State.setF_kept (s : State) (f : Fld) (i v : Nat) (j : Nat) : (s.setF f i v j).kept = s.kept := by rfl

@[simp] theorem State.clearW1c_kept (s : State) (f : Fld) (i v : Nat) (j : Nat) : (s.clearW1c f i v j).kept = s.kept := by rfl

@[simp] theorem State.incF_kept (s : State) (f : Fld) (i : Nat) (n : Nat) (j : Nat) : (s.incF f i n j).kept = s.kept := by rfl

@[simp] theorem State.bumpF_kept (s : State) (f : Fld) (i : Nat) (n : Nat) (j : Nat) : (s.bumpF f i n j).kept = s.kept := by rfl

@[simp] theorem State.setBitF_kept (s : State) (f : Fld) (i b : Nat) (v : Bool) (j : Nat) :
    (s.setBitF f i b v j).kept = s.kept := by rfl

@[simp] theorem State.raiseBit_kept (s : State) (f : Fld) (i b : Nat) (j : Nat) : (s.raiseBit f i b j).kept = s.kept := by rfl

@[simp] theorem State.writeRw_kept (s : State) (f : Fld) (i w : Nat) (j : Nat) : (s.writeRw f i w j).kept = s.kept := by
  simp [State.writeRw]

@[simp] theorem State.brim_kept (s : State) (f : Fld) (n : Nat) : (s.brim f n).kept = s.kept := by rfl

@[simp] theorem State.onlyIf_after (s : State) (c : Bool) (f : State → State) (hf : ∀ s : State, s.kept.After (f s).kept)
    (hκ : κ.After s.kept) :
    κ.After (s.onlyIf c f).kept := by
  unfold State.onlyIf
  split
  · exact hκ.trans (hf s)
  · exact hκ

/-! ## Parts of the state -/

@[simp] theorem State.updSec_kept (s : State) (k : Nat) (f : SecSt → SecSt) : (s.updSec k f).kept = s.kept := by rfl

@[simp] theorem State.updConv_kept (s : State) (k : Nat) (f : ConvSt → ConvSt) : (s.updConv k f).kept = s.kept := by rfl

@[simp] theorem State.updChain_kept (s : State) (k : Nat) (f : ChainSt → ChainSt) : (s.updChain k f).kept = s.kept := by rfl

@[simp] theorem State.updRef_kept (s : State) (k : Nat) (f : RefSt → RefSt) : (s.updRef k f).kept = s.kept := by rfl

@[simp] theorem State.updFeeder_kept (s : State) (k : Nat) (f : FeederSt → FeederSt) : (s.updFeeder k f).kept = s.kept := by rfl

@[simp] theorem State.updEngine_kept (s : State) (k : Nat) (f : EngSt → EngSt) : (s.updEngine k f).kept = s.kept := by rfl

@[simp] theorem State.updCore_kept (s : State) (k : Nat) (f : CoreSt → CoreSt) : (s.updCore k f).kept = s.kept := by rfl

@[simp] theorem State.updLane_kept (s : State) (k : Nat) (f : LaneSt → LaneSt) : (s.updLane k f).kept = s.kept := by rfl

@[simp] theorem State.updTb_kept (s : State) (k : Nat) (f : TbSt → TbSt) : (s.updTb k f).kept = s.kept := by rfl

@[simp] theorem State.updTile_kept (s : State) (lane pos : Nat) (f : TileSt → TileSt) : (s.updTile lane pos f).kept = s.kept := by
  rfl

@[simp] theorem State.updLog_kept (s : State) (f : LogSt → LogSt) : (s.updLog f).kept = s.kept := by rfl

@[simp] theorem State.updPair_kept (s : State) (f : PairSt → PairSt) : (s.updPair f).kept = s.kept := by rfl

@[simp] theorem State.updPins_kept (s : State) (f : Pins → Pins) : (s.updPins f).kept = s.kept := by rfl

@[simp] theorem State.updDev_kept (s : State) (f : DevSt → DevSt) : (s.updDev f).kept = s.kept := by rfl

/-! ## Device signals and the signal table -/

@[simp] theorem State.putSig_kept (s : State) (id : Nat) (e : Entry) : (s.putSig id e).kept = s.kept := by
  unfold State.putSig
  (repeat' split) <;> rfl

/-! ## Engines and roles -/

@[simp] theorem State.syncEngine_kept (s : State) (e : Nat) : (s.syncEngine e).kept = s.kept := by rfl

/-! ## Event records -/

@[simp] theorem State.enqueue_kept (s : State) (r : EvRec) : (s.enqueue r).kept = s.kept := by simp [State.enqueue]

/-! ## The event NVM's bytes -/

@[simp] theorem State.closeRun_after (s : State) (code : Nat) (hκ : κ.After s.kept) : κ.After (s.closeRun code).kept := by
  unfold State.closeRun
  dsimp only
  (repeat' split) <;> simp [hκ]

/-! ## The event NVM -/

@[simp] theorem State.syncCap_kept (s : State) : s.syncCap.kept = s.kept := by rfl

@[simp] theorem State.openSector_after (s : State) (seq : Nat) (hκ : κ.After s.kept) : κ.After (s.openSector seq).kept := by
  simp (disch := simp [hκ]) [hκ, State.openSector]

@[simp] theorem State.startWrite_after (s : State) (hκ : κ.After s.kept) : κ.After s.startWrite.kept := by
  unfold State.startWrite
  dsimp only
  (repeat' split) <;> simp [hκ]

@[simp] theorem State.post_after (s : State) (code : Nat) (subj : Nat) (sub2 : Nat) (sec : EvEpoch) (data : List Nat)
    (hκ : κ.After s.kept) :
    κ.After (s.post code subj sub2 sec data).kept := by
  unfold State.post
  dsimp only
  (repeat' split) <;> simp [hκ]

@[simp] theorem State.event_after (s : State) (code : Nat) (subj : Nat) (sub2 : Nat) (sec : EvEpoch) (data : List Nat)
    (hκ : κ.After s.kept) :
    κ.After (s.event code subj sub2 sec data).kept := by simp [State.event, hκ]

/-! ## Delivery -/

@[simp] theorem State.deliver_kept (s : State) (n inp e : Nat) (v : Int) (q : Quality) :
    (s.deliver n inp e v q).kept = s.kept := by simp [State.deliver]

@[simp] theorem State.countOvr_kept (s : State) (n inp e : Nat) : (s.countOvr n inp e).kept = s.kept := by simp [State.countOvr]

@[simp] theorem State.deliverZeros_kept (s : State) (n inp e : Nat) : (s.deliverZeros n inp e).kept = s.kept := by
  simp [State.deliverZeros]

@[simp] theorem State.deliverFormed_kept (s : State) (n inp e : Nat) (v : Int) : (s.deliverFormed n inp e v).kept = s.kept := by
  simp [State.deliverFormed]

@[simp] theorem State.release_kept (s : State) (n inp : Nat) : (s.release n inp).kept = s.kept := by simp [State.release]

@[simp] theorem State.releaseAll_kept (s : State) (n : Nat) : (s.releaseAll n).kept = s.kept := by
  unfold State.releaseAll
  refine foldl_kept (fun t x => ?_) _ _
  dsimp only
  (repeat' split) <;> simp

@[simp] theorem State.runShift_kept (s : State) (n inp : Nat) (j : Int) : (s.runShift n inp j).kept = s.kept := by
  unfold State.runShift
  split <;> simp

@[simp] theorem State.runShifts_kept (s : State) (n : Nat) : (s.runShifts n).kept = s.kept := by simp [State.runShifts]

/-! ## Rows of the disturbance recorder (R330) -/

@[simp] theorem State.noteRow_kept (s : State) (k grp row at_ chan word : Nat) :
    (s.noteRow k grp row at_ chan word).kept = s.kept := by
  unfold State.noteRow
  dsimp only
  (repeat' split) <;> simp

@[simp] theorem State.tapRow_kept (s : State) (n inp pos slotAngle : Nat) : (s.tapRow n inp pos slotAngle).kept = s.kept := by
  unfold State.tapRow
  split <;> simp

/-! ## Slot results -/

@[simp] theorem State.chainEnter_kept (s : State) (n inp slotAngle : Nat) (v : Rat) (q : Quality) (ovr : Bool) :
    (s.chainEnter n inp slotAngle v q ovr).kept = s.kept := by
  unfold State.chainEnter
  split <;> simp

@[simp] theorem State.chainTake_kept (s : State) (n inp slotAngle : Nat) (code : Int) (q : Quality) (ovr : Bool) :
    (s.chainTake n inp slotAngle code q ovr).kept = s.kept := by simp [State.chainTake]

@[simp] theorem State.chainHold_kept (s : State) (n inp slotAngle : Nat) (q : Quality) (ovr : Bool) :
    (s.chainHold n inp slotAngle q ovr).kept = s.kept := by simp [State.chainHold]

theorem execFilterShift_after (n inp : Nat) (s : State) (hκ : κ.After s.kept) : κ.Leads (execFilterShift n inp s) := by
  unfold execFilterShift
  split <;> simp [hκ]

/-! ## Stopping, starting, loading -/

@[simp] theorem State.setRefill_kept (s : State) (n : Nat) : (s.setRefill n).kept = s.kept := by
  unfold State.setRefill
  split <;> simp

@[simp] theorem State.chainStopNow_kept (s : State) (n : Nat) : (s.chainStopNow n).kept = s.kept := by simp [State.chainStopNow]

@[simp] theorem State.chainDisable_kept (s : State) (n : Nat) : (s.chainDisable n).kept = s.kept := by simp [State.chainDisable]

@[simp] theorem State.chainStop_kept (s : State) (n : Nat) : (s.chainStop n).kept = s.kept := by
  unfold State.chainStop
  (repeat' split) <;> simp

@[simp] theorem State.chainBegin_kept (s : State) (n : Nat) : (s.chainBegin n).kept = s.kept := by rfl

@[simp] theorem State.chainStart_kept (s : State) (n : Nat) : (s.chainStart n).kept = s.kept := by
  unfold State.chainStart
  (repeat' split) <;> simp

@[simp] theorem State.chainStopDone_kept (s : State) (n : Nat) : (s.chainStopDone n).kept = s.kept := by
  simp [State.chainStopDone]

@[simp] theorem State.chainRun_kept (s : State) (n a : Nat) : (s.chainRun n a).kept = s.kept := by simp [State.chainRun]

theorem execFcStop_after (n : Nat) (s : State) (hκ : κ.After s.kept) : κ.Leads (execFcStop n s) := by simp [execFcStop, hκ]

theorem execFcStopComplete_after (n : Nat) (s : State) (hκ : κ.After s.kept) : κ.Leads (execFcStopComplete n s) := by
  simp [execFcStopComplete, hκ]

theorem execFcStart_after (n : Nat) (s : State) (hκ : κ.After s.kept) : κ.Leads (execFcStart n s) := by simp [execFcStart, hκ]

theorem execFcRunStart_after (n : Nat) (s : State) (hκ : κ.After s.kept) : κ.Leads (execFcRunStart n s) := by
  simp [execFcRunStart, hκ]

@[simp] theorem State.chainBusy_kept (s : State) (n : Nat) : (s.chainBusy n).kept = s.kept := by rfl

@[simp] theorem State.nextTap_kept (s : State) (n : Nat) : (s.nextTap n).kept = s.kept := by rfl

theorem execCoefdataRead_after (n : Nat) (s : State) (hκ : κ.After s.kept) : κ.Leads (execCoefdataRead n s) := by
  simp [execCoefdataRead, hκ]

@[simp] theorem State.coefWrite_kept (s : State) (n w : Nat) : (s.coefWrite n w).kept = s.kept := by simp [State.coefWrite]

theorem execCoefdataWrite_after (n : Nat) (w : Word) (s : State) (hκ : κ.After s.kept) : κ.Leads (execCoefdataWrite n w s) := by
  simp [execCoefdataWrite, hκ]

@[simp] theorem State.delayWrite_kept (s : State) (n inp w : Nat) : (s.delayWrite n inp w).kept = s.kept := by
  simp [State.delayWrite]

theorem execDelayWrite_after (n inp : Nat) (w : Word) (s : State) (hκ : κ.After s.kept) : κ.Leads (execDelayWrite n inp w s) := by
  simp [execDelayWrite, hκ]

/-! ## One epoch -/

theorem execSaturationFlagClear_after (f ch : Nat) (s : State) (hκ : κ.After s.kept) :
    κ.Leads (execSaturationFlagClear f ch s) := by simp [execSaturationFlagClear, hκ]

/-! ## Tile chains -/

@[simp] theorem State.noteRises_kept (s : State) : s.noteRises.kept = s.kept := by simp [State.noteRises]

@[simp] theorem State.queueChange_kept (s old : State) (lane n : Nat) : (s.queueChange old lane n).kept = s.kept := by
  simp [State.queueChange]

@[simp] theorem State.queueChanges_kept (s old : State) : (s.queueChanges old).kept = s.kept := by simp [State.queueChanges]

/-! ## Plies -/

@[simp] theorem State.syncPlies_kept (s : State) (e : Nat) : (s.syncPlies e).kept = s.kept := by rfl

@[simp] theorem State.syncGates_kept (s : State) (k : Nat) : (s.syncGates k).kept = s.kept := by
  unfold State.syncGates
  split <;> simp

@[simp] theorem State.dropPly_kept (s : State) (id : Nat) : (s.dropPly id).kept = s.kept := by
  unfold State.dropPly
  dsimp only
  split <;> simp

@[simp] theorem State.squash_kept (s : State) (id : Nat) (c : SqCause) : (s.squash id c).kept = s.kept := by
  unfold State.squash
  dsimp only
  (repeat' split) <;> simp

@[simp] theorem State.squashAll_kept (s : State) (c : SqCause) (p : Ply → Bool) : (s.squashAll c p).kept = s.kept := by
  simp [State.squashAll]

@[simp] theorem State.squashWatch_kept (s : State) : s.squashWatch.kept = s.kept := by simp [State.squashWatch]

/-! ## Ethernet transmission -/

@[simp] theorem State.queueEth_kept (s : State) (lane : Nat) (f : EthFrame) : (s.queueEth lane f).kept = s.kept := by
  unfold State.queueEth
  (repeat' split) <;> simp

/-! ## GOOSE publication -/

@[simp] theorem State.sendGoose_kept (s : State) (i : Nat) (p : GoPub) (x : PubSt) (tt at_ : Option (Nat × Nat)) :
    (s.sendGoose i p x tt at_).kept = s.kept := by simp [State.sendGoose]

@[simp] theorem State.formOne_kept (s : State) (i : Nat) (p : GoPub) : (s.formOne i p).kept = s.kept := by simp [State.formOne]

@[simp] theorem State.formGoose_kept (s : State) : s.formGoose.kept = s.kept := by simp [State.formGoose]

@[simp] theorem State.published_kept (s : State) : s.published.kept = s.kept := by simp [State.published]

/-! ## Rates and glides -/

@[simp] theorem State.setRate_kept (s : State) (k : Nat) (r : Rat) : (s.setRate k r).kept = s.kept := by rfl

@[simp] theorem State.endGlide_kept (s : State) (k : Nat) : (s.endGlide k).kept = s.kept := by rfl

@[simp] theorem State.startGlide_kept (s : State) (k n : Nat) : (s.startGlide k n).kept = s.kept := by simp [State.startGlide]

@[simp] theorem State.stepGlide_kept (s : State) (k : Nat) (oldHz : Rat) : (s.stepGlide k oldHz).kept = s.kept := by
  simp [State.stepGlide]

@[simp] theorem State.follow_kept (s : State) (k : Nat) : (s.follow k).kept = s.kept := by simp [State.follow]

/-! ## Target choice -/

@[simp] theorem State.changeTarget_after (s : State) (k n : Nat) (hκ : κ.After s.kept) : κ.After (s.changeTarget k n).kept := by
  simp [State.changeTarget, hκ]

@[simp] theorem State.chooseTarget_after (s : State) (k : Nat) (hκ : κ.After s.kept) : κ.After (s.chooseTarget k).kept := by
  simp [State.chooseTarget, hκ]

/-! ## Trackers -/

@[simp] theorem State.showEntry_kept (s : State) (k n : Nat) (valid : Bool) : (s.showEntry k n valid).kept = s.kept := by
  simp [State.showEntry]

@[simp] theorem State.reportEntry_kept (s : State) (k n : Nat) (valid : Bool) (freq : Nat) (phase : Rat) :
    (s.reportEntry k n valid freq phase).kept = s.kept := by simp [State.reportEntry]

@[simp] theorem State.reportVt_kept (s : State) (k n : Nat) : (s.reportVt k n).kept = s.kept := by
  unfold State.reportVt
  dsimp only
  split <;> simp

@[simp] theorem State.reportAll_kept (s : State) (k : Nat) : (s.reportAll k).kept = s.kept := by simp [State.reportAll]

@[simp] theorem State.endEpoch_after (s : State) (k : Nat) (hκ : κ.After s.kept) : κ.After (s.endEpoch k).kept := by
  simp [State.endEpoch, hκ]

@[simp] theorem State.stampEpoch_kept (s : State) (k : Nat) : (s.stampEpoch k).kept = s.kept := by rfl

/-! ## The angle clock -/

@[simp] theorem State.loseEntry_after (s : State) (k n : Nat) (hκ : κ.After s.kept) : κ.After (s.loseEntry k n).kept := by
  simp [State.loseEntry, hκ]

theorem execEntryLost_after (k n : Nat) (s : State) (hκ : κ.After s.kept) : κ.Leads (execEntryLost k n s) := by
  simp [execEntryLost, hκ]

@[simp] theorem State.qualifyEntry_after (s : State) (k n : Nat) (hκ : κ.After s.kept) : κ.After (s.qualifyEntry k n).kept := by
  simp [State.qualifyEntry, hκ]

theorem execEntryQualified_after (k n : Nat) (s : State) (hκ : κ.After s.kept) : κ.Leads (execEntryQualified k n s) := by
  simp [execEntryQualified, hκ]

theorem execGlideEnd_after (k : Nat) (s : State) (hκ : κ.After s.kept) : κ.Leads (execGlideEnd k s) := by
  unfold execGlideEnd
  (repeat' split) <;> simp [hκ]

theorem execGlideExtended_after (k : Nat) (s : State) (hκ : κ.After s.kept) : κ.Leads (execGlideExtended k s) := by
  simp [execGlideExtended, hκ]

theorem execCycleWrap_after (k : Nat) (s : State) (hκ : κ.After s.kept) : κ.Leads (execCycleWrap k s) := by
  simp [execCycleWrap, hκ]

theorem execAngleTickRead_after (k : Nat) (s : State) (hκ : κ.After s.kept) : κ.Leads (execAngleTickRead k s) := by
  simp [execAngleTickRead, hκ]

theorem execEpochNumRead_after (k : Nat) (s : State) (hκ : κ.After s.kept) : κ.Leads (execEpochNumRead k s) := by
  simp [execEpochNumRead, hκ]

end Sys2Proof.Machine
end

section
/-! What every command keeps:
conversions, evaluations, the section board and run-ahead evaluation. -/

namespace Sys2Proof.Machine

variable {κ : Kept}

/-! ## Conversions -/

@[simp] theorem State.showConv_kept (s : State) (n : Nat) : (s.showConv n).kept = s.kept := by
  unfold State.showConv
  split <;> simp

@[simp] theorem State.startConv_kept (s : State) (n : Nat) (c : Conversion) : (s.startConv n c).kept = s.kept := by
  simp [State.startConv]

@[simp] theorem State.startWaiting_kept (s : State) (n : Nat) : (s.startWaiting n).kept = s.kept := by
  unfold State.startWaiting
  split <;> simp

@[simp] theorem State.updOw_kept (s : State) (n inp : Nat) (f : OwSt → OwSt) : (s.updOw n inp f).kept = s.kept := by rfl

@[simp] theorem State.dropAttempt_kept (s : State) (n inp : Nat) : (s.dropAttempt n inp).kept = s.kept := by rfl

@[simp] theorem State.resume_kept (s : State) (n : Nat) : (s.resume n).kept = s.kept := by
  unfold State.resume
  dsimp only
  split <;> simp

@[simp] theorem State.owOff_kept (s : State) (n inp : Nat) : (s.owOff n inp).kept = s.kept := by simp [State.owOff]

@[simp] theorem State.slot_after (s : State) (n : Nat) (hκ : κ.After s.kept) : κ.After (s.slot n).kept := by
  unfold State.slot
  dsimp only
  (repeat' split) <;> simp [hκ]

theorem execSlotInstant_after (n : Nat) (s : State) (hκ : κ.After s.kept) : κ.Leads (execSlotInstant n s) := by
  simp [execSlotInstant, hκ]

@[simp] theorem State.showQueue_kept (s : State) (n : Nat) : (s.showQueue n).kept = s.kept := by rfl

@[simp] theorem State.enterQueue_kept (s : State) (n : Nat) (c : Conversion) (code : Int) (ovr : Bool) :
    (s.enterQueue n c code ovr).kept = s.kept := by simp [State.enterQueue]

/-! ## Open-wire tests -/

@[simp] theorem State.setOwFlag_after (s : State) (n inp : Nat) (v : Bool) (hκ : κ.After s.kept) :
    κ.After (s.setOwFlag n inp v).kept := by simp [State.setOwFlag, hκ]

@[simp] theorem State.owResult_after (s : State) (n inp : Nat) (fail : Bool) (hκ : κ.After s.kept) :
    κ.After (s.owResult n inp fail).kept := by simp [State.owResult, hκ]

@[simp] theorem State.owComplete_after (s : State) (n : Nat) (c : Conversion) (code : Int) (ovr : Bool) (hκ : κ.After s.kept) :
    κ.After (s.owComplete n c code ovr).kept := by
  unfold State.owComplete
  dsimp only
  split <;> simp [hκ]

@[simp] theorem State.owPull_kept (s : State) (n inp : Nat) (code : Int) : (s.owPull n inp code).kept = s.kept := by
  simp [State.owPull]

/-! ## Calibration averaging -/

@[simp] theorem State.calEnd_kept (s : State) (n r : Nat) : (s.calEnd n r).kept = s.kept := by rfl

@[simp] theorem State.calAverage_kept (s : State) (n inp : Nat) (code : Int) (ovr : Bool) :
    (s.calAverage n inp code ovr).kept = s.kept := by simp [State.calAverage]

@[simp] theorem State.complete_after (s : State) (n : Nat) (c : Conversion) (vdiff vref : Int) (hκ : κ.After s.kept) :
    κ.After (s.complete n c vdiff vref).kept := by simp [State.complete, hκ]

theorem execConversionComplete_after (n : Nat) (vdiff vref : Int) (s : State) (hκ : κ.After s.kept) :
    κ.Leads (execConversionComplete n vdiff vref s) := by
  unfold execConversionComplete
  split <;> simp [hκ]

/-! ## Transfers -/

@[simp] theorem State.consume_kept (s : State) (n : Nat) (e : QEnt) : (s.consume n e).kept = s.kept := by simp [State.consume]

@[simp] theorem State.transfer_kept (s : State) (n : Nat) : (s.transfer n).kept = s.kept := by
  unfold State.transfer
  split <;> simp

theorem execQueueEntryTransfer_after (n : Nat) (s : State) (hκ : κ.After s.kept) : κ.Leads (execQueueEntryTransfer n s) := by
  simp [execQueueEntryTransfer, hκ]

/-! ## Urgent conversions -/

@[simp] theorem State.urgRefuse_kept (s : State) (n inp : Nat) (displaced : Bool) (by_ : Requester) :
    (s.urgRefuse n inp displaced by_).kept = s.kept := by
  unfold State.urgRefuse
  dsimp only
  split <;> simp

@[simp] theorem State.urgTaken_kept (s : State) (n inp : Nat) (by_ : Requester) : (s.urgTaken n inp by_).kept = s.kept := by
  unfold State.urgTaken
  (repeat' split) <;> rfl

@[simp] theorem State.startUrgent_kept (s : State) (n inp : Nat) (by_ : List Requester) :
    (s.startUrgent n inp by_).kept = s.kept := by
  unfold State.startUrgent
  split <;> simp

@[simp] theorem State.urgPull_kept (s : State) (n inp : Nat) (by_ : Requester) : (s.urgPull n inp by_).kept = s.kept := by
  unfold State.urgPull
  split <;> simp

@[simp] theorem State.setUrgHeld_kept (s : State) (n inp : Nat) (l : List Requester) (pending : Bool) :
    (s.setUrgHeld n inp l pending).kept = s.kept := by simp [State.setUrgHeld]

@[simp] theorem State.urgMerge_kept (s : State) (n inp : Nat) (l : List Requester) (by_ : Requester) :
    (s.urgMerge n inp l by_).kept = s.kept := by simp [State.urgMerge]

@[simp] theorem State.urgRefuseNow_kept (s : State) (n inp : Nat) (displaced : Bool) (by_ : Requester) :
    (s.urgRefuseNow n inp displaced by_).kept = s.kept := by simp [State.urgRefuseNow]

@[simp] theorem State.unsquash_kept (s : State) (x : Nat × Ply × List (Nat × Gate)) : (s.unsquash x).kept = s.kept := by
  simp [State.unsquash]

@[simp] theorem State.unrefuse_kept (s : State) (n : Nat) (r : UrgRefusal) : (s.unrefuse n r).kept = s.kept := by
  simp [State.unrefuse]

@[simp] theorem State.urgDisplace_kept (s : State) (n inp i : Nat) (l : List Requester) (x : UrgClk) (by_ : Requester) :
    (s.urgDisplace n inp i l x by_).kept = s.kept := by simp [State.urgDisplace]

@[simp] theorem State.urgent_kept (s : State) (n inp : Nat) (by_ : Requester) : (s.urgent n inp by_).kept = s.kept := by
  unfold State.urgent
  dsimp only
  (repeat' split) <;> simp

theorem execUrgentRequest_after (n inp : Nat) (by_ : Requester) (s : State) (hκ : κ.After s.kept) :
    κ.Leads (execUrgentRequest n inp by_ s) := by simp [execUrgentRequest, hκ]

theorem execDeferredUrgentStart_after (n : Nat) (s : State) (hκ : κ.After s.kept) : κ.Leads (execDeferredUrgentStart n s) := by
  unfold execDeferredUrgentStart
  split <;> simp [hκ]

/-! ## Open-wire scheduling -/

theorem execOpenWireInterval_after (n inp : Nat) (s : State) (hκ : κ.After s.kept) : κ.Leads (execOpenWireInterval n inp s) := by
  simp [execOpenWireInterval, hκ]

@[simp] theorem State.owStart_after (s : State) (n inp t : Nat) (hκ : κ.After s.kept) : κ.After (s.owStart n inp t).kept := by
  simp [State.owStart, hκ]

theorem execOpenWireTestStart_after (n inp : Nat) (s : State) (hκ : κ.After s.kept) :
    κ.Leads (execOpenWireTestStart n inp s) := by
  unfold execOpenWireTestStart
  split <;> simp [hκ]

theorem execOpenWireAttemptTimeout_after (n inp : Nat) (s : State) (hκ : κ.After s.kept) :
    κ.Leads (execOpenWireAttemptTimeout n inp s) := by
  unfold execOpenWireAttemptTimeout
  split <;> simp [hκ]

/-! ## References -/

@[simp] theorem State.measureRef_after (s : State) (g : Nat) (hκ : κ.After s.kept) : κ.After (s.measureRef g).kept := by
  simp [State.measureRef, hκ]

@[simp] theorem State.refLose_kept (s : State) (g : Nat) : (s.refLose g).kept = s.kept := by simp [State.refLose]

@[simp] theorem State.refOut_after (s : State) (g : Nat) (src : RefSource) (hκ : κ.After s.kept) :
    κ.After (s.refOut g src).kept := by simp [State.refOut, hκ]

theorem execReferenceOutOfRange_after (r : GroupRef) (s : State) (hκ : κ.After s.kept) :
    κ.Leads (execReferenceOutOfRange r s) := by simp [execReferenceOutOfRange, hκ]

@[simp] theorem State.settleRef_kept (s : State) (g : Nat) : (s.settleRef g).kept = s.kept := by rfl

@[simp] theorem State.refBack_after (s : State) (g : Nat) (src : RefSource) (hκ : κ.After s.kept) :
    κ.After (s.refBack g src).kept := by simp [State.refBack, hκ]

theorem execReferenceReturn_after (r : GroupRef) (s : State) (hκ : κ.After s.kept) : κ.Leads (execReferenceReturn r s) := by
  simp [execReferenceReturn, hκ]

theorem execRefrdySet_after (g : Nat) (s : State) (hκ : κ.After s.kept) : κ.Leads (execRefrdySet g s) := by
  simp [execRefrdySet, hκ]

/-! ## The calibration area (R336) -/

@[simp] theorem State.calErase_kept (s : State) (q : Nat) : (s.calErase q).kept = s.kept := by rfl

@[simp] theorem State.calStore_after (s : State) (ain : Nat) (entry : List Nat) (hκ : κ.After s.kept) :
    κ.After (s.calStore ain entry).kept := by
  unfold State.calStore
  dsimp only
  split <;> simp (disch := simp [hκ]) [hκ]

@[simp] theorem State.calTorn_after (s : State) (ain : Nat) (entry : List Nat) (hκ : κ.After s.kept) :
    κ.After (s.calTorn ain entry).kept := by
  unfold State.calTorn State.calErase
  simp only [State.updLog_kept]
  refine State.evProgram_after _ _ _ (State.evProgram_after _ _ _ ?_)
  exact hκ.trans ⟨rfl, Nat.le_refl _, Nat.le_succ_of_le (Nat.le_succ _), id⟩

theorem execCalibrationEraseComplete_after (q : Nat) (s : State) (hκ : κ.After s.kept) :
    κ.Leads (execCalibrationEraseComplete q s) := by
  unfold execCalibrationEraseComplete
  refine (Kept.leads_next _ _).mpr ?_
  split
  · exact hκ
  · exact State.evErase_after s _ hκ

/-! ## Calibration commands -/

@[simp] theorem State.calRefuse_kept (s : State) (n r : Nat) : (s.calRefuse n r).kept = s.kept := by rfl

@[simp] theorem State.calZero_kept (s : State) (n inp : Nat) : (s.calZero n inp).kept = s.kept := by
  unfold State.calZero
  (repeat' split) <;> simp

@[simp] theorem State.calFull_kept (s : State) (n inp : Nat) : (s.calFull n inp).kept = s.kept := by
  unfold State.calFull
  dsimp only
  (repeat' split) <;> simp

@[simp] theorem State.calAbort_kept (s : State) (n inp : Nat) : (s.calAbort n inp).kept = s.kept := by
  unfold State.calAbort
  (repeat' split) <;> simp

theorem execCalZero_after (n inp : Nat) (s : State) (hκ : κ.After s.kept) : κ.Leads (execCalZero n inp s) := by
  simp [execCalZero, hκ]

theorem execCalFull_after (n inp : Nat) (s : State) (hκ : κ.After s.kept) : κ.Leads (execCalFull n inp s) := by
  simp [execCalFull, hκ]

theorem execCalAbort_after (n inp : Nat) (s : State) (hκ : κ.After s.kept) : κ.Leads (execCalAbort n inp s) := by
  simp [execCalAbort, hκ]

@[simp] theorem State.zeroDone_kept (s : State) (n : Nat) (c : CalSt) (mean : Rat) : (s.zeroDone n c mean).kept = s.kept := by
  simp [State.zeroDone]

@[simp] theorem State.fullDone_kept (s : State) (n : Nat) (c : CalSt) (zero mean : Rat) :
    (s.fullDone n c zero mean).kept = s.kept := by simp [State.fullDone]

theorem execCalAveragingDone_after (n : Nat) (s : State) (hκ : κ.After s.kept) : κ.Leads (execCalAveragingDone n s) := by
  unfold execCalAveragingDone
  dsimp only
  (repeat' split) <;> simp [hκ]

@[simp] theorem State.calStored_after (s : State) (n : Nat) (c : CalSt) (off : Int) (gain : Nat) (ok : Bool)
    (hκ : κ.After s.kept) :
    κ.After (s.calStored n c off gain ok).kept := by simp [State.calStored, hκ]

theorem execCalStoreComplete_after (n : Nat) (ok : Bool) (s : State) (hκ : κ.After s.kept) :
    κ.Leads (execCalStoreComplete n ok s) := by
  unfold execCalStoreComplete
  (repeat' split) <;> simp [hκ]

theorem execCalSessionTimeout_after (n : Nat) (s : State) (hκ : κ.After s.kept) : κ.Leads (execCalSessionTimeout n s) := by
  unfold execCalSessionTimeout
  split <;> simp [hκ]

@[simp] theorem State.applyCoef_kept (s : State) (n : Nat) : (s.applyCoef n).kept = s.kept := by
  unfold State.applyCoef
  split <;> simp

/-! ## A feeder's evaluation -/

@[simp] theorem State.within_kept (s : State) (f inst : Nat) (p : ElemSt → ElemSt → Bool) :
    (s.within f inst p).kept = s.kept := by
  unfold State.within
  dsimp only
  (repeat' split) <;> simp

@[simp] theorem State.delayExpiry_kept (s : State) (f inst ph : Nat) : (s.delayExpiry f inst ph).kept = s.kept := by
  unfold State.delayExpiry
  split <;> simp

theorem execIntegratorFull_after (f inst ph : Nat) (s : State) (hκ : κ.After s.kept) :
    κ.Leads (execIntegratorFull f inst ph s) := by
  unfold execIntegratorFull
  split <;> simp [hκ]

theorem execDefiniteResetExpiry_after (f inst ph : Nat) (s : State) (hκ : κ.After s.kept) :
    κ.Leads (execDefiniteResetExpiry f inst ph s) := by simp [execDefiniteResetExpiry, hκ]

theorem execBlockHoldExpiry_after (f inst : Nat) (s : State) (hκ : κ.After s.kept) : κ.Leads (execBlockHoldExpiry f inst s) := by
  simp [execBlockHoldExpiry, hκ]

theorem execMemoryExpiry_after (f inst : Nat) (s : State) (hκ : κ.After s.kept) : κ.Leads (execMemoryExpiry f inst s) := by
  unfold execMemoryExpiry
  split <;> simp [hκ]

theorem execCrossBlockHoldExpiry_after (f inst : Nat) (s : State) (hκ : κ.After s.kept) :
    κ.Leads (execCrossBlockHoldExpiry f inst s) := by simp [execCrossBlockHoldExpiry, hκ]

theorem execRetripDelay_after (f inst : Nat) (s : State) (hκ : κ.After s.kept) : κ.Leads (execRetripDelay f inst s) := by
  simp [execRetripDelay, hκ]

theorem execBacktripDelay_after (f inst : Nat) (s : State) (hκ : κ.After s.kept) : κ.Leads (execBacktripDelay f inst s) := by
  simp [execBacktripDelay, hκ]

theorem execMinimumPulseExpiry_after (f inst : Nat) (back : Bool) (s : State) (hκ : κ.After s.kept) :
    κ.Leads (execMinimumPulseExpiry f inst back s) := by
  unfold execMinimumPulseExpiry
  dsimp only
  (repeat' split) <;> simp [hκ]

theorem execCurrentCheckSampleClear_after (f inst : Nat) (s : State) (hκ : κ.After s.kept) :
    κ.Leads (execCurrentCheckSampleClear f inst s) := by
  unfold execCurrentCheckSampleClear
  (repeat' split) <;> simp [hκ]

theorem execFaultLocatorCapture_after (f inst : Nat) (s : State) (hκ : κ.After s.kept) :
    κ.Leads (execFaultLocatorCapture f inst s) := by simp [execFaultLocatorCapture, hκ]

/-! ## The section board (R161) -/

@[simp] theorem State.updPage_kept (s : State) (k e : Nat) (f : Page → Page) : (s.updPage k e f).kept = s.kept := by rfl

@[simp] theorem State.substRecord_after (s : State) (k e f part : Nat) (hκ : κ.After s.kept) :
    κ.After (s.substRecord k e f part).kept := by simp [State.substRecord, hκ]

/-! ## Tile inputs of an epoch (R253) -/

@[simp] theorem State.writeInputs_kept (s : State) (k e lane a : Nat) (c : TileCfg) :
    (s.writeInputs k e lane a c).kept = s.kept := by simp [State.writeInputs]

@[simp] theorem State.inputsOfEpoch_kept (s : State) (k e : Nat) : (s.inputsOfEpoch k e).kept = s.kept := by
  unfold State.inputsOfEpoch
  split <;> simp

/-! ## The due angle (R83, R84, R86) -/

@[simp] theorem State.sourceEvent_after (s : State) (code f : Nat) (e : EvEpoch) (src : Bool × Nat) (hκ : κ.After s.kept) :
    κ.After (s.sourceEvent code f e src).kept := by simp [State.sourceEvent, hκ]

@[simp] theorem State.dueSource_after (s : State) (f e i : Nat) (src : Bool × Nat) (hκ : κ.After s.kept) :
    κ.After (s.dueSource f e i src).kept := by simp [State.dueSource, hκ]

@[simp] theorem State.voidRows_kept (s : State) (k e f : Nat) (c : FeederCfg) : (s.voidRows k e f c).kept = s.kept := by
  simp [State.voidRows]

@[simp] theorem State.dueFeeder_after (s : State) (k e f : Nat) (c : FeederCfg) (hκ : κ.After s.kept) :
    κ.After (s.dueFeeder k e f c).kept := by simp [State.dueFeeder, hκ]

@[simp] theorem State.substElems_after (s : State) (k e : Nat) (hκ : κ.After s.kept) : κ.After (s.substElems k e).kept := by
  simp [State.substElems, hκ]

@[simp] theorem State.clearSigs_kept (s : State) (f : Nat) : (s.clearSigs f).kept = s.kept := by rfl

@[simp] theorem State.adopt_kept (s : State) (k : Nat) : (s.adopt k).kept = s.kept := by
  unfold State.adopt
  dsimp only
  split <;> simp

@[simp] theorem State.dataDue_after (s : State) (k : Nat) (hκ : κ.After s.kept) : κ.After (s.dataDue k).kept := by
  simp (disch := simp [hκ]) [hκ, State.dataDue]

theorem execDataDue_after (k : Nat) (s : State) (hκ : κ.After s.kept) : κ.Leads (execDataDue k s) := by simp [execDataDue, hκ]

theorem execSourceLost_after (f i : Nat) (s : State) (hκ : κ.After s.kept) : κ.Leads (execSourceLost f i s) := by
  unfold execSourceLost
  split <;> simp [hκ]

/-! ## Measurement parts (R161 to R164) -/

@[simp] theorem State.lateCount_kept (s : State) (k : Nat) : (s.lateCount k).kept = s.kept := by rfl

@[simp] theorem State.writeMeas_kept (s : State) (f : Nat) : (s.writeMeas f).kept = s.kept := by
  unfold State.writeMeas
  split <;> simp

theorem execMeasurementPartWrite_after (f : Nat) (s : State) (hκ : κ.After s.kept) : κ.Leads (execMeasurementPartWrite f s) := by
  simp [execMeasurementPartWrite, hκ]

@[simp] theorem State.cutoff_after (s : State) (k : Nat) (hκ : κ.After s.kept) : κ.After (s.cutoff k).kept := by
  unfold State.cutoff
  split <;> simp [hκ]

theorem execContributionCutoff_after (k : Nat) (s : State) (hκ : κ.After s.kept) : κ.Leads (execContributionCutoff k s) := by
  simp [execContributionCutoff, hκ]

@[simp] theorem State.lateContribution_kept (s : State) (k : Nat) : (s.lateContribution k).kept = s.kept := by
  unfold State.lateContribution
  split <;> simp

theorem execLateContribution_after (k : Nat) (s : State) (hκ : κ.After s.kept) : κ.Leads (execLateContribution k s) := by
  simp [execLateContribution, hκ]

/-! ## The end of a feeder's evaluation -/

@[simp] theorem State.diverge_after (s : State) (eng inst target : Nat) (mark : Bool) (hκ : κ.After s.kept) :
    κ.After (s.diverge eng inst target mark).kept := by simp [State.diverge, hκ]

@[simp] theorem State.checkCommit_after (s : State) (f e i : Nat) (hκ : κ.After s.kept) : κ.After (s.checkCommit f e i).kept := by
  unfold State.checkCommit
  split <;> simp [hκ]

@[simp] theorem State.putInst_after (s : State) (f e i : Nat) (g : ElemCfg) (hκ : κ.After s.kept) :
    κ.After (s.putInst f e i g).kept := by simp [State.putInst, hκ]

@[simp] theorem State.putExtra_after (s : State) (f e i : Nat) (g : ElemCfg) (hκ : κ.After s.kept) :
    κ.After (s.putExtra f e i g).kept := by
  unfold State.putExtra
  dsimp only
  (repeat' split) <;> simp [hκ]

@[simp] theorem State.putFstat_kept (s : State) (f : Nat) (c : FeederCfg) : (s.putFstat f c).kept = s.kept := by
  simp [State.putFstat]

@[simp] theorem State.syncConsec_kept (s : State) (eng : Nat) : (s.syncConsec eng).kept = s.kept := by simp [State.syncConsec]

@[simp] theorem State.evalComplete_after (s : State) (f : Nat) (hκ : κ.After s.kept) : κ.After (s.evalComplete f).kept := by
  unfold State.evalComplete
  split
  · exact hκ
  · dsimp only
    split
    · exact hκ
    · simp only [State.published_kept, State.queueChanges_kept, State.syncConsec_kept, State.updEngine_kept]
      split <;> simp only [State.brim_kept, State.updPage_kept, State.lateCount_kept, State.putFstat_kept] <;>
        exact foldl_after (fun t p => State.putExtra_after _ _ _ _ _ (State.putInst_after _ _ _ _ _
          (State.checkCommit_after _ _ _ _ (Kept.After.refl _)))) _ (by simp [hκ])

theorem execFeederEvaluationComplete_after (f : Nat) (s : State) (hκ : κ.After s.kept) :
    κ.Leads (execFeederEvaluationComplete f s) := by simp [execFeederEvaluationComplete, hκ]

/-! ## A missed deadline (R204) -/

@[simp] theorem State.holdOutputs_kept (s : State) (f : Nat) (c : FeederCfg) (q : Quality) :
    (s.holdOutputs f c q).kept = s.kept := by simp [State.holdOutputs]

@[simp] theorem State.missFeeder_after (s : State) (e f : Nat) (c : FeederCfg) (hκ : κ.After s.kept) :
    κ.After (s.missFeeder e f c).kept := by simp [State.missFeeder, hκ]

theorem execMissRunInvalid_after (f : Nat) (s : State) (hκ : κ.After s.kept) : κ.Leads (execMissRunInvalid f s) := by
  unfold execMissRunInvalid
  split <;> simp [hκ]

/-! ## The evaluation within the state -/

@[simp] theorem State.secWithin_kept (s : State) (k : Nat) (p : MasterSt → MasterSt → Bool) :
    (s.secWithin k p).kept = s.kept := by
  unfold State.secWithin
  split <;> simp

theorem execBdAlarmDelay_after (k : Nat) (s : State) (hκ : κ.After s.kept) : κ.Leads (execBdAlarmDelay k s) := by
  simp [execBdAlarmDelay, hκ]

theorem execAfOpHoldExpiry_after (k z : Nat) (s : State) (hκ : κ.After s.kept) : κ.Leads (execAfOpHoldExpiry k z s) := by
  simp [execAfOpHoldExpiry, hκ]

theorem execLightWithoutCurrent_after (k z : Nat) (s : State) (hκ : κ.After s.kept) :
    κ.Leads (execLightWithoutCurrent k z s) := by simp [execLightWithoutCurrent, hκ]

theorem execElementDelayExpiry_after (t : TimerRef) (s : State) (hκ : κ.After s.kept) : κ.Leads (execElementDelayExpiry t s) := by
  unfold execElementDelayExpiry
  split <;> simp [hκ]

/-! ## Publication (R165, R208) -/

@[simp] theorem State.putSec_kept (s : State) (k o : Nat) (v : Bool) (q : Quality) : (s.putSec k o v q).kept = s.kept := by
  simp [State.putSec]

@[simp] theorem State.putBd_kept (s : State) (k : Nat) (m : MasterSt) (com : Tab Commit) : (s.putBd k m com).kept = s.kept := by
  simp [State.putBd]

@[simp] theorem State.putSstat_kept (s : State) (k : Nat) (mfault : Bool) : (s.putSstat k mfault).kept = s.kept := by
  simp [State.putSstat]

@[simp] theorem State.putTrip_after (s : State) (e f : Nat) (l : List Cause) (hκ : κ.After s.kept) :
    κ.After (s.putTrip e f l).kept := by simp [State.putTrip, hκ]

@[simp] theorem State.secEvents_after (s : State) (k e : Nat) (o m : MasterSt) (hκ : κ.After s.kept) :
    κ.After (s.secEvents k e o m).kept := by simp (disch := simp [hκ]) [hκ, State.secEvents]

@[simp] theorem State.checkSecCommits_after (s : State) (k e : Nat) (x : SecCtx) (m : MasterSt) (hκ : κ.After s.kept) :
    κ.After (s.checkSecCommits k e x m).kept := by simp [State.checkSecCommits, hκ]

@[simp] theorem State.putSection_after (s : State) (k e : Nat) (x : SecCtx) (m : MasterSt) (com : Tab Commit)
    (hκ : κ.After s.kept) :
    κ.After (s.putSection k e x m com).kept := by simp [State.putSection, hκ]

@[simp] theorem State.sectionComplete_after (s : State) (k : Nat) (hκ : κ.After s.kept) : κ.After (s.sectionComplete k).kept := by
  unfold State.sectionComplete
  dsimp only
  split <;> simp (disch := simp [hκ]) [hκ]

theorem execSectionEvaluationComplete_after (k : Nat) (s : State) (hκ : κ.After s.kept) :
    κ.Leads (execSectionEvaluationComplete k s) := by simp [execSectionEvaluationComplete, hκ]

/-! ## The master (R166 to R168) -/

@[simp] theorem State.rotate_after (s : State) (k h r cause : Nat) (hκ : κ.After s.kept) :
    κ.After (s.rotate k h r cause).kept := by simp [State.rotate, hκ]

@[simp] theorem State.rotreq_kept (s : State) (k r : Nat) : (s.rotreq k r).kept = s.kept := by simp [State.rotreq]

theorem execRotreq_after (k r : Nat) (s : State) (hκ : κ.After s.kept) : κ.Leads (execRotreq k r s) := by simp [execRotreq, hκ]

@[simp] theorem State.readMaster_kept (s : State) (k h : Nat) : (s.readMaster k h).kept = s.kept := by simp [State.readMaster]

@[simp] theorem State.handRequest_after (s : State) (k : Nat) (r : Rotation) (hκ : κ.After s.kept) :
    κ.After (s.handRequest k r).kept := by
  unfold State.handRequest
  dsimp only
  split <;> simp [hκ]

@[simp] theorem State.handEvac_after (s : State) (k : Nat) (r : Rotation) (hκ : κ.After s.kept) :
    κ.After (s.handEvac k r).kept := by
  unfold State.handEvac
  dsimp only
  split
  · simp [hκ]
  · split <;> simp [hκ]

@[simp] theorem State.handover_after (s : State) (k : Nat) (hκ : κ.After s.kept) : κ.After (s.handover k).kept := by
  unfold State.handover
  dsimp only
  split <;> simp [hκ]

theorem execMasterHandover_after (k : Nat) (s : State) (hκ : κ.After s.kept) : κ.Leads (execMasterHandover k s) := by
  simp [execMasterHandover, hκ]

@[simp] theorem State.missSection_after (s : State) (k e : Nat) (hκ : κ.After s.kept) : κ.After (s.missSection k e).kept := by
  unfold State.missSection
  split
  · exact hκ
  · dsimp only
    split <;> simp [hκ]

/-! ## The confirm unit (R196, R201) -/

@[simp] theorem State.examineGrid_kept (s : State) (id f n e : Nat) (c : FeederCfg) (v : Rat) (q : Quality) :
    (s.examineGrid id f n e c v q).kept = s.kept := by
  unfold State.examineGrid
  dsimp only
  (repeat' split) <;> simp

@[simp] theorem State.auditGrid_kept (s : State) (eng f n e : Nat) (c : FeederCfg) (v : Rat) :
    (s.auditGrid eng f n e c v).kept = s.kept := by
  unfold State.auditGrid
  refine foldl_kept (fun t x => ?_) _ _
  (repeat' split) <;> simp

@[simp] theorem State.examine_kept (s : State) (f src e : Nat) (samples : List (Option (Int × Quality))) :
    (s.examine f src e samples).kept = s.kept := by
  unfold State.examine
  split
  · rfl
  · refine foldl_kept (fun t x => ?_) _ _
    dsimp only
    (repeat' split) <;> simp

@[simp] theorem State.examineUrgent_kept (s : State) (conv inp : Nat) (code : Int) (ovr : Bool) (angle : Nat) (q : Quality) :
    (s.examineUrgent conv inp code ovr angle q).kept = s.kept := by
  unfold State.examineUrgent
  split
  · rfl
  split
  · rfl
  · refine foldl_kept (fun t x => ?_) _ _
    dsimp only
    (repeat' split) <;> simp

@[simp] theorem State.examineHeld_kept (s : State) (id : Nat) : (s.examineHeld id).kept = s.kept := by
  unfold State.examineHeld
  split
  · rfl
  · refine foldl_kept (fun t x => ?_) _ _
    dsimp only
    (repeat' split) <;> simp

@[simp] theorem State.sendUrgent_kept (s : State) (id : Nat) : (s.sendUrgent id).kept = s.kept := by
  unfold State.sendUrgent
  split
  · rfl
  · refine foldl_kept (fun t x => ?_) _ _
    (repeat' split) <;> simp

@[simp] theorem State.stage_kept (s : State) (p : Ply) : (s.stage p).kept = s.kept := by
  unfold State.stage
  dsimp only
  (repeat' split) <;> simp

@[simp] theorem State.endTry_kept (s : State) (e : Nat) (t : Try) : (s.endTry e t).kept = s.kept := by
  unfold State.endTry
  split <;> simp

@[simp] theorem State.tryKind_kept (s : State) (f i : Nat) (c : FeederCfg) (g : ElemCfg) (kind : Nat) :
    (s.tryKind f i c g kind).kept = s.kept := by simp [State.tryKind]

@[simp] theorem State.tryInst_kept (s : State) (f i : Nat) (c : FeederCfg) (g : ElemCfg) : (s.tryInst f i c g).kept = s.kept := by
  simp [State.tryInst]

/-! ## Section plies (R183) -/

@[simp] theorem State.trySections_kept (s : State) (k : Nat) : (s.trySections k).kept = s.kept := by simp [State.trySections]

@[simp] theorem State.plyRound_kept (s : State) (e : Nat) : (s.plyRound e).kept = s.kept := by
  unfold State.plyRound
  dsimp only
  split
  · rfl
  · refine (foldl_kept (fun t f => ?_) _ _).trans ?_
    · split
      · refine foldl_kept (fun u i => ?_) _ _
        split <;> simp
      · rfl
    · simp [kept_ite]

theorem execPlyRound_after (e : Nat) (s : State) (hκ : κ.After s.kept) : κ.Leads (execPlyRound e s) := by simp [execPlyRound, hκ]

/-! ## Commit (R197, R199) -/

@[simp] theorem State.openGates_kept (s : State) (id : Nat) : (s.openGates id).kept = s.kept := by rfl

@[simp] theorem State.commitFeeder_after (s : State) (p : Ply) (hκ : κ.After s.kept) : κ.After (s.commitFeeder p).kept := by
  simp [State.commitFeeder, hκ]

@[simp] theorem State.commitSection_after (s : State) (k : Nat) (p : Ply) (hκ : κ.After s.kept) :
    κ.After (s.commitSection k p).kept := by simp [State.commitSection, hκ]

@[simp] theorem State.commitPly_after (s : State) (id : Nat) (hκ : κ.After s.kept) : κ.After (s.commitPly id).kept := by
  unfold State.commitPly
  dsimp only
  (repeat' split) <;> simp [hκ]

@[simp] theorem State.grantTime_after (s : State) (k : Nat) (hκ : κ.After s.kept) : κ.After (s.grantTime k).kept := by
  simp [State.grantTime, hκ]

@[simp] theorem State.grant_after (s : State) (hκ : κ.After s.kept) : κ.After s.grant.kept := by
  simp (disch := simp [hκ]) [hκ, State.grant]

theorem execCommitGrant_after (s : State) (hκ : κ.After s.kept) : κ.Leads (execCommitGrant s) := by simp [execCommitGrant, hκ]

/-! ## The rank ingress (R16, R196) -/

@[simp] theorem State.burstArrives_kept (s : State) (k f src e : Nat) (samples : List (Option (Int × Quality))) :
    (s.burstArrives k f src e samples).kept = s.kept := by simp [State.burstArrives]

@[simp] theorem State.ingress_kept (s : State) (k n : Nat) : (s.ingress k n).kept = s.kept := by
  unfold State.ingress
  dsimp only
  (repeat' split) <;> simp

theorem execIngressArrival_after (k n : Nat) (s : State) (hκ : κ.After s.kept) : κ.Leads (execIngressArrival k n s) := by
  simp [execIngressArrival, hκ]

end Sys2Proof.Machine
end

section
/-! What every command keeps:
check units, tiles and lanes. -/

namespace Sys2Proof.Machine

variable {κ : Kept}

/-! ## The check-value units (R354 to R362) -/

@[simp] theorem State.ckConsume_after (s : State) (k n : Nat) (hκ : κ.After s.kept) : κ.After (s.ckConsume k n).kept := by
  unfold State.ckConsume
  extract_lets src dst d copy
  split
  next bytes page _ =>
    extract_lets u v w
    have hu : κ.After u.kept := by
      unfold u
      rw [State.setF_kept]
      exact hκ
    clear_value u
    have hv : κ.After v.kept := by
      unfold v
      split
      · rw [State.setF_kept]
        exact ckBuf_after u _ _ hu
      · exact hu
    clear_value v
    exact hv

@[simp] theorem State.ckFinish_after (s : State) (k : Nat) (hκ : κ.After s.kept) : κ.After (s.ckFinish k).kept := by
  unfold State.ckFinish
  extract_lets u p out done v
  have hu : κ.After u.kept := State.ckConsume_after s k _ hκ
  clear_value u
  have hv : κ.After v.kept := hu
  clear_value v
  split
  · exact hv
  · exact ckBuf_after v _ _ hv
  · exact hv

@[simp] theorem State.ckReached_after (s : State) (k : Nat) (hκ : κ.After s.kept) : κ.After (s.ckReached k).2.kept := by
  unfold State.ckReached
  split
  · exact hκ
  · exact State.fresh_after s 32 hκ

@[simp] theorem State.ckShow_after (s : State) (k : Nat) (hκ : κ.After s.kept) : κ.After (s.ckShow k).kept := by
  simp [State.ckShow, hκ]

@[simp] theorem State.ckShowAll_after (s : State) (hκ : κ.After s.kept) : κ.After s.ckShowAll.kept := by
  simp [State.ckShowAll, hκ]

@[simp] theorem State.ckStart_after (s : State) (k : Nat) (cont : Bool) (hκ : κ.After s.kept) :
    κ.After (s.ckStart k cont).kept := by
  unfold State.ckStart
  dsimp only
  (repeat' split) <;> simp (disch := simp [hκ]) [hκ]

@[simp] theorem State.ckPause_after (s : State) (k : Nat) (hκ : κ.After s.kept) : κ.After (s.ckPause k).kept := by
  simp [State.ckPause, hκ]

@[simp] theorem State.ckAbort_after (s : State) (k : Nat) (hκ : κ.After s.kept) : κ.After (s.ckAbort k).kept := by
  simp [State.ckAbort, hκ]

@[simp] theorem State.ckRestored_kept (s : State) (k : Nat) : (s.ckRestored k).kept = s.kept := by rfl

theorem execCkStart_after (k : Nat) (s : State) (hκ : κ.After s.kept) : κ.Leads (execCkStart k s) := by simp [execCkStart, hκ]

theorem execCkStartCont_after (k : Nat) (s : State) (hκ : κ.After s.kept) : κ.Leads (execCkStartCont k s) := by
  simp [execCkStartCont, hκ]

theorem execCkPause_after (k : Nat) (s : State) (hκ : κ.After s.kept) : κ.Leads (execCkPause k s) := by simp [execCkPause, hκ]

theorem execCkAbort_after (k : Nat) (s : State) (hκ : κ.After s.kept) : κ.Leads (execCkAbort k s) := by simp [execCkAbort, hκ]

@[simp] theorem State.ckAwait_after (s : State) (k : Nat) (hκ : κ.After s.kept) : κ.After (s.ckAwait k).kept := by
  simp [State.ckAwait, hκ]

theorem execCkJobComplete_after (k : Nat) (nvmError : Bool) (s : State) (hκ : κ.After s.kept) :
    κ.Leads (execCkJobComplete k nvmError s) := by simp [execCkJobComplete, hκ]

/-! ## Packages (R373, R374) -/

@[simp] theorem State.storeBank_after (s : State) (ok : Bool) (hκ : κ.After s.kept) : κ.After (s.storeBank ok).kept := by
  unfold State.storeBank
  dsimp only
  split
  · exact cfgNvm_after s _ (fun h => Mem.wf_writeN _ _ _ _ (Mem.wf_erase _ _ _ _ h)) hκ
  · exact cfgNvm_after _ _ (fun h => Mem.wf_writeN _ _ _ _ (Mem.wf_writeN _ _ _ _ (Mem.wf_erase _ _ _ _ h)))
      (State.fresh_after _ 8 (State.fresh_after s 32 hκ))

@[simp] theorem State.commitSpare_after (s : State) (l : List Nat) (hκ : κ.After s.kept) : κ.After (s.commitSpare l).kept := by
  unfold State.commitSpare
  exact cfgNvm_after s _ (fun h => Mem.wf_programN _ _ _ h) hκ

/-! ## Transmission (R269) -/

@[simp] theorem State.nextPeer_after (s : State) (lane : Nat) (hκ : κ.After s.kept) : κ.After (s.nextPeer lane).kept := by
  unfold State.nextPeer
  dsimp only
  split <;> simp [hκ]

/-! ## A tile -/

@[simp] theorem State.atTile_kept (s : State) (lane pos : Nat) (east : Bool) (f : TileSt → TileSt) :
    (s.atTile lane pos east f).kept = s.kept := by simp [State.atTile]

theorem execRefreshFrame_after (lane pos : Nat) (east : Bool) (f : TileChars) (s : State) (hκ : κ.After s.kept) :
    κ.Leads (execRefreshFrame lane pos east f s) := by simp [execRefreshFrame, hκ]

theorem execChangeFrame_after (lane pos : Nat) (east : Bool) (f : TileChars) (s : State) (hκ : κ.After s.kept) :
    κ.Leads (execChangeFrame lane pos east f s) := by simp [execChangeFrame, hκ]

theorem execTripFrame_after (lane pos : Nat) (east : Bool) (f : TileChars) (s : State) (hκ : κ.After s.kept) :
    κ.Leads (execTripFrame lane pos east f s) := by simp [execTripFrame, hκ]

theorem execEnumerateFrame_after (lane pos : Nat) (east : Bool) (passed : Nat) (f : TileChars) (s : State) (hκ : κ.After s.kept) :
    κ.Leads (execEnumerateFrame lane pos east passed f s) := by simp [execEnumerateFrame, hκ]

theorem execConfigurationWriteFrame_after (lane pos : Nat) (east : Bool) (f : TileChars) (s : State) (hκ : κ.After s.kept) :
    κ.Leads (execConfigurationWriteFrame lane pos east f s) := by simp [execConfigurationWriteFrame, hκ]

theorem execConfigurationReadFrame_after (lane pos : Nat) (east : Bool) (f : TileChars) (s : State) (hκ : κ.After s.kept) :
    κ.Leads (execConfigurationReadFrame lane pos east f s) := by simp [execConfigurationReadFrame, hκ]

theorem execClaimAgeOut_after (lane pos : Nat) (east : Bool) (s : State) (hκ : κ.After s.kept) :
    κ.Leads (execClaimAgeOut lane pos east s) := by simp [execClaimAgeOut, hκ]

theorem execSafeStateTimeout_after (lane pos : Nat) (s : State) (hκ : κ.After s.kept) :
    κ.Leads (execSafeStateTimeout lane pos s) := by simp [execSafeStateTimeout, hκ]

theorem execCrossingWord_after (lane pos : Nat) (toField : Bool) (toLogic : Option FieldWord) (s : State) (hκ : κ.After s.kept) :
    κ.Leads (execCrossingWord lane pos toField toLogic s) := by simp [execCrossingWord, hκ]

theorem execCrossingLoss_after (lane pos : Nat) (logicSide : Bool) (s : State) (hκ : κ.After s.kept) :
    κ.Leads (execCrossingLoss lane pos logicSide s) := by simp [execCrossingLoss, hκ]

theorem execOutputOvercurrent_after (lane pos out : Nat) (s : State) (hκ : κ.After s.kept) :
    κ.Leads (execOutputOvercurrent lane pos out s) := by simp [execOutputOvercurrent, hκ]

theorem execInputDebounce_after (lane pos inp : Nat) (s : State) (hκ : κ.After s.kept) :
    κ.Leads (execInputDebounce lane pos inp s) := by
  unfold execInputDebounce
  dsimp only
  split <;> simp [hκ]

theorem execTilePowerUp_after (lane pos serial : Nat) (s : State) (hκ : κ.After s.kept) :
    κ.Leads (execTilePowerUp lane pos serial s) := by simp [execTilePowerUp, hκ]

theorem execTilePowerLoss_after (lane pos : Nat) (s : State) (hκ : κ.After s.kept) : κ.Leads (execTilePowerLoss lane pos s) := by
  simp [execTilePowerLoss, hκ]

theorem execFieldSupplyChange_after (lane pos : Nat) (low : Bool) (s : State) (hκ : κ.After s.kept) :
    κ.Leads (execFieldSupplyChange lane pos low s) := by simp [execFieldSupplyChange, hκ]

/-! ## The chain of a tile lane (R237 to R241) -/

@[simp] theorem State.updDevTile_kept (s : State) (lane a : Nat) (f : DevTile → DevTile) :
    (s.updDevTile lane a f).kept = s.kept := by rfl

@[simp] theorem State.syncTiles_kept (s : State) (lane : Nat) : (s.syncTiles lane).kept = s.kept := by simp [State.syncTiles]

/-! ## Refresh (R237, R256) -/

@[simp] theorem State.putRb_kept (s : State) (lane a rb : Nat) (q : Quality) : (s.putRb lane a rb q).kept = s.kept := by
  simp [State.putRb]

@[simp] theorem State.dropRb_kept (s : State) (lane a : Nat) : (s.dropRb lane a).kept = s.kept := by simp [State.dropRb]

@[simp] theorem State.syncRb_kept (s : State) (lane : Nat) : (s.syncRb lane).kept = s.kept := by simp [State.syncRb]

@[simp] theorem State.loseTile_after (s : State) (lane a : Nat) (hκ : κ.After s.kept) : κ.After (s.loseTile lane a).kept := by
  simp [State.loseTile, hκ]

@[simp] theorem State.loseTiles_after (s : State) (lane : Nat) (hκ : κ.After s.kept) : κ.After (s.loseTiles lane).kept := by
  simp [State.loseTiles, hκ]

@[simp] theorem State.endPeriod_kept (s : State) (lane : Nat) : (s.endPeriod lane).kept = s.kept := by simp [State.endPeriod]

@[simp] theorem State.syncPseen_kept (s : State) : s.syncPseen.kept = s.kept := by rfl

@[simp] theorem State.refreshPeriod_after (s : State) (lane : Nat) (hκ : κ.After s.kept) :
    κ.After (s.refreshPeriod lane).kept := by simp [State.refreshPeriod, hκ]

theorem execRefreshPeriod_after (lane : Nat) (s : State) (hκ : κ.After s.kept) : κ.Leads (execRefreshPeriod lane s) := by
  simp [execRefreshPeriod, hκ]

theorem execTileLost_after (lane pos : Nat) (s : State) (hκ : κ.After s.kept) : κ.Leads (execTileLost lane pos s) := by
  simp [execTileLost, hκ]

/-! ## Readback (R249) -/

@[simp] theorem State.trackTile_kept (s : State) (lane a : Nat) : (s.trackTile lane a).kept = s.kept := by
  unfold State.trackTile
  split <;> simp

@[simp] theorem State.reportRb_after (s : State) (lane a : Nat) (hκ : κ.After s.kept) : κ.After (s.reportRb lane a).kept := by
  unfold State.reportRb
  dsimp only
  split <;> simp [hκ]

theorem execReadbackMismatch_after (lane pos : Nat) (s : State) (hκ : κ.After s.kept) :
    κ.Leads (execReadbackMismatch lane pos s) := by
  unfold execReadbackMismatch
  split <;> simp [hκ]

/-! ## Frames that leave (R235, R238 to R241) -/

@[simp] theorem State.sendCmd_kept (s : State) (lane type a extra : Nat) (fixed : Option (Nat × Nat)) :
    (s.sendCmd lane type a extra fixed).kept = s.kept := by simp [State.sendCmd]

@[simp] theorem State.sendConf_kept (s : State) (lane : Nat) (x : Nat × Nat × Nat) : (s.sendConf lane x).kept = s.kept := by
  simp [State.sendConf]

@[simp] theorem State.trimRange_kept (s : State) (lane : Nat) : (s.trimRange lane).kept = s.kept := by rfl

@[simp] theorem State.nextFrame_after (s : State) (lane : Nat) (hκ : κ.After s.kept) : κ.After (s.nextFrame lane).kept := by
  unfold State.nextFrame
  dsimp only
  split <;> simp [hκ]

theorem execLaneFrameStart_after (lane : Nat) (s : State) (hκ : κ.After s.kept) : κ.Leads (execLaneFrameStart lane s) := by
  simp [execLaneFrameStart, hκ]

theorem execMinimumOnTimeExpiry_after (lane pos out : Nat) (s : State) (hκ : κ.After s.kept) :
    κ.Leads (execMinimumOnTimeExpiry lane pos out s) := by
  unfold execMinimumOnTimeExpiry
  split <;> simp [hκ]

/-! ## Enumeration and configuration (R254, R255) -/

@[simp] theorem State.confNext_kept (s : State) (lane : Nat) : (s.confNext lane).kept = s.kept := by
  unfold State.confNext
  dsimp only
  split <;> simp

@[simp] theorem State.reconfigure_kept (s : State) (lane a : Nat) : (s.reconfigure lane a).kept = s.kept := by
  simp [State.reconfigure]

@[simp] theorem State.startEnum_kept (s : State) (lane : Nat) : (s.startEnum lane).kept = s.kept := by simp [State.startEnum]

theorem execEnum_after (lane : Nat) (s : State) (hκ : κ.After s.kept) : κ.Leads (execEnum lane s) := by simp [execEnum, hκ]

@[simp] theorem State.confCmd_kept (s : State) (lane : Nat) : (s.confCmd lane).kept = s.kept := by simp [State.confCmd]

theorem execConf_after (lane : Nat) (s : State) (hκ : κ.After s.kept) : κ.Leads (execConf lane s) := by simp [execConf, hκ]

@[simp] theorem State.enumErr_after (s : State) (lane a cause serial : Nat) (hκ : κ.After s.kept) :
    κ.After (s.enumErr lane a cause serial).kept := by simp [State.enumErr, hκ]

@[simp] theorem State.enumResp_after (s : State) (lane a : Nat) (t : TileCfg) (u : UpFrame) (hκ : κ.After s.kept) :
    κ.After (s.enumResp lane a t u).kept := by simp [State.enumResp, hκ]

@[simp] theorem State.itemResp_kept (s : State) (lane a : Nat) (data : List Nat) : (s.itemResp lane a data).kept = s.kept := by
  simp [State.itemResp]

/-! ## Up-frames (R236, R249, R253, R255, R256) -/

@[simp] theorem State.upSeen_after (s : State) (lane a : Nat) (u : UpFrame) (hκ : κ.After s.kept) :
    κ.After (s.upSeen lane a u).kept := by
  unfold State.upSeen
  extract_lets k tag in_ was v w x y z
  have hw : κ.After w.kept := by
    unfold w v
    simp [hκ]
  clear_value w
  have hz : κ.After z.kept := by
    unfold z y x
    simp [hw]
  clear_value z
  simp [hz]

@[simp] theorem State.statusUp_after (s : State) (lane a : Nat) (u : UpFrame) (hκ : κ.After s.kept) :
    κ.After (s.statusUp lane a u).kept := by simp [State.statusUp, hκ]

theorem execStatusUpFrame_after (lane _pos : Nat) (l : TileChars) (s : State) (hκ : κ.After s.kept) :
    κ.Leads (execStatusUpFrame lane _pos l s) := by simp [execStatusUpFrame, hκ]

@[simp] theorem State.noResp_after (s : State) (lane a : Nat) (hκ : κ.After s.kept) : κ.After (s.noResp lane a).kept := by
  simp [State.noResp, hκ]

@[simp] theorem State.confResp_after (s : State) (lane a : Nat) (t : TileCfg) (u : UpFrame) (hκ : κ.After s.kept) :
    κ.After (s.confResp lane a t u).kept := by simp [State.confResp, hκ]

theorem execConfigurationResponse_after (lane pos : Nat) (r : Option TileChars) (s : State) (hκ : κ.After s.kept) :
    κ.Leads (execConfigurationResponse lane pos r s) := by
  unfold execConfigurationResponse
  dsimp only
  (repeat' split) <;> simp [hκ]

/-! ## Counters that the line drives (R277, R278) -/

@[simp] theorem State.syncPrbs_kept (s : State) (n : Nat) : (s.syncPrbs n).kept = s.kept := by simp [State.syncPrbs]

@[simp] theorem State.invertLine_kept (s : State) (n : Nat) (f : Nat → Bool) : (s.invertLine n f).kept = s.kept := by rfl

@[simp] theorem State.runInj_kept (s : State) (n : Nat) : (s.runInj n).kept = s.kept := by simp [State.runInj]

@[simp] theorem State.syncInj_kept (s : State) (n : Nat) : (s.syncInj n).kept = s.kept := by
  unfold State.syncInj
  split <;> simp

/-! ## Link state (R262, R263, R265) -/

@[simp] theorem State.realign_kept (s : State) (n : Nat) : (s.realign n).kept = s.kept := by simp [State.realign]

@[simp] theorem State.dropLink_after (s : State) (n : Nat) (counts : Bool) (hκ : κ.After s.kept) :
    κ.After (s.dropLink n counts).kept := by simp [State.dropLink, hκ]

@[simp] theorem State.dropLock_after (s : State) (n : Nat) (hκ : κ.After s.kept) : κ.After (s.dropLock n).kept := by
  simp [State.dropLock, hκ]

@[simp] theorem State.takeBlock_after (s : State) (n : Nat) (ok : Bool) (hκ : κ.After s.kept) :
    κ.After (s.takeBlock n ok).kept := by simp [State.takeBlock, hκ]

@[simp] theorem State.restReceiver_after (s : State) (n : Nat) (hκ : κ.After s.kept) : κ.After (s.restReceiver n).kept := by
  simp [State.restReceiver, hκ]

/-! ## Service states (R260, R261, R364) -/

@[simp] theorem State.discardFrames_kept (s : State) (n : Nat) : (s.discardFrames n).kept = s.kept := by
  simp [State.discardFrames]

@[simp] theorem State.enterStopping_kept (s : State) (n : Nat) : (s.enterStopping n).kept = s.kept := by
  simp [State.enterStopping]

@[simp] theorem State.enterOn_kept (s : State) (n : Nat) : (s.enterOn n).kept = s.kept := by
  unfold State.enterOn
  dsimp only
  split <;> simp

@[simp] theorem State.enterStarting_after (s : State) (n : Nat) (hκ : κ.After s.kept) : κ.After (s.enterStarting n).kept := by
  unfold State.enterStarting
  dsimp only
  (repeat' split) <;> simp [hκ]

@[simp] theorem State.startLane_after (s : State) (n : Nat) (hκ : κ.After s.kept) : κ.After (s.startLane n).kept := by
  unfold State.startLane
  (repeat' split) <;> simp [hκ]

@[simp] theorem State.stopLane_kept (s : State) (n : Nat) : (s.stopLane n).kept = s.kept := by
  unfold State.stopLane
  split <;> simp

theorem execLnStart_after (n : Nat) (s : State) (hκ : κ.After s.kept) : κ.Leads (execLnStart n s) := by simp [execLnStart, hκ]

theorem execLnStop_after (n : Nat) (s : State) (hκ : κ.After s.kept) : κ.Leads (execLnStop n s) := by simp [execLnStop, hκ]

theorem execLaneStartTimeout_after (n : Nat) (s : State) (hκ : κ.After s.kept) : κ.Leads (execLaneStartTimeout n s) := by
  simp [execLaneStartTimeout, hκ]

theorem execLaneStopComplete_after (n : Nat) (s : State) (hκ : κ.After s.kept) : κ.Leads (execLaneStopComplete n s) := by
  simp (disch := simp [hκ]) [hκ, execLaneStopComplete]

/-! ## Receiver events -/

theorem execSignalDetectChange_after (n : Nat) (on : Bool) (s : State) (hκ : κ.After s.kept) :
    κ.Leads (execSignalDetectChange n on s) := by simp [execSignalDetectChange, hκ]

theorem execCdrLock_after (n : Nat) (ppm : Int) (s : State) (hκ : κ.After s.kept) : κ.Leads (execCdrLock n ppm s) := by
  simp [execCdrLock, hκ]

theorem execCdrUnlock_after (n : Nat) (s : State) (hκ : κ.After s.kept) : κ.Leads (execCdrUnlock n s) := by
  simp [execCdrUnlock, hκ]

@[simp] theorem State.endRetrain_after (s : State) (n : Nat) (hκ : κ.After s.kept) : κ.After (s.endRetrain n).kept := by
  simp [State.endRetrain, hκ]

@[simp] theorem State.raiseLink_after (s : State) (n : Nat) (hκ : κ.After s.kept) : κ.After (s.raiseLink n).kept := by
  simp [State.raiseLink, hκ]

@[simp] theorem State.lineBlock_after (s : State) (n i : Nat) (ok : Bool) (hκ : κ.After s.kept) :
    κ.After (s.lineBlock n i ok).kept := by simp (disch := simp [hκ]) [hκ, State.lineBlock]

@[simp] theorem State.takeOks_after (s : State) (n : Nat) (oks : List Bool) (hκ : κ.After s.kept) :
    κ.After (s.takeOks n oks).kept := by simp [State.takeOks, hκ]

@[simp] theorem State.takeBlocks_after (s : State) (n : Nat) (blocks : List Nat) (hκ : κ.After s.kept) :
    κ.After (s.takeBlocks n blocks).kept := by simp [State.takeBlocks, hκ]

@[simp] theorem State.linkUp_after (s : State) (n : Nat) (blocks : List Nat) (hκ : κ.After s.kept) :
    κ.After (s.linkUp n blocks).kept := by simp [State.linkUp, hκ]

theorem execLinkUp_after (x : LineBlocks) (s : State) (hκ : κ.After s.kept) : κ.Leads (execLinkUp x s) := by simp [execLinkUp, hκ]

@[simp] theorem State.linkDown_after (s : State) (n : Nat) (blocks : List Nat) (hiBer : Bool) (hκ : κ.After s.kept) :
    κ.After (s.linkDown n blocks hiBer).kept := by simp [State.linkDown, hκ]

theorem execLinkDown_after (x : LineBlocks) (s : State) (hκ : κ.After s.kept) : κ.Leads (execLinkDown x s) := by
  simp [execLinkDown, hκ]

/-! ## Equaliser (R270 to R274) -/

@[simp] theorem State.setEq_kept (s : State) (n p : Nat) (v : Int) : (s.setEq n p v).kept = s.kept := by simp [State.setEq]

@[simp] theorem State.eqParam_kept (s : State) (n p : Nat) (d : Int) (sticky : Bool) :
    (s.eqParam n p d sticky).kept = s.kept := by simp [State.eqParam]

theorem execAdaptationUpdate_after (n : Nat) (desired : List Int) (eye mse : Nat) (s : State) (hκ : κ.After s.kept) :
    κ.Leads (execAdaptationUpdate n desired eye mse s) := by simp [execAdaptationUpdate, hκ]

@[simp] theorem State.eqWrite_kept (s : State) (n p : Nat) (w : Nat) : (s.eqWrite n p w).kept = s.kept := by simp [State.eqWrite]

theorem execCtleDfeWrite_after (n p : Nat) (w : Word) (s : State) (hκ : κ.After s.kept) : κ.Leads (execCtleDfeWrite n p w s) := by
  simp [execCtleDfeWrite, hκ]

@[simp] theorem State.retrain_after (s : State) (n : Nat) (hκ : κ.After s.kept) : κ.After (s.retrain n).kept := by
  simp [State.retrain, hκ]

theorem execRetrain_after (n : Nat) (s : State) (hκ : κ.After s.kept) : κ.Leads (execRetrain n s) := by simp [execRetrain, hκ]

/-! ## Patterns and injection (R276 to R278) -/

@[simp] theorem State.seedGen_after (s : State) (n : Nat) (on : Bool) (hκ : κ.After s.kept) : κ.After (s.seedGen n on).kept := by
  simp [State.seedGen, hκ]

@[simp] theorem State.prbsWrite_after (s : State) (n w : Nat) (hκ : κ.After s.kept) : κ.After (s.prbsWrite n w).kept := by
  simp (disch := simp [hκ]) [hκ, State.prbsWrite]

theorem execPrbsctrlWrite_after (n : Nat) (w : Word) (s : State) (hκ : κ.After s.kept) : κ.Leads (execPrbsctrlWrite n w s) := by
  simp [execPrbsctrlWrite, hκ]

@[simp] theorem State.checkBit_kept (s : State) (n : Nat) (b : Bool) : (s.checkBit n b).kept = s.kept := by simp [State.checkBit]

@[simp] theorem State.checkBits_kept (s : State) (n : Nat) (bits : List Bool) : (s.checkBits n bits).kept = s.kept := by
  simp [State.checkBits]

theorem execCheckerLock_after (x : LineBits) (s : State) (hκ : κ.After s.kept) : κ.Leads (execCheckerLock x s) := by
  simp [execCheckerLock, hκ]

theorem execCheckerLoss_after (n : Nat) (bits : List Bool) (s : State) (hκ : κ.After s.kept) :
    κ.Leads (execCheckerLoss n bits s) := by simp [execCheckerLoss, hκ]

@[simp] theorem State.injWrite_kept (s : State) (n w : Nat) : (s.injWrite n w).kept = s.kept := by simp [State.injWrite]

theorem execInjWrite_after (n : Nat) (w : Word) (s : State) (hκ : κ.After s.kept) : κ.Leads (execInjWrite n w s) := by
  simp [execInjWrite, hκ]

end Sys2Proof.Machine
end

section
/-! What every command keeps:
the pair, partners and the event log. -/

namespace Sys2Proof.Machine

variable {κ : Kept}

/-! ## Claim, PAIR_OK and ranges (R303, R306, R310) -/

@[simp] theorem State.syncClaim_kept (s : State) : s.syncClaim.kept = s.kept := by simp [State.syncClaim]

@[simp] theorem State.syncPairOk_kept (s : State) : s.syncPairOk.kept = s.kept := by rfl

@[simp] theorem State.syncRing_kept (s : State) : s.syncRing.kept = s.kept := by simp [State.syncRing]

@[simp] theorem State.roleRange_kept (s : State) (lane : Nat) (active : Bool) : (s.roleRange lane active).kept = s.kept := by
  simp [State.roleRange]

@[simp] theorem State.roleRanges_kept (s : State) (active : Bool) : (s.roleRanges active).kept = s.kept := by
  simp [State.roleRanges]

@[simp] theorem State.syncRole_kept (s : State) : s.syncRole.kept = s.kept := by simp [State.syncRole]

@[simp] theorem State.takeRole_after (s : State) (active : Bool) (g cause : Nat) (hκ : κ.After s.kept) :
    κ.After (s.takeRole active g cause).kept := by simp [State.takeRole, hκ]

@[simp] theorem State.countTakeover_kept (s : State) : s.countTakeover.kept = s.kept := by rfl

/-! ## Records (R314) -/

@[simp] theorem State.queuePeer_kept (s : State) (add : LaneSt → LaneSt) : (s.queuePeer add).kept = s.kept := by
  simp [State.queuePeer]

@[simp] theorem State.sendRec_kept (s : State) (type k epoch data : Nat) : (s.sendRec type k epoch data).kept = s.kept := by
  simp [State.sendRec]

/-! ## Takeover after a loss of the partner (R323) -/

@[simp] theorem State.closeContest_kept (s : State) : s.closeContest.kept = s.kept := by
  unfold State.closeContest
  split <;> simp

@[simp] theorem State.checkTakeover_after (s : State) (hκ : κ.After s.kept) : κ.After s.checkTakeover.kept := by
  simp [State.checkTakeover, hκ]

@[simp] theorem State.checkPeer_after (s : State) (hκ : κ.After s.kept) : κ.After s.checkPeer.kept := by
  simp [State.checkPeer, hκ]

theorem execPairOkLow_after (s : State) (hκ : κ.After s.kept) : κ.Leads (execPairOkLow s) := by simp [execPairOkLow, hκ]

/-! ## Contest (R318, R319) -/

@[simp] theorem State.openContest_kept (s : State) (k e : Nat) (found : Bool) : (s.openContest k e found).kept = s.kept := by
  simp [State.openContest]

theorem execSelfTestComplete_after (failed : Nat) (s : State) (hκ : κ.After s.kept) :
    κ.Leads (execSelfTestComplete failed s) := by
  unfold execSelfTestComplete
  split <;> simp [hκ]

@[simp] theorem State.fail__after (s : State) (hκ : κ.After s.kept) : κ.After s.fail_.kept := by simp [State.fail_, hκ]

@[simp] theorem State.contestActs_after (s : State) (own peer : Bool) (k c : Nat) (hκ : κ.After s.kept) :
    κ.After (s.contestActs own peer k c).kept := by simp [State.contestActs, hκ]

@[simp] theorem State.contestOutcome_after (s : State) (hκ : κ.After s.kept) : κ.After s.contestOutcome.kept := by
  unfold State.contestOutcome
  split
  · exact hκ
  · extract_lets u res pres v w x
    have hv : κ.After v.kept := by
      unfold v u
      simp [hκ]
    clear_value v
    have hw : κ.After w.kept := by
      unfold w
      simp [hv]
    clear_value w
    simp [x, hw]

theorem execContestOutcome_after (s : State) (hκ : κ.After s.kept) : κ.Leads (execContestOutcome s) := by
  simp [execContestOutcome, hκ]

/-! ## Digests (R315 to R317) -/

@[simp] theorem State.joinContest_kept (s : State) (k : Nat) : (s.joinContest k).kept = s.kept := by
  unfold State.joinContest
  split <;> simp

@[simp] theorem State.compared_kept (s : State) (k e : Nat) (same : Bool) : (s.compared k e same).kept = s.kept := by
  simp [State.compared]

@[simp] theorem State.compare_kept (s : State) (k e : Nat) : (s.compare k e).kept = s.kept := by
  unfold State.compare
  (repeat' split) <;> simp

@[simp] theorem State.formDigest_kept (s : State) (k e : Nat) : (s.formDigest k e).kept = s.kept := by simp [State.formDigest]

@[simp] theorem State.align_kept (s : State) (r : PeerRec) : (s.align r).kept = s.kept := by
  unfold State.align
  dsimp only
  (repeat' split) <;> simp

@[simp] theorem State.partnerStands_kept (s : State) (claim : Nat) : (s.partnerStands claim).kept = s.kept := by
  simp [State.partnerStands]

@[simp] theorem State.adoptGen_kept (s : State) (r : PeerRec) : (s.adoptGen r).kept = s.kept := by simp [State.adoptGen]

theorem State.takeRec_after (s : State) (r : PeerRec) (hκ : κ.After s.kept) (t : State) (ht : s.takeRec r = some t) :
    κ.After t.kept := by
  unfold State.takeRec at ht
  split at ht
  · exact absurd ht (by simp)
  split at ht
  · exact absurd ht (by simp)
  split at ht
  · exact absurd ht (by simp)
  · obtain rfl := Option.some.inj ht
    simp [hκ, State.onlyIf_kept]

@[simp] theorem State.dropRec_kept (s : State) (r : PeerRec) : (s.dropRec r).kept = s.kept := by simp [State.dropRec]

@[simp] theorem State.onRec_after (s : State) (r : PeerRec) (f : PeerRec → State → State)
    (hf : ∀ r (s : State), s.kept.After (f r s).kept) (hκ : κ.After s.kept) :
    κ.After (s.onRec r f).kept := by
  unfold State.onRec
  split
  next t ht => exact (State.takeRec_after s r hκ t ht).trans (hf r t)
  · simp [hκ]

@[simp] theorem State.peerBlock_after (s : State) (n : Nat) (b : PlainBlock) (hκ : κ.After s.kept) :
    κ.After (s.peerBlock n b).2.kept := by
  unfold State.peerBlock
  dsimp only
  split <;> simp [hκ]

@[simp] theorem State.peerArrives_after (s : State) (x : PeerRx) (hκ : κ.After s.kept) : κ.After (s.peerArrives x).2.kept := by
  unfold State.peerArrives
  split
  · exact hκ
  · exact List.foldlRecOn (motive := fun o : List PeerFrame × State => κ.After o.2.kept) _ _ hκ
      fun o ho b _ => State.peerBlock_after o.2 x.lane b ho

@[simp] theorem State.onRecs_after (s : State) (x : PeerRx) (type : Nat) (f : PeerRec → State → State)
    (hf : ∀ r (s : State), s.kept.After (f r s).kept) (hκ : κ.After s.kept) :
    κ.After (s.onRecs x type f).kept := by
  unfold State.onRecs
  exact foldl_after (fun t g => State.onRec_after t _ f hf (Kept.After.refl _)) _ (State.peerArrives_after s x hκ)

@[simp] theorem State.peerDigest_kept (r : PeerRec) (s : State) : (State.peerDigest r s).kept = s.kept := by
  unfold State.peerDigest
  dsimp only
  split <;> simp

theorem execDigest_after (x : PeerRx) (s : State) (hκ : κ.After s.kept) : κ.Leads (execDigest x s) := by simp [execDigest, hκ]

@[simp] theorem State.peerResult_kept (r : PeerRec) (s : State) : (State.peerResult r s).kept = s.kept := by
  simp [State.peerResult]

theorem execContestResult_after (x : PeerRx) (s : State) (hκ : κ.After s.kept) : κ.Leads (execContestResult x s) := by
  simp [execContestResult, hκ]

/-! ## Partner claims on the chains (R307 to R309, R311) -/

@[simp] theorem State.partnerFrame_kept (s : State) (lane claim : Nat) : (s.partnerFrame lane claim).kept = s.kept := by
  simp [State.partnerFrame]

theorem execPartnerDownFrame_after (lane : Nat) (l : TileChars) (s : State) (hκ : κ.After s.kept) :
    κ.Leads (execPartnerDownFrame lane l s) := by simp [execPartnerDownFrame, hκ]

theorem execRoleYield_after (lane : Nat) (s : State) (hκ : κ.After s.kept) : κ.Leads (execRoleYield lane s) := by
  simp [execRoleYield, hκ]

theorem execRingBreakService_after (lane : Nat) (s : State) (hκ : κ.After s.kept) : κ.Leads (execRingBreakService lane s) := by
  unfold execRingBreakService
  dsimp only
  (repeat' split) <;> simp [hκ]

theorem execRingServiceEnd_after (lane : Nat) (s : State) (hκ : κ.After s.kept) : κ.Leads (execRingServiceEnd lane s) := by
  simp [execRingServiceEnd, hκ]

theorem execRoleListenExpiry_after (s : State) (hκ : κ.After s.kept) : κ.Leads (execRoleListenExpiry s) := by
  unfold execRoleListenExpiry
  dsimp only
  (repeat' split) <;> simp [hκ]

/-! ## Standby data feed (R312) -/

@[simp] theorem State.feedTile_kept (s : State) (f : Nat) (t : FeedTile) : (s.feedTile f t).kept = s.kept := by
  simp [State.feedTile]

@[simp] theorem State.takeFeed_kept (s : State) (k epoch : Nat) (tiles : List FeedTile) :
    (s.takeFeed k epoch tiles).kept = s.kept := by
  unfold State.takeFeed
  split <;> simp

theorem execStandbyDataFeed_after (lane before : Nat) (blocks : List PeerBlock) (s : State) (hκ : κ.After s.kept) :
    κ.Leads (execStandbyDataFeed lane before blocks s) := by simp [execStandbyDataFeed, hκ]

theorem execStandbyFeedMissing_after (k : Nat) (s : State) (hκ : κ.After s.kept) : κ.Leads (execStandbyFeedMissing k s) := by
  unfold execStandbyFeedMissing
  split <;> simp [hκ]

@[simp] theorem State.sendFeed_kept (s : State) (k e : Nat) : (s.sendFeed k e).kept = s.kept := by
  unfold State.sendFeed
  split <;> simp

/-! ## Demotion (R320 to R322) -/

theorem execDemoteCheck_after (s : State) (hκ : κ.After s.kept) : κ.Leads (execDemoteCheck s) := by
  unfold execDemoteCheck
  dsimp only
  (repeat' split) <;> simp [hκ]

theorem execDemotePulseEnd_after (s : State) (hκ : κ.After s.kept) : κ.Leads (execDemotePulseEnd s) := by
  unfold execDemotePulseEnd
  split <;> simp [hκ]

theorem execDemoteInFall_after (s : State) (hκ : κ.After s.kept) : κ.Leads (execDemoteInFall s) := by simp [execDemoteInFall, hκ]

theorem execDemoteInRise_after (s : State) (hκ : κ.After s.kept) : κ.Leads (execDemoteInRise s) := by simp [execDemoteInRise, hκ]

theorem execDemoteHeld_after (s : State) (hκ : κ.After s.kept) : κ.Leads (execDemoteHeld s) := by
  unfold execDemoteHeld
  split <;> simp [hκ]

@[simp] theorem State.clrFail_kept (s : State) : s.clrFail.kept = s.kept := by simp [State.clrFail]

@[simp] theorem State.clrDemote_kept (s : State) : s.clrDemote.kept = s.kept := by simp [State.clrDemote]

theorem execClrfail_after (s : State) (hκ : κ.After s.kept) : κ.Leads (execClrfail s) := by simp [execClrfail, hκ]

theorem execClrdemote_after (s : State) (hκ : κ.After s.kept) : κ.Leads (execClrdemote s) := by simp [execClrdemote, hκ]

/-! ## Castling (R324, R325) -/

@[simp] theorem State.refuseCastle_kept (s : State) (reason : Nat) : (s.refuseCastle reason).kept = s.kept := by rfl

@[simp] theorem State.castle_kept (s : State) : s.castle.kept = s.kept := by simp [State.castle]

theorem execCastle_after (s : State) (hκ : κ.After s.kept) : κ.Leads (execCastle s) := by simp [execCastle, hκ]

@[simp] theorem State.castleAsked_kept (r : PeerRec) (s : State) : (State.castleAsked r s).kept = s.kept := by
  unfold State.castleAsked
  dsimp only
  split <;> simp

theorem execCastlingRequest_after (x : PeerRx) (s : State) (hκ : κ.After s.kept) : κ.Leads (execCastlingRequest x s) := by
  simp [execCastlingRequest, hκ]

@[simp] theorem State.castleAnswered_kept (r : PeerRec) (s : State) : (State.castleAnswered r s).kept = s.kept := by
  unfold State.castleAnswered
  split <;> simp

theorem execCastlingAnswer_after (x : PeerRx) (s : State) (hκ : κ.After s.kept) : κ.Leads (execCastlingAnswer x s) := by
  simp [execCastlingAnswer, hκ]

theorem execCastlingAnswerTimeout_after (s : State) (hκ : κ.After s.kept) : κ.Leads (execCastlingAnswerTimeout s) := by
  unfold execCastlingAnswerTimeout
  split <;> simp [hκ]

theorem execCastlingSwitch_after (s : State) (hκ : κ.After s.kept) : κ.Leads (execCastlingSwitch s) := by
  unfold execCastlingSwitch
  split <;> simp [hκ]

theorem execCastlingEnd_after (s : State) (hκ : κ.After s.kept) : κ.Leads (execCastlingEnd s) := by
  unfold execCastlingEnd
  dsimp only
  split <;> simp (disch := simp [hκ]) [hκ]

/-! ## The table (R386) -/

@[simp] theorem State.updPartner_kept (s : State) (n : Nat) (f : Partner → Partner) : (s.updPartner n f).kept = s.kept := by rfl

@[simp] theorem State.syncUsed_kept (s : State) : s.syncUsed.kept = s.kept := by rfl

@[simp] theorem State.createPinned_kept (s : State) : s.createPinned.kept = s.kept := by
  unfold State.createPinned
  refine foldl_kept (fun t x => ?_) _ _
  dsimp only
  (repeat' split) <;> simp

@[simp] theorem State.freePartner_kept (s : State) (n : Nat) : (s.freePartner n).kept = s.kept := by simp [State.freePartner]

/-! ## Answers to frames that break the rules (R391) -/

@[simp] theorem State.unadmitted_after (s : State) (lane kind mac : Nat) (hκ : κ.After s.kept) :
    κ.After (s.unadmitted lane kind mac).kept := by simp [State.unadmitted, hκ]

@[simp] theorem State.tableFull_after (s : State) (lane kind mac : Nat) (hκ : κ.After s.kept) :
    κ.After (s.tableFull lane kind mac).kept := by simp [State.tableFull, hκ]

@[simp] theorem State.violation_after (s : State) (n lane row : Nat) (hκ : κ.After s.kept) :
    κ.After (s.violation n lane row).kept := by simp [State.violation, hκ]

@[simp] theorem State.takeCaps_after (s : State) (n lane len : Nat) (hκ : κ.After s.kept) :
    κ.After (s.takeCaps n lane len).2.kept := by
  unfold State.takeCaps
  dsimp only
  split <;> simp [hκ]

/-! ## Judging a frame (R390) -/

@[simp] theorem State.captureRx_kept (s : State) (lane : Nat) : (s.captureRx lane).kept = s.kept := by simp [State.captureRx]

@[simp] theorem State.judgePinned_after (s : State) (lane kind key : Nat) (src : Option Nat) (snd : Sender)
    (hκ : κ.After s.kept) :
    κ.After (s.judgePinned lane kind key src snd).2.kept := by
  unfold State.judgePinned
  split
  · simp [hκ]
  split
  · simp [hκ]
  next n _ _ =>
    extract_lets u
    have hu : κ.After u.kept := by
      unfold u
      split <;> simp [hκ]
    have ht := State.takeCaps_after u n lane snd.len hu
    split
    next heq => rw [heq] at ht; exact ht
    next heq => rw [heq] at ht; exact ht

@[simp] theorem State.judgeDynamic_after (s : State) (lane kind id key id0 id1 : Nat) (snd : Sender) (hκ : κ.After s.kept) :
    κ.After (s.judgeDynamic lane kind id key id0 id1 snd).2.kept := by
  unfold State.judgeDynamic
  split
  · simp [hκ]
  next ix r _ =>
    extract_lets p found
    have hfound : ∀ n u, found = some (n, u) → κ.After u.kept := by
      intro n u hu
      unfold found at hu
      split at hu
      · obtain ⟨-, rfl⟩ := Prod.mk.inj (Option.some.inj hu)
        simp [hκ]
      · obtain ⟨m, -, hm⟩ := Option.map_eq_some_iff.mp hu
        obtain ⟨-, rfl⟩ := Prod.mk.inj hm
        simp [hκ]
    clear_value found
    obtain _ | ⟨n, u⟩ := found
    · simp [hκ]
    · have ht := State.takeCaps_after u n lane snd.len (hfound n u rfl)
      dsimp only
      split
      next heq => rw [heq] at ht; exact ht
      next heq => rw [heq] at ht; exact ht

/-! ## Partners -/

theorem execDynamicEntryExpiry_after (n : Nat) (s : State) (hκ : κ.After s.kept) : κ.Leads (execDynamicEntryExpiry n s) := by
  unfold execDynamicEntryExpiry
  split <;> simp [hκ]

theorem execFrameOfNoKind_after (lane : Nat) (laneFault : Bool) (len : Nat) (s : State) (hκ : κ.After s.kept) :
    κ.Leads (execFrameOfNoKind lane laneFault len s) := by simp [execFrameOfNoKind, hκ]

/-! ## The event NVM, the writing of records, freeze, erase and the RTC (R334 to R353) -/

@[simp] theorem State.nextSlot_kept (s : State) : s.nextSlot.kept = s.kept := by
  unfold State.nextSlot
  (repeat' split) <;> simp

@[simp] theorem State.committed_after (s : State) (r : EvRec) (slot seq : Nat) (hκ : κ.After s.kept) :
    κ.After (s.committed r slot seq).kept := by
  unfold State.committed
  dsimp only
  (repeat' split) <;> simp [hκ]

@[simp] theorem State.retireSector_after (s : State) (r : EvRec) (slot seq : Nat) (hκ : κ.After s.kept) :
    κ.After (s.retireSector r slot seq).kept := by
  unfold State.retireSector
  extract_lets sector u v w x
  have hu : κ.After u.kept := State.evProgram_after _ _ _ (State.evProgram_after _ _ _ hκ)
  have hx : κ.After x.kept := State.event_after _ _ _ _ _ _ hu
  clear_value x
  split
  · extract_lets y
    have hy : κ.After y.kept := hx
    clear_value y
    split <;> simp [hy]
  · simp [hx]

@[simp] theorem State.timeProgram_after (s : State) (us : Nat) (hκ : κ.After s.kept) : κ.After (s.timeProgram us).kept := by
  simp [State.timeProgram, hκ]

@[simp] theorem State.timePrograms_after (s : State) (us : List Nat) (hκ : κ.After s.kept) :
    κ.After (s.timePrograms us).kept := by simp [State.timePrograms, hκ]

@[simp] theorem State.stageDone_after (s : State) (ok : Bool) (us : List Nat) (hκ : κ.After s.kept) :
    κ.After (s.stageDone ok us).kept := by
  unfold State.stageDone
  split
  · exact hκ
  next r slot stage _ =>
    extract_lets seq body u v
    have hu : κ.After u.kept := by
      unfold u
      split <;> simp [hκ]
    have hv : κ.After v.kept := State.timePrograms_after _ _ hu
    clear_value v
    (repeat' split) <;> simp [hv]

theorem execLogStageComplete_after (ok : Bool) (us : List Nat) (s : State) (hκ : κ.After s.kept) :
    κ.Leads (execLogStageComplete ok us s) := by simp [execLogStageComplete, hκ]

@[simp] theorem State.sectorErased_after (s : State) (hκ : κ.After s.kept) : κ.After s.sectorErased.kept := by
  unfold State.sectorErased
  dsimp only
  (repeat' split) <;> simp (disch := simp [hκ]) [hκ]

theorem execSectorEraseComplete_after (s : State) (hκ : κ.After s.kept) : κ.Leads (execSectorEraseComplete s) := by
  simp [execSectorEraseComplete, hκ]

theorem execRepeatWindowExpiry_after (code : Nat) (s : State) (hκ : κ.After s.kept) :
    κ.Leads (execRepeatWindowExpiry code s) := by
  unfold execRepeatWindowExpiry
  split <;> simp [hκ]

@[simp] theorem State.closeLapsed_after (s : State) (hκ : κ.After s.kept) : κ.After s.closeLapsed.kept := by
  unfold State.closeLapsed
  refine foldl_after (fun t x => ?_) _ hκ
  (repeat' split) <;> simp [hκ]

@[simp] theorem State.correlate_after (s : State) (hκ : κ.After s.kept) : κ.After s.correlate.kept := by
  simp [State.correlate, hκ]

theorem execCorrelationRecord_after (s : State) (hκ : κ.After s.kept) : κ.Leads (execCorrelationRecord s) := by
  simp [execCorrelationRecord, hκ]

@[simp] theorem State.freeze_kept (s : State) : s.freeze.kept = s.kept := by simp [State.freeze]

theorem execFreeze_after (s : State) (hκ : κ.After s.kept) : κ.Leads (execFreeze s) := by simp [execFreeze, hκ]

@[simp] theorem State.thaw_after (s : State) (hκ : κ.After s.kept) : κ.After s.thaw.kept := by simp [State.thaw, hκ]

theorem execThaw_after (s : State) (hκ : κ.After s.kept) : κ.Leads (execThaw s) := by simp [execThaw, hκ]

theorem execFreezeExpiry_after (s : State) (hκ : κ.After s.kept) : κ.Leads (execFreezeExpiry s) := by simp [execFreezeExpiry, hκ]

theorem execErasearm_after (s : State) (hκ : κ.After s.kept) : κ.Leads (execErasearm s) := by simp [execErasearm, hκ]

@[simp] theorem State.eraseLog_after (s : State) (hκ : κ.After s.kept) : κ.After s.eraseLog.kept := by
  simp (disch := simp [hκ]) [hκ, State.eraseLog]

@[simp] theorem State.eraseCmd_after (s : State) (hκ : κ.After s.kept) : κ.After s.eraseCmd.kept := by
  unfold State.eraseCmd
  split <;> simp [hκ]

theorem execErase_after (s : State) (hκ : κ.After s.kept) : κ.Leads (execErase s) := by simp [execErase, hκ]

theorem execEraseArmExpiry_after (s : State) (hκ : κ.After s.kept) : κ.Leads (execEraseArmExpiry s) := by
  unfold execEraseArmExpiry
  split <;> simp [hκ]

/-! ## Clocks of the log -/

theorem execRtclRead_after (s : State) (hκ : κ.After s.kept) : κ.Leads (execRtclRead s) := by simp [execRtclRead, hκ]

theorem execRtclWrite_after (w : Word) (s : State) (hκ : κ.After s.kept) : κ.Leads (execRtclWrite w s) := by
  simp [execRtclWrite, hκ]

@[simp] theorem State.setRtc_after (s : State) (ms source : Nat) (hκ : κ.After s.kept) : κ.After (s.setRtc ms source).kept := by
  simp [State.setRtc, hκ]

theorem execRtchWrite_after (w : Word) (s : State) (hκ : κ.After s.kept) : κ.Leads (execRtchWrite w s) := by
  simp [execRtchWrite, hκ]

theorem execOptlRead_after (s : State) (hκ : κ.After s.kept) : κ.Leads (execOptlRead s) := by simp [execOptlRead, hκ]

/-! ## Reading records -/

@[simp] theorem State.noteRead_after (s : State) (seq : Nat) (hκ : κ.After s.kept) : κ.After (s.noteRead seq).kept := by
  unfold State.noteRead
  dsimp only
  (repeat' split) <;> simp [hκ]

end Sys2Proof.Machine
end

section
/-! What every command keeps:
logic cores, power and the disturbance recorder. -/

namespace Sys2Proof.Machine

variable {κ : Kept}

/-! ## The operands of logic instructions (R211 to R215) -/

@[simp] theorem State.opWrite_kept (s : State) (k : Nat) (x : SOp) (e : Entry) : (s.opWrite k x e).kept = s.kept := by
  simp [State.opWrite]

@[simp] theorem State.opPut_kept (s : State) (k : Nat) (x : SOp) (b : Bool) (q : Quality) : (s.opPut k x b q).kept = s.kept := by
  simp [State.opPut]

/-! ## The scheme logic cores (R205 to R224) -/

@[simp] theorem State.instr_kept (s : State) (k : Nat) (f : State → State) (hf : ∀ s, (f s).kept = s.kept) :
    (s.instr k f).kept = s.kept := by
  unfold State.instr
  split
  · rw [State.updCore_kept, hf]
  · rfl

@[simp] theorem State.setB_kept (s : State) (k : Nat) (b : Bool) (q : Quality) : (s.setB k b q).kept = s.kept := by rfl

@[simp] theorem State.setA_kept (s : State) (k : Nat) (a : Int) (q : Quality) : (s.setA k a q).kept = s.kept := by rfl

@[simp] theorem State.boolOp_kept (s : State) (k : Nat) (x : SOp) (f : Bool → Bool → Bool) : (s.boolOp k x f).kept = s.kept := by
  rfl

@[simp] theorem State.numOp_kept (s : State) (k : Nat) (x : SOp) (f : Int → Int → Int) : (s.numOp k x f).kept = s.kept := by rfl

@[simp] theorem State.popOp_kept (s : State) (k : Nat) (f : Bool → Bool → Bool) : (s.popOp k f).kept = s.kept := by
  unfold State.popOp
  dsimp only
  split <;> simp

@[simp] theorem State.jumpTo_kept (s : State) (k off : Nat) : (s.jumpTo k off).kept = s.kept := by simp [State.jumpTo]

/-! ## Timers and counters -/

@[simp] theorem State.timerOp_kept (s : State) (k t : Nat) (kind : TimerKind) (ticks : Bool) :
    (s.timerOp k t kind ticks).kept = s.kept := by rfl

@[simp] theorem State.counterOp_kept (s : State) (k i : Nat) (up : Bool) : (s.counterOp k i up).kept = s.kept := by
  simp [State.counterOp]

/-! ## Scans and restarts -/

@[simp] theorem State.invalidateCore_kept (s : State) (k : Nat) : (s.invalidateCore k).kept = s.kept := by
  simp [State.invalidateCore]

@[simp] theorem State.restartCore_kept (s : State) (k : Nat) (warm : Bool) : (s.restartCore k warm).kept = s.kept := by
  simp [State.restartCore]

@[simp] theorem State.coreRestartCmd_kept (s : State) (k : Nat) (warm : Bool) : (s.coreRestartCmd k warm).kept = s.kept := by
  unfold State.coreRestartCmd
  (repeat' split) <;> simp

@[simp] theorem State.coreStopCmd_kept (s : State) (k : Nat) : (s.coreStopCmd k).kept = s.kept := by
  unfold State.coreStopCmd
  (repeat' split) <;> simp

@[simp] theorem State.overrunCore_kept (s : State) (k : Nat) : (s.overrunCore k).kept = s.kept := by simp [State.overrunCore]

@[simp] theorem State.publishScan_kept (s : State) (k : Nat) : (s.publishScan k).kept = s.kept := by simp [State.publishScan]

@[simp] theorem State.firstScanDone_kept (s : State) (k : Nat) : (s.firstScanDone k).kept = s.kept := by
  simp [State.firstScanDone]

@[simp] theorem State.scanCounters_after (s : State) (k : Nat) (hκ : κ.After s.kept) : κ.After (s.scanCounters k).kept := by
  simp [State.scanCounters, hκ]

@[simp] theorem State.afterScan_kept (s : State) (k : Nat) : (s.afterScan k).kept = s.kept := by
  unfold State.afterScan
  split <;> simp

@[simp] theorem State.endScan_after (s : State) (k : Nat) (hκ : κ.After s.kept) : κ.After (s.endScan k).kept := by
  simp [State.endScan, hκ]

/-! ## The instructions (R214) -/

theorem execNop_after (k : Nat) (s : State) (hκ : κ.After s.kept) : κ.Leads (execNop k s) := by simp [execNop, hκ]

theorem execLd_after (k : Nat) (x : SOp) (s : State) (hκ : κ.After s.kept) : κ.Leads (execLd k x s) := by simp [execLd, hκ]

theorem execAnd_after (k : Nat) (x : SOp) (s : State) (hκ : κ.After s.kept) : κ.Leads (execAnd k x s) := by simp [execAnd, hκ]

theorem execOr_after (k : Nat) (x : SOp) (s : State) (hκ : κ.After s.kept) : κ.Leads (execOr k x s) := by simp [execOr, hκ]

theorem execXor_after (k : Nat) (x : SOp) (s : State) (hκ : κ.After s.kept) : κ.Leads (execXor k x s) := by simp [execXor, hκ]

theorem execNot_after (k : Nat) (s : State) (hκ : κ.After s.kept) : κ.Leads (execNot k s) := by simp [execNot, hκ]

theorem execPush_after (k : Nat) (s : State) (hκ : κ.After s.kept) : κ.Leads (execPush k s) := by simp [execPush, hκ]

theorem execAndp_after (k : Nat) (s : State) (hκ : κ.After s.kept) : κ.Leads (execAndp k s) := by simp [execAndp, hκ]

theorem execOrp_after (k : Nat) (s : State) (hκ : κ.After s.kept) : κ.Leads (execOrp k s) := by simp [execOrp, hκ]

theorem execSt_after (k : Nat) (x : SOp) (s : State) (hκ : κ.After s.kept) : κ.Leads (execSt k x s) := by simp [execSt, hκ]

theorem execSet_after (k : Nat) (x : SOp) (s : State) (hκ : κ.After s.kept) : κ.Leads (execSet k x s) := by simp [execSet, hκ]

theorem execRst_after (k : Nat) (x : SOp) (s : State) (hκ : κ.After s.kept) : κ.Leads (execRst k x s) := by simp [execRst, hκ]

theorem execRe_after (k : Nat) (x : SOp) (s : State) (hκ : κ.After s.kept) : κ.Leads (execRe k x s) := by simp [execRe, hκ]

theorem execFe_after (k : Nat) (x : SOp) (s : State) (hκ : κ.After s.kept) : κ.Leads (execFe k x s) := by simp [execFe, hκ]

theorem execTon_after (k t : Nat) (s : State) (hκ : κ.After s.kept) : κ.Leads (execTon k t s) := by simp [execTon, hκ]

theorem execTof_after (k t : Nat) (s : State) (hκ : κ.After s.kept) : κ.Leads (execTof k t s) := by simp [execTof, hκ]

theorem execTp_after (k t : Nat) (s : State) (hκ : κ.After s.kept) : κ.Leads (execTp k t s) := by simp [execTp, hκ]

theorem execTona_after (k t : Nat) (s : State) (hκ : κ.After s.kept) : κ.Leads (execTona k t s) := by simp [execTona, hκ]

theorem execTofa_after (k t : Nat) (s : State) (hκ : κ.After s.kept) : κ.Leads (execTofa k t s) := by simp [execTofa, hκ]

theorem execCtu_after (k c : Nat) (s : State) (hκ : κ.After s.kept) : κ.Leads (execCtu k c s) := by simp [execCtu, hκ]

theorem execCtd_after (k c : Nat) (s : State) (hκ : κ.After s.kept) : κ.Leads (execCtd k c s) := by simp [execCtd, hκ]

theorem execCrst_after (k c : Nat) (s : State) (hκ : κ.After s.kept) : κ.Leads (execCrst k c s) := by simp [execCrst, hκ]

theorem execLde_after (k : Nat) (n : Bool) (t : Nat) (s : State) (hκ : κ.After s.kept) : κ.Leads (execLde k n t s) := by
  simp [execLde, hκ]

theorem execLda_after (k : Nat) (x : SOp) (s : State) (hκ : κ.After s.kept) : κ.Leads (execLda k x s) := by simp [execLda, hκ]

theorem execLdk_after (k : Nat) (n : Bool) (imm : Int) (s : State) (hκ : κ.After s.kept) : κ.Leads (execLdk k n imm s) := by
  simp [execLdk, hκ]

theorem execSta_after (k : Nat) (x : SOp) (s : State) (hκ : κ.After s.kept) : κ.Leads (execSta k x s) := by simp [execSta, hκ]

theorem execAdd_after (k : Nat) (x : SOp) (s : State) (hκ : κ.After s.kept) : κ.Leads (execAdd k x s) := by simp [execAdd, hκ]

theorem execSub_after (k : Nat) (x : SOp) (s : State) (hκ : κ.After s.kept) : κ.Leads (execSub k x s) := by simp [execSub, hκ]

theorem execCmp_after (k : Nat) (x : SOp) (s : State) (hκ : κ.After s.kept) : κ.Leads (execCmp k x s) := by simp [execCmp, hκ]

theorem execJmp_after (k off : Nat) (s : State) (hκ : κ.After s.kept) : κ.Leads (execJmp k off s) := by simp [execJmp, hκ]

theorem execJc_after (k : Nat) (n : Bool) (off : Nat) (s : State) (hκ : κ.After s.kept) : κ.Leads (execJc k n off s) := by
  simp [execJc, hκ]

theorem execEnd_after (k : Nat) (s : State) (hκ : κ.After s.kept) : κ.Leads (execEnd k s) := by simp [execEnd, hκ]

theorem execScanOverrun_after (k : Nat) (s : State) (hκ : κ.After s.kept) : κ.Leads (execScanOverrun k s) := by
  simp [execScanOverrun, hκ]

theorem execWarmRestart_after (k : Nat) (s : State) (hκ : κ.After s.kept) : κ.Leads (execWarmRestart k s) := by
  simp [execWarmRestart, hκ]

theorem execColdRestart_after (k : Nat) (s : State) (hκ : κ.After s.kept) : κ.Leads (execColdRestart k s) := by
  simp [execColdRestart, hκ]

theorem execLcStop_after (k : Nat) (s : State) (hκ : κ.After s.kept) : κ.Leads (execLcStop k s) := by simp [execLcStop, hκ]

/-! ## The save area (R337) -/

@[simp] theorem State.saveDone_after (s : State) (hκ : κ.After s.kept) : κ.After s.saveDone.kept := by
  unfold State.saveDone
  split
  · extract_lets a head body u
    have hu : κ.After u.kept := by
      unfold u
      refine State.evProgram_after _ _ _ (State.evProgram_after _ _ _ (State.evProgram_after _ _ _ hκ))
    clear_value u
    simp [hu]
  · exact hκ

theorem execSaveSetComplete_after (s : State) (hκ : κ.After s.kept) : κ.Leads (execSaveSetComplete s) := by
  simp [execSaveSetComplete, hκ]

theorem execSaveSlotEraseComplete_after (s : State) (hκ : κ.After s.kept) : κ.Leads (execSaveSlotEraseComplete s) := by
  simp [execSaveSlotEraseComplete, hκ]

/-! ## The warning (R345, R421) -/

@[simp] theorem State.warn_kept (s : State) : s.warn.kept = s.kept := by simp [State.warn]

theorem execHoldupWarnAssert_after (s : State) (hκ : κ.After s.kept) : κ.Leads (execHoldupWarnAssert s) := by
  simp [execHoldupWarnAssert, hκ]

theorem execPwrgoodFall_after (s : State) (hκ : κ.After s.kept) : κ.Leads (execPwrgoodFall s) := by simp [execPwrgoodFall, hκ]

@[simp] theorem State.warnClear_after (s : State) (hκ : κ.After s.kept) : κ.After s.warnClear.kept := by
  simp (disch := simp [hκ]) [hκ, State.warnClear]

theorem execHoldupWarnClear_after (s : State) (hκ : κ.After s.kept) : κ.Leads (execHoldupWarnClear s) := by
  simp [execHoldupWarnClear, hκ]

theorem execVbatLoss_after (s : State) (hκ : κ.After s.kept) : κ.Leads (execVbatLoss s) := by simp [execVbatLoss, hκ]

/-! ## The log at start (R335, R341, R346, R352) -/

@[simp] theorem State.formatNvm_after (s : State) (size : Nat) (hκ : κ.After s.kept) : κ.After (s.formatNvm size).kept := by
  unfold State.formatNvm
  refine State.evProgram_after _ _ _ ?_
  exact hκ.trans ⟨rfl, Nat.le_refl _, Nat.le_refl _, fun ⟨hc, he, hb, hp⟩ => ⟨hc, Mem.wf_erase _ _ _ _ he, hb, hp⟩⟩

@[simp] theorem State.locateLog_after (s : State) (fresh : Bool) (hκ : κ.After s.kept) : κ.After (s.locateLog fresh).1.kept := by
  unfold State.locateLog
  dsimp only
  (repeat' split) <;> simp [hκ]

@[simp] theorem State.bootLog_after (s : State) (size cause : Nat) (hκ : κ.After s.kept) :
    κ.After (s.bootLog size cause).kept := by
  unfold State.bootLog
  extract_lets u fmt v
  have hu : κ.After u.kept := by
    unfold u
    rw [State.updLog_kept, State.setF_kept]
    exact hκ
  clear_value u
  have hv : κ.After v.kept := by
    unfold v
    split
    · rw [State.setF_kept]
      exact State.formatNvm_after _ _ hu
    · exact hu
  clear_value v
  have hw := State.locateLog_after v fmt hv
  split
  next w torn heq =>
  rw [heq] at hw
  have hw : κ.After w.kept := hw
  extract_lets newest lost
  split
  next op pcc _ =>
    extract_lets op pcc x y z
    have hz : κ.After z.kept := by
      refine foldl_after (fun t n => State.event_after _ _ _ _ _ _ (Kept.After.refl _)) _ ?_
      unfold y x
      simpa using hw
    clear_value z
    have ha := State.fresh_after z 8 hz
    split
    next code a heq =>
    rw [heq] at ha
    have ha : κ.After a.kept := ha
    extract_lets b
    have hb : κ.After b.kept := by
      unfold b
      split
      · exact State.event_after _ _ _ _ _ _ ha
      · exact hz
    exact State.event_after _ _ _ _ _ _ hb

/-! ## PORn (R365, R420) -/

@[simp] theorem State.boot_after (s : State) (cause : Nat) (evSize cfgSize : Option Nat) (hκ : κ.After s.kept) :
    κ.After (s.boot cause evSize cfgSize).kept := by
  unfold State.boot
  dsimp only
  split
  · refine State.bootLog_after _ _ _ ?_
    exact hκ
  · exact hκ

theorem execPornRelease_after (powerOn : Bool) (evSize cfgSize : Option Nat) (s : State) (hκ : κ.After s.kept) :
    κ.Leads (execPornRelease powerOn evSize cfgSize s) := by simp [execPornRelease, hκ]

@[simp] theorem State.resetDevice_after (s : State) (hκ : κ.After s.kept) : κ.After s.resetDevice.kept :=
  hκ.trans ⟨rfl, Nat.le_refl _, Nat.le_refl _, fun ⟨hc, he, _, _⟩ => ⟨hc, he, rfl, rfl⟩⟩

theorem execPornAssert_after (pwrgoodLow : Bool) (s : State) (hκ : κ.After s.kept) : κ.Leads (execPornAssert pwrgoodLow s) := by
  simp [execPornAssert, hκ]

theorem execJtagReset_after (s : State) (hκ : κ.After s.kept) : κ.Leads (execJtagReset s) := by simp [execJtagReset, hκ]

/-! ## Sizes (R329, R330) -/

@[simp] theorem State.addFree_kept (s : State) (d : Int) : (s.addFree d).kept = s.kept := by rfl

@[simp] theorem State.syncRecs_kept (s : State) : s.syncRecs.kept = s.kept := by rfl

@[simp] theorem State.setRing_kept (s : State) (k : Nat) : (s.setRing k).kept = s.kept := by simp [State.setRing]

/-! ## Opening and closing -/

@[simp] theorem State.showRec_kept (s : State) (k : Nat) : (s.showRec k).kept = s.kept := by
  unfold State.showRec
  split <;> simp

@[simp] theorem State.openRec_after (s : State) (k start trig epoch want : Nat) (link : Option Nat) (note : DrNote)
    (hκ : κ.After s.kept) :
    κ.After (s.openRec k start trig epoch want link note).kept := by simp (disch := simp [hκ]) [hκ, State.openRec]

@[simp] theorem State.keptBlocks_after (s : State) (r : DrRec) (hκ : κ.After s.kept) : κ.After (s.keptBlocks r).2.kept := by
  simp [State.keptBlocks, hκ]

@[simp] theorem State.closeRec_after (s : State) (id : Nat) (damaged : Bool) (hκ : κ.After s.kept) :
    κ.After (s.closeRec id damaged).kept := by
  unfold State.closeRec
  dsimp only
  split <;> simp (disch := simp [hκ]) [hκ]

@[simp] theorem State.dramFail_after (s : State) (cause : Nat) (hκ : κ.After s.kept) : κ.After (s.dramFail cause).kept := by
  simp [State.dramFail, hκ]

@[simp] theorem State.dramWords_after (s : State) (x : EccIn) (rec : Option Nat) (hκ : κ.After s.kept) :
    κ.After (s.dramWords x rec).kept := by
  unfold State.dramWords
  dsimp only
  (repeat' split) <;> simp (disch := simp [hκ]) [hκ]

/-! ## Triggers (R327) -/

@[simp] theorem State.trigger_after (s : State) (k : Nat) (x : EpochRec) (fired : List SigBit) (manual_ : Bool)
    (hκ : κ.After s.kept) :
    κ.After (s.trigger k x fired manual_).kept := by
  unfold State.trigger
  dsimp only
  (repeat' split) <;> simp (disch := simp [hκ]) [hκ]

@[simp] theorem State.fillCell_kept (s : State) (k grp row at_ chan : Nat) : (s.fillCell k grp row at_ chan).kept = s.kept := by
  simp [State.fillCell]

@[simp] theorem State.fillRows_kept (s : State) (k : Nat) (p x : EpochRec) : (s.fillRows k p x).kept = s.kept := by
  unfold State.fillRows
  refine foldl_kept (fun t g => ?_) _ _
  dsimp only
  split
  · rfl
  · exact foldl_kept (fun u y => foldl_kept (fun v ch => State.fillCell_kept ..) _ _) _ _

@[simp] theorem State.epochRow_kept (s : State) (k : Nat) (x : EpochRec) : (s.epochRow k x).kept = s.kept := by
  unfold State.epochRow
  split <;> simp

@[simp] theorem State.recorderDeadline_after (s : State) (k e : Nat) (hκ : κ.After s.kept) :
    κ.After (s.recorderDeadline k e).kept := by
  unfold State.recorderDeadline
  dsimp only
  (repeat' split) <;> simp [hκ]

@[simp] theorem State.manTrigger_kept (s : State) (k : Nat) : (s.manTrigger k).kept = s.kept := by simp [State.manTrigger]

theorem execMantrig_after (k : Nat) (s : State) (hκ : κ.After s.kept) : κ.Leads (execMantrig k s) := by simp [execMantrig, hκ]

/-! ## Acknowledgment (R332) -/

@[simp] theorem State.ackRec_kept (s : State) (id : Nat) : (s.ackRec id).kept = s.kept := by
  unfold State.ackRec
  (repeat' split) <;> rfl

theorem execDrAck_after (id : Nat) (s : State) (hκ : κ.After s.kept) : κ.Leads (execDrAck id s) := by simp [execDrAck, hκ]

end Sys2Proof.Machine
end

section
/-! What every command keeps:
time bases, the start, changes of configuration, engines and the instants of an epoch. -/

namespace Sys2Proof.Machine

variable {κ : Kept}

/-! ## The Thanov time bases (R292 to R298) -/

@[simp] theorem State.aimPps_kept (s : State) (k : Nat) : (s.aimPps k).kept = s.kept := by simp [State.aimPps]

@[simp] theorem State.setTbRate_kept (s : State) (k r : Nat) : (s.setTbRate k r).kept = s.kept := by rfl

@[simp] theorem State.stepTb_kept (s : State) (k : Nat) (d : Int) : (s.stepTb k d).kept = s.kept := by rfl

@[simp] theorem State.setLock_kept (s : State) (k : Nat) (v : Bool) : (s.setLock k v).kept = s.kept := by simp [State.setLock]

@[simp] theorem State.tbUpdate_after (s : State) (k : Nat) (offset : Int) (hκ : κ.After s.kept) :
    κ.After (s.tbUpdate k offset).kept := by simp [State.tbUpdate, hκ]

theorem execTimeBaseStep_after (k : Nat) (s : State) (hκ : κ.After s.kept) : κ.Leads (execTimeBaseStep k s) := by
  simp [execTimeBaseStep, hκ]

@[simp] theorem State.enableTb_kept (s : State) (k : Nat) : (s.enableTb k).kept = s.kept := by simp [State.enableTb]

@[simp] theorem State.disableTb_kept (s : State) (k : Nat) : (s.disableTb k).kept = s.kept := by simp [State.disableTb]

theorem execEnable_after (k : Nat) (s : State) (hκ : κ.After s.kept) : κ.Leads (execEnable k s) := by simp [execEnable, hκ]

theorem execDisable_after (k : Nat) (s : State) (hκ : κ.After s.kept) : κ.Leads (execDisable k s) := by simp [execDisable, hκ]

@[simp] theorem State.writeStep_kept (s : State) (k w : Nat) : (s.writeStep k w).kept = s.kept := by simp [State.writeStep]

@[simp] theorem State.writeRate_kept (s : State) (k w : Nat) : (s.writeRate k w).kept = s.kept := by simp [State.writeRate]

@[simp] theorem State.writePpsat_kept (s : State) (k w : Nat) : (s.writePpsat k w).kept = s.kept := by simp [State.writePpsat]

theorem execTbStepWrite_after (k : Nat) (w : Word) (s : State) (hκ : κ.After s.kept) : κ.Leads (execTbStepWrite k w s) := by
  simp [execTbStepWrite, hκ]

theorem execTbRateWrite_after (k : Nat) (w : Word) (s : State) (hκ : κ.After s.kept) : κ.Leads (execTbRateWrite k w s) := by
  simp [execTbRateWrite, hκ]

theorem execTbPpsatWrite_after (k : Nat) (w : Word) (s : State) (hκ : κ.After s.kept) : κ.Leads (execTbPpsatWrite k w s) := by
  simp [execTbPpsatWrite, hκ]

theorem execHoldoverExpiry_after (k : Nat) (s : State) (hκ : κ.After s.kept) : κ.Leads (execHoldoverExpiry k s) := by
  unfold execHoldoverExpiry
  split <;> simp [hκ]

theorem execHoldoverFlag_after (k : Nat) (s : State) (hκ : κ.After s.kept) : κ.Leads (execHoldoverFlag k s) := by
  unfold execHoldoverFlag
  split <;> simp [hκ]

/-! ## PPS (R297) -/

theorem execPpsInputEdge_after (k : Nat) (rising : Bool) (offset : Int) (s : State) (hκ : κ.After s.kept) :
    κ.Leads (execPpsInputEdge k rising offset s) := by simp [execPpsInputEdge, hκ]

theorem execPpsOutputRise_after (k : Nat) (s : State) (hκ : κ.After s.kept) : κ.Leads (execPpsOutputRise k s) := by
  unfold execPpsOutputRise
  refine (Kept.leads_next _ _).mpr ?_
  split
  · exact hκ
  · dsimp only
    split <;> simp [hκ]

theorem execPpsOutputFall_after (k : Nat) (s : State) (hκ : κ.After s.kept) : κ.Leads (execPpsOutputFall k s) := by
  unfold execPpsOutputFall
  split <;> simp [hκ]

/-! ## Base pairs (R296) -/

theorem execBasePairWrite_after (k secs ns : Nat) (s : State) (hκ : κ.After s.kept) :
    κ.Leads (execBasePairWrite k secs ns s) := by
  unfold execBasePairWrite
  dsimp only
  (repeat' split) <;> simp [hκ]

@[simp] theorem State.latchBase_kept (s : State) (k : Nat) : (s.latchBase k).kept = s.kept := by rfl

theorem execBasensRead_after (k : Nat) (s : State) (hκ : κ.After s.kept) : κ.Leads (execBasensRead k s) := by
  simp [execBasensRead, hκ]

/-! ## The check of a bank (R370, R371) -/

@[simp] theorem State.setFs_kept (s : State) (i : Nat) (l : List (Fld × Nat)) : (s.setFs i l).kept = s.kept := by
  simp [State.setFs]

/-! ## What an image places in registers and tables -/

@[simp] theorem State.loadRefs_kept (s : State) (k : Nat) (c : SectionCfg) : (s.loadRefs k c).kept = s.kept := by
  simp [State.loadRefs]

@[simp] theorem State.loadSection_kept (s : State) (m : Image) (k : Nat) : (s.loadSection m k).kept = s.kept := by
  simp [State.loadSection]

@[simp] theorem State.loadChain_kept (s : State) (m : Image) (n : Nat) (c : ConvCfg) : (s.loadChain m n c).kept = s.kept := by
  unfold State.loadChain
  dsimp only
  rw [State.updChain_kept]
  refine (foldl_kept (fun t i => State.setF_kept ..) _ _).trans (foldl_kept (fun t i => ?_) _ _)
  split <;> simp

@[simp] theorem State.loadConv_kept (s : State) (m : Image) (n : Nat) (c : ConvCfg) : (s.loadConv m n c).kept = s.kept := by
  simp [State.loadConv]

@[simp] theorem State.showRef_kept (s : State) (g : Nat) : (s.showRef g).kept = s.kept := by simp [State.showRef]

@[simp] theorem State.loadCal_kept (s : State) (n : Nat) (l : List Nat) : (s.loadCal n l).kept = s.kept := by simp [State.loadCal]

@[simp] theorem State.powerConv_after (s : State) (n : Nat) (hκ : κ.After s.kept) : κ.After (s.powerConv n).kept := by
  unfold State.powerConv
  dsimp only
  split <;> simp [hκ]

@[simp] theorem State.loadTx_kept (s : State) (n : Nat) (c : LaneCfg) : (s.loadTx n c).kept = s.kept := by rfl

@[simp] theorem State.loadPort_kept (s : State) (n : Nat) (c : LaneCfg) : (s.loadPort n c).kept = s.kept := by
  simp [State.loadPort]

@[simp] theorem State.loadEq_kept (s : State) (n : Nat) (c : LaneCfg) : (s.loadEq n c).kept = s.kept := by simp [State.loadEq]

@[simp] theorem State.loadTc_kept (s : State) (n : Nat) (c : ChainCfg) : (s.loadTc n c).kept = s.kept := by rfl

@[simp] theorem State.loadTags_kept (s : State) (n : Nat) : (s.loadTags n).kept = s.kept := by simp [State.loadTags]

@[simp] theorem State.loadLane_kept (s : State) (m : Image) (n : Nat) : (s.loadLane m n).kept = s.kept := by
  unfold State.loadLane
  split <;> simp

@[simp] theorem State.loadTb_kept (s : State) (m : Image) (k : Nat) : (s.loadTb m k).kept = s.kept := State.setFs_kept ..

@[simp] theorem State.loadCore_kept (s : State) (k : Nat) (c : CoreCfg) : (s.loadCore k c).kept = s.kept := State.setFs_kept ..

@[simp] theorem State.loadEngines_kept (s : State) (m : Image) : (s.loadEngines m).kept = s.kept := by simp [State.loadEngines]

@[simp] theorem State.loadImage_kept (s : State) (m : Image) : (s.loadImage m).kept = s.kept := by simp [State.loadImage]

/-! ## The save set at start (R150) -/

@[simp] theorem State.restoreThermal_after (s : State) (hκ : κ.After s.kept) : κ.After s.restoreThermal.kept := by
  unfold State.restoreThermal
  split <;> simp [hκ]

/-! ## The image check (R365, R370) -/

@[simp] theorem State.bankRecord_after (s : State) (n : Nat) (f : Nat × Nat) (hκ : κ.After s.kept) :
    κ.After (s.bankRecord n f).kept := by simp [State.bankRecord, hκ]

@[simp] theorem State.otherBank_after (s : State) (n : Nat) (b loaded : Bank) (hκ : κ.After s.kept) :
    κ.After (s.otherBank n b loaded).kept := by
  unfold State.otherBank
  split <;> simp [hκ]

@[simp] theorem State.fillStart_after (s : State) (hcrc : Nat) (hκ : κ.After s.kept) : κ.After (s.fillStart hcrc).kept := by
  simp [State.fillStart, hκ]

@[simp] theorem State.trainDram_after (s : State) (ok : Bool) (hκ : κ.After s.kept) : κ.After (s.trainDram ok).kept := by
  simp [State.trainDram, hκ]

@[simp] theorem State.powerUp_after (s : State) (hκ : κ.After s.kept) : κ.After s.powerUp.kept := by
  unfold State.powerUp
  extract_lets m u v w
  have hu : κ.After u.kept := by
    unfold u
    simp [hκ]
  clear_value u
  have hw : κ.After w.kept := by
    unfold w v
    simp [hu]
  clear_value w
  simp [hw]

@[simp] theorem State.loadBank_after (s : State) (n : Nat) (b : Bank) (hκ : κ.After s.kept) : κ.After (s.loadBank n b).kept := by
  simp [State.loadBank, hκ]

@[simp] theorem State.imageChecked_after (s : State) (b0 b1 : Bank) (dramOk : Bool) (hκ : κ.After s.kept) :
    κ.After (s.imageChecked b0 b1 dramOk).kept := by
  unfold State.imageChecked
  split
  · exact hκ
  · extract_lets last u v
    have hu : κ.After u.kept := by
      unfold u
      rw [State.setFs_kept]
      exact hκ
    have hv : κ.After v.kept := State.trainDram_after _ _ hu
    clear_value v
    split
    · exact State.fillStart_after _ _ (State.bankRecord_after _ _ _ (State.bankRecord_after _ _ _ hv))
    · exact State.loadBank_after _ _ _ (State.fillStart_after _ _ (State.otherBank_after _ _ _ _ hv))
    · exact State.loadBank_after _ _ _ (State.fillStart_after _ _ (State.otherBank_after _ _ _ _ hv))

theorem execImageCheckComplete_after (b0 b1 : BankView) (dramOk : Bool) (s : State) (hκ : κ.After s.kept) :
    κ.Leads (execImageCheckComplete b0 b1 dramOk s) := by simp [execImageCheckComplete, hκ]

/-! ## The grids start (step 4 of R365) -/

@[simp] theorem State.startGrids_after (s : State) (hκ : κ.After s.kept) : κ.After s.startGrids.kept := by
  simp [State.startGrids, hκ]

theorem execGridStart_after (s : State) (hκ : κ.After s.kept) : κ.Leads (execGridStart s) := by simp [execGridStart, hκ]

/-! ## Protection becomes active (R366) -/

@[simp] theorem State.startCore_after (s : State) (k : Nat) (hκ : κ.After s.kept) : κ.After (s.startCore k).kept := by
  unfold State.startCore
  extract_lets g
  split
  · exact hκ
  · rename_i u v _
    have hu : κ.After u.kept := by
      unfold u
      rw [State.restartCore_kept]
      exact hκ
    clear_value u
    have hv : κ.After v.kept := by
      unfold v
      (repeat' split) <;> simp [hu]
    rw [State.updCore_kept]
    exact hv

@[simp] theorem State.protect_after (s : State) (hκ : κ.After s.kept) : κ.After s.protect.kept := by
  unfold State.protect
  split
  · exact hκ
  · extract_lets actt u v w
    have hu : κ.After u.kept := State.event_after _ _ _ _ _ _ hκ
    clear_value u
    have hv : κ.After v.kept := foldl_after (fun t k => State.startCore_after _ _ (Kept.After.refl _)) _ hu
    clear_value v
    have hw : κ.After w.kept := by
      unfold w
      split <;> simp [hv]
    rw [State.published_kept]
    exact hw

theorem execProtectionActive_after (s : State) (hκ : κ.After s.kept) : κ.Leads (execProtectionActive s) := by
  simp [execProtectionActive, hκ]

/-! ## The check repeated (R372) -/

@[simp] theorem State.reload_kept (s : State) : s.reload.kept = s.kept := by simp [State.reload]

theorem execReload_after (s : State) (hκ : κ.After s.kept) : κ.Leads (execReload s) := by simp [execReload, hκ]

/-! ## Evacuation and return of engines, feeder migration and microcode rollout (R380 to R383) -/

@[simp] theorem State.beginEvac_kept (s : State) (e : Nat) : (s.beginEvac e).kept = s.kept := by simp [State.beginEvac]

@[simp] theorem State.beginReturn_kept (s : State) (e : Nat) : (s.beginReturn e).kept = s.kept := by rfl

@[simp] theorem State.engineOff_kept (s : State) (e : Nat) : (s.engineOff e).kept = s.kept := by
  unfold State.engineOff
  dsimp only
  split <;> simp

@[simp] theorem State.evacDone_kept (s : State) (e : Nat) : (s.evacDone e).kept = s.kept := by simp [State.evacDone]

@[simp] theorem State.evac_kept (s : State) (e : Nat) : (s.evac e).kept = s.kept := by
  unfold State.evac
  (repeat' split) <;> simp

theorem execEvac_after (e : Nat) (s : State) (hκ : κ.After s.kept) : κ.Leads (execEvac e s) := by simp [execEvac, hκ]

@[simp] theorem State.return__kept (s : State) (e : Nat) : (s.return_ e).kept = s.kept := by
  unfold State.return_
  (repeat' split) <;> simp

theorem execReturn_after (e : Nat) (s : State) (hκ : κ.After s.kept) : κ.Leads (execReturn e s) := by simp [execReturn, hκ]

/-! ## Rollout (R383) -/

@[simp] theorem State.syncUcmix_kept (s : State) : s.syncUcmix.kept = s.kept := by rfl

@[simp] theorem State.rolloutNext_kept (s : State) (k : Nat) : (s.rolloutNext k).kept = s.kept := by
  unfold State.rolloutNext
  dsimp only
  (repeat' split) <;> simp

@[simp] theorem State.rolloutDone_kept (s : State) : s.rolloutDone.kept = s.kept := by
  unfold State.rolloutDone
  (repeat' split) <;> rfl

@[simp] theorem State.endPackage_after (s : State) (result version : Nat) (hκ : κ.After s.kept) :
    κ.After (s.endPackage result version).kept := by simp (disch := simp [hκ]) [hκ, State.endPackage]

@[simp] theorem State.failRollout_after (s : State) (hκ : κ.After s.kept) : κ.After s.failRollout.kept := by
  unfold State.failRollout
  split <;> simp [hκ]

@[simp] theorem State.loadMicrocode_kept (s : State) (e : Nat) : (s.loadMicrocode e).kept = s.kept := by
  simp [State.loadMicrocode]

theorem execMicrocodeLoadComplete_after (e : Nat) (s : State) (hκ : κ.After s.kept) :
    κ.Leads (execMicrocodeLoadComplete e s) := by simp [execMicrocodeLoadComplete, hκ]

/-! ## Return (R382) -/

@[simp] theorem State.engineOn_kept (s : State) (e : Nat) : (s.engineOn e).kept = s.kept := by
  unfold State.engineOn
  dsimp only
  split <;> simp

@[simp] theorem State.selfTested_after (s : State) (e : Nat) (pass : Bool) (hκ : κ.After s.kept) :
    κ.After (s.selfTested e pass).kept := by simp [State.selfTested, hκ]

theorem execEngineSelfTestComplete_after (e : Nat) (pass : Bool) (s : State) (hκ : κ.After s.kept) :
    κ.Leads (execEngineSelfTestComplete e pass s) := by simp [execEngineSelfTestComplete, hκ]

/-! ## Migration (R381) -/

@[simp] theorem State.moveFeeder_kept (s : State) (f e : Nat) : (s.moveFeeder f e).kept = s.kept := by simp [State.moveFeeder]

@[simp] theorem State.migrate_kept (s : State) (m e : Nat) : (s.migrate m e).kept = s.kept := by
  unfold State.migrate
  dsimp only
  (repeat' split) <;> simp

@[simp] theorem State.migration_kept (s : State) (k : Nat) : (s.migration k).kept = s.kept := by simp [State.migration]

theorem execFeederMigration_after (k : Nat) (s : State) (hκ : κ.After s.kept) : κ.Leads (execFeederMigration k s) := by
  simp [execFeederMigration, hκ]

/-! ## The check of a package (R373, R374, R377) -/

@[simp] theorem State.acceptPackage_kept (s : State) (p : Package) : (s.acceptPackage p).kept = s.kept := by
  simp [State.acceptPackage]

@[simp] theorem State.packageChecked_after (s : State) (p : Package) (hκ : κ.After s.kept) :
    κ.After (s.packageChecked p).kept := by simp [State.packageChecked, hκ]

theorem execPackageCheckComplete_after (p : PackageView) (s : State) (hκ : κ.After s.kept) :
    κ.Leads (execPackageCheckComplete p s) := by simp [execPackageCheckComplete, hκ]

/-! ## A change package aborted (R375) -/

@[simp] theorem State.abortChange_after (s : State) (hκ : κ.After s.kept) : κ.After s.abortChange.kept := by
  unfold State.abortChange
  split <;> simp [hκ]

theorem execDevChgabort_after (s : State) (hκ : κ.After s.kept) : κ.Leads (execDevChgabort s) := by simp [execDevChgabort, hκ]

/-! ## The switch-over (R376) -/

@[simp] theorem State.syncMixed_after (s : State) (hκ : κ.After s.kept) : κ.After s.syncMixed.kept := by
  simp [State.syncMixed, hκ]

@[simp] theorem State.switchRefs_kept (s : State) (k : Nat) (o c : SectionCfg) : (s.switchRefs k o c).kept = s.kept := by
  simp [State.switchRefs]

@[simp] theorem State.addFeeders_kept (s : State) (k : Nat) (o : Image) : (s.addFeeders k o).kept = s.kept := by
  simp [State.addFeeders]

@[simp] theorem State.switchRefGroup_after (s : State) (g : Nat) (o : Image) (hκ : κ.After s.kept) :
    κ.After (s.switchRefGroup g o).kept := by simp [State.switchRefGroup, hκ]

@[simp] theorem State.unpowerConv_kept (s : State) (n : Nat) : (s.unpowerConv n).kept = s.kept := by simp [State.unpowerConv]

@[simp] theorem State.switchConv_after (s : State) (k n : Nat) (o : Image) (hκ : κ.After s.kept) :
    κ.After (s.switchConv k n o).kept := by
  unfold State.switchConv
  dsimp only
  split <;> simp [hκ]

@[simp] theorem State.switchTiles_kept (s : State) (k : Nat) (o : Image) : (s.switchTiles k o).kept = s.kept := by
  unfold State.switchTiles
  split <;> simp

@[simp] theorem State.switchStreams_kept (s : State) (k e : Nat) (o : Image) : (s.switchStreams k e o).kept = s.kept := by
  simp [State.switchStreams]

@[simp] theorem State.switchPartners_kept (s : State) (o : Image) : (s.switchPartners o).kept = s.kept := by
  unfold State.switchPartners
  dsimp only
  rw [State.createPinned_kept]
  refine foldl_kept (fun t x => ?_) _ _
  split <;> simp

@[simp] theorem State.switchCore_kept (s : State) (k : Nat) (o : Image) : (s.switchCore k o).kept = s.kept := by
  unfold State.switchCore
  split <;> simp

@[simp] theorem State.switchTb_kept (s : State) (k : Nat) (o : Image) : (s.switchTb k o).kept = s.kept := by simp [State.switchTb]

@[simp] theorem State.switchFlood_after (s : State) (before : List (Nat × FloodMode)) (hκ : κ.After s.kept) :
    κ.After (s.switchFlood before).kept := by
  unfold State.switchFlood
  refine foldl_after (fun t x => ?_) _ hκ
  (repeat' split) <;> simp [hκ]

@[simp] theorem State.switchAnchor_after (s : State) (new : Image) (hκ : κ.After s.kept) : κ.After (s.switchAnchor new).kept := by
  simp (disch := simp [hκ]) [hκ, State.switchAnchor]

@[simp] theorem State.switchSection_after (s : State) (k e version : Nat) (new : Image) (hκ : κ.After s.kept) :
    κ.After (s.switchSection k e version new).kept := by
  unfold State.switchSection
  extract_lets o u v w x y z a
  have hu : κ.After u.kept := by
    unfold u
    simpa using hκ
  have hx : κ.After x.kept := by
    unfold x w
    rw [State.setFs_kept, State.loadSection_kept]
    exact hu
  clear_value x
  have hy : κ.After y.kept := by
    unfold y
    simpa using hx
  clear_value y
  have hz : κ.After z.kept := foldl_after (fun t n => State.switchConv_after _ _ _ _ (Kept.After.refl _)) _ hy
  clear_value z
  have ha : κ.After a.kept := foldl_after (fun t n => State.switchRefGroup_after _ _ _ (Kept.After.refl _)) _ hz
  simpa using ha

@[simp] theorem State.afterSwitches_kept (s : State) (c : Change) : (s.afterSwitches c).kept = s.kept := by
  unfold State.afterSwitches
  extract_lets u
  have hu : u.kept = s.kept := State.setF_kept ..
  clear_value u
  split
  · exact hu
  · rename_i v v' w _
    have hv : v.kept = u.kept := State.forN_kept (fun t e => State.updEngine_kept ..) _ _
    clear_value v
    have hv' : v'.kept = v.kept := State.setF_kept ..
    have hw : w.kept = v'.kept := kept_with ..
    clear_value v' w
    exact (State.forN_kept (fun t k => State.rolloutNext_kept ..) _ _).trans (hw.trans (hv'.trans (hv.trans hu)))

@[simp] theorem State.switchOver_after (s : State) (k : Nat) (hκ : κ.After s.kept) : κ.After (s.switchOver k).kept := by
  unfold State.switchOver
  split
  · exact hκ
  next c _ =>
    extract_lets cyc
    split
    · exact hκ
    · rename_i v c' w x y _
      have hv : κ.After v.kept := State.advanceTo_after _ _ hκ
      have hw : κ.After w.kept := hv
      clear_value v w
      have hx : κ.After x.kept := by
        unfold x
        split
        · exact State.switchAnchor_after _ _ hw
        · exact hw
      clear_value x
      have hy : κ.After y.kept := by
        unfold y
        refine State.syncMixed_after _ ?_
        rw [State.setF_kept]
        exact State.switchSection_after _ _ _ _ _ hx
      clear_value y
      rw [State.published_kept]
      split
      · rw [State.afterSwitches_kept]; exact hy
      · exact hy

theorem execSwitchOver_after (k : Nat) (s : State) (hκ : κ.After s.kept) : κ.Leads (execSwitchOver k s) := by
  simp [execSwitchOver, hκ]

/-! ## The bank written (R378) -/

@[simp] theorem State.commitBank_after (s : State) (hκ : κ.After s.kept) : κ.After s.commitBank.kept := by
  unfold State.commitBank
  dsimp only
  split <;> simp (disch := simp [hκ]) [hκ]

theorem execBankCommit_after (s : State) (hκ : κ.After s.kept) : κ.Leads (execBankCommit s) := by simp [execBankCommit, hκ]

/-! ## Snapshot pages (R398 to R402) -/

@[simp] theorem State.updSnap_kept (s : State) (p : Nat) (f : SnapSt → SnapSt) : (s.updSnap p f).kept = s.kept := by rfl

/-! ## Latches (R400) -/

@[simp] theorem State.endLatch_kept (s : State) (p : Nat) : (s.endLatch p).kept = s.kept := by simp [State.endLatch]

@[simp] theorem State.ageLatch_kept (s : State) (p : Nat) : (s.ageLatch p).kept = s.kept := by
  unfold State.ageLatch
  split <;> simp

theorem execLatchExpiry_after (p : Nat) (s : State) (hκ : κ.After s.kept) : κ.Leads (execLatchExpiry p s) := by
  unfold execLatchExpiry
  split <;> simp [hκ]

@[simp] theorem State.latchPage_kept (s : State) (p r : Nat) : (s.latchPage p r).kept = s.kept := by simp [State.latchPage]

theorem execSnEpochRead_after (p : Nat) (s : State) (hκ : κ.After s.kept) : κ.Leads (execSnEpochRead p s) := by
  simp [execSnEpochRead, hκ]

/-! ## The section page (R398, R401) -/

@[simp] theorem State.publishPage_kept (s : State) (k e : Nat) : (s.publishPage k e).kept = s.kept := by simp [State.publishPage]

/-! ## The coherent cut (R402) -/

theorem execCoherentCut_after (s : State) (hκ : κ.After s.kept) : κ.Leads (execCoherentCut s) := by
  unfold execCoherentCut
  dsimp only
  (repeat' split) <;> simp [hκ]

/-! ## The sample instant (R22) -/

@[simp] theorem State.chainEpoch_kept (s : State) (n e : Nat) : (s.chainEpoch n e).kept = s.kept := by simp [State.chainEpoch]

@[simp] theorem State.epochSample_after (s : State) (k e : Nat) (hκ : κ.After s.kept) : κ.After (s.epochSample k e).kept := by
  unfold State.epochSample
  split
  · exact hκ
  · extract_lets u v w x
    have hu : κ.After u.kept := State.advanceTo_after _ _ hκ
    clear_value u
    have hw : κ.After w.kept := by
      unfold w v
      simp [hu]
    clear_value w
    have hx : κ.After x.kept := by
      unfold x
      simp [hw]
    clear_value x
    split <;> simp [hx]

theorem execEpochSample_after (k e : Nat) (s : State) (hκ : κ.After s.kept) : κ.Leads (execEpochSample k e s) := by
  simp [execEpochSample, hκ]

/-! ## The evaluation deadline (R15) -/

@[simp] theorem State.abandonPlies_kept (s : State) (k : Nat) (l : List Nat) : (s.abandonPlies k l).kept = s.kept := by
  simp [State.abandonPlies]

@[simp] theorem State.engineLoad_after (s : State) (e : Nat) (hκ : κ.After s.kept) : κ.After (s.engineLoad e).kept := by
  simp [State.engineLoad, hκ]

@[simp] theorem State.deadline_after (s : State) (k : Nat) (ecc : EccIn) (hκ : κ.After s.kept) :
    κ.After (s.deadline k ecc).kept := by
  unfold State.deadline
  extract_lets x e
  split
  · exact hκ
  · rename_i u rounds old v w y z a _
    have hu : κ.After u.kept := State.advanceTo_after _ _ hκ
    clear_value u
    have hv : κ.After v.kept := foldl_after (fun t p => State.missFeeder_after _ _ _ _ (Kept.After.refl _)) _ hu
    clear_value v
    have hw : κ.After w.kept := by
      unfold w
      rw [State.updSec_kept, State.abandonPlies_kept]
      exact State.missSection_after _ _ _ hv
    clear_value w
    have hy : κ.After y.kept := foldl_after (fun t r => State.engineLoad_after _ _ (Kept.After.refl _)) _ hw
    clear_value y
    have ha : κ.After a.kept := by
      unfold a z
      simpa using hy
    clear_value a
    rw [State.publishPage_kept]
    exact State.recorderDeadline_after _ _ _ (State.dramWords_after _ _ _ ha)

theorem execEvaluationDeadline_after (k : Nat) (ecc : EccIn) (s : State) (hκ : κ.After s.kept) :
    κ.Leads (execEvaluationDeadline k ecc s) := by simp [execEvaluationDeadline, hκ]

end Sys2Proof.Machine
end

section
/-! What every command keeps:
sampled values, Ethernet, forces and the management service. -/

namespace Sys2Proof.Machine

variable {κ : Kept}

/-! ## The resampler (R78, R79) -/

@[simp] theorem State.svRow_kept (s : State) (k : Nat) (c : SvSub) (g : Nat) (vals : List (Int × Nat)) :
    (s.svRow k c g vals).kept = s.kept := by simp [State.svRow]

@[simp] theorem State.addPoint_kept (s : State) (sub : Nat) (c : SvSub) (n synch : Nat) (vals : List (Int × Nat)) :
    (s.addPoint sub c n synch vals).kept = s.kept := by
  unfold State.addPoint
  (repeat' split) <;> simp

@[simp] theorem State.svForm_kept (s : State) (sub : Nat) (c : SvSub) (e : Nat) (pts : List (Option (List (Int × Nat))))
    (mu : Rat) :
    (s.svForm sub c e pts mu).kept = s.kept := by simp [State.svForm]

@[simp] theorem State.svRun_kept (s : State) (sub : Nat) (c : SvSub) : (s.svRun sub c).kept = s.kept := by
  unfold State.svRun
  refine foldl_kept (fun t x => ?_) _ _
  (repeat' split) <;> simp

@[simp] theorem State.svCutoff_after (s : State) (k : Nat) (hκ : κ.After s.kept) : κ.After (s.svCutoff k).kept := by
  unfold State.svCutoff
  dsimp only
  (repeat' split) <;> simp [hκ]

theorem execResampleCutoff_after (k : Nat) (s : State) (hκ : κ.After s.kept) : κ.Leads (execResampleCutoff k s) := by
  simp [execResampleCutoff, hκ]

/-! ## Reception (R281, R283) -/

@[simp] theorem State.svDiscard_kept (s : State) (lane : Nat) : (s.svDiscard lane).kept = s.kept := by rfl

@[simp] theorem State.svAccept_kept (s : State) (lane sub : Nat) (c : SvSub) (f : SvFrame) :
    (s.svAccept lane sub c f).kept = s.kept := by simp [State.svAccept]

@[simp] theorem State.svFrame_after (s : State) (lane : Nat) (f : SvFrame) (hκ : κ.After s.kept) :
    κ.After (s.svFrame lane f).kept := by
  unfold State.svFrame
  extract_lets u
  have hu : κ.After u.kept := by
    unfold u
    rw [State.captureRx_kept]
    exact hκ
  clear_value u
  split
  · exact hu
  split
  · exact hu
  split
  · simp [hu]
  next sub c _ =>
    have ht := State.judgePinned_after u lane 0 sub c.srcMac f.snd hu
    split
    next t heq =>
      rw [heq] at ht
      split <;> simp [show κ.After t.kept from ht, hu]
    next n t heq =>
      rw [heq] at ht
      (repeat' split) <;> simp [show κ.After t.kept from ht]

theorem execSvFrame_after (lane : Nat) (f : SvFrame) (s : State) (hκ : κ.After s.kept) : κ.Leads (execSvFrame lane f s) := by
  simp [execSvFrame, hκ]

/-! ## Publication (R284) -/

@[simp] theorem State.svPublish_kept (s : State) (pub n : Nat) : (s.svPublish pub n).kept = s.kept := by
  unfold State.svPublish
  split
  · rfl
  · extract_lets
    split
    · split
      · rfl
      · exact foldl_kept (fun t l => State.queueEth_kept ..) _ _
    · rfl

theorem execSvPublication_after (pub n : Nat) (s : State) (hκ : κ.After s.kept) : κ.Leads (execSvPublication pub n s) := by
  simp [execSvPublication, hκ]

/-! ## Transmission (R288 to R291) -/

@[simp] theorem State.pushStamp_kept (s : State) (lane id : Nat) : (s.pushStamp lane id).kept = s.kept := by
  simp [State.pushStamp]

@[simp] theorem State.emit_kept (s : State) (lane : Nat) (f : EthFrame) : (s.emit lane f).kept = s.kept := by
  unfold State.emit
  dsimp only
  (repeat' split) <;> simp

@[simp] theorem State.launch_after (s : State) (lane : Nat) (f : EthFrame) (hκ : κ.After s.kept) :
    κ.After (s.launch lane f).kept := by simp [State.launch, hκ]

theorem execTimeLaunch_after (lane : Nat) (s : State) (hκ : κ.After s.kept) : κ.Leads (execTimeLaunch lane s) := by
  unfold execTimeLaunch
  split <;> simp [hκ]

theorem execAngleLaunch_after (lane : Nat) (s : State) (hκ : κ.After s.kept) : κ.Leads (execAngleLaunch lane s) := by
  unfold execAngleLaunch
  split <;> simp [hκ]

theorem execReservationWindow_after (lane : Nat) (s : State) (hκ : κ.After s.kept) : κ.Leads (execReservationWindow lane s) := by
  unfold execReservationWindow
  split <;> simp [hκ]

@[simp] theorem State.takeStamps_kept (s : State) (lane : Nat) : (s.takeStamps lane).kept = s.kept := by
  unfold State.takeStamps
  split <;> simp

@[simp] theorem State.transmit_after (s : State) (lane : Nat) (hκ : κ.After s.kept) : κ.After (s.transmit lane).kept := by
  unfold State.transmit
  dsimp only
  (repeat' split) <;> simp [hκ]

theorem execEthernetTransmit_after (lane : Nat) (s : State) (hκ : κ.After s.kept) : κ.Leads (execEthernetTransmit lane s) := by
  simp [execEthernetTransmit, hκ]

@[simp] theorem State.popStamp_kept (s : State) (lane : Nat) : (s.popStamp lane).kept = s.kept := by
  unfold State.popStamp
  split <;> simp

theorem execTsqheadRead_after (lane : Nat) (s : State) (hκ : κ.After s.kept) : κ.Leads (execTsqheadRead lane s) := by
  simp [execTsqheadRead, hκ]

/-! ## GOOSE (R285 to R287) -/

@[simp] theorem State.repeatGoose_after (s : State) (i : Nat) (hκ : κ.After s.kept) : κ.After (s.repeatGoose i).kept := by
  unfold State.repeatGoose
  dsimp only
  (repeat' split) <;> simp [hκ]

theorem execGooseRepetition_after (i : Nat) (s : State) (hκ : κ.After s.kept) : κ.Leads (execGooseRepetition i s) := by
  simp [execGooseRepetition, hκ]

@[simp] theorem State.adoptSt_kept (s : State) (g : GooseMsg) : (s.adoptSt g).kept = s.kept := by simp [State.adoptSt]

@[simp] theorem State.acceptGoose_after (s : State) (i : Nat) (c : GoSub) (g : GooseMsg) (hκ : κ.After s.kept) :
    κ.After (s.acceptGoose i c g).kept := by
  unfold State.acceptGoose
  extract_lets x u v w
  have hu : κ.After u.kept := State.onlyIf_after _ _ _ (fun t => State.event_after _ _ _ _ _ _ (Kept.After.refl _)) hκ
  clear_value u
  have hv : κ.After v.kept := hu
  clear_value v
  have hw : w.kept = v.kept := foldl_kept (fun t m => by split <;> simp) _ _
  rw [State.published_kept, State.adoptSt_kept, hw]
  exact hv

@[simp] theorem State.goDiscard_kept (s : State) (lane : Nat) : (s.goDiscard lane).kept = s.kept := by rfl

@[simp] theorem State.goose_after (s : State) (lane : Nat) (g : GooseMsg) (hκ : κ.After s.kept) :
    κ.After (s.goose lane g).kept := by
  unfold State.goose
  extract_lets u
  have hu : κ.After u.kept := by
    unfold u
    rw [State.captureRx_kept]
    exact hκ
  clear_value u
  split
  · exact hu
  split
  · exact hu
  split
  · simp [hu]
  next i c _ =>
    have ht := State.judgePinned_after u lane 1 i c.srcMac g.snd hu
    split
    next t heq =>
      rw [heq] at ht
      split <;> simp [show κ.After t.kept from ht, hu]
    next n t heq =>
      rw [heq] at ht
      (repeat' split) <;> simp [show κ.After t.kept from ht]

theorem execGooseMessage_after (lane : Nat) (g : GooseMsg) (s : State) (hκ : κ.After s.kept) :
    κ.Leads (execGooseMessage lane g s) := by simp [execGooseMessage, hκ]

@[simp] theorem State.expireGoose_after (s : State) (i : Nat) (hκ : κ.After s.kept) : κ.After (s.expireGoose i).kept := by
  unfold State.expireGoose
  dsimp only
  (repeat' split) <;> simp [hκ]

theorem execTimeAllowedToLiveExpiry_after (i : Nat) (s : State) (hκ : κ.After s.kept) :
    κ.Leads (execTimeAllowedToLiveExpiry i s) := by simp [execTimeAllowedToLiveExpiry, hκ]

/-! ## PTP (R299 to R301) -/

@[simp] theorem State.judgePtp_after (s : State) (lane kind : Nat) (m : PtpMsg) (hκ : κ.After s.kept) :
    κ.After (s.judgePtp lane kind m).2.kept := by
  unfold State.judgePtp
  extract_lets u
  have hu : κ.After u.kept := by
    unfold u
    rw [State.captureRx_kept]
    exact hκ
  clear_value u
  split
  · exact hu
  split
  · exact hu
  split
  · simp [hu]
  · rename_i id0 id1 r _ _ _ _ _
    have hr : κ.After r.2.kept := by
      unfold r
      split
      · exact State.judgePinned_after _ _ _ _ _ _ hu
      · exact State.judgeDynamic_after _ _ _ _ _ _ _ _ hu
    clear_value r
    obtain ⟨_ | n, t⟩ := r
    · exact hr
    · have ht : κ.After t.kept := hr
      dsimp only
      split <;> simp [ht]

@[simp] theorem State.forwardPtp_kept (s : State) (lane : Nat) (f : EthFrame) : (s.forwardPtp lane f).kept = s.kept := by
  unfold State.forwardPtp
  split <;> simp

@[simp] theorem State.updPtp_kept (s : State) (lane : Nat) (f : PtpSt → PtpSt) : (s.updPtp lane f).kept = s.kept := by rfl

@[simp] theorem State.ptpUpdate_after (s : State) (lane : Nat) (m : PtpMsg) (hκ : κ.After s.kept) :
    κ.After (s.ptpUpdate lane m).kept := by
  unfold State.ptpUpdate
  split <;> simp [hκ]

@[simp] theorem State.ptpSync_after (s : State) (lane : Nat) (m : PtpMsg) (hκ : κ.After s.kept) :
    κ.After (s.ptpSync lane m).kept := by
  have ht := State.judgePtp_after s lane 2 m hκ
  unfold State.ptpSync
  generalize s.judgePtp lane 2 m = r at ht ⊢
  obtain ⟨_ | n, t⟩ := r
  · exact ht
  · have ht : κ.After t.kept := ht
    dsimp only
    (repeat' split) <;> simp [ht]

theorem execSync_after (lane : Nat) (m : PtpMsg) (s : State) (hκ : κ.After s.kept) : κ.Leads (execSync lane m s) := by
  simp [execSync, hκ]

@[simp] theorem State.ptpFollowUp_after (s : State) (lane : Nat) (m : PtpMsg) (hκ : κ.After s.kept) :
    κ.After (s.ptpFollowUp lane m).kept := by
  have ht := State.judgePtp_after s lane 2 m hκ
  unfold State.ptpFollowUp
  generalize s.judgePtp lane 2 m = r at ht ⊢
  obtain ⟨_ | n, t⟩ := r
  · exact ht
  · have ht : κ.After t.kept := ht
    dsimp only
    (repeat' split) <;> simp [ht]

theorem execFollowUp_after (lane : Nat) (m : PtpMsg) (s : State) (hκ : κ.After s.kept) : κ.Leads (execFollowUp lane m s) := by
  simp [execFollowUp, hκ]

@[simp] theorem State.originate_kept (s : State) (lane : Nat) (follow : Bool) : (s.originate lane follow).kept = s.kept := by
  simp [State.originate]

@[simp] theorem State.ptpPdelayReq_after (s : State) (lane : Nat) (m : PtpMsg) (hκ : κ.After s.kept) :
    κ.After (s.ptpPdelayReq lane m).kept := by
  have ht := State.judgePtp_after s lane 3 m hκ
  unfold State.ptpPdelayReq
  generalize s.judgePtp lane 3 m = r at ht ⊢
  obtain ⟨_ | n, t⟩ := r
  · exact ht
  · have ht : κ.After t.kept := ht
    dsimp only
    (repeat' split) <;> simp [ht]

theorem execPdelayReq_after (lane : Nat) (m : PtpMsg) (s : State) (hκ : κ.After s.kept) : κ.Leads (execPdelayReq lane m s) := by
  simp [execPdelayReq, hκ]

@[simp] theorem State.ptpPdelayResp_after (s : State) (lane : Nat) (m : PtpMsg) (hκ : κ.After s.kept) :
    κ.After (s.ptpPdelayResp lane m).kept := by
  have ht := State.judgePtp_after s lane 3 m hκ
  unfold State.ptpPdelayResp
  generalize s.judgePtp lane 3 m = r at ht ⊢
  obtain ⟨_ | n, t⟩ := r
  · exact ht
  · have ht : κ.After t.kept := ht
    dsimp only
    (repeat' split) <;> simp [ht]

theorem execPdelayResp_after (lane : Nat) (m : PtpMsg) (s : State) (hκ : κ.After s.kept) : κ.Leads (execPdelayResp lane m s) := by
  simp [execPdelayResp, hκ]

@[simp] theorem State.ptpPdelayFollow_after (s : State) (lane : Nat) (m : PtpMsg) (delay : Nat) (hκ : κ.After s.kept) :
    κ.After (s.ptpPdelayFollow lane m delay).kept := by
  have ht := State.judgePtp_after s lane 3 m hκ
  unfold State.ptpPdelayFollow
  generalize s.judgePtp lane 3 m = r at ht ⊢
  obtain ⟨_ | n, t⟩ := r
  · exact ht
  · have ht : κ.After t.kept := ht
    dsimp only
    (repeat' split) <;> simp [ht]

theorem execPdelayRespFollowUp_after (lane : Nat) (m : PtpMsg) (delay : Nat) (s : State) (hκ : κ.After s.kept) :
    κ.Leads (execPdelayRespFollowUp lane m delay s) := by simp [execPdelayRespFollowUp, hκ]

@[simp] theorem State.selectMaster_kept (s : State) (lane src : Nat) : (s.selectMaster lane src).kept = s.kept := by
  simp [State.selectMaster]

@[simp] theorem State.ptpAnnounce_after (s : State) (lane : Nat) (m : PtpMsg) (best : Bool) (hκ : κ.After s.kept) :
    κ.After (s.ptpAnnounce lane m best).kept := by
  have ht := State.judgePtp_after s lane 2 m hκ
  unfold State.ptpAnnounce
  generalize s.judgePtp lane 2 m = r at ht ⊢
  obtain ⟨_ | n, t⟩ := r
  · exact ht
  · have ht : κ.After t.kept := ht
    dsimp only
    (repeat' split) <;> simp [ht]

theorem execAnnounce_after (lane : Nat) (m : PtpMsg) (best : Bool) (s : State) (hκ : κ.After s.kept) :
    κ.Leads (execAnnounce lane m best s) := by simp [execAnnounce, hκ]

theorem execAnnounceReceiptTimeout_after (lane : Nat) (s : State) (hκ : κ.After s.kept) :
    κ.Leads (execAnnounceReceiptTimeout lane s) := by simp [execAnnounceReceiptTimeout, hκ]

@[simp] theorem State.ptpPass_after (s : State) (lane : Nat) (m : PtpMsg) (hκ : κ.After s.kept) :
    κ.After (s.ptpPass lane m).kept := by
  have ht := State.judgePtp_after s lane 2 m hκ
  unfold State.ptpPass
  generalize s.judgePtp lane 2 m = r at ht ⊢
  obtain ⟨_ | n, t⟩ := r
  · exact ht
  · have ht : κ.After t.kept := ht
    dsimp only
    (repeat' split) <;> simp [ht]

theorem execSignaling_after (lane : Nat) (m : PtpMsg) (s : State) (hκ : κ.After s.kept) : κ.Leads (execSignaling lane m s) := by
  simp [execSignaling, hκ]

theorem execPtpManagement_after (lane : Nat) (m : PtpMsg) (s : State) (hκ : κ.After s.kept) :
    κ.Leads (execPtpManagement lane m s) := by simp [execPtpManagement, hκ]

@[simp] theorem State.ptpInterval_after (s : State) (lane : Nat) (hκ : κ.After s.kept) : κ.After (s.ptpInterval lane).kept := by
  unfold State.ptpInterval
  split <;> simp [hκ]

theorem execPtpMessageInterval_after (lane : Nat) (s : State) (hκ : κ.After s.kept) :
    κ.Leads (execPtpMessageInterval lane s) := by simp [execPtpMessageInterval, hκ]

/-! ## Forcing (R225 to R229, R250) -/

@[simp] theorem State.forceRecord_after (s : State) (action n : Nat) (out : Bool) (target old new : Nat) (hκ : κ.After s.kept) :
    κ.After (s.forceRecord action n out target old new).kept := by simp [State.forceRecord, hκ]

@[simp] theorem State.syncForces_kept (s : State) : s.syncForces.kept = s.kept := by rfl

@[simp] theorem State.putForce_kept (s : State) (n : Nat) (out : Bool) (target value : Nat) :
    (s.putForce n out target value).kept = s.kept := by
  unfold State.putForce
  (repeat' split) <;> rfl

@[simp] theorem State.dropForce_kept (s : State) (n : Nat) : (s.dropForce n).kept = s.kept := by simp [State.dropForce]

@[simp] theorem State.releaseForce_after (s : State) (n : Nat) (hκ : κ.After s.kept) : κ.After (s.releaseForce n).kept := by
  simp [State.releaseForce, hκ]

@[simp] theorem State.applyForce_after (s : State) (n : Nat) (hκ : κ.After s.kept) : κ.After (s.applyForce n).kept := by
  simp (disch := simp [hκ]) [hκ, State.applyForce]

@[simp] theorem State.forcesChanged_kept (s : State) : s.forcesChanged.kept = s.kept := by simp [State.forcesChanged]

theorem execApply_after (s : State) (hκ : κ.After s.kept) : κ.Leads (execApply s) := by simp [execApply, hκ]

theorem execRelease_after (s : State) (hκ : κ.After s.kept) : κ.Leads (execRelease s) := by simp [execRelease, hκ]

theorem execRelall_after (s : State) (hκ : κ.After s.kept) : κ.Leads (execRelall s) := by simp [execRelall, hκ]

/-! ## Responses (R392, R394) -/

@[simp] theorem State.answer_after (s : State) (m : MgmtMsg) (code : Nat) (a : Ans) (n : Option Nat) (hκ : κ.After s.kept) :
    κ.After (s.answer m code a n).kept := by
  unfold State.answer
  rw [State.queueEth_kept]
  cases a.arg0
  · exact hκ.trans ⟨rfl, Nat.le_refl _, Nat.le_succ_of_le (Nat.le_succ _), id⟩
  · exact hκ.trans ⟨rfl, Nat.le_refl _, Nat.le_succ _, id⟩

@[simp] theorem State.judgeMgmt_after (s : State) (m : MgmtMsg) (hκ : κ.After s.kept) : κ.After (s.judgeMgmt m).2.kept := by
  unfold State.judgeMgmt
  dsimp only
  (repeat' split) <;> simp [hκ]

@[simp] theorem State.request_after (s : State) (m : MgmtMsg) (code : Nat) (priv : Option Nat) (wellFormed : Bool)
    (act : State → Ans × State) (hact : ∀ s : State, s.kept.After (act s).2.kept) (hκ : κ.After s.kept) :
    κ.After (s.request m code priv wellFormed act).kept := by
  have ht := State.judgeMgmt_after s m hκ
  unfold State.request
  generalize s.judgeMgmt m = r at ht ⊢
  obtain ⟨_ | n, t⟩ := r
  · exact ht
  · have ht : κ.After t.kept := ht
    split
    next heq => exact absurd (congrArg Prod.fst heq) (by simp)
    next n' t' heq =>
    obtain ⟨hn, rfl⟩ := Prod.mk.inj heq
    split
    · simp [ht]
    split
    · exact ht
    split
    · simp [ht]
    split
    · simp [ht]
    · extract_lets u
      have hu : κ.After u.kept := by
        unfold u
        rw [State.brim_kept]
        exact ht
      clear_value u
      split
      next a v heq =>
      have hv : κ.After (a, v).2.kept := by
        rw [← heq]
        (repeat' split)
        · exact hu
        · exact hu
        · exact hu.trans (hact u)
        · exact hu
      have hv : κ.After v.kept := hv
      extract_lets w
      have hw : κ.After w.kept := by
        unfold w
        split <;> simp [hv]
      exact State.answer_after _ _ _ _ _ hw

theorem execUnknownRequest_after (m : MgmtMsg) (s : State) (hκ : κ.After s.kept) : κ.Leads (execUnknownRequest m s) := by
  simp [execUnknownRequest, hκ]

@[simp] theorem State.arp_kept (s : State) (lane ip : Nat) : (s.arp lane ip).kept = s.kept := by simp [State.arp]

theorem execArpRequest_after (lane ip : Nat) (s : State) (hκ : κ.After s.kept) : κ.Leads (execArpRequest lane ip s) := by
  simp [execArpRequest, hκ]

/-! ## Pages (R393, R400) -/

@[simp] theorem State.mgmtPage_kept (s : State) (page off : Nat) : (s.mgmtPage page off).2.kept = s.kept := by
  unfold State.mgmtPage
  split <;> simp

theorem execPage_after (m : MgmtMsg) (s : State) (hκ : κ.After s.kept) : κ.Leads (execPage m s) := by simp [execPage, hκ]

/-! ## Log records read (R347, R349) -/

@[simp] theorem State.mgmtLog_after (s : State) (first n : Nat) (hκ : κ.After s.kept) : κ.After (s.mgmtLog first n).2.kept := by
  unfold State.mgmtLog
  dsimp only
  split <;> simp [hκ]

theorem execLogread_after (m : MgmtMsg) (s : State) (hκ : κ.After s.kept) : κ.Leads (execLogread m s) := by simp [execLogread, hκ]

/-! ## Disturbance records (R331, R332) -/

@[simp] theorem State.mgmtList_kept (s : State) (first : Nat) : (s.mgmtList first).2.kept = s.kept := by rfl

theorem execDrlist_after (m : MgmtMsg) (s : State) (hκ : κ.After s.kept) : κ.Leads (execDrlist m s) := by simp [execDrlist, hκ]

@[simp] theorem State.mgmtExport_after (s : State) (id arg1 : Nat) (ecc : EccIn) (hκ : κ.After s.kept) :
    κ.After (s.mgmtExport id arg1 ecc).2.kept := by
  unfold State.mgmtExport
  dsimp only
  (repeat' split) <;> simp (disch := simp [hκ]) [hκ]

theorem execDrexport_after (m : MgmtMsg) (ecc : EccIn) (s : State) (hκ : κ.After s.kept) : κ.Leads (execDrexport m ecc s) := by
  simp [execDrexport, hκ]

@[simp] theorem State.mgmtAck_kept (s : State) (id : Nat) : (s.mgmtAck id).2.kept = s.kept := by
  unfold State.mgmtAck
  (repeat' split) <;> simp

theorem execDrack_after (m : MgmtMsg) (s : State) (hκ : κ.After s.kept) : κ.Leads (execDrack m s) := by simp [execDrack, hκ]

/-! ## Change sessions (R393) -/

@[simp] theorem State.ageSession_kept (s : State) : s.ageSession.kept = s.kept := by
  unfold State.ageSession
  (repeat' split) <;> rfl

theorem execChangeSessionTimeout_after (s : State) (hκ : κ.After s.kept) : κ.Leads (execChangeSessionTimeout s) := by
  unfold execChangeSessionTimeout
  dsimp only
  (repeat' split) <;> simp [hκ]

@[simp] theorem State.beginChange_after (s : State) (m : MgmtMsg) (hκ : κ.After s.kept) : κ.After (s.beginChange m).2.kept := by
  unfold State.beginChange
  extract_lets u
  have hu : κ.After u.kept := by
    unfold u
    rw [State.ageSession_kept]
    exact hκ
  clear_value u
  split
  · exact hu
  split
  · exact hu
  · exact hu.trans ⟨rfl, Nat.le_refl _, Nat.le_refl _, fun ⟨hc, he, hb, _⟩ => ⟨hc, he, hb, rfl⟩⟩

theorem execChgbegin_after (m : MgmtMsg) (s : State) (hκ : κ.After s.kept) : κ.Leads (execChgbegin m s) := by
  simp [execChgbegin, hκ]

@[simp] theorem State.changeData_after (s : State) (m : MgmtMsg) (hκ : κ.After s.kept) : κ.After (s.changeData m).2.kept := by
  unfold State.changeData
  extract_lets u
  have hu : κ.After u.kept := by
    unfold u
    rw [State.ageSession_kept]
    exact hκ
  clear_value u
  split
  · exact hu
  split
  · exact hu
  split
  · exact hu
  · exact hu.trans ⟨rfl, Nat.le_refl _, Nat.le_refl _, fun ⟨hc, he, hb, hp⟩ => ⟨hc, he, hb, Mem.wf_writeN _ _ _ _ hp⟩⟩

theorem execChgdata_after (m : MgmtMsg) (s : State) (hκ : κ.After s.kept) : κ.Leads (execChgdata m s) := by simp [execChgdata, hκ]

@[simp] theorem State.endChange_kept (s : State) (m : MgmtMsg) : (s.endChange m).2.kept = s.kept := by
  unfold State.endChange
  dsimp only
  split <;> simp

theorem execChgend_after (m : MgmtMsg) (s : State) (hκ : κ.After s.kept) : κ.Leads (execChgend m s) := by simp [execChgend, hκ]

theorem execChgstat_after (m : MgmtMsg) (s : State) (hκ : κ.After s.kept) : κ.Leads (execChgstat m s) := by simp [execChgstat, hκ]

@[simp] theorem State.mgmtAbort_after (s : State) (m : MgmtMsg) (hκ : κ.After s.kept) : κ.After (s.mgmtAbort m).2.kept := by
  unfold State.mgmtAbort
  dsimp only
  (repeat' split) <;> simp (disch := simp [hκ]) [hκ]

theorem execChgabort_after (m : MgmtMsg) (s : State) (hκ : κ.After s.kept) : κ.Leads (execChgabort m s) := by
  simp [execChgabort, hκ]

end Sys2Proof.Machine
end

section
/-! What every command keeps:
the maintenance port. -/

namespace Sys2Proof.Machine

variable {κ : Kept}

/-! ## Reads (R4, R21, R296, R400, R409) -/

@[simp] theorem State.beforeRead_after (s : State) (b : Blk) (i off : Nat) (hκ : κ.After s.kept) :
    κ.After (s.beforeRead b i off).kept := by
  unfold State.beforeRead
  split <;> simp [hκ]

@[simp] theorem State.afterRead_after (s : State) (b : Blk) (i off : Nat) (hκ : κ.After s.kept) :
    κ.After (s.afterRead b i off).kept := by
  unfold State.afterRead
  split <;> simp [hκ]

@[simp] theorem State.clearRc_kept (s : State) (a : Nat) : (s.clearRc a).kept = s.kept := by simp [State.clearRc]

@[simp] theorem State.readWord_after (s : State) (a : Nat) (hκ : κ.After s.kept) : κ.After (s.readWord a).2.kept := by
  unfold State.readWord
  dsimp only
  (repeat' split) <;> simp [hκ]

/-! ## Writes (R4 to R6) -/

@[simp] theorem State.writePlain_kept (s : State) (a w : Nat) : (s.writePlain a w).kept = s.kept := by
  unfold State.writePlain
  refine foldl_kept (fun t x => ?_) _ _
  (repeat' split) <;> simp

@[simp] theorem State.onBit_kept (s : State) (w b : Nat) (f : State → State) (hf : ∀ s, (f s).kept = s.kept) :
    (s.onBit w b f).kept = s.kept := by
  unfold State.onBit
  split
  · exact hf s
  · rfl

@[simp] theorem State.onBit_after (s : State) (w b : Nat) (f : State → State) (hf : ∀ s : State, s.kept.After (f s).kept)
    (hκ : κ.After s.kept) :
    κ.After (s.onBit w b f).kept := by
  unfold State.onBit
  split
  · exact hκ.trans (hf s)
  · exact hκ

@[simp] theorem State.onPair_kept (s : State) (w en dis : Nat) (on off : State → State) (hon : ∀ s, (on s).kept = s.kept)
    (hoff : ∀ s, (off s).kept = s.kept) :
    (s.onPair w en dis on off).kept = s.kept := by
  unfold State.onPair
  split
  · rfl
  · rw [State.onBit_kept _ _ _ _ hoff, State.onBit_kept _ _ _ _ hon]

@[simp] theorem State.onPair_after (s : State) (w en dis : Nat) (on off : State → State)
    (hon : ∀ s : State, s.kept.After (on s).kept) (hoff : ∀ s : State, s.kept.After (off s).kept) (hκ : κ.After s.kept) :
    κ.After (s.onPair w en dis on off).kept := by
  unfold State.onPair
  split
  · exact hκ
  · exact State.onBit_after _ _ _ _ hoff (State.onBit_after _ _ _ _ hon hκ)

@[simp] theorem State.onOne_kept (s : State) (w : Nat) (f0 f1 f2 : State → State) (h0 : ∀ s, (f0 s).kept = s.kept)
    (h1 : ∀ s, (f1 s).kept = s.kept) (h2 : ∀ s, (f2 s).kept = s.kept) :
    (s.onOne w f0 f1 f2).kept = s.kept := by
  unfold State.onOne
  split
  · exact h0 s
  · exact h1 s
  · exact h2 s
  · rfl

@[simp] theorem State.onOne_after (s : State) (w : Nat) (f0 f1 f2 : State → State) (h0 : ∀ s : State, s.kept.After (f0 s).kept)
    (h1 : ∀ s : State, s.kept.After (f1 s).kept) (h2 : ∀ s : State, s.kept.After (f2 s).kept) (hκ : κ.After s.kept) :
    κ.After (s.onOne w f0 f1 f2).kept := by
  unfold State.onOne
  split
  · exact hκ.trans (h0 s)
  · exact hκ.trans (h1 s)
  · exact hκ.trans (h2 s)
  · exact hκ

@[simp] theorem State.writeCk_after (s : State) (k off a w : Nat) (hκ : κ.After s.kept) : κ.After (s.writeCk k off a w).kept := by
  simp [State.writeCk, hκ]

@[simp] theorem State.writeLane_after (s : State) (n off a w : Nat) (hκ : κ.After s.kept) :
    κ.After (s.writeLane n off a w).kept := by
  unfold State.writeLane
  split
  · split
    · exact hκ
    · refine State.onBit_after _ _ _ _ (fun t => State.retrain_after _ _ (Kept.After.refl _)) ?_
      simp [hκ]
  all_goals simp [hκ]

@[simp] theorem State.writeConv_kept (s : State) (n off a w : Nat) : (s.writeConv n off a w).kept = s.kept := by
  unfold State.writeConv
  (repeat' split) <;> simp

@[simp] theorem State.writeTb_kept (s : State) (k off a w : Nat) : (s.writeTb k off a w).kept = s.kept := by
  unfold State.writeTb
  split <;> simp

@[simp] theorem State.writeLog_after (s : State) (off a w : Nat) (hκ : κ.After s.kept) : κ.After (s.writeLog off a w).kept := by
  unfold State.writeLog
  split
  · extract_lets u v
    have hv : κ.After v.kept := by
      unfold v u
      simp [hκ]
    clear_value v
    simp [hv]
  all_goals simp [hκ]

@[simp] theorem State.writeForce_after (s : State) (off a w : Nat) (hκ : κ.After s.kept) :
    κ.After (s.writeForce off a w).kept := by
  unfold State.writeForce
  dsimp only
  split <;> simp (disch := simp [hκ]) [hκ]

/-! ## The NVM registers (R412, R413) -/

@[simp] theorem State.writeVaddr_kept (s : State) (k w : Nat) : (s.writeVaddr k w).kept = s.kept := by simp [State.writeVaddr]

@[simp] theorem State.nvmStart_kept (s : State) (cmd w : Nat) : (s.nvmStart cmd w).kept = s.kept := by
  unfold State.nvmStart
  dsimp only
  split <;> simp

@[simp] theorem State.updNvm_after (s : State) (event : Bool) (f : Mem → Mem)
    (hf : ∀ m, Mem.wf 0xFF m = true → Mem.wf 0xFF (f m) = true) (hκ : κ.After s.kept) :
    κ.After (s.updNvm event f).kept := by
  unfold State.updNvm
  split
  · exact hκ.trans ⟨rfl, Nat.le_refl _, Nat.le_refl _, fun ⟨hc, he, hb, hp⟩ => ⟨hc, hf _ he, hb, hp⟩⟩
  · exact cfgNvm_after s _ (hf _) hκ

@[simp] theorem State.dropIdentity_kept (s : State) (c : NvmCmd) : (s.dropIdentity c).kept = s.kept := by
  simp [State.dropIdentity]

@[simp] theorem State.nvmProgram_after (s : State) (event : Bool) (a : Nat) (l : List Nat) (hκ : κ.After s.kept) :
    κ.After (s.nvmProgram event a l).kept := by
  unfold State.nvmProgram
  split
  · exact State.evProgram_after _ _ _ hκ
  · exact cfgNvm_after s _ (fun h => Mem.wf_programN _ _ _ h) hκ

@[simp] theorem State.putNvmData_kept (s : State) (j : Nat) (l : List Nat) : (s.putNvmData j l).kept = s.kept := by rfl

@[simp] theorem State.nvmEffect_after (s : State) (c : NvmCmd) (good : Bool) (hκ : κ.After s.kept) :
    κ.After (s.nvmEffect c good).kept := by
  unfold State.nvmEffect
  extract_lets old base
  split
  · split <;> simp [hκ]
  · split <;> simp [hκ]
  · split
    · rw [State.dropIdentity_kept]
      exact State.updNvm_after _ _ _ (fun m hm => Mem.wf_erase _ _ _ _ hm) hκ
    · rw [State.dropIdentity_kept]
      exact State.updNvm_after _ _ _ (fun m hm => Mem.wf_writeN _ _ _ _ hm) (State.fresh_after _ _ hκ)

@[simp] theorem State.nvmDone_after (s : State) (ok readBackOk : Bool) (hκ : κ.After s.kept) :
    κ.After (s.nvmDone ok readBackOk).kept := by
  unfold State.nvmDone
  split <;> simp [hκ]

theorem execNvmRead_after (w : Word) (s : State) (hκ : κ.After s.kept) : κ.Leads (execNvmRead w s) := by simp [execNvmRead, hκ]

theorem execNvmProgram_after (w : Word) (s : State) (hκ : κ.After s.kept) : κ.Leads (execNvmProgram w s) := by
  simp [execNvmProgram, hκ]

theorem execEraseSector_after (w : Word) (s : State) (hκ : κ.After s.kept) : κ.Leads (execEraseSector w s) := by
  simp [execEraseSector, hκ]

theorem execNvmCommandComplete_after (ok readBackOk : Bool) (s : State) (hκ : κ.After s.kept) :
    κ.Leads (execNvmCommandComplete ok readBackOk s) := by simp [execNvmCommandComplete, hκ]

/-! ## A word written -/

@[simp] theorem State.writeDev_after (s : State) (off a w : Nat) (hκ : κ.After s.kept) : κ.After (s.writeDev off a w).kept := by
  unfold State.writeDev
  split <;> simp [hκ]

@[simp] theorem State.writeWord_after (s : State) (a w : Nat) (hκ : κ.After s.kept) : κ.After (s.writeWord a w).kept := by
  unfold State.writeWord
  split
  · exact hκ
  split
  · exact hκ
  split
  · simp [hκ]
  · split <;> simp [hκ]
  · split <;> simp [hκ]
  · simp [hκ]
  · simp [hκ]
  · simp [hκ]
  · simp [hκ]
  · exact ckBuf_after _ _ _ (by simp [hκ])
  · simp [hκ]
  · (repeat' split) <;> simp [hκ]
  · (repeat' split) <;> simp [hκ]
  · (repeat' split) <;> simp [hκ]
  · simp [hκ]
  · simp [hκ]
  · split <;> simp [hκ]

theorem execRegisterWrite_after (a : Nat) (w : Word) (s : State) (hκ : κ.After s.kept) : κ.Leads (execRegisterWrite a w s) := by
  simp [execRegisterWrite, hκ]

theorem execRcRead_after (a : Nat) (s : State) (hκ : κ.After s.kept) : κ.Leads (execRcRead a s) := by simp [execRcRead, hκ]

/-! ## SPI frames (R406 to R410) -/

@[simp] theorem State.countFrame_kept (s : State) (st : Nat) : (s.countFrame st).kept = s.kept := by simp [State.countFrame]

@[simp] theorem State.writeWords_after (n : Nat) :
    ∀ (s : State) (a : Nat) (l : List Nat), κ.After s.kept → κ.After (s.writeWords a n l).kept := by
  induction n with
  | zero => exact fun s a l hκ => hκ
  | succ n ih => exact fun s a l hκ => ih _ _ _ (State.writeWord_after _ _ _ hκ)

@[simp] theorem State.spiWrite_after (s : State) (f : SpiFrame) (hκ : κ.After s.kept) : κ.After (s.spiWrite f).kept := by
  unfold State.spiWrite
  extract_lets st u
  have hu : κ.After u.kept := by
    unfold u
    simpa using hκ
  clear_value u
  split
  · exact State.writeWords_after _ _ _ _ hu
  · exact hu

@[simp] theorem State.readWords_after (n : Nat) : ∀ (s : State) (a : Nat), κ.After s.kept → κ.After (s.readWords a n).2.kept := by
  induction n with
  | zero => exact fun s a hκ => hκ
  | succ n ih => exact fun s a hκ => ih _ _ (State.readWord_after _ _ hκ)

@[simp] theorem State.spiRead_after (s : State) (f : SpiFrame) (hκ : κ.After s.kept) : κ.After (s.spiRead f).kept := by
  unfold State.spiRead
  split
  · simp [hκ]
  · extract_lets st n out reads
    have hr : κ.After (if reads then s.readWords (spiAddr f) (min n ((out + 3) / 4)) else ([], s)).2.kept := by
      split
      · exact State.readWords_after _ _ _ hκ
      · exact hκ
    generalize (if reads then s.readWords (spiAddr f) (min n ((out + 3) / 4)) else ([], s)) = r at hr ⊢
    obtain ⟨l, t⟩ := r
    have ht : κ.After t.kept := hr
    simp [ht]

@[simp] theorem State.spiUnknown_kept (s : State) (f : SpiFrame) : (s.spiUnknown f).kept = s.kept := by rfl

@[simp] theorem State.spiStatus_kept (s : State) : s.spiStatus.kept = s.kept := by rfl

@[simp] theorem State.spiFrame_after (s : State) (f : SpiFrame) (hκ : κ.After s.kept) : κ.After (s.spiFrame f).kept := by
  unfold State.spiFrame
  (repeat' split) <;> simp [hκ]

theorem execWriteFrame_after (f : SpiFrame) (s : State) (hκ : κ.After s.kept) : κ.Leads (execWriteFrame f s) := by
  simp [execWriteFrame, hκ]

theorem execReadFrame_after (f : SpiFrame) (s : State) (hκ : κ.After s.kept) : κ.Leads (execReadFrame f s) := by
  simp [execReadFrame, hκ]

theorem execStatusCommand_after (s : State) (hκ : κ.After s.kept) : κ.Leads (execStatusCommand s) := by
  simp [execStatusCommand, hκ]

end Sys2Proof.Machine
end

section
/-! Every step keeps the stores in canonical form (R339, R412): each command of the table does, by what its operations keep. -/

namespace Sys2Proof.Machine

theorem exec_after (c : Instr) (s : State) : s.kept.Leads (exec c s) := by
  cases c with
  | pornRelease _ _ _ => exact execPornRelease_after _ _ _ _ (.refl _)
  | pornAssert _ => exact execPornAssert_after _ _ (.refl _)
  | pwrgoodFall => exact execPwrgoodFall_after _ (.refl _)
  | holdupWarnAssert => exact execHoldupWarnAssert_after _ (.refl _)
  | holdupWarnClear => exact execHoldupWarnClear_after _ (.refl _)
  | saveSetComplete => exact execSaveSetComplete_after _ (.refl _)
  | vbatLoss => exact execVbatLoss_after _ (.refl _)
  | imageCheckComplete _ _ _ => exact execImageCheckComplete_after _ _ _ _ (.refl _)
  | gridStart => exact execGridStart_after _ (.refl _)
  | protectionActive => exact execProtectionActive_after _ (.refl _)
  | roleListenExpiry => exact execRoleListenExpiry_after _ (.refl _)
  | reload => exact execReload_after _ (.refl _)
  | epochSample _ _ => exact execEpochSample_after _ _ _ (.refl _)
  | entryLost _ _ => exact execEntryLost_after _ _ _ (.refl _)
  | entryQualified _ _ => exact execEntryQualified_after _ _ _ (.refl _)
  | glideEnd _ => exact execGlideEnd_after _ _ (.refl _)
  | glideExtended _ => exact execGlideExtended_after _ _ (.refl _)
  | cycleWrap _ => exact execCycleWrap_after _ _ (.refl _)
  | dataDue _ => exact execDataDue_after _ _ (.refl _)
  | evaluationDeadline _ _ => exact execEvaluationDeadline_after _ _ _ (.refl _)
  | angleLaunch _ => exact execAngleLaunch_after _ _ (.refl _)
  | switchOver _ => exact execSwitchOver_after _ _ (.refl _)
  | angleTickRead _ => exact execAngleTickRead_after _ _ (.refl _)
  | epochNumRead _ => exact execEpochNumRead_after _ _ (.refl _)
  | slotInstant _ => exact execSlotInstant_after _ _ (.refl _)
  | conversionComplete _ _ _ => exact execConversionComplete_after _ _ _ _ (.refl _)
  | queueEntryTransfer _ => exact execQueueEntryTransfer_after _ _ (.refl _)
  | urgentRequest _ _ _ => exact execUrgentRequest_after _ _ _ _ (.refl _)
  | deferredUrgentStart _ => exact execDeferredUrgentStart_after _ _ (.refl _)
  | openWireInterval _ _ => exact execOpenWireInterval_after _ _ _ (.refl _)
  | openWireTestStart _ _ => exact execOpenWireTestStart_after _ _ _ (.refl _)
  | openWireAttemptTimeout _ _ => exact execOpenWireAttemptTimeout_after _ _ _ (.refl _)
  | referenceOutOfRange _ => exact execReferenceOutOfRange_after _ _ (.refl _)
  | refrdySet _ => exact execRefrdySet_after _ _ (.refl _)
  | calZero _ _ => exact execCalZero_after _ _ _ (.refl _)
  | calFull _ _ => exact execCalFull_after _ _ _ (.refl _)
  | calAbort _ _ => exact execCalAbort_after _ _ _ (.refl _)
  | calAveragingDone _ => exact execCalAveragingDone_after _ _ (.refl _)
  | calStoreComplete _ _ => exact execCalStoreComplete_after _ _ _ (.refl _)
  | calSessionTimeout _ => exact execCalSessionTimeout_after _ _ (.refl _)
  | filterShift _ _ => exact execFilterShift_after _ _ _ (.refl _)
  | fcStop _ => exact execFcStop_after _ _ (.refl _)
  | fcStopComplete _ => exact execFcStopComplete_after _ _ (.refl _)
  | fcStart _ => exact execFcStart_after _ _ (.refl _)
  | fcRunStart _ => exact execFcRunStart_after _ _ (.refl _)
  | coefdataRead _ => exact execCoefdataRead_after _ _ (.refl _)
  | coefdataWrite _ _ => exact execCoefdataWrite_after _ _ _ (.refl _)
  | delayWrite _ _ _ => exact execDelayWrite_after _ _ _ _ (.refl _)
  | resampleCutoff _ => exact execResampleCutoff_after _ _ (.refl _)
  | sourceLost _ _ => exact execSourceLost_after _ _ _ (.refl _)
  | ingressArrival _ _ => exact execIngressArrival_after _ _ _ (.refl _)
  | measurementPartWrite _ => exact execMeasurementPartWrite_after _ _ (.refl _)
  | feederEvaluationComplete _ => exact execFeederEvaluationComplete_after _ _ (.refl _)
  | missRunInvalid _ => exact execMissRunInvalid_after _ _ (.refl _)
  | elementDelayExpiry _ => exact execElementDelayExpiry_after _ _ (.refl _)
  | definiteResetExpiry _ _ _ => exact execDefiniteResetExpiry_after _ _ _ _ (.refl _)
  | integratorFull _ _ _ => exact execIntegratorFull_after _ _ _ _ (.refl _)
  | saturationFlagClear _ _ => exact execSaturationFlagClear_after _ _ _ (.refl _)
  | blockHoldExpiry _ _ => exact execBlockHoldExpiry_after _ _ _ (.refl _)
  | memoryExpiry _ _ => exact execMemoryExpiry_after _ _ _ (.refl _)
  | crossBlockHoldExpiry _ _ => exact execCrossBlockHoldExpiry_after _ _ _ (.refl _)
  | retripDelay _ _ => exact execRetripDelay_after _ _ _ (.refl _)
  | backtripDelay _ _ => exact execBacktripDelay_after _ _ _ (.refl _)
  | minimumPulseExpiry _ _ _ => exact execMinimumPulseExpiry_after _ _ _ _ (.refl _)
  | currentCheckSampleClear _ _ => exact execCurrentCheckSampleClear_after _ _ _ (.refl _)
  | faultLocatorCapture _ _ => exact execFaultLocatorCapture_after _ _ _ (.refl _)
  | sectionEvaluationComplete _ => exact execSectionEvaluationComplete_after _ _ (.refl _)
  | contributionCutoff _ => exact execContributionCutoff_after _ _ (.refl _)
  | lateContribution _ => exact execLateContribution_after _ _ (.refl _)
  | bdAlarmDelay _ => exact execBdAlarmDelay_after _ _ (.refl _)
  | afOpHoldExpiry _ _ => exact execAfOpHoldExpiry_after _ _ _ (.refl _)
  | lightWithoutCurrent _ _ => exact execLightWithoutCurrent_after _ _ _ (.refl _)
  | rotreq _ _ => exact execRotreq_after _ _ _ (.refl _)
  | masterHandover _ => exact execMasterHandover_after _ _ (.refl _)
  | plyRound _ => exact execPlyRound_after _ _ (.refl _)
  | commitGrant => exact execCommitGrant_after _ (.refl _)
  | nop _ => exact execNop_after _ _ (.refl _)
  | ld _ _ => exact execLd_after _ _ _ (.refl _)
  | and _ _ => exact execAnd_after _ _ _ (.refl _)
  | or _ _ => exact execOr_after _ _ _ (.refl _)
  | xor _ _ => exact execXor_after _ _ _ (.refl _)
  | not _ => exact execNot_after _ _ (.refl _)
  | push _ => exact execPush_after _ _ (.refl _)
  | andp _ => exact execAndp_after _ _ (.refl _)
  | orp _ => exact execOrp_after _ _ (.refl _)
  | st _ _ => exact execSt_after _ _ _ (.refl _)
  | set _ _ => exact execSet_after _ _ _ (.refl _)
  | rst _ _ => exact execRst_after _ _ _ (.refl _)
  | re _ _ => exact execRe_after _ _ _ (.refl _)
  | fe _ _ => exact execFe_after _ _ _ (.refl _)
  | ton _ _ => exact execTon_after _ _ _ (.refl _)
  | tof _ _ => exact execTof_after _ _ _ (.refl _)
  | tp _ _ => exact execTp_after _ _ _ (.refl _)
  | tona _ _ => exact execTona_after _ _ _ (.refl _)
  | tofa _ _ => exact execTofa_after _ _ _ (.refl _)
  | ctu _ _ => exact execCtu_after _ _ _ (.refl _)
  | ctd _ _ => exact execCtd_after _ _ _ (.refl _)
  | crst _ _ => exact execCrst_after _ _ _ (.refl _)
  | lde _ _ _ => exact execLde_after _ _ _ _ (.refl _)
  | lda _ _ => exact execLda_after _ _ _ (.refl _)
  | ldk _ _ _ => exact execLdk_after _ _ _ _ (.refl _)
  | sta _ _ => exact execSta_after _ _ _ (.refl _)
  | add _ _ => exact execAdd_after _ _ _ (.refl _)
  | sub _ _ => exact execSub_after _ _ _ (.refl _)
  | cmp _ _ => exact execCmp_after _ _ _ (.refl _)
  | jmp _ _ => exact execJmp_after _ _ _ (.refl _)
  | jc _ _ _ => exact execJc_after _ _ _ _ (.refl _)
  | end_ _ => exact execEnd_after _ _ (.refl _)
  | scanOverrun _ => exact execScanOverrun_after _ _ (.refl _)
  | warmRestart _ => exact execWarmRestart_after _ _ (.refl _)
  | coldRestart _ => exact execColdRestart_after _ _ (.refl _)
  | lcStop _ => exact execLcStop_after _ _ (.refl _)
  | apply => exact execApply_after _ (.refl _)
  | release => exact execRelease_after _ (.refl _)
  | relall => exact execRelall_after _ (.refl _)
  | refreshPeriod _ => exact execRefreshPeriod_after _ _ (.refl _)
  | laneFrameStart _ => exact execLaneFrameStart_after _ _ (.refl _)
  | refreshFrame _ _ _ _ => exact execRefreshFrame_after _ _ _ _ _ (.refl _)
  | changeFrame _ _ _ _ => exact execChangeFrame_after _ _ _ _ _ (.refl _)
  | tripFrame _ _ _ _ => exact execTripFrame_after _ _ _ _ _ (.refl _)
  | enumerateFrame _ _ _ _ _ => exact execEnumerateFrame_after _ _ _ _ _ _ (.refl _)
  | configurationWriteFrame _ _ _ _ => exact execConfigurationWriteFrame_after _ _ _ _ _ (.refl _)
  | configurationReadFrame _ _ _ _ => exact execConfigurationReadFrame_after _ _ _ _ _ (.refl _)
  | statusUpFrame lane pos u => exact execStatusUpFrame_after lane pos u _ (.refl _)
  | configurationResponse _ _ _ => exact execConfigurationResponse_after _ _ _ _ (.refl _)
  | partnerDownFrame _ _ => exact execPartnerDownFrame_after _ _ _ (.refl _)
  | claimAgeOut _ _ _ => exact execClaimAgeOut_after _ _ _ _ (.refl _)
  | safeStateTimeout _ _ => exact execSafeStateTimeout_after _ _ _ (.refl _)
  | crossingWord _ _ _ _ => exact execCrossingWord_after _ _ _ _ _ (.refl _)
  | crossingLoss _ _ _ => exact execCrossingLoss_after _ _ _ _ (.refl _)
  | outputOvercurrent _ _ _ => exact execOutputOvercurrent_after _ _ _ _ (.refl _)
  | inputDebounce _ _ _ => exact execInputDebounce_after _ _ _ _ (.refl _)
  | tilePowerUp _ _ _ => exact execTilePowerUp_after _ _ _ _ (.refl _)
  | tilePowerLoss _ _ => exact execTilePowerLoss_after _ _ _ (.refl _)
  | minimumOnTimeExpiry _ _ _ => exact execMinimumOnTimeExpiry_after _ _ _ _ (.refl _)
  | readbackMismatch _ _ => exact execReadbackMismatch_after _ _ _ (.refl _)
  | tileLost _ _ => exact execTileLost_after _ _ _ (.refl _)
  | enum _ => exact execEnum_after _ _ (.refl _)
  | conf _ => exact execConf_after _ _ (.refl _)
  | lnStart _ => exact execLnStart_after _ _ (.refl _)
  | lnStop _ => exact execLnStop_after _ _ (.refl _)
  | retrain _ => exact execRetrain_after _ _ (.refl _)
  | laneStartTimeout _ => exact execLaneStartTimeout_after _ _ (.refl _)
  | laneStopComplete _ => exact execLaneStopComplete_after _ _ (.refl _)
  | signalDetectChange _ _ => exact execSignalDetectChange_after _ _ _ (.refl _)
  | cdrLock _ _ => exact execCdrLock_after _ _ _ (.refl _)
  | cdrUnlock _ => exact execCdrUnlock_after _ _ (.refl _)
  | linkUp _ => exact execLinkUp_after _ _ (.refl _)
  | linkDown _ => exact execLinkDown_after _ _ (.refl _)
  | adaptationUpdate _ _ _ _ => exact execAdaptationUpdate_after _ _ _ _ _ (.refl _)
  | ctleDfeWrite _ _ _ => exact execCtleDfeWrite_after _ _ _ _ (.refl _)
  | prbsctrlWrite _ _ => exact execPrbsctrlWrite_after _ _ _ (.refl _)
  | checkerLock _ => exact execCheckerLock_after _ _ (.refl _)
  | checkerLoss _ _ => exact execCheckerLoss_after _ _ _ (.refl _)
  | injWrite _ _ => exact execInjWrite_after _ _ _ (.refl _)
  | digest _ => exact execDigest_after _ _ (.refl _)
  | contestResult _ => exact execContestResult_after _ _ (.refl _)
  | castlingRequest _ => exact execCastlingRequest_after _ _ (.refl _)
  | castlingAnswer _ => exact execCastlingAnswer_after _ _ (.refl _)
  | standbyDataFeed _ _ _ => exact execStandbyDataFeed_after _ _ _ _ (.refl _)
  | svFrame _ _ => exact execSvFrame_after _ _ _ (.refl _)
  | gooseMessage _ _ => exact execGooseMessage_after _ _ _ (.refl _)
  | gooseRepetition _ => exact execGooseRepetition_after _ _ (.refl _)
  | timeAllowedToLiveExpiry _ => exact execTimeAllowedToLiveExpiry_after _ _ (.refl _)
  | reservationWindow _ => exact execReservationWindow_after _ _ (.refl _)
  | timeLaunch _ => exact execTimeLaunch_after _ _ (.refl _)
  | ethernetTransmit _ => exact execEthernetTransmit_after _ _ (.refl _)
  | svPublication _ _ => exact execSvPublication_after _ _ _ (.refl _)
  | sync _ _ => exact execSync_after _ _ _ (.refl _)
  | followUp _ _ => exact execFollowUp_after _ _ _ (.refl _)
  | pdelayReq _ _ => exact execPdelayReq_after _ _ _ (.refl _)
  | pdelayResp _ _ => exact execPdelayResp_after _ _ _ (.refl _)
  | pdelayRespFollowUp _ _ _ => exact execPdelayRespFollowUp_after _ _ _ _ (.refl _)
  | announce _ _ _ => exact execAnnounce_after _ _ _ _ (.refl _)
  | ptpMessageInterval _ => exact execPtpMessageInterval_after _ _ (.refl _)
  | timeBaseStep _ => exact execTimeBaseStep_after _ _ (.refl _)
  | enable _ => exact execEnable_after _ _ (.refl _)
  | disable _ => exact execDisable_after _ _ (.refl _)
  | tbStepWrite _ _ => exact execTbStepWrite_after _ _ _ (.refl _)
  | tbRateWrite _ _ => exact execTbRateWrite_after _ _ _ (.refl _)
  | tbPpsatWrite _ _ => exact execTbPpsatWrite_after _ _ _ (.refl _)
  | holdoverExpiry _ => exact execHoldoverExpiry_after _ _ (.refl _)
  | holdoverFlag _ => exact execHoldoverFlag_after _ _ (.refl _)
  | ppsInputEdge _ _ _ => exact execPpsInputEdge_after _ _ _ _ (.refl _)
  | ppsOutputRise _ => exact execPpsOutputRise_after _ _ (.refl _)
  | ppsOutputFall _ => exact execPpsOutputFall_after _ _ (.refl _)
  | basePairWrite _ _ _ => exact execBasePairWrite_after _ _ _ _ (.refl _)
  | basensRead _ => exact execBasensRead_after _ _ (.refl _)
  | tsqheadRead _ => exact execTsqheadRead_after _ _ (.refl _)
  | roleYield _ => exact execRoleYield_after _ _ (.refl _)
  | ringBreakService _ => exact execRingBreakService_after _ _ (.refl _)
  | ringServiceEnd _ => exact execRingServiceEnd_after _ _ (.refl _)
  | standbyFeedMissing _ => exact execStandbyFeedMissing_after _ _ (.refl _)
  | selfTestComplete _ => exact execSelfTestComplete_after _ _ (.refl _)
  | contestOutcome => exact execContestOutcome_after _ (.refl _)
  | demoteCheck => exact execDemoteCheck_after _ (.refl _)
  | demoteInFall => exact execDemoteInFall_after _ (.refl _)
  | demoteHeld => exact execDemoteHeld_after _ (.refl _)
  | pairOkLow => exact execPairOkLow_after _ (.refl _)
  | clrfail => exact execClrfail_after _ (.refl _)
  | clrdemote => exact execClrdemote_after _ (.refl _)
  | castle => exact execCastle_after _ (.refl _)
  | castlingAnswerTimeout => exact execCastlingAnswerTimeout_after _ (.refl _)
  | castlingSwitch => exact execCastlingSwitch_after _ (.refl _)
  | castlingEnd => exact execCastlingEnd_after _ (.refl _)
  | mantrig _ => exact execMantrig_after _ _ (.refl _)
  | drAck _ => exact execDrAck_after _ _ (.refl _)
  | logStageComplete _ _ => exact execLogStageComplete_after _ _ _ (.refl _)
  | sectorEraseComplete => exact execSectorEraseComplete_after _ (.refl _)
  | repeatWindowExpiry _ => exact execRepeatWindowExpiry_after _ _ (.refl _)
  | correlationRecord => exact execCorrelationRecord_after _ (.refl _)
  | freeze => exact execFreeze_after _ (.refl _)
  | thaw => exact execThaw_after _ (.refl _)
  | freezeExpiry => exact execFreezeExpiry_after _ (.refl _)
  | erasearm => exact execErasearm_after _ (.refl _)
  | erase => exact execErase_after _ (.refl _)
  | eraseArmExpiry => exact execEraseArmExpiry_after _ (.refl _)
  | rtclRead => exact execRtclRead_after _ (.refl _)
  | rtclWrite _ => exact execRtclWrite_after _ _ (.refl _)
  | rtchWrite _ => exact execRtchWrite_after _ _ (.refl _)
  | optlRead => exact execOptlRead_after _ (.refl _)
  | ckStart _ => exact execCkStart_after _ _ (.refl _)
  | ckStartCont _ => exact execCkStartCont_after _ _ (.refl _)
  | ckPause _ => exact execCkPause_after _ _ (.refl _)
  | ckAbort _ => exact execCkAbort_after _ _ (.refl _)
  | ckJobComplete _ _ => exact execCkJobComplete_after _ _ _ (.refl _)
  | packageCheckComplete _ => exact execPackageCheckComplete_after _ _ (.refl _)
  | devChgabort => exact execDevChgabort_after _ (.refl _)
  | bankCommit => exact execBankCommit_after _ (.refl _)
  | evac _ => exact execEvac_after _ _ (.refl _)
  | return_ _ => exact execReturn_after _ _ (.refl _)
  | feederMigration _ => exact execFeederMigration_after _ _ (.refl _)
  | engineSelfTestComplete _ _ => exact execEngineSelfTestComplete_after _ _ _ (.refl _)
  | microcodeLoadComplete _ => exact execMicrocodeLoadComplete_after _ _ (.refl _)
  | dynamicEntryExpiry _ => exact execDynamicEntryExpiry_after _ _ (.refl _)
  | arpRequest _ _ => exact execArpRequest_after _ _ _ (.refl _)
  | page _ => exact execPage_after _ _ (.refl _)
  | logread _ => exact execLogread_after _ _ (.refl _)
  | drlist _ => exact execDrlist_after _ _ (.refl _)
  | drexport _ _ => exact execDrexport_after _ _ _ (.refl _)
  | drack _ => exact execDrack_after _ _ (.refl _)
  | chgbegin _ => exact execChgbegin_after _ _ (.refl _)
  | chgdata _ => exact execChgdata_after _ _ (.refl _)
  | chgend _ => exact execChgend_after _ _ (.refl _)
  | chgstat _ => exact execChgstat_after _ _ (.refl _)
  | chgabort _ => exact execChgabort_after _ _ (.refl _)
  | changeSessionTimeout => exact execChangeSessionTimeout_after _ (.refl _)
  | snEpochRead _ => exact execSnEpochRead_after _ _ (.refl _)
  | latchExpiry _ => exact execLatchExpiry_after _ _ (.refl _)
  | coherentCut => exact execCoherentCut_after _ (.refl _)
  | writeFrame _ => exact execWriteFrame_after _ _ (.refl _)
  | readFrame _ => exact execReadFrame_after _ _ (.refl _)
  | statusCommand => exact execStatusCommand_after _ (.refl _)
  | nvmRead _ => exact execNvmRead_after _ _ (.refl _)
  | nvmProgram _ => exact execNvmProgram_after _ _ (.refl _)
  | eraseSector _ => exact execEraseSector_after _ _ (.refl _)
  | nvmCommandComplete _ _ => exact execNvmCommandComplete_after _ _ _ (.refl _)
  | registerWrite _ _ => exact execRegisterWrite_after _ _ _ (.refl _)
  | rcRead _ => exact execRcRead_after _ _ (.refl _)
  | jtagReset => exact execJtagReset_after _ (.refl _)
  | referenceReturn _ => exact execReferenceReturn_after _ _ (.refl _)
  | fieldSupplyChange _ _ _ => exact execFieldSupplyChange_after _ _ _ _ (.refl _)
  | demoteInRise => exact execDemoteInRise_after _ (.refl _)
  | demotePulseEnd => exact execDemotePulseEnd_after _ (.refl _)
  | announceReceiptTimeout _ => exact execAnnounceReceiptTimeout_after _ _ (.refl _)
  | signaling _ _ => exact execSignaling_after _ _ _ (.refl _)
  | ptpManagement _ _ => exact execPtpManagement_after _ _ _ (.refl _)
  | unknownRequest _ => exact execUnknownRequest_after _ _ (.refl _)
  | frameOfNoKind _ _ _ => exact execFrameOfNoKind_after _ _ _ _ (.refl _)
  | calibrationEraseComplete _ => exact execCalibrationEraseComplete_after _ _ (.refl _)
  | saveSlotEraseComplete => exact execSaveSlotEraseComplete_after _ (.refl _)

/-- What the architect's `State.Keeps` says of two states. -/
theorem Kept.After.keeps {r s : State} (h : r.kept.After s.kept) : r.Keeps s :=
  ⟨h.pending, h.now, h.free, fun ⟨hc, he, hb, hp⟩ =>
    have ⟨hc', he', hb', hp'⟩ := h.stores ⟨hc, he, hb, hp⟩
    ⟨hc', he', hb', hp'⟩⟩

/-- Settles O58: a step on an empty queue lets one clock pass; any other runs the front command on the state with the queue's rest,
and each command leads to what may come after. -/
theorem everyStepKeepsTheStores : Obligations.EveryStepKeepsTheStores := by
  unfold Obligations.EveryStepKeepsTheStores
  intro s t h
  unfold step at h
  split at h
  next hq =>
    cases h
    exact ⟨fun ⟨hc, he, hb, hp⟩ => ⟨hc, he, hb, hp⟩, by simp [hq], Nat.le_succ _, Nat.le_refl _⟩
  next c rest hq =>
    obtain ⟨hpending, hnow, hfree, hstores⟩ := (exec_after c { s with pending := rest } t h).keeps
    exact ⟨fun ⟨hc, he, hb, hp⟩ => hstores ⟨hc, he, hb, hp⟩, by rw [hpending, hq, List.tail_cons], hnow, hfree⟩

end Sys2Proof.Machine
end
